-- ==== Sys2Proof/Word.lean ====
section
/-! DEFINITION. The machine's word types (R1, R36) and nothing else: bytes, 32-bit words, 64-bit values, lane masks. -/
namespace Sys2Proof

/-- A byte of memory. -/
abbrev Byte := BitVec 8
/-- An instruction word, and the width of every v- and s-register (R36, R104). -/
abbrev Word := BitVec 32
/-- A 64-bit value or a generic address (R172). -/
abbrev DWord := BitVec 64
/-- One bit per lane of a group (R11). -/
abbrev Mask := BitVec 32
/-- An ACC96 encoding (R83). -/
abbrev Acc := BitVec 96

/-- A finite map kept as a list in rising key order, with no entry equal to the map's default. -/
abbrev FMap (β : Type) := List (Nat × β)

end Sys2Proof
end

