-- ==== Sys2Proof/Config.lean ====
section
/-! DEFINITION. What an implementation fixes and the spec leaves open, as constants without a body: nothing in Lean can evaluate
one or prove a value of it. -/
namespace Sys2Proof

/-- Which neighbour a faithful function returns (R156): by opcode, TYPE code and operand; true for the one of larger magnitude. -/
opaque Config.faithful (op : Nat) (ty : Nat) (x : Nat) : Bool

/-- The i-th free byte of a range of memory whose contents the spec calls undefined; `seed` is the counter value the range was
given when it became undefined (R175, R220, R223). -/
opaque Config.freeByte (seed : Nat) (i : Nat) : BitVec 8

/-- A free 32-bit value, by a counter the step reads and advances. -/
opaque Config.freeWord (n : Nat) : BitVec 32

/-- The secret half of the part's identity key (R424), 32 bytes with the first in the least significant place. It never leaves the part. -/
opaque Config.identitySeed : BitVec 256

/-- What is fused into the part or fixed by its image format (R423): the signing key's digest, the minimum version, the magic value. -/
opaque Config.signerDigest : BitVec 512
opaque Config.minVersion : BitVec 32
opaque Config.imageMagic : BitVec 32

end Sys2Proof
end

