-- ==== Sys2Proof/Machine/Bits.lean ====
section
/-! DEFINITION. Bit-field, lane-mask, finite-map and list helpers that every chapter's operations use (R1, R6). -/
namespace Sys2Proof.Machine

/-! ### Bits -/

/-- Bits lo + n − 1 to lo of x (R6). -/
def bits {w : Nat} (x : BitVec w) (lo n : Nat) : BitVec n := x.extractLsb' lo n

/-- Bit i of x. -/
def bit {w : Nat} (x : BitVec w) (i : Nat) : Bool := x.getLsbD i

/-- One bit from a condition. -/
def ofBool (b : Bool) : BitVec 1 := BitVec.ofBool b

/-- A 0 or 1 from a condition. -/
def natOf (b : Bool) : Nat := if b then 1 else 0

/-- SignExtend to 64 bits (R103). -/
def sx {w : Nat} (x : BitVec w) : DWord := x.signExtend 64

/-- ZeroExtend to 64 bits (R103). -/
def zx {w : Nat} (x : BitVec w) : DWord := x.setWidth 64

/-- The low 32 bits of a value. -/
def lo32 {w : Nat} (x : BitVec w) : Word := x.setWidth 32

/-- Bits 63:32 of a value. -/
def hi32 (x : DWord) : Word := x.extractLsb' 32 32

/-- Concat(hi, lo) of two words (R6). -/
def cat (hi lo : Word) : DWord := hi ++ lo

/-- RotateRight of a 32-bit value (R103). -/
def rotr (x : Word) (n : Nat) : Word := x.rotateRight (n % 32)

/-- The number of set bits. -/
def popc {w : Nat} (x : BitVec w) : Nat := (List.range w).foldl (fun n i => if bit x i then n + 1 else n) 0

/-- The index of the lowest set bit, or w when x is zero. -/
def ffs {w : Nat} (x : BitVec w) : Nat := ((List.range w).find? (fun i => bit x i)).getD w

/-- The number of zero bits above the highest set bit. -/
def clz {w : Nat} (x : BitVec w) : Nat := ((List.range w).find? (fun i => bit x (w - 1 - i))).getD w

/-- The bits of x in reverse order. -/
def brev {w : Nat} (x : BitVec w) : BitVec w := BitVec.ofNat w ((List.range w).foldl (fun n i => 2 * n + natOf (bit x i)) 0)

/-- A value whose bit i is f i. -/
def bitsOf (w : Nat) (f : Nat → Bool) : BitVec w :=
  BitVec.ofNat w ((List.range w).foldl (fun n i => if f i then n + 2 ^ i else n) 0)

/-- x with bit i set to b. -/
def setBit {w : Nat} (x : BitVec w) (i : Nat) (b : Bool) : BitVec w :=
  if b then x ||| BitVec.ofNat w (2 ^ i) else x &&& ~~~(BitVec.ofNat w (2 ^ i))

/-- A truth table's entry for three bits, the first of them least significant (R135, R146). -/
def lutBit (t : BitVec 8) (a b c : Bool) : Bool := bit t (natOf a + 2 * natOf b + 4 * natOf c)

/-- Division rounded up. -/
def ceilDiv (a b : Nat) : Nat := (a + b - 1) / b

/-- x is a multiple of n. -/
def aligned (x n : Nat) : Bool := x % n == 0

/-! ### Lanes (R11) -/

/-- Every lane. -/
def allLanes : Mask := 0xFFFFFFFF#32

/-- The lanes of a mask in ascending index. -/
def lanes (m : Mask) : List Nat := (List.range 32).filter (fun l => bit m l)

/-- The mask of the lanes for which f holds. -/
def maskOf (f : Nat → Bool) : Mask := bitsOf 32 f

/-- The mask of a list of lanes. -/
def maskOfList (ls : List Nat) : Mask := maskOf (fun l => ls.contains l)

/-- The lowest lane of a mask; 0 when it is empty. -/
def lowLane (m : Mask) : Nat := (lanes m).headD 0

/-! ### Finite maps: rising keys, no entry equal to the default -/

/-- The value a map lists for a key. -/
def ffind {β : Type} : FMap β → Nat → Option β
  | [], _ => none
  | (i, v) :: m, k => if i == k then some v else ffind m k

/-- The value at a key, the default where none is listed. -/
def fget {β : Type} (m : FMap β) (k : Nat) (d : β) : β := (ffind m k).getD d

/-- The map with the key's entry replaced or inserted in order. -/
def fput {β : Type} : FMap β → Nat → β → FMap β
  | [], k, v => [(k, v)]
  | (i, u) :: m, k, v => if k < i then (k, v) :: (i, u) :: m else if k = i then (k, v) :: m else (i, u) :: fput m k v

/-- The map without the key's entry. -/
def fdel {β : Type} (m : FMap β) (k : Nat) : FMap β := m.filter (fun x => x.1 != k)

/-- The map with a value at a key, the entry dropped when the value is the default. -/
def fset {β : Type} [DecidableEq β] (m : FMap β) (k : Nat) (d v : β) : FMap β := if v = d then fdel m k else fput m k v

/-- Keys rise strictly from above `lo`, and no value is the default: the canonical form. -/
def fwfFrom {β : Type} [DecidableEq β] (d : β) : Nat → FMap β → Bool
  | _, [] => true
  | lo, (k, v) :: m => decide (lo ≤ k) && decide (v ≠ d) && fwfFrom d (k + 1) m

/-- The canonical form of a map. -/
def fwf {β : Type} [DecidableEq β] (d : β) (m : FMap β) : Bool := fwfFrom d 0 m

/-! ### Lists -/

/-- The list with every element that f accepts replaced by g of it. -/
def mapIf {α : Type} (f : α → Bool) (g : α → α) (l : List α) : List α := l.map (fun x => if f x then g x else x)

/-- The first value in a list that a function accepts. -/
def firstSome {α β : Type} (f : α → Option β) : List α → Option β
  | [] => none
  | x :: l => match f x with
    | some y => some y
    | none => firstSome f l

/-- The least of a non-empty list by a key; earlier elements win ties. -/
def minBy {α : Type} (key : α → Nat) : List α → Option α
  | [] => none
  | x :: l => match minBy key l with
    | none => some x
    | some y => if key x ≤ key y then some x else some y

/-- Insertion into a list sorted by a relation. -/
def insertBy {α : Type} (le : α → α → Bool) (x : α) : List α → List α
  | [] => [x]
  | y :: l => if le x y then x :: y :: l else y :: insertBy le x l

/-- A list sorted by a relation; equal elements keep their order. -/
def sortBy {α : Type} (le : α → α → Bool) : List α → List α
  | [] => []
  | x :: l => insertBy le x (sortBy le l)

/-- A list without repeated elements, in its first occurrences' order. -/
def dedup {α : Type} [BEq α] (l : List α) : List α := l.foldl (fun acc x => if acc.contains x then acc else acc ++ [x]) []

/-- The elements at even or odd places zipped into pairs. -/
def pairUp {α : Type} : List α → List (α × α)
  | x :: y :: l => (x, y) :: pairUp l
  | _ => []

/-- The n consecutive numbers from lo. -/
def rangeFrom (lo n : Nat) : List Nat := (List.range n).map (fun i => lo + i)

/-! ### Bytes (R1: little-endian) -/

/-- The little-endian value of a list of bytes. -/
def leVal : List Byte → Nat
  | [] => 0
  | b :: l => b.toNat + 256 * leVal l

/-- The n little-endian bytes of a value. -/
def leBytes (n : Nat) (v : Nat) : List Byte := (List.range n).map (fun i => BitVec.ofNat 8 (v / 256 ^ i))

/-- The word at a byte offset of a list of bytes, zero beyond its end. -/
def wordAt (l : List Byte) (off : Nat) : Word := BitVec.ofNat 32 (leVal ((l.drop off).take 4))

/-- The 64-bit value at a byte offset of a list of bytes. -/
def dwordAt (l : List Byte) (off : Nat) : DWord := BitVec.ofNat 64 (leVal ((l.drop off).take 8))

/-- The words of a list of bytes. -/
def wordsOf (l : List Byte) : List Word := (List.range (l.length / 4)).map (fun i => wordAt l (4 * i))

/-- The bytes of a list of words. -/
def bytesOf (l : List Word) : List Byte := l.flatMap (fun w => leBytes 4 w.toNat)

end Sys2Proof.Machine
end

