-- ==== Sys2Proof/Syntax.lean ====
section
/-! DEFINITION. The instruction words' fields (R36 to R46, and each engine chapter's word 2) and `Instr`, the one inductive
with one constructor per row of spec/opcode_table.json: every instruction form, and every event of the machine. -/
namespace Sys2Proof

/-- TYPE codes of R41. -/
inductive Ty where
  | i32 | n32 | i64 | n64 | i16 | n16 | i8 | n8 | f32 | f64 | f16 | bf16 | e4m3 | e5m2 | e2m1 | e8m0
  deriving DecidableEq, Repr

/-- The fields of a one-word instruction (R36, R45): B, A and the stall count. -/
structure F1 where
  b : BitVec 9
  a : BitVec 9
  st : BitVec 4
  deriving DecidableEq, Repr

/-- The fields of words 0 and 1 of a three- or five-word instruction (R36, R39), but for OP and LEN. -/
structure Hd where
  b : BitVec 9
  a : BitVec 9
  st : BitVec 4
  mod : BitVec 6
  hold : BitVec 2
  guard : BitVec 4
  d : BitVec 9
  c : BitVec 9
  deriving DecidableEq, Repr

/-- Word 2 as R40 gives it. -/
structure WAlu where
  ty : Ty
  rnd : BitVec 3
  sat : Bool
  imm : Bool
  ub : Bool
  imm20 : BitVec 20
  deriving DecidableEq, Repr

/-- Word 2 as R134 gives it. -/
structure WOff where
  off : BitVec 20
  deriving DecidableEq, Repr

/-- Word 2 as R124 gives it. -/
structure WWait where
  kind : BitVec 2
  slot : BitVec 10
  cls : BitVec 3
  thresh : BitVec 8
  cl : Bool
  cpos : BitVec 4
  deriving DecidableEq, Repr

/-- Word 2 as R134 gives it. -/
structure WTrap where
  cause : BitVec 12
  deriving DecidableEq, Repr

/-- Word 2 as R135, R137 gives it. -/
structure WLut where
  lut : BitVec 8
  deriving DecidableEq, Repr

/-- Word 2 as R146 gives it. -/
structure WLop3 where
  ty : Ty
  imm : Bool
  ub : Bool
  lut : BitVec 8
  deriving DecidableEq, Repr

/-- Word 2 as R137, R169 gives it. -/
structure WTy where
  ty : Ty
  deriving DecidableEq, Repr

/-- Word 2 as R137 gives it. -/
structure WVtos where
  ty : Ty
  lane : BitVec 5
  deriving DecidableEq, Repr

/-- Word 2 as R138 gives it. -/
structure WSldk where
  ty : Ty
  off : BitVec 20
  deriving DecidableEq, Repr

/-- Word 2 as R140, R408, R409 gives it. -/
structure WNib where
  n : BitVec 4
  deriving DecidableEq, Repr

/-- Word 2 as R158 gives it. -/
structure WCvt where
  ty : Ty
  rnd : BitVec 3
  sat : Bool
  sty : Ty
  deriving DecidableEq, Repr

/-- Word 2 as R164 gives it. -/
structure WShfl where
  ty : Ty
  mode : BitVec 3
  imm : Bool
  imm20 : BitVec 20
  deriving DecidableEq, Repr

/-- Word 2 as R166 gives it. -/
structure WVote where
  mode : BitVec 3
  deriving DecidableEq, Repr

/-- Word 2 as R168 gives it. -/
structure WRedux where
  ty : Ty
  rnd : BitVec 3
  lead : Bool
  width : BitVec 3
  deriving DecidableEq, Repr

/-- Word 2 as R56 gives it. -/
structure WPair where
  op0lo : Bool
  op1 : BitVec 7
  a1 : BitVec 9
  b1 : BitVec 9
  deriving DecidableEq, Repr

/-- Word 2 as R188 gives it. -/
structure WMem where
  size : BitVec 4
  scope : BitVec 3
  ub : Bool
  off : BitVec 20
  deriving DecidableEq, Repr

/-- Word 2 as R191 gives it. -/
structure WAtom where
  ty : Ty
  scope : BitVec 3
  order : BitVec 2
  ub : Bool
  off : BitVec 20
  deriving DecidableEq, Repr

/-- Word 2 as R192 gives it. -/
structure WFence where
  kind : BitVec 2
  scope : BitVec 3
  deriving DecidableEq, Repr

/-- Word 2 as R194, R195 gives it. -/
structure WStash where
  win : BitVec 4
  flag : Bool
  deriving DecidableEq, Repr

/-- Word 2 as R228 gives it. -/
structure WHint where
  kind : BitVec 2
  prio : BitVec 3
  deriving DecidableEq, Repr

/-- Word 2 as R242 gives it. -/
structure WSlot where
  slot : BitVec 10
  cl : Bool
  cpos : BitVec 4
  deriving DecidableEq, Repr

/-- Word 2 as R254 gives it. -/
structure WCpy where
  slot : BitVec 10
  cl : Bool
  cpos : BitVec 4
  scope : BitVec 3
  rep : Bool
  cbit : BitVec 9
  deriving DecidableEq, Repr

/-- Word 2 as R269 gives it. -/
structure WPfx where
  slot : BitVec 10
  cl : Bool
  cpos : BitVec 4
  prio : BitVec 3
  nb : Bool
  pg : Bool
  deriving DecidableEq, Repr

/-- Word 2 as R283 gives it. -/
structure WAp where
  snum : BitVec 2
  size : BitVec 4
  deriving DecidableEq, Repr

/-- Word 2 as R278 gives it. -/
structure WAg where
  size : BitVec 4
  scope : BitVec 3
  sent : Bool
  split : Bool
  okp : BitVec 3
  slot : BitVec 10
  cl : Bool
  cpos : BitVec 4
  rep : Bool
  deriving DecidableEq, Repr

/-- Word 2 as R311 gives it. -/
structure WMma where
  aty : Ty
  bty : Ty
  pat : BitVec 2
  deriving DecidableEq, Repr

/-- Word 2 as R315 gives it. -/
structure WAcc where
  ty : Ty
  rnd : BitVec 3
  sat : Bool
  wide : Bool
  deriving DecidableEq, Repr

/-- Word 2 as R318 gives it. -/
structure WAccst where
  ty : Ty
  rnd : BitVec 3
  sat : Bool
  wide : Bool
  pad : Bool
  scope : BitVec 3
  slot : BitVec 10
  cl : Bool
  cpos : BitVec 4
  rep : Bool
  deriving DecidableEq, Repr

/-- Word 2 as R340 gives it. -/
structure WQ where
  scope : BitVec 3
  rnd : BitVec 3
  strict : Bool
  acc : Bool
  deriving DecidableEq, Repr

/-- Word 2 as R370 gives it. -/
structure WEmit where
  succ : BitVec 4
  rtype : BitVec 4
  deriving DecidableEq, Repr

/-- Word 2 as R373 gives it. -/
structure WFlush where
  succ : BitVec 4
  deriving DecidableEq, Repr

/-- Word 2 as R410 gives it. -/
structure WPodflt where
  sel : BitVec 3
  word : BitVec 5
  deriving DecidableEq, Repr

/-- A Celtor envelope (R384): its header fields and its payload bytes. -/
structure Envelope where
  etype : BitVec 4
  sub : BitVec 8
  rtype : BitVec 4
  podctx : BitVec 16
  tag : Word
  lseq : Word
  home : BitVec 10
  depth : BitVec 5
  node : BitVec 12
  arg0 : Word
  arg1 : Word
  arg2 : DWord
  payload : List Byte
  deriving DecidableEq, Repr

/-- A firmware image: its header and body, and the key it is signed with (R423). -/
structure Image where
  magic : Word
  version : Word
  len : Nat
  digest : BitVec 512
  sig : BitVec 512
  key : BitVec 256
  body : List Byte
  deriving DecidableEq, Repr

/-- What a UALink message from a peer asks of this package's memory (R380): read, write, or an atomic of R191 by OP and type. -/
inductive PeerKind where
  | read
  | write
  | atomic (op : BitVec 3) (ty : Ty)
  deriving DecidableEq, Repr

/-- A UALink access by physical address from package `src`: a read of `bytes` bytes, a write of `data`, an atomic with the operands b and c. -/
structure PeerAcc where
  src : Nat
  kind : PeerKind
  pa : DWord
  bytes : Nat
  data : List Byte
  b : DWord
  c : DWord
  deriving DecidableEq, Repr

/-- One constructor per row of spec/opcode_table.json. An instruction carries its fields; an event carries what the world
outside, or the engine that makes it, chooses: the object it acts on and what comes from outside the package. -/
inductive Instr where
  /-- PCIE_LINK_UP (R412). The host platform brings up the PCIe link, and the Thaos enters stage 0 once Skesunal has verified its firmware. -/
  | pcieLinkUp (images : List Image)
  /-- HOST_RESET (R412). A reset by the host platform returns the package to stage 0. -/
  | hostReset 
  /-- STAGE1_ENTRY (R412). Die 0 and stack 0 finish training, and the package enters stage 1 with launches on die 0 only. -/
  | stage1Entry (err : BitVec 4)
  /-- GO2 (R412). A host write of STARTCTL bit 0 at stage 1, with no context loaded, starts training of every die and stack; it is ignored otherwise. -/
  | go2 
  /-- STAGE2_ENTRY (R412). Every die and stack has passed training, and the package enters stage 2 with the full interleaved memory map. -/
  | stage2Entry (err : BitVec 4)
  /-- GO3 (R412). A host write of STARTCTL bit 1 at stage 2 starts UALink training; it is ignored at stage 3. -/
  | go3 
  /-- STAGE3_ENTRY (R412). UALink ports have trained, PKG is set and the pod root is elected, and the package enters stage 3. -/
  | stage3Entry (ports : BitVec 16) (pkg : BitVec 10) (joined : List Nat)
  /-- POD_ROOT_LEAVES (R394). The pod root's package leaves the pod; a new root is elected, and every live pod-scope launch ends ABORTED with FCODE 0xA050. -/
  | podRootLeaves (joined : List Nat)
  /-- PCEIL_WRITE (R420). A host write of PCEIL changes the highest active power state: the budget falls at once when lowered, and the clocks rise first when raised. -/
  | pceilWrite (v : Word)
  /-- CLOCK_LOWER (R420). After PCEIL is lowered, the clocks fall once the resident charges of every core fit the new budget. -/
  | clockLower 
  /-- IDLE_ENTRY (R420). With no live launch, no halting context and no unconsumed ring record, the package enters the deepest idle state whose exit latency fits LATTOL. -/
  | idleEntry 
  /-- IDLE_EXIT (R420). A wake event ends idle state or idle entry, and the package returns to PCEIL within the exit latency. -/
  | idleExit 
  /-- INVGO (R418). A host write to INVGO runs a TLBINV for INVASID over INVBASE and INVCNT, with BUSY set until it completes. -/
  | invgo 
  /-- MIG_REQUEST (R419). A host write of 1 to MIGCTL requests a move claim for the page of MIGVA in MIGASID. -/
  | migRequest 
  /-- MIG_DONE (R419). A host write of 2 to MIGCTL ends a granted move claim, and MIGCTL reads 0. -/
  | migDone 
  /-- MOVE_CLAIM_GRANT (R224). The map unit grants or answers RETRY to a waiting per-page move claim, in arrival order with the HOME side winning ties. -/
  | moveClaimGrant 
  /-- LOAD (R414). A CTL write with bit 0 checks the context descriptor and either reaches running or is refused with REASON. -/
  | load (page : Nat)
  /-- UNLOAD (R416). A CTL write with bit 1 ends a halted context as TERM would, frees a halted, terminated or refused context's resources and returns the page to STATE 0. -/
  | unload (page : Nat)
  /-- HALT (R31). A CTL write with bit 2 requests pre-emption of the context. -/
  | halt (page : Nat)
  /-- RESUME (R414). A CTL write with bit 3 restores a halted context, and its groups resume at their saved PCs. -/
  | resume (page : Nat)
  /-- TERM (R416). A CTL write with bit 4 terminates the context, ending its live launches before the terminal record. -/
  | term (page : Nat)
  /-- PREEMPTION_SAVE (R32). The context's groups halt at instruction boundaries, its operations stop at restart points, and the whole state is written to the save area. -/
  | preemptionSave (page : Nat)
  /-- QTAIL_WRITE (R415). A host write of QTAIL rings the launch-queue doorbell; a tail beyond QSIZE is ignored and sets QERR. -/
  | qtailWrite (page : Nat) (v : Word)
  /-- HOST_QUEUE_RECORD_CONSUME (R415). The Thaos reads the next host launch record with an acquire, advances QHEAD and gives it the next LSEQ. -/
  | hostQueueRecordConsume (page : Nat)
  /-- FRESP_RESUME (R218). A fault-response doorbell write with ACTION resume marks a part answered, and the group resumes once all its parts are answered. -/
  | frespResume (page : Nat) (seq : Word)
  /-- FRESP_TERMINATE (R218). A fault-response doorbell write with ACTION terminate ends the context, with the answered record's CODE. -/
  | frespTerminate (page : Nat) (seq : Word)
  /-- ATTEST_COMMAND (R424). A host write of 1 at ATTEST + 0x1FC makes Skesunal write the measurement, CAPS, the identity key and a signature over the nonce, and then set 2. -/
  | attestCommand 
  /-- MONITOR_CLR (R421). A write of CLR to a monitor block resets COUNT, MIN, MAX and the bins. -/
  | monitorClr (blk : Nat)
  /-- POWER_SAMPLE_TIMER (R421). Every 2^20 fabric cycles the package power is sampled for monitors of event 0x08. -/
  | powerSampleTimer (watts : Word)
  /-- REGISTER_WRITE (R413). A host write to a BAR0 register with no behaviour of its own replaces the field, or is ignored when unlisted or of the wrong width. -/
  | registerWrite (off : Nat) (bytes : Nat) (v : DWord)
  /-- HOST_APERTURE_ACCESS (R413). A host access through the core-local aperture reads or writes an allocated byte as a weak .sys access, and reads zero or is ignored elsewhere. -/
  | hostApertureAccess (write : Bool) (off : Nat) (bytes : Nat) (v : DWord)
  /-- HOST_MEMORY_ACCESS (R198). A host or CXL agent access to device memory is translated by the I/O die's map unit and performed at .sys. -/
  | hostMemoryAccess (write : Bool) (page : Nat) (va : DWord) (bytes : Nat) (v : DWord)
  /-- SCRUB_PASS (R422). A base-die core scrubs every line of its stack once per 2^36 fabric cycles and reports temperature and errors. -/
  | scrubPass (stack : Nat) (temp : Word) (errs : List Nat)
  /-- ROW_REMAP (R422). A row with 16 corrected errors is copied to a spare row while accesses to it wait. -/
  | rowRemap (stack : Nat) (row : Nat)
  /-- STASH_FILL (R180). The fill of an Invalid stash line translates it, brings its 256 bytes from L2 and makes it Shared or Owned, or faults against the touching lanes. -/
  | stashFill (team : Nat) (win : Nat) (line : Nat)
  /-- STASH_WRITE_BACK (R181). The dirty bytes of an Owned line are merged into the global line at its serialisation point. -/
  | stashWriteBack (team : Nat) (win : Nat) (line : Nat)
  /-- L2_RECALL (R181). The L2 directory recalls a stash line to free its entries, writing it back and making it Invalid. -/
  | l2Recall (team : Nat) (win : Nat) (line : Nat)
  /-- REMOTE_LINE_REQUEST (R179). A remote read, write or ownership request reaches a stash line, which writes back and becomes Shared or Invalid. -/
  | remoteLineRequest (write : Bool) (team : Nat) (win : Nat) (line : Nat)
  /-- LINE_MIGRATION (R186). An L2 line moves to another slice of its package together with its directory state, leaving a forwarding entry. -/
  | lineMigration (line : Nat) (slice : BitVec 7)
  /-- FAULT_RECORD_POST (R217). A fault record held for want of space is written to the queue once space frees, and WR advances with a release. -/
  | faultRecordPost (page : Nat)
  /-- HOT_WINDOW_EXPIRY (R226). A 2^20-cycle window of the hot-page tracker ends, and the per-page counts restart. -/
  | hotWindowExpiry 
  /-- CFILL_SERVICE (R221). Skesunal fills a compressed-fill page from the pool by decompression, installs its leaf and answers the part, or leaves the record to the driver. -/
  | cfillService (page : Nat) (seq : Word)
  /-- PEER_ACCESS (R380). A UALink read, write or atomic from a peer package is performed at the line's serialisation point of the owning package. -/
  | peerAccess (a : PeerAcc)
  /-- ASYNC_FAULT_DELIVERY (R28). A fault met by an accepted asynchronous operation is delivered to the issuing group at its next instruction boundary. -/
  | asyncFaultDelivery (place : Nat)
  /-- OPERATION_RETIRE (R18). An asynchronous operation retires from its counter in issue order and frees its operation slot. -/
  | operationRetire (op : Nat) (cls : Nat)
  /-- YIELD_RESUME (R25). A yield-wait condition holds and the group becomes eligible again at its continuation PC. -/
  | yieldResume (place : Nat)
  /-- REGCLAIM_GRANT (R126). A waiting REGCLAIM finds enough blocks in its quadrant's pool, takes them and zeroes the new registers. -/
  | regclaimGrant (team : Nat) (quad : Nat)
  /-- ENGINE_ARRIVAL (R238). An engine arrival credits bytes or sets a chunk-map bit at a slot, or is discarded when its tag differs from GEN. -/
  | engineArrival (n : Nat)
  /-- BARRIER_WATCHDOG_EXPIRY (R251). A slot's AGE reaches WDCYCLES × 1,024, the diagnostic block is written and the context terminates with BARRIER_TIMEOUT. -/
  | barrierWatchdogExpiry (team : Nat) (slot : Nat)
  /-- COPY_CHUNK_DONE (R259). A copy chunk becomes visible at its scope and makes its arrival at the registered slot. -/
  | copyChunkDone (op : Nat) (chunk : Nat)
  /-- COPY_FAULT (R266). A copy meets a translation fault before a chunk's first write, and either delivers a first touch to the group or hands the remainder to Skesunal with one record. -/
  | copyFault (op : Nat) (chunk : Nat)
  /-- REMAINDER_CHUNK (R266). After the driver's answer, Skesunal reads, decompresses, writes and makes visible one unfinished chunk of a copy. -/
  | remainderChunk (op : Nat)
  /-- PREFETCH_LINE (R270). The copy engine performs the next prefetch line chosen by R271, bringing it into L2 or skipping it with an optional hint record. -/
  | prefetchLine (core : Nat)
  /-- ACCESS_ELEMENT_DONE (R279). An element of a direct access operation or pushed entry is delivered, stored or marked out of bounds and enters DONE. -/
  | accessElementDone (op : Nat) (lane : Nat)
  /-- ACCESS_OPERATION_STOP (R289). Every active lane is done or faulted, and the faulting lanes are sorted into Handler delivery or Park records. -/
  | accessOperationStop (op : Nat)
  /-- STREAM_ENTRY_READY (R284). A gather stream resolves its next positions and an entry becomes ready for APPOP. -/
  | streamEntryReady (team : Nat) (snum : Nat)
  /-- STREAM_FAULT_HOLD (R290). A stream's index or element fault holds its entry and sets STATE to held. -/
  | streamFaultHold (team : Nat) (snum : Nat)
  /-- STREAM_CONTEXT_FREE (R288). A stopped stream with nothing in flight frees its context, and the longest-stalled APSTART takes it. -/
  | streamContextFree (team : Nat) (snum : Nat)
  /-- MMA_SEGMENT_DONE (R313). One K segment of an MMA or MMAS is added to every participating element in one step and PROG advances. -/
  | mmaSegmentDone (op : Nat)
  /-- MATRIX_FAULT (R322). A matrix operation meets a translation fault or memory error and stops at its restart point with its tile stopped. -/
  | matrixFault (op : Nat)
  /-- ACCST_ROW_DONE (R319). One row of an ACCST is written and made visible, with its arrival when REP is 1. -/
  | accstRowDone (op : Nat)
  /-- MZERO_DONE (R314). An accepted MZERO writes +0 to its tile and clears NAN and INF. -/
  | mzeroDone (op : Nat)
  /-- ACCWR_DONE (R317). An accepted ACCWR writes or adds each lane's element into its tile. -/
  | accwrDone (op : Nat)
  /-- ACCRD_DONE (R316). An accepted ACCRD converts each lane's element and writes its registers. -/
  | accrdDone (op : Nat)
  /-- MLD_DONE (R320). An MLD has read its 2,048-byte image and writes the metadata register in one step. -/
  | mldDone (op : Nat)
  /-- QUANT_OP_DONE (R342). The quantiser performs an accepted operation in acceptance order and writes its outputs. -/
  | quantOpDone (op : Nat)
  /-- QUANT_FAULT (R343). A quantiser operation's translation or fill meets a fault before any write, and the operation stops at its start. -/
  | quantFault (op : Nat)
  /-- LAUNCH_START (R351). A launch starts in LSEQ order once every die can hold its queue shares, and its initial records enter the root's queue. -/
  | launchStart (page : Nat) (lseq : Word)
  /-- RESERVATION_GRANT (R353). A waiting queue reservation is granted when space frees, in arrival order. -/
  | reservationGrant (lid : Nat) (node : Nat) (die : Nat)
  /-- TEAM_FORM (R357). A queue segment forms a team from its oldest pending records when a full or partial condition holds. -/
  | teamForm (lid : Nat) (node : Nat) (seg : Nat) (die : Nat)
  /-- TEAM_DISPATCH (R358). A die dispatcher admits a formed team or cluster to a core within its footprint, energy budget and reservations. -/
  | teamDispatch (fid : Nat) (core : Nat)
  /-- QUEUE_OVERFLOW (R363). After 65,536 fabric cycles with every team blocked, spill used up and nothing admissible, the launch raises QUEUE_OVERFLOW and is hard-cancelled. -/
  | queueOverflow (lid : Nat)
  /-- LAUNCH_COMPLETE (R364). A launch with empty queues, no running team, no waiting reservation and complete children writes its completion record and releases GWAIT. -/
  | launchComplete (lid : Nat)
  /-- RECORD_ENVELOPE (R389). A record envelope is taken into its credited reservation, or discarded and acknowledged when its launch is not live. -/
  | recordEnvelope (src : Nat) (e : Envelope)
  /-- ACKNOWLEDGEMENT (R386). An acknowledgement frees the retained envelopes that ACCLO and WIN cover. -/
  | acknowledgement (src : Nat) (e : Envelope)
  /-- CREDIT_REQUEST (R390). A credit request makes the receiver reserve up to 16 records in the target segment, deferring until space frees. -/
  | creditRequest (src : Nat) (e : Envelope)
  /-- CREDIT_GRANT (R390). A credit grant adds credits to the sender's pool, and waiting remote reservations take them. -/
  | creditGrant (src : Nat) (e : Envelope)
  /-- RETRANSMIT_TIMEOUT (R388). RTO × 1,024 cycles pass without acknowledgement and the envelope is sent again, or after NRETRY the destination becomes unreachable. -/
  | retransmitTimeout (dst : Nat) (podctx : BitVec 16) (seq : BitVec 22)
  /-- LAUNCH (R395). A LAUNCH envelope brings a pod-scope launch to the pod root, which gives it the next PSEQ and broadcasts START. -/
  | launch (src : Nat) (e : Envelope)
  /-- START (R396). A START envelope makes a member check the graph and start the launch in PSEQ order. -/
  | start (src : Nat) (e : Envelope)
  /-- STARTED (R395). A STARTED envelope reports a member's acceptance or rejection to the pod root. -/
  | started (src : Nat) (e : Envelope)
  /-- DEAL (R398). A DEAL envelope gives a member a range of the grid to form into teams. -/
  | deal (src : Nat) (e : Envelope)
  /-- RDONE (R398). An RDONE envelope records a range complete at the pod root, which deals range r + 2N in the same step. -/
  | rdone (src : Nat) (e : Envelope)
  /-- FAULT (R401). A FAULT envelope brings a Launch fault to the wave root, and the first one starts a hard cancel. -/
  | fault (src : Nat) (e : Envelope)
  /-- CANCEL (R402). A CANCEL envelope reaches the pod root or a member, which applies a soft or hard cancel to its part. -/
  | cancel (src : Nat) (e : Envelope)
  /-- WAVE (R400). A WAVE envelope makes a member reply with its counts once it is quiescent for the launch. -/
  | wave (src : Nat) (e : Envelope)
  /-- REPLY (R400). A REPLY envelope gives the wave root a member's counts, and the last reply decides completion or the next wave. -/
  | reply (src : Nat) (e : Envelope)
  /-- FINAL (R403). A FINAL envelope brings a part of the completion record or pod report to the home, which writes them. -/
  | final (src : Nat) (e : Envelope)
  /-- PBARV (R405). A PBARV envelope makes the holder count an arrival at a pod barrier and answer with its token. -/
  | pbarv (src : Nat) (e : Envelope)
  /-- PBRES (R408). A PBRES envelope returns the token of a pod barrier arrival to the arriving member. -/
  | pbres (src : Nat) (e : Envelope)
  /-- PBREL (R405). A PBREL envelope releases a member's waiters of a completed phase, or with failure. -/
  | pbrel (src : Nat) (e : Envelope)
  /-- QUERY (R409). A QUERY envelope asks the wave root for a pod quantity. -/
  | query (src : Nat) (e : Envelope)
  /-- ANSWER (R409). An ANSWER envelope returns a pod quantity to the querying member. -/
  | answer (src : Nat) (e : Envelope)
  /-- ZERO_WORD (R64). A first word whose opcode bits are zero traps ZERO_WORD before further fetch. -/
  | zeroWord (w : Word)
  /-- UNASSIGNED_OPCODE (R62). An unassigned opcode traps ILLEGAL_OPCODE with the engine class of its range. -/
  | unassignedOpcode (w : Word)
  /-- NOP_Z1 (R64). One-word NOP with no effect but its stall count. -/
  | nopZ1 (f : F1)
  /-- NOP (R64). Three-word NOP. -/
  | nop (h : Hd)
  /-- BRA_J1 (R134). One-word branch by an 18-bit word offset. -/
  | braJ1 (f : F1)
  /-- BRA (R134). Three-word branch by OFF20. -/
  | bra (h : Hd) (x : WOff)
  /-- BRX (R134). Branch to the 64-bit target in an s-register pair. -/
  | brx (h : Hd)
  /-- BRC (R115). Conditional branch that diverges the fragment and pushes a DIV entry when lanes disagree. -/
  | brc (h : Hd) (x : WOff)
  /-- JOIN (R116). Arrives at a reconvergence point and fuses the fragments when all live lanes have arrived. -/
  | join (h : Hd) (x : WOff)
  /-- CALL_J1 (R120). One-word call that pushes a CALL entry. -/
  | callJ1 (f : F1)
  /-- CALL (R120). Three-word call that pushes a CALL entry. -/
  | call (h : Hd) (x : WOff)
  /-- CALLX (R121). Per-lane indirect call that pushes a CALLX entry and starts the lowest-target batch. -/
  | callx (h : Hd)
  /-- RET_Z1 (R122). One-word return to the innermost CALL or next CALLX batch. -/
  | retZ1 (f : F1)
  /-- RET (R122). Three-word return. -/
  | ret (h : Hd)
  /-- EXIT_Z1 (R118). One-word exit of the active lanes with a walk of the fragment's chain. -/
  | exitZ1 (f : F1)
  /-- EXIT (R118). Three-word exit of the active lanes. -/
  | exit (h : Hd)
  /-- YIELD_Z1 (R123). One-word yield that swaps the fragment with a live FRAG entry. -/
  | yieldZ1 (f : F1)
  /-- YIELD (R123). Three-word yield. -/
  | yield (h : Hd)
  /-- YIELDC (R124). Yield-wait of the whole group on a counter or chunk-map condition with a continuation PC. -/
  | yieldc (h : Hd) (x : WWait)
  /-- WAITC (R124). Stalls the fragment until a counter or chunk-map condition holds. -/
  | waitc (h : Hd) (x : WWait)
  /-- TRAP (R132). Raises a software cause 0x800–0xFFF for the active lanes. -/
  | trap (h : Hd) (x : WTrap)
  /-- SVRET (R131). Ends a handler, resuming or replaying the interrupted instruction. -/
  | svret (f : F1)
  /-- PLOP (R135). Writes a per-lane predicate from a truth table of three predicates. -/
  | plop (h : Hd) (x : WLut)
  /-- SADD_I1 (R136). One-word uniform add of imm9. -/
  | saddI1 (f : F1)
  /-- SADD (R136). Three-word uniform add. -/
  | sadd (h : Hd) (x : WAlu)
  /-- SADD_5W (R136). Five-word uniform add with a literal. -/
  | sadd5w (h : Hd) (x : WAlu) (lit : BitVec 60)
  /-- SSUB_I1 (R136). One-word uniform subtract of imm9. -/
  | ssubI1 (f : F1)
  /-- SSUB (R136). Three-word uniform subtract. -/
  | ssub (h : Hd) (x : WAlu)
  /-- SSUB_5W (R136). Five-word uniform subtract with a literal. -/
  | ssub5w (h : Hd) (x : WAlu) (lit : BitVec 60)
  /-- SMUL_I1 (R136). One-word uniform multiply, low half. -/
  | smulI1 (f : F1)
  /-- SMUL (R136). Three-word uniform multiply, low half. -/
  | smul (h : Hd) (x : WAlu)
  /-- SMUL_5W (R136). Five-word uniform multiply with a literal. -/
  | smul5w (h : Hd) (x : WAlu) (lit : BitVec 60)
  /-- SMULH_I1 (R136). One-word uniform multiply, high half. -/
  | smulhI1 (f : F1)
  /-- SMULH (R136). Three-word uniform multiply, high half. -/
  | smulh (h : Hd) (x : WAlu)
  /-- SMULH_5W (R136). Five-word uniform multiply high with a literal. -/
  | smulh5w (h : Hd) (x : WAlu) (lit : BitVec 60)
  /-- SAND_I1 (R136). One-word uniform AND. -/
  | sandI1 (f : F1)
  /-- SAND (R136). Three-word uniform AND. -/
  | sand (h : Hd) (x : WAlu)
  /-- SAND_5W (R136). Five-word uniform AND with a literal. -/
  | sand5w (h : Hd) (x : WAlu) (lit : BitVec 60)
  /-- SOR_I1 (R136). One-word uniform OR. -/
  | sorI1 (f : F1)
  /-- SOR (R136). Three-word uniform OR. -/
  | sor (h : Hd) (x : WAlu)
  /-- SOR_5W (R136). Five-word uniform OR with a literal. -/
  | sor5w (h : Hd) (x : WAlu) (lit : BitVec 60)
  /-- SXOR_I1 (R136). One-word uniform XOR. -/
  | sxorI1 (f : F1)
  /-- SXOR (R136). Three-word uniform XOR. -/
  | sxor (h : Hd) (x : WAlu)
  /-- SXOR_5W (R136). Five-word uniform XOR with a literal. -/
  | sxor5w (h : Hd) (x : WAlu) (lit : BitVec 60)
  /-- SSHL_I1 (R136). One-word uniform shift left. -/
  | sshlI1 (f : F1)
  /-- SSHL (R136). Three-word uniform shift left. -/
  | sshl (h : Hd) (x : WAlu)
  /-- SSHL_5W (R136). Five-word uniform shift left with a literal. -/
  | sshl5w (h : Hd) (x : WAlu) (lit : BitVec 60)
  /-- SSHR_I1 (R136). One-word uniform logical shift right. -/
  | sshrI1 (f : F1)
  /-- SSHR (R136). Three-word uniform logical shift right. -/
  | sshr (h : Hd) (x : WAlu)
  /-- SSHR_5W (R136). Five-word uniform logical shift right with a literal. -/
  | sshr5w (h : Hd) (x : WAlu) (lit : BitVec 60)
  /-- SSRA_I1 (R136). One-word uniform arithmetic shift right. -/
  | ssraI1 (f : F1)
  /-- SSRA (R136). Three-word uniform arithmetic shift right. -/
  | ssra (h : Hd) (x : WAlu)
  /-- SSRA_5W (R136). Five-word uniform arithmetic shift right with a literal. -/
  | ssra5w (h : Hd) (x : WAlu) (lit : BitVec 60)
  /-- SMIN_I1 (R136). One-word uniform minimum. -/
  | sminI1 (f : F1)
  /-- SMIN (R136). Three-word uniform minimum. -/
  | smin (h : Hd) (x : WAlu)
  /-- SMIN_5W (R136). Five-word uniform minimum with a literal. -/
  | smin5w (h : Hd) (x : WAlu) (lit : BitVec 60)
  /-- SMAX_I1 (R136). One-word uniform maximum. -/
  | smaxI1 (f : F1)
  /-- SMAX (R136). Three-word uniform maximum. -/
  | smax (h : Hd) (x : WAlu)
  /-- SMAX_5W (R136). Five-word uniform maximum with a literal. -/
  | smax5w (h : Hd) (x : WAlu) (lit : BitVec 60)
  /-- SSEL (R137). Three-word uniform select on a k-predicate. -/
  | ssel (h : Hd) (x : WAlu)
  /-- SSEL_5W (R137). Five-word uniform select with a literal. -/
  | ssel5w (h : Hd) (x : WAlu) (lit : BitVec 60)
  /-- SCMP (R137). Three-word uniform compare writing a k-predicate. -/
  | scmp (h : Hd) (x : WAlu)
  /-- SCMP_5W (R137). Five-word uniform compare with a literal. -/
  | scmp5w (h : Hd) (x : WAlu) (lit : BitVec 60)
  /-- SMOV_U1 (R137). One-word uniform move. -/
  | smovU1 (f : F1)
  /-- SMOV (R137). Three-word uniform move. -/
  | smov (h : Hd) (x : WAlu)
  /-- SLDI_M1 (R137). One-word uniform load of imm9. -/
  | sldiM1 (f : F1)
  /-- SLDI (R137). Three-word uniform load of IMM20. -/
  | sldi (h : Hd) (x : WAlu)
  /-- SLDI_5W (R137). Five-word uniform load of a literal. -/
  | sldi5w (h : Hd) (x : WAlu) (lit : BitVec 60)
  /-- SLDK (R138). Uniform load through the non-coherent uniform cache. -/
  | sldk (h : Hd) (x : WSldk)
  /-- SFFS_U1 (R137). One-word uniform find-first-set. -/
  | sffsU1 (f : F1)
  /-- SFFS (R137). Three-word uniform find-first-set. -/
  | sffs (h : Hd) (x : WTy)
  /-- SPOP_U1 (R137). One-word uniform population count. -/
  | spopU1 (f : F1)
  /-- SPOP (R137). Three-word uniform population count. -/
  | spop (h : Hd) (x : WTy)
  /-- RSR_U1 (R139). One-word read of a special register. -/
  | rsrU1 (f : F1)
  /-- RSR (R139). Three-word read of a special register. -/
  | rsr (h : Hd)
  /-- WSR_U1 (R139). One-word write of a special register. -/
  | wsrU1 (f : F1)
  /-- WSR (R139). Three-word write of a special register. -/
  | wsr (h : Hd)
  /-- REGGIVE (R126). Gives the group's top register blocks to its quadrant's pool. -/
  | reggive (h : Hd) (x : WNib)
  /-- REGCLAIM (R126). Claims register blocks from the quadrant's pool, waiting until enough are there. -/
  | regclaim (h : Hd) (x : WNib)
  /-- VTOS (R137). Copies one lane's vector register into an s-register. -/
  | vtos (h : Hd) (x : WVtos)
  /-- STOV (R137). Broadcasts an s-register to every lane of the fragment. -/
  | stov (h : Hd) (x : WTy)
  /-- KLOP (R137). Writes a k-predicate from a truth table of three k-predicates. -/
  | klop (h : Hd) (x : WLut)
  /-- IADD_I1 (R144). One-word integer add of imm9. -/
  | iaddI1 (f : F1)
  /-- IADD (R144). Three-word integer add. -/
  | iadd (h : Hd) (x : WAlu)
  /-- IADD_5W (R144). Five-word integer add with a literal. -/
  | iadd5w (h : Hd) (x : WAlu) (lit : BitVec 60)
  /-- ISUB_I1 (R144). One-word integer subtract. -/
  | isubI1 (f : F1)
  /-- ISUB (R144). Three-word integer subtract. -/
  | isub (h : Hd) (x : WAlu)
  /-- ISUB_5W (R144). Five-word integer subtract with a literal. -/
  | isub5w (h : Hd) (x : WAlu) (lit : BitVec 60)
  /-- IMUL_I1 (R144). One-word integer multiply. -/
  | imulI1 (f : F1)
  /-- IMUL (R144). Three-word integer multiply. -/
  | imul (h : Hd) (x : WAlu)
  /-- IMUL_5W (R144). Five-word integer multiply with a literal. -/
  | imul5w (h : Hd) (x : WAlu) (lit : BitVec 60)
  /-- IMULH_I1 (R144). One-word integer multiply, high half. -/
  | imulhI1 (f : F1)
  /-- IMULH (R144). Three-word integer multiply, high half. -/
  | imulh (h : Hd) (x : WAlu)
  /-- IMULH_5W (R144). Five-word integer multiply high with a literal. -/
  | imulh5w (h : Hd) (x : WAlu) (lit : BitVec 60)
  /-- IMAD (R144). Three-word integer multiply-add. -/
  | imad (h : Hd) (x : WAlu)
  /-- IMAD_5W (R144). Five-word integer multiply-add with a literal. -/
  | imad5w (h : Hd) (x : WAlu) (lit : BitVec 60)
  /-- IABS_U1 (R144). One-word integer absolute value. -/
  | iabsU1 (f : F1)
  /-- IABS (R144). Three-word integer absolute value. -/
  | iabs (h : Hd) (x : WAlu)
  /-- INEG_U1 (R144). One-word integer negate. -/
  | inegU1 (f : F1)
  /-- INEG (R144). Three-word integer negate. -/
  | ineg (h : Hd) (x : WAlu)
  /-- IMIN_I1 (R144). One-word integer minimum. -/
  | iminI1 (f : F1)
  /-- IMIN (R144). Three-word integer minimum. -/
  | imin (h : Hd) (x : WAlu)
  /-- IMIN_5W (R144). Five-word integer minimum with a literal. -/
  | imin5w (h : Hd) (x : WAlu) (lit : BitVec 60)
  /-- IMAX_I1 (R144). One-word integer maximum. -/
  | imaxI1 (f : F1)
  /-- IMAX (R144). Three-word integer maximum. -/
  | imax (h : Hd) (x : WAlu)
  /-- IMAX_5W (R144). Five-word integer maximum with a literal. -/
  | imax5w (h : Hd) (x : WAlu) (lit : BitVec 60)
  /-- ICMP (R145). Three-word integer compare writing a per-lane predicate. -/
  | icmp (h : Hd) (x : WAlu)
  /-- ICMP_5W (R145). Five-word integer compare with a literal. -/
  | icmp5w (h : Hd) (x : WAlu) (lit : BitVec 60)
  /-- ISEL (R145). Three-word per-lane select on a predicate. -/
  | isel (h : Hd) (x : WAlu)
  /-- ISEL_5W (R145). Five-word select with a literal. -/
  | isel5w (h : Hd) (x : WAlu) (lit : BitVec 60)
  /-- ISHL_I1 (R144). One-word shift left. -/
  | ishlI1 (f : F1)
  /-- ISHL (R144). Three-word shift left. -/
  | ishl (h : Hd) (x : WAlu)
  /-- ISHL_5W (R144). Five-word shift left with a literal. -/
  | ishl5w (h : Hd) (x : WAlu) (lit : BitVec 60)
  /-- ISHR_I1 (R144). One-word logical shift right. -/
  | ishrI1 (f : F1)
  /-- ISHR (R144). Three-word logical shift right. -/
  | ishr (h : Hd) (x : WAlu)
  /-- ISHR_5W (R144). Five-word logical shift right with a literal. -/
  | ishr5w (h : Hd) (x : WAlu) (lit : BitVec 60)
  /-- ISRA_I1 (R144). One-word arithmetic shift right. -/
  | israI1 (f : F1)
  /-- ISRA (R144). Three-word arithmetic shift right. -/
  | isra (h : Hd) (x : WAlu)
  /-- ISRA_5W (R144). Five-word arithmetic shift right with a literal. -/
  | isra5w (h : Hd) (x : WAlu) (lit : BitVec 60)
  /-- IAND_I1 (R144). One-word bitwise AND. -/
  | iandI1 (f : F1)
  /-- IAND (R144). Three-word bitwise AND. -/
  | iand (h : Hd) (x : WAlu)
  /-- IAND_5W (R144). Five-word bitwise AND with a literal. -/
  | iand5w (h : Hd) (x : WAlu) (lit : BitVec 60)
  /-- IOR_I1 (R144). One-word bitwise OR. -/
  | iorI1 (f : F1)
  /-- IOR (R144). Three-word bitwise OR. -/
  | ior (h : Hd) (x : WAlu)
  /-- IOR_5W (R144). Five-word bitwise OR with a literal. -/
  | ior5w (h : Hd) (x : WAlu) (lit : BitVec 60)
  /-- IXOR_I1 (R144). One-word bitwise XOR. -/
  | ixorI1 (f : F1)
  /-- IXOR (R144). Three-word bitwise XOR. -/
  | ixor (h : Hd) (x : WAlu)
  /-- IXOR_5W (R144). Five-word bitwise XOR with a literal. -/
  | ixor5w (h : Hd) (x : WAlu) (lit : BitVec 60)
  /-- LOP3 (R146). Three-word bitwise function of three sources by a truth table. -/
  | lop3 (h : Hd) (x : WLop3)
  /-- LOP3_5W (R146). Five-word LOP3 with c as a literal. -/
  | lop35w (h : Hd) (x : WLop3) (lit : BitVec 60)
  /-- POPC_U1 (R148). One-word population count. -/
  | popcU1 (f : F1)
  /-- POPC (R148). Three-word population count. -/
  | popc (h : Hd) (x : WAlu)
  /-- CLZ_U1 (R148). One-word count of leading zeros. -/
  | clzU1 (f : F1)
  /-- CLZ (R148). Three-word count of leading zeros. -/
  | clz (h : Hd) (x : WAlu)
  /-- BREV_U1 (R148). One-word bit reverse. -/
  | brevU1 (f : F1)
  /-- BREV (R148). Three-word bit reverse. -/
  | brev (h : Hd) (x : WAlu)
  /-- BFE (R147). Three-word bit-field extract. -/
  | bfe (h : Hd) (x : WAlu)
  /-- BFE_5W (R147). Five-word bit-field extract with a literal. -/
  | bfe5w (h : Hd) (x : WAlu) (lit : BitVec 60)
  /-- BFI (R147). Three-word bit-field insert. -/
  | bfi (h : Hd) (x : WAlu)
  /-- BFI_5W (R147). Five-word bit-field insert with a literal. -/
  | bfi5w (h : Hd) (x : WAlu) (lit : BitVec 60)
  /-- FADD (R149). Three-word floating add, rounded once. -/
  | fadd (h : Hd) (x : WAlu)
  /-- FADD_5W (R149). Five-word floating add with a literal. -/
  | fadd5w (h : Hd) (x : WAlu) (lit : BitVec 60)
  /-- FSUB (R149). Three-word floating subtract. -/
  | fsub (h : Hd) (x : WAlu)
  /-- FSUB_5W (R149). Five-word floating subtract with a literal. -/
  | fsub5w (h : Hd) (x : WAlu) (lit : BitVec 60)
  /-- FMUL (R149). Three-word floating multiply. -/
  | fmul (h : Hd) (x : WAlu)
  /-- FMUL_5W (R149). Five-word floating multiply with a literal. -/
  | fmul5w (h : Hd) (x : WAlu) (lit : BitVec 60)
  /-- FFMA (R149). Three-word fused multiply-add with one rounding. -/
  | ffma (h : Hd) (x : WAlu)
  /-- FFMA_5W (R149). Five-word fused multiply-add with a literal. -/
  | ffma5w (h : Hd) (x : WAlu) (lit : BitVec 60)
  /-- FMIN (R150). Three-word IEEE minimumNumber. -/
  | fmin (h : Hd) (x : WAlu)
  /-- FMIN_5W (R150). Five-word FMIN with a literal. -/
  | fmin5w (h : Hd) (x : WAlu) (lit : BitVec 60)
  /-- FMAX (R150). Three-word IEEE maximumNumber. -/
  | fmax (h : Hd) (x : WAlu)
  /-- FMAX_5W (R150). Five-word FMAX with a literal. -/
  | fmax5w (h : Hd) (x : WAlu) (lit : BitVec 60)
  /-- FCMP (R151). Three-word floating compare writing a predicate. -/
  | fcmp (h : Hd) (x : WAlu)
  /-- FCMP_5W (R151). Five-word floating compare with a literal. -/
  | fcmp5w (h : Hd) (x : WAlu) (lit : BitVec 60)
  /-- FRND (R152). Three-word round to an integral value. -/
  | frnd (h : Hd) (x : WAlu)
  /-- FRND_5W (R152). Five-word FRND form. -/
  | frnd5w (h : Hd) (x : WAlu) (lit : BitVec 60)
  /-- FCLASS (R153). Three-word floating classification. -/
  | fclass (h : Hd) (x : WAlu)
  /-- FCLASS_5W (R153). Five-word FCLASS form. -/
  | fclass5w (h : Hd) (x : WAlu) (lit : BitVec 60)
  /-- FSCALE (R149). Three-word multiply by a power of two. -/
  | fscale (h : Hd) (x : WAlu)
  /-- FSCALE_5W (R149). Five-word FSCALE with a literal. -/
  | fscale5w (h : Hd) (x : WAlu) (lit : BitVec 60)
  /-- FRCP (R154). Correctly rounded reciprocal. -/
  | frcp (h : Hd) (x : WAlu)
  /-- FRSQ (R154). Correctly rounded reciprocal square root. -/
  | frsq (h : Hd) (x : WAlu)
  /-- FSQRT (R154). Correctly rounded square root. -/
  | fsqrt (h : Hd) (x : WAlu)
  /-- FEX2 (R156). Faithful base-2 exponential. -/
  | fex2 (h : Hd) (x : WAlu)
  /-- FLG2 (R156). Faithful base-2 logarithm. -/
  | flg2 (h : Hd) (x : WAlu)
  /-- FSIN (R156). Faithful sin(π·a). -/
  | fsin (h : Hd) (x : WAlu)
  /-- FCOS (R156). Faithful cos(π·a). -/
  | fcos (h : Hd) (x : WAlu)
  /-- FTANH (R156). Faithful hyperbolic tangent. -/
  | ftanh (h : Hd) (x : WAlu)
  /-- HADD2 (R157). Three-word packed half add. -/
  | hadd2 (h : Hd) (x : WAlu)
  /-- HADD2_5W (R157). Five-word packed half add with a literal. -/
  | hadd25w (h : Hd) (x : WAlu) (lit : BitVec 60)
  /-- HMUL2 (R157). Three-word packed half multiply. -/
  | hmul2 (h : Hd) (x : WAlu)
  /-- HMUL2_5W (R157). Five-word packed half multiply with a literal. -/
  | hmul25w (h : Hd) (x : WAlu) (lit : BitVec 60)
  /-- HFMA2 (R157). Three-word packed half fused multiply-add. -/
  | hfma2 (h : Hd) (x : WAlu)
  /-- HFMA2_5W (R157). Five-word packed half FMA with a literal. -/
  | hfma25w (h : Hd) (x : WAlu) (lit : BitVec 60)
  /-- CVT (R158). Converts one value between any two types. -/
  | cvt (h : Hd) (x : WCvt)
  /-- CVTN (R159). Converts two values into the halves of one register. -/
  | cvtn (h : Hd) (x : WCvt)
  /-- PACK4 (R160). Converts four values into narrow elements of one register. -/
  | pack4 (h : Hd) (x : WCvt)
  /-- UNPK4 (R161). Converts four narrow elements into four registers. -/
  | unpk4 (h : Hd) (x : WCvt)
  /-- SHFL (R164). Copies a register from another lane by one of five modes. -/
  | shfl (h : Hd) (x : WShfl)
  /-- BALLOT (R165). Gathers a predicate of the active lanes into an s-register. -/
  | ballot (h : Hd)
  /-- VOTE (R166). Writes a vote over the active lanes' predicate. -/
  | vote (h : Hd) (x : WVote)
  /-- PSUM (R167). Writes each active lane's prefix sum by the fixed tree. -/
  | psum (h : Hd) (x : WAlu)
  /-- REDUX (R168). Reduces the active lanes of each segment and writes the result back. -/
  | redux (h : Hd) (x : WRedux)
  /-- MATCH (R169). Sorts the active lanes into classes of equal value. -/
  | matchV (h : Hd) (x : WTy)
  /-- MOV_U1 (R170). One-word register copy. -/
  | movU1 (f : F1)
  /-- MOV (R170). Three-word register copy. -/
  | mov (h : Hd) (x : WAlu)
  /-- MOVI_M1 (R170). One-word move of imm9. -/
  | moviM1 (f : F1)
  /-- MOVI (R170). Three-word move of IMM20. -/
  | movi (h : Hd) (x : WAlu)
  /-- MOVI_5W (R170). Five-word move of a literal. -/
  | movi5w (h : Hd) (x : WAlu) (lit : BitVec 60)
  /-- PAIR (R56). Issues two vector halves under one guard and stall count. -/
  | pair (h : Hd) (x : WPair)
  /-- LD (R190). Three-word generic load, weak or strong. -/
  | ld (h : Hd) (x : WMem)
  /-- LD_5W (R190). Five-word generic load with a literal offset. -/
  | ld5w (h : Hd) (x : WMem) (lit : BitVec 60)
  /-- ST (R190). Three-word generic store. -/
  | st (h : Hd) (x : WMem)
  /-- ST_5W (R190). Five-word generic store with a literal offset. -/
  | st5w (h : Hd) (x : WMem) (lit : BitVec 60)
  /-- LDL (R190). Three-word local load at a team offset. -/
  | ldl (h : Hd) (x : WMem)
  /-- LDL_5W (R190). Five-word local load with a literal offset. -/
  | ldl5w (h : Hd) (x : WMem) (lit : BitVec 60)
  /-- STL (R190). Three-word local store at a team offset. -/
  | stl (h : Hd) (x : WMem)
  /-- STL_5W (R190). Five-word local store with a literal offset. -/
  | stl5w (h : Hd) (x : WMem) (lit : BitVec 60)
  /-- LDC (R190). Three-word load through the constant cache. -/
  | ldc (h : Hd) (x : WMem)
  /-- LDC_5W (R190). Five-word constant load with a literal offset. -/
  | ldc5w (h : Hd) (x : WMem) (lit : BitVec 60)
  /-- LDA (R190). Three-word acquire load, optionally .remote. -/
  | lda (h : Hd) (x : WMem)
  /-- LDA_5W (R190). Five-word acquire load with a literal offset. -/
  | lda5w (h : Hd) (x : WMem) (lit : BitVec 60)
  /-- STREL (R190). Three-word release store. -/
  | strel (h : Hd) (x : WMem)
  /-- STREL_5W (R190). Five-word release store with a literal offset. -/
  | strel5w (h : Hd) (x : WMem) (lit : BitVec 60)
  /-- ATOM (R191). Three-word generic atomic returning the old value. -/
  | atom (h : Hd) (x : WAtom)
  /-- ATOM_5W (R191). Five-word generic atomic with a literal offset. -/
  | atom5w (h : Hd) (x : WAtom) (lit : BitVec 60)
  /-- ATOML (R191). Three-word local atomic. -/
  | atoml (h : Hd) (x : WAtom)
  /-- ATOML_5W (R191). Five-word local atomic with a literal offset. -/
  | atoml5w (h : Hd) (x : WAtom) (lit : BitVec 60)
  /-- RED (R191). Three-word atomic reduction without a result. -/
  | red (h : Hd) (x : WAtom)
  /-- RED_5W (R191). Five-word atomic reduction with a literal offset. -/
  | red5w (h : Hd) (x : WAtom) (lit : BitVec 60)
  /-- FENCE_Z1 (R192). One-word fence.acqrel.dev. -/
  | fenceZ1 (f : F1)
  /-- FENCE (R192). Three-word fence of a kind and scope. -/
  | fence (h : Hd) (x : WFence)
  /-- PREF (R193). Three-word prefetch of a line toward L2 or the data cache. -/
  | pref (h : Hd) (x : WMem)
  /-- PREF_5W (R193). Five-word prefetch with a literal offset. -/
  | pref5w (h : Hd) (x : WMem) (lit : BitVec 60)
  /-- STASHMAP (R194). Maps a stash window with every line Invalid. -/
  | stashmap (h : Hd) (x : WStash)
  /-- STASHUNMAP (R195). Writes back and invalidates a window and clears LIVE. -/
  | stashunmap (h : Hd) (x : WStash)
  /-- STASHSYNC (R195). Writes back every Owned line of a window or of all windows. -/
  | stashsync (h : Hd) (x : WStash)
  /-- STASHINV (R195). Invalidates every line of a window without write-back. -/
  | stashinv (h : Hd) (x : WStash)
  /-- DISCARD (R222). Marks whole pages DEAD and drops their cached lines. -/
  | discard (h : Hd)
  /-- PGHINT (R228). Posts one hint record for a range. -/
  | pghint (h : Hd) (x : WHint)
  /-- PGPOOL_GET (R220). Takes a frame from the context's page pool. -/
  | pgpoolGet (h : Hd)
  /-- PGPOOL_PUT (R220). Returns a frame to the context's page pool. -/
  | pgpoolPut (h : Hd)
  /-- PGMAP (R220). Installs a level-0 leaf for a first-touch page, optionally zeroing the frame. -/
  | pgmap (h : Hd)
  /-- PGMAP_FWD (R220). Forwards the handled fault as a record, so the group parks at SVRET. -/
  | pgmapFwd (h : Hd)
  /-- TLBINV (R229). Removes the context's translations from every cache of the package. -/
  | tlbinv (h : Hd)
  /-- BARINIT (R245). Initialises a slot as a counting barrier or chunk map. -/
  | barinit (h : Hd) (x : WSlot)
  /-- BAREXP (R246). Adds expected transaction bytes to a counting barrier. -/
  | barexp (h : Hd) (x : WSlot)
  /-- BARARV (R247). Arrives at a counting barrier, or sets a chunk-map bit. -/
  | bararv (h : Hd) (x : WSlot)
  /-- BARWAIT (R248). Waits on a barrier token. -/
  | barwait (h : Hd) (x : WSlot)
  /-- BARARW (R247). Arrives at a counting barrier and waits on its own token. -/
  | bararw (h : Hd) (x : WSlot)
  /-- BARTEST (R248). Tests a token or chunk-map mask without waiting. -/
  | bartest (h : Hd) (x : WSlot)
  /-- BARINV (R249). Invalidates a slot and frees it. -/
  | barinv (h : Hd) (x : WSlot)
  /-- CPY (R254). Bulk copy, optionally to local memory and decompressing. -/
  | cpy (h : Hd) (x : WCpy)
  /-- CPY2D (R255). Two-dimensional bulk copy. -/
  | cpy2d (h : Hd) (x : WCpy)
  /-- CPYS (R254). Copy from local memory to a generic address. -/
  | cpys (h : Hd) (x : WCpy)
  /-- PFX (R269). Queues a prefetch of a range. -/
  | pfx (h : Hd) (x : WPfx)
  /-- PFXCANCEL (R272). Removes the context's prefetch entries with a tag, or all. -/
  | pfxcancel (h : Hd)
  /-- APSTART (R284). Starts a gather or scatter stream from a descriptor. -/
  | apstart (h : Hd) (x : WAp)
  /-- APPOP (R285). Takes the next gather-stream entry into registers. -/
  | appop (h : Hd) (x : WAp)
  /-- APPUSH (R286). Pushes one entry into a scatter stream. -/
  | appush (h : Hd) (x : WAp)
  /-- APSTAT (R287). Returns a stream's status. -/
  | apstat (h : Hd) (x : WAp)
  /-- APSTOP (R288). Ends a live stream. -/
  | apstop (h : Hd) (x : WAp)
  /-- AGATH (R279). Direct gather of one element per lane. -/
  | agath (h : Hd) (x : WAg)
  /-- ASCAT (R279). Direct scatter of one element per lane. -/
  | ascat (h : Hd) (x : WAg)
  /-- APREPLAY (R292). Reads a stopped access operation's DONE mask and optionally gives up lanes. -/
  | apreplay (h : Hd)
  /-- MZERO (R314). Zeroes an accumulator tile. -/
  | mzero (h : Hd)
  /-- MMA (R313). Dense tile multiply-accumulate over NSEG segments. -/
  | mma (h : Hd) (x : WMma)
  /-- MMAS (R313). Bitmap-sparse tile multiply-accumulate of one segment. -/
  | mmas (h : Hd) (x : WMma)
  /-- MLD (R320). Loads a metadata register from a 2,048-byte image. -/
  | mld (h : Hd)
  /-- ACCRD (R316). Reads one tile element per lane into registers. -/
  | accrd (h : Hd) (x : WAcc)
  /-- ACCWR (R317). Writes or adds one tile element per lane. -/
  | accwr (h : Hd) (x : WAcc)
  /-- ACCST (R319). Stores rows of a tile to memory. -/
  | accst (h : Hd) (x : WAccst)
  /-- MSTAT (R321). Returns a tile's TSTAT. -/
  | mstat (h : Hd)
  /-- QHIST (R330). Counts the exponents of each unit's elements. -/
  | qhist (h : Hd) (x : WQ)
  /-- QCLIP (R331). Chooses each unit's clip exponent and macro-scale. -/
  | qclip (h : Hd) (x : WQ)
  /-- QPACK (R332). Elects outliers and writes elements, scales and lists. -/
  | qpack (h : Hd) (x : WQ)
  /-- QOLST (R338). Checks an operand against its outlier lists. -/
  | qolst (h : Hd) (x : WQ)
  /-- QRST (R339). Clears histogram blocks and status words. -/
  | qrst (h : Hd) (x : WQ)
  /-- EMIT (R370). Emits one record per active lane to a successor. -/
  | emit (h : Hd) (x : WEmit)
  /-- EMITT (R371). Emits one record from local memory. -/
  | emitt (h : Hd) (x : WEmit)
  /-- RECLD (R372). Reads the team's input records into registers. -/
  | recld (h : Hd)
  /-- FLUSHQ (R373). Applies the partial formation condition to a successor's pending records. -/
  | flushq (h : Hd) (x : WFlush)
  /-- GLAUNCH (R374). Starts a child launch. -/
  | glaunch (h : Hd)
  /-- GCANCEL (R375). Soft- or hard-cancels a launch of the context. -/
  | gcancel (h : Hd)
  /-- GWAIT (R376). Returns a launch's status, waiting for completion unless .test. -/
  | gwait (h : Hd)
  /-- PODBAR (R408). Arrives at, waits on, or both, a pod barrier. -/
  | podbar (h : Hd) (x : WNib)
  /-- PODQRY (R409). Returns one pod quantity. -/
  | podqry (h : Hd) (x : WNib)
  /-- PODFLT (R410). Reads a launch's aggregated fault report. -/
  | podflt (h : Hd) (x : WPodflt)
  /-- PLACEMENT_RELOAD (R393). Skesunal rewrites placement entries in its package's pod table and orders the link engine to reload them, after which new reservations resolve under the new entries. -/
  | placementReload (page : Nat) (entries : List (Nat × BitVec 16))
  /-- UALINK_PORT_FAILURE (R379). A trained UALink port fails and goes down, so traffic moves to other ports and CAPS.LINKUP falls when no port remains up. -/
  | ualinkPortFailure (port : Nat)
  deriving DecidableEq, Repr

end Sys2Proof
end

