-- ==== Sys2Proof/Machine/Words.lean ====
section
/-! DEFINITION. The bits of instruction words (R36 to R46 and each chapter's word 2): a `Raw` holds every field of an
instruction's words, and `rawOf` gives it for each instruction; both directions of every word-2 layout. -/
namespace Sys2Proof.Machine

/-- Every field of an instruction's words (R36, R39, R43): `x` is word 2 bits 31:2. -/
structure Raw where
  len : Nat
  op : BitVec 8
  b : BitVec 9
  a : BitVec 9
  st : BitVec 4
  mod : BitVec 6
  hold : BitVec 2
  guard : BitVec 4
  d : BitVec 9
  c : BitVec 9
  x : BitVec 30
  lit : BitVec 60
  deriving DecidableEq, Repr

/-- The code of a type (R41). -/
def tyCode : Ty → BitVec 4
  | .i32 => 0
  | .n32 => 1
  | .i64 => 2
  | .n64 => 3
  | .i16 => 4
  | .n16 => 5
  | .i8 => 6
  | .n8 => 7
  | .f32 => 8
  | .f64 => 9
  | .f16 => 10
  | .bf16 => 11
  | .e4m3 => 12
  | .e5m2 => 13
  | .e2m1 => 14
  | .e8m0 => 15

/-- The type of a code (R41). -/
def tyOf (c : BitVec 4) : Ty :=
  match c.toNat with
  | 0 => .i32
  | 1 => .n32
  | 2 => .i64
  | 3 => .n64
  | 4 => .i16
  | 5 => .n16
  | 6 => .i8
  | 7 => .n8
  | 8 => .f32
  | 9 => .f64
  | 10 => .f16
  | 11 => .bf16
  | 12 => .e4m3
  | 13 => .e5m2
  | 14 => .e2m1
  | _ => .e8m0

/-- Word 2 bits 31:2 of a WAlu (R40). -/
def wAluBits (w : WAlu) : BitVec 30 :=
  tyCode w.ty ++ w.rnd ++ ofBool w.sat ++ ofBool w.imm ++ ofBool w.ub ++ w.imm20

/-- The WAlu in word 2 bits 31:2 (R40). -/
def wAluOf (x : BitVec 30) : WAlu :=
  { ty := tyOf (bits x 26 4), rnd := bits x 23 3, sat := bit x 22, imm := bit x 21, ub := bit x 20, imm20 := bits x 0 20 }

/-- Word 2 bits 31:2 of a WOff (R134). -/
def wOffBits (w : WOff) : BitVec 30 :=
  0#10 ++ w.off

/-- The WOff in word 2 bits 31:2 (R134). -/
def wOffOf (x : BitVec 30) : WOff :=
  { off := bits x 0 20 }

/-- Word 2 bits 31:2 of a WWait (R124). -/
def wWaitBits (w : WWait) : BitVec 30 :=
  w.kind ++ w.slot ++ w.cls ++ w.thresh ++ ofBool w.cl ++ w.cpos ++ 0#2

/-- The WWait in word 2 bits 31:2 (R124). -/
def wWaitOf (x : BitVec 30) : WWait :=
  { kind := bits x 28 2, slot := bits x 18 10, cls := bits x 15 3, thresh := bits x 7 8, cl := bit x 6, cpos := bits x 2 4 }

/-- Word 2 bits 31:2 of a WTrap (R134). -/
def wTrapBits (w : WTrap) : BitVec 30 :=
  0#18 ++ w.cause

/-- The WTrap in word 2 bits 31:2 (R134). -/
def wTrapOf (x : BitVec 30) : WTrap :=
  { cause := bits x 0 12 }

/-- Word 2 bits 31:2 of a WLut (R135, R137). -/
def wLutBits (w : WLut) : BitVec 30 :=
  0#22 ++ w.lut

/-- The WLut in word 2 bits 31:2 (R135, R137). -/
def wLutOf (x : BitVec 30) : WLut :=
  { lut := bits x 0 8 }

/-- Word 2 bits 31:2 of a WLop3 (R146). -/
def wLop3Bits (w : WLop3) : BitVec 30 :=
  tyCode w.ty ++ 0#4 ++ ofBool w.imm ++ ofBool w.ub ++ 0#12 ++ w.lut

/-- The WLop3 in word 2 bits 31:2 (R146). -/
def wLop3Of (x : BitVec 30) : WLop3 :=
  { ty := tyOf (bits x 26 4), imm := bit x 21, ub := bit x 20, lut := bits x 0 8 }

/-- Word 2 bits 31:2 of a WTy (R137, R169). -/
def wTyBits (w : WTy) : BitVec 30 :=
  tyCode w.ty ++ 0#26

/-- The WTy in word 2 bits 31:2 (R137, R169). -/
def wTyOf (x : BitVec 30) : WTy :=
  { ty := tyOf (bits x 26 4) }

/-- Word 2 bits 31:2 of a WVtos (R137). -/
def wVtosBits (w : WVtos) : BitVec 30 :=
  tyCode w.ty ++ 0#21 ++ w.lane

/-- The WVtos in word 2 bits 31:2 (R137). -/
def wVtosOf (x : BitVec 30) : WVtos :=
  { ty := tyOf (bits x 26 4), lane := bits x 0 5 }

/-- Word 2 bits 31:2 of a WSldk (R138). -/
def wSldkBits (w : WSldk) : BitVec 30 :=
  tyCode w.ty ++ 0#6 ++ w.off

/-- The WSldk in word 2 bits 31:2 (R138). -/
def wSldkOf (x : BitVec 30) : WSldk :=
  { ty := tyOf (bits x 26 4), off := bits x 0 20 }

/-- Word 2 bits 31:2 of a WNib (R140, R408, R409). -/
def wNibBits (w : WNib) : BitVec 30 :=
  0#26 ++ w.n

/-- The WNib in word 2 bits 31:2 (R140, R408, R409). -/
def wNibOf (x : BitVec 30) : WNib :=
  { n := bits x 0 4 }

/-- Word 2 bits 31:2 of a WCvt (R158). -/
def wCvtBits (w : WCvt) : BitVec 30 :=
  tyCode w.ty ++ w.rnd ++ ofBool w.sat ++ tyCode w.sty ++ 0#18

/-- The WCvt in word 2 bits 31:2 (R158). -/
def wCvtOf (x : BitVec 30) : WCvt :=
  { ty := tyOf (bits x 26 4), rnd := bits x 23 3, sat := bit x 22, sty := tyOf (bits x 18 4) }

/-- Word 2 bits 31:2 of a WShfl (R164). -/
def wShflBits (w : WShfl) : BitVec 30 :=
  tyCode w.ty ++ w.mode ++ 0#1 ++ ofBool w.imm ++ 0#1 ++ w.imm20

/-- The WShfl in word 2 bits 31:2 (R164). -/
def wShflOf (x : BitVec 30) : WShfl :=
  { ty := tyOf (bits x 26 4), mode := bits x 23 3, imm := bit x 21, imm20 := bits x 0 20 }

/-- Word 2 bits 31:2 of a WVote (R166). -/
def wVoteBits (w : WVote) : BitVec 30 :=
  0#27 ++ w.mode

/-- The WVote in word 2 bits 31:2 (R166). -/
def wVoteOf (x : BitVec 30) : WVote :=
  { mode := bits x 0 3 }

/-- Word 2 bits 31:2 of a WRedux (R168). -/
def wReduxBits (w : WRedux) : BitVec 30 :=
  tyCode w.ty ++ w.rnd ++ ofBool w.lead ++ 0#19 ++ w.width

/-- The WRedux in word 2 bits 31:2 (R168). -/
def wReduxOf (x : BitVec 30) : WRedux :=
  { ty := tyOf (bits x 26 4), rnd := bits x 23 3, lead := bit x 22, width := bits x 0 3 }

/-- Word 2 bits 31:2 of a WPair (R56). -/
def wPairBits (w : WPair) : BitVec 30 :=
  ofBool w.op0lo ++ w.op1 ++ w.a1 ++ w.b1 ++ 0#4

/-- The WPair in word 2 bits 31:2 (R56). -/
def wPairOf (x : BitVec 30) : WPair :=
  { op0lo := bit x 29, op1 := bits x 22 7, a1 := bits x 13 9, b1 := bits x 4 9 }

/-- Word 2 bits 31:2 of a WMem (R188). -/
def wMemBits (w : WMem) : BitVec 30 :=
  w.size ++ w.scope ++ 0#2 ++ ofBool w.ub ++ w.off

/-- The WMem in word 2 bits 31:2 (R188). -/
def wMemOf (x : BitVec 30) : WMem :=
  { size := bits x 26 4, scope := bits x 23 3, ub := bit x 20, off := bits x 0 20 }

/-- Word 2 bits 31:2 of a WAtom (R191). -/
def wAtomBits (w : WAtom) : BitVec 30 :=
  tyCode w.ty ++ w.scope ++ w.order ++ ofBool w.ub ++ w.off

/-- The WAtom in word 2 bits 31:2 (R191). -/
def wAtomOf (x : BitVec 30) : WAtom :=
  { ty := tyOf (bits x 26 4), scope := bits x 23 3, order := bits x 21 2, ub := bit x 20, off := bits x 0 20 }

/-- Word 2 bits 31:2 of a WFence (R192). -/
def wFenceBits (w : WFence) : BitVec 30 :=
  w.kind ++ 0#2 ++ w.scope ++ 0#23

/-- The WFence in word 2 bits 31:2 (R192). -/
def wFenceOf (x : BitVec 30) : WFence :=
  { kind := bits x 28 2, scope := bits x 23 3 }

/-- Word 2 bits 31:2 of a WStash (R194, R195). -/
def wStashBits (w : WStash) : BitVec 30 :=
  w.win ++ ofBool w.flag ++ 0#25

/-- The WStash in word 2 bits 31:2 (R194, R195). -/
def wStashOf (x : BitVec 30) : WStash :=
  { win := bits x 26 4, flag := bit x 25 }

/-- Word 2 bits 31:2 of a WHint (R228). -/
def wHintBits (w : WHint) : BitVec 30 :=
  w.kind ++ w.prio ++ 0#25

/-- The WHint in word 2 bits 31:2 (R228). -/
def wHintOf (x : BitVec 30) : WHint :=
  { kind := bits x 28 2, prio := bits x 25 3 }

/-- Word 2 bits 31:2 of a WSlot (R242). -/
def wSlotBits (w : WSlot) : BitVec 30 :=
  w.slot ++ ofBool w.cl ++ w.cpos ++ 0#15

/-- The WSlot in word 2 bits 31:2 (R242). -/
def wSlotOf (x : BitVec 30) : WSlot :=
  { slot := bits x 20 10, cl := bit x 19, cpos := bits x 15 4 }

/-- Word 2 bits 31:2 of a WCpy (R254). -/
def wCpyBits (w : WCpy) : BitVec 30 :=
  w.slot ++ ofBool w.cl ++ w.cpos ++ w.scope ++ ofBool w.rep ++ w.cbit ++ 0#2

/-- The WCpy in word 2 bits 31:2 (R254). -/
def wCpyOf (x : BitVec 30) : WCpy :=
  { slot := bits x 20 10, cl := bit x 19, cpos := bits x 15 4, scope := bits x 12 3, rep := bit x 11, cbit := bits x 2 9 }

/-- Word 2 bits 31:2 of a WPfx (R269). -/
def wPfxBits (w : WPfx) : BitVec 30 :=
  w.slot ++ ofBool w.cl ++ w.cpos ++ w.prio ++ ofBool w.nb ++ ofBool w.pg ++ 0#10

/-- The WPfx in word 2 bits 31:2 (R269). -/
def wPfxOf (x : BitVec 30) : WPfx :=
  { slot := bits x 20 10, cl := bit x 19, cpos := bits x 15 4, prio := bits x 12 3, nb := bit x 11, pg := bit x 10 }

/-- Word 2 bits 31:2 of a WAp (R283). -/
def wApBits (w : WAp) : BitVec 30 :=
  w.snum ++ 0#2 ++ w.size ++ 0#22

/-- The WAp in word 2 bits 31:2 (R283). -/
def wApOf (x : BitVec 30) : WAp :=
  { snum := bits x 28 2, size := bits x 22 4 }

/-- Word 2 bits 31:2 of a WAg (R278). -/
def wAgBits (w : WAg) : BitVec 30 :=
  w.size ++ w.scope ++ ofBool w.sent ++ ofBool w.split ++ w.okp ++ w.slot ++ ofBool w.cl ++ w.cpos ++ ofBool w.rep ++ 0#2

/-- The WAg in word 2 bits 31:2 (R278). -/
def wAgOf (x : BitVec 30) : WAg :=
  { size := bits x 26 4, scope := bits x 23 3, sent := bit x 22, split := bit x 21, okp := bits x 18 3, slot := bits x 8 10, cl := bit x 7, cpos := bits x 3 4, rep := bit x 2 }

/-- Word 2 bits 31:2 of a WMma (R311). -/
def wMmaBits (w : WMma) : BitVec 30 :=
  tyCode w.aty ++ tyCode w.bty ++ 0#20 ++ w.pat

/-- The WMma in word 2 bits 31:2 (R311). -/
def wMmaOf (x : BitVec 30) : WMma :=
  { aty := tyOf (bits x 26 4), bty := tyOf (bits x 22 4), pat := bits x 0 2 }

/-- Word 2 bits 31:2 of a WAcc (R315). -/
def wAccBits (w : WAcc) : BitVec 30 :=
  tyCode w.ty ++ w.rnd ++ ofBool w.sat ++ ofBool w.wide ++ 0#21

/-- The WAcc in word 2 bits 31:2 (R315). -/
def wAccOf (x : BitVec 30) : WAcc :=
  { ty := tyOf (bits x 26 4), rnd := bits x 23 3, sat := bit x 22, wide := bit x 21 }

/-- Word 2 bits 31:2 of a WAccst (R318). -/
def wAccstBits (w : WAccst) : BitVec 30 :=
  tyCode w.ty ++ w.rnd ++ ofBool w.sat ++ ofBool w.wide ++ ofBool w.pad ++ w.scope ++ w.slot ++ ofBool w.cl ++ w.cpos ++ ofBool w.rep ++ 0#1

/-- The WAccst in word 2 bits 31:2 (R318). -/
def wAccstOf (x : BitVec 30) : WAccst :=
  { ty := tyOf (bits x 26 4), rnd := bits x 23 3, sat := bit x 22, wide := bit x 21, pad := bit x 20, scope := bits x 17 3, slot := bits x 7 10, cl := bit x 6, cpos := bits x 2 4, rep := bit x 1 }

/-- Word 2 bits 31:2 of a WQ (R340). -/
def wQBits (w : WQ) : BitVec 30 :=
  w.scope ++ w.rnd ++ ofBool w.strict ++ ofBool w.acc ++ 0#22

/-- The WQ in word 2 bits 31:2 (R340). -/
def wQOf (x : BitVec 30) : WQ :=
  { scope := bits x 27 3, rnd := bits x 24 3, strict := bit x 23, acc := bit x 22 }

/-- Word 2 bits 31:2 of a WEmit (R370). -/
def wEmitBits (w : WEmit) : BitVec 30 :=
  w.succ ++ w.rtype ++ 0#22

/-- The WEmit in word 2 bits 31:2 (R370). -/
def wEmitOf (x : BitVec 30) : WEmit :=
  { succ := bits x 26 4, rtype := bits x 22 4 }

/-- Word 2 bits 31:2 of a WFlush (R373). -/
def wFlushBits (w : WFlush) : BitVec 30 :=
  w.succ ++ 0#26

/-- The WFlush in word 2 bits 31:2 (R373). -/
def wFlushOf (x : BitVec 30) : WFlush :=
  { succ := bits x 26 4 }

/-- Word 2 bits 31:2 of a WPodflt (R410). -/
def wPodfltBits (w : WPodflt) : BitVec 30 :=
  0#22 ++ w.word ++ w.sel

/-- The WPodflt in word 2 bits 31:2 (R410). -/
def wPodfltOf (x : BitVec 30) : WPodflt :=
  { word := bits x 3 5, sel := bits x 0 3 }

/-- The fields of a one-word instruction (R45). -/
def raw1 (op : BitVec 8) (f : F1) : Raw :=
  { len := 1, op := op, b := f.b, a := f.a, st := f.st, mod := 0, hold := 0, guard := 0, d := 0, c := 0, x := 0, lit := 0 }

/-- The fields of a three- or five-word instruction (R36, R39). -/
def raw3 (op : BitVec 8) (h : Hd) (len : Nat) (x : BitVec 30) (lit : BitVec 60) : Raw :=
  { len := len, op := op, b := h.b, a := h.a, st := h.st, mod := h.mod, hold := h.hold, guard := h.guard, d := h.d, c := h.c,
    x := x, lit := lit }

/-- Words 0 and 1 as a head (R36, R39). -/
def hdOf (r : Raw) : Hd :=
  { b := r.b, a := r.a, st := r.st, mod := r.mod, hold := r.hold, guard := r.guard, d := r.d, c := r.c }

/-- Word 0 of a one-word form (R36). -/
def f1Of (r : Raw) : F1 := { b := r.b, a := r.a, st := r.st }

/-- The fields of an instruction's words; none for an event, which no words encode, and for the two rows whose whole word is
their operand. -/
def rawOf : Instr → Option Raw
  | .pcieLinkUp _ => none
  | .hostReset => none
  | .stage1Entry _ => none
  | .go2 => none
  | .stage2Entry _ => none
  | .go3 => none
  | .stage3Entry _ _ _ => none
  | .podRootLeaves _ => none
  | .pceilWrite _ => none
  | .clockLower => none
  | .idleEntry => none
  | .idleExit => none
  | .invgo => none
  | .migRequest => none
  | .migDone => none
  | .moveClaimGrant => none
  | .load _ => none
  | .unload _ => none
  | .halt _ => none
  | .resume _ => none
  | .term _ => none
  | .preemptionSave _ => none
  | .qtailWrite _ _ => none
  | .hostQueueRecordConsume _ => none
  | .frespResume _ _ => none
  | .frespTerminate _ _ => none
  | .attestCommand => none
  | .monitorClr _ => none
  | .powerSampleTimer _ => none
  | .registerWrite _ _ _ => none
  | .hostApertureAccess _ _ _ _ => none
  | .hostMemoryAccess _ _ _ _ _ => none
  | .scrubPass _ _ _ => none
  | .rowRemap _ _ => none
  | .stashFill _ _ _ => none
  | .stashWriteBack _ _ _ => none
  | .l2Recall _ _ _ => none
  | .remoteLineRequest _ _ _ _ => none
  | .lineMigration _ _ => none
  | .faultRecordPost _ => none
  | .hotWindowExpiry => none
  | .cfillService _ _ => none
  | .peerAccess _ => none
  | .asyncFaultDelivery _ => none
  | .operationRetire _ _ => none
  | .yieldResume _ => none
  | .regclaimGrant _ _ => none
  | .engineArrival _ => none
  | .barrierWatchdogExpiry _ _ => none
  | .copyChunkDone _ _ => none
  | .copyFault _ _ => none
  | .remainderChunk _ => none
  | .prefetchLine _ => none
  | .accessElementDone _ _ => none
  | .accessOperationStop _ => none
  | .streamEntryReady _ _ => none
  | .streamFaultHold _ _ => none
  | .streamContextFree _ _ => none
  | .mmaSegmentDone _ => none
  | .matrixFault _ => none
  | .accstRowDone _ => none
  | .mzeroDone _ => none
  | .accwrDone _ => none
  | .accrdDone _ => none
  | .mldDone _ => none
  | .quantOpDone _ => none
  | .quantFault _ => none
  | .launchStart _ _ => none
  | .reservationGrant _ _ _ => none
  | .teamForm _ _ _ _ => none
  | .teamDispatch _ _ => none
  | .queueOverflow _ => none
  | .launchComplete _ => none
  | .recordEnvelope _ _ => none
  | .acknowledgement _ _ => none
  | .creditRequest _ _ => none
  | .creditGrant _ _ => none
  | .retransmitTimeout _ _ _ => none
  | .launch _ _ => none
  | .start _ _ => none
  | .started _ _ => none
  | .deal _ _ => none
  | .rdone _ _ => none
  | .fault _ _ => none
  | .cancel _ _ => none
  | .wave _ _ => none
  | .reply _ _ => none
  | .final _ _ => none
  | .pbarv _ _ => none
  | .pbres _ _ => none
  | .pbrel _ _ => none
  | .query _ _ => none
  | .answer _ _ => none
  | .zeroWord _ => none
  | .unassignedOpcode _ => none
  | .nopZ1 f => some (raw1 0x01#8 f)
  | .nop h => some (raw3 0x01#8 h 3 0 0)
  | .braJ1 f => some (raw1 0x02#8 f)
  | .bra h x => some (raw3 0x02#8 h 3 (wOffBits x) 0)
  | .brx h => some (raw3 0x03#8 h 3 0 0)
  | .brc h x => some (raw3 0x04#8 h 3 (wOffBits x) 0)
  | .join h x => some (raw3 0x05#8 h 3 (wOffBits x) 0)
  | .callJ1 f => some (raw1 0x06#8 f)
  | .call h x => some (raw3 0x06#8 h 3 (wOffBits x) 0)
  | .callx h => some (raw3 0x07#8 h 3 0 0)
  | .retZ1 f => some (raw1 0x08#8 f)
  | .ret h => some (raw3 0x08#8 h 3 0 0)
  | .exitZ1 f => some (raw1 0x09#8 f)
  | .exit h => some (raw3 0x09#8 h 3 0 0)
  | .yieldZ1 f => some (raw1 0x0A#8 f)
  | .yield h => some (raw3 0x0A#8 h 3 0 0)
  | .yieldc h x => some (raw3 0x0B#8 h 3 (wWaitBits x) 0)
  | .waitc h x => some (raw3 0x0C#8 h 3 (wWaitBits x) 0)
  | .trap h x => some (raw3 0x0D#8 h 3 (wTrapBits x) 0)
  | .svret f => some (raw1 0x0E#8 f)
  | .plop h x => some (raw3 0x0F#8 h 3 (wLutBits x) 0)
  | .saddI1 f => some (raw1 0x10#8 f)
  | .sadd h x => some (raw3 0x10#8 h 3 (wAluBits x) 0)
  | .sadd5w h x l => some (raw3 0x10#8 h 5 (wAluBits x) l)
  | .ssubI1 f => some (raw1 0x11#8 f)
  | .ssub h x => some (raw3 0x11#8 h 3 (wAluBits x) 0)
  | .ssub5w h x l => some (raw3 0x11#8 h 5 (wAluBits x) l)
  | .smulI1 f => some (raw1 0x12#8 f)
  | .smul h x => some (raw3 0x12#8 h 3 (wAluBits x) 0)
  | .smul5w h x l => some (raw3 0x12#8 h 5 (wAluBits x) l)
  | .smulhI1 f => some (raw1 0x13#8 f)
  | .smulh h x => some (raw3 0x13#8 h 3 (wAluBits x) 0)
  | .smulh5w h x l => some (raw3 0x13#8 h 5 (wAluBits x) l)
  | .sandI1 f => some (raw1 0x14#8 f)
  | .sand h x => some (raw3 0x14#8 h 3 (wAluBits x) 0)
  | .sand5w h x l => some (raw3 0x14#8 h 5 (wAluBits x) l)
  | .sorI1 f => some (raw1 0x15#8 f)
  | .sor h x => some (raw3 0x15#8 h 3 (wAluBits x) 0)
  | .sor5w h x l => some (raw3 0x15#8 h 5 (wAluBits x) l)
  | .sxorI1 f => some (raw1 0x16#8 f)
  | .sxor h x => some (raw3 0x16#8 h 3 (wAluBits x) 0)
  | .sxor5w h x l => some (raw3 0x16#8 h 5 (wAluBits x) l)
  | .sshlI1 f => some (raw1 0x17#8 f)
  | .sshl h x => some (raw3 0x17#8 h 3 (wAluBits x) 0)
  | .sshl5w h x l => some (raw3 0x17#8 h 5 (wAluBits x) l)
  | .sshrI1 f => some (raw1 0x18#8 f)
  | .sshr h x => some (raw3 0x18#8 h 3 (wAluBits x) 0)
  | .sshr5w h x l => some (raw3 0x18#8 h 5 (wAluBits x) l)
  | .ssraI1 f => some (raw1 0x19#8 f)
  | .ssra h x => some (raw3 0x19#8 h 3 (wAluBits x) 0)
  | .ssra5w h x l => some (raw3 0x19#8 h 5 (wAluBits x) l)
  | .sminI1 f => some (raw1 0x1A#8 f)
  | .smin h x => some (raw3 0x1A#8 h 3 (wAluBits x) 0)
  | .smin5w h x l => some (raw3 0x1A#8 h 5 (wAluBits x) l)
  | .smaxI1 f => some (raw1 0x1B#8 f)
  | .smax h x => some (raw3 0x1B#8 h 3 (wAluBits x) 0)
  | .smax5w h x l => some (raw3 0x1B#8 h 5 (wAluBits x) l)
  | .ssel h x => some (raw3 0x1C#8 h 3 (wAluBits x) 0)
  | .ssel5w h x l => some (raw3 0x1C#8 h 5 (wAluBits x) l)
  | .scmp h x => some (raw3 0x1D#8 h 3 (wAluBits x) 0)
  | .scmp5w h x l => some (raw3 0x1D#8 h 5 (wAluBits x) l)
  | .smovU1 f => some (raw1 0x1E#8 f)
  | .smov h x => some (raw3 0x1E#8 h 3 (wAluBits x) 0)
  | .sldiM1 f => some (raw1 0x1F#8 f)
  | .sldi h x => some (raw3 0x1F#8 h 3 (wAluBits x) 0)
  | .sldi5w h x l => some (raw3 0x1F#8 h 5 (wAluBits x) l)
  | .sldk h x => some (raw3 0x20#8 h 3 (wSldkBits x) 0)
  | .sffsU1 f => some (raw1 0x21#8 f)
  | .sffs h x => some (raw3 0x21#8 h 3 (wTyBits x) 0)
  | .spopU1 f => some (raw1 0x22#8 f)
  | .spop h x => some (raw3 0x22#8 h 3 (wTyBits x) 0)
  | .rsrU1 f => some (raw1 0x23#8 f)
  | .rsr h => some (raw3 0x23#8 h 3 0 0)
  | .wsrU1 f => some (raw1 0x24#8 f)
  | .wsr h => some (raw3 0x24#8 h 3 0 0)
  | .reggive h x => some (raw3 0x25#8 h 3 (wNibBits x) 0)
  | .regclaim h x => some (raw3 0x26#8 h 3 (wNibBits x) 0)
  | .vtos h x => some (raw3 0x27#8 h 3 (wVtosBits x) 0)
  | .stov h x => some (raw3 0x28#8 h 3 (wTyBits x) 0)
  | .klop h x => some (raw3 0x29#8 h 3 (wLutBits x) 0)
  | .iaddI1 f => some (raw1 0x30#8 f)
  | .iadd h x => some (raw3 0x30#8 h 3 (wAluBits x) 0)
  | .iadd5w h x l => some (raw3 0x30#8 h 5 (wAluBits x) l)
  | .isubI1 f => some (raw1 0x31#8 f)
  | .isub h x => some (raw3 0x31#8 h 3 (wAluBits x) 0)
  | .isub5w h x l => some (raw3 0x31#8 h 5 (wAluBits x) l)
  | .imulI1 f => some (raw1 0x32#8 f)
  | .imul h x => some (raw3 0x32#8 h 3 (wAluBits x) 0)
  | .imul5w h x l => some (raw3 0x32#8 h 5 (wAluBits x) l)
  | .imulhI1 f => some (raw1 0x33#8 f)
  | .imulh h x => some (raw3 0x33#8 h 3 (wAluBits x) 0)
  | .imulh5w h x l => some (raw3 0x33#8 h 5 (wAluBits x) l)
  | .imad h x => some (raw3 0x34#8 h 3 (wAluBits x) 0)
  | .imad5w h x l => some (raw3 0x34#8 h 5 (wAluBits x) l)
  | .iabsU1 f => some (raw1 0x35#8 f)
  | .iabs h x => some (raw3 0x35#8 h 3 (wAluBits x) 0)
  | .inegU1 f => some (raw1 0x36#8 f)
  | .ineg h x => some (raw3 0x36#8 h 3 (wAluBits x) 0)
  | .iminI1 f => some (raw1 0x37#8 f)
  | .imin h x => some (raw3 0x37#8 h 3 (wAluBits x) 0)
  | .imin5w h x l => some (raw3 0x37#8 h 5 (wAluBits x) l)
  | .imaxI1 f => some (raw1 0x38#8 f)
  | .imax h x => some (raw3 0x38#8 h 3 (wAluBits x) 0)
  | .imax5w h x l => some (raw3 0x38#8 h 5 (wAluBits x) l)
  | .icmp h x => some (raw3 0x39#8 h 3 (wAluBits x) 0)
  | .icmp5w h x l => some (raw3 0x39#8 h 5 (wAluBits x) l)
  | .isel h x => some (raw3 0x3A#8 h 3 (wAluBits x) 0)
  | .isel5w h x l => some (raw3 0x3A#8 h 5 (wAluBits x) l)
  | .ishlI1 f => some (raw1 0x3B#8 f)
  | .ishl h x => some (raw3 0x3B#8 h 3 (wAluBits x) 0)
  | .ishl5w h x l => some (raw3 0x3B#8 h 5 (wAluBits x) l)
  | .ishrI1 f => some (raw1 0x3C#8 f)
  | .ishr h x => some (raw3 0x3C#8 h 3 (wAluBits x) 0)
  | .ishr5w h x l => some (raw3 0x3C#8 h 5 (wAluBits x) l)
  | .israI1 f => some (raw1 0x3D#8 f)
  | .isra h x => some (raw3 0x3D#8 h 3 (wAluBits x) 0)
  | .isra5w h x l => some (raw3 0x3D#8 h 5 (wAluBits x) l)
  | .iandI1 f => some (raw1 0x3E#8 f)
  | .iand h x => some (raw3 0x3E#8 h 3 (wAluBits x) 0)
  | .iand5w h x l => some (raw3 0x3E#8 h 5 (wAluBits x) l)
  | .iorI1 f => some (raw1 0x3F#8 f)
  | .ior h x => some (raw3 0x3F#8 h 3 (wAluBits x) 0)
  | .ior5w h x l => some (raw3 0x3F#8 h 5 (wAluBits x) l)
  | .ixorI1 f => some (raw1 0x40#8 f)
  | .ixor h x => some (raw3 0x40#8 h 3 (wAluBits x) 0)
  | .ixor5w h x l => some (raw3 0x40#8 h 5 (wAluBits x) l)
  | .lop3 h x => some (raw3 0x41#8 h 3 (wLop3Bits x) 0)
  | .lop35w h x l => some (raw3 0x41#8 h 5 (wLop3Bits x) l)
  | .popcU1 f => some (raw1 0x42#8 f)
  | .popc h x => some (raw3 0x42#8 h 3 (wAluBits x) 0)
  | .clzU1 f => some (raw1 0x43#8 f)
  | .clz h x => some (raw3 0x43#8 h 3 (wAluBits x) 0)
  | .brevU1 f => some (raw1 0x44#8 f)
  | .brev h x => some (raw3 0x44#8 h 3 (wAluBits x) 0)
  | .bfe h x => some (raw3 0x45#8 h 3 (wAluBits x) 0)
  | .bfe5w h x l => some (raw3 0x45#8 h 5 (wAluBits x) l)
  | .bfi h x => some (raw3 0x46#8 h 3 (wAluBits x) 0)
  | .bfi5w h x l => some (raw3 0x46#8 h 5 (wAluBits x) l)
  | .fadd h x => some (raw3 0x48#8 h 3 (wAluBits x) 0)
  | .fadd5w h x l => some (raw3 0x48#8 h 5 (wAluBits x) l)
  | .fsub h x => some (raw3 0x49#8 h 3 (wAluBits x) 0)
  | .fsub5w h x l => some (raw3 0x49#8 h 5 (wAluBits x) l)
  | .fmul h x => some (raw3 0x4A#8 h 3 (wAluBits x) 0)
  | .fmul5w h x l => some (raw3 0x4A#8 h 5 (wAluBits x) l)
  | .ffma h x => some (raw3 0x4B#8 h 3 (wAluBits x) 0)
  | .ffma5w h x l => some (raw3 0x4B#8 h 5 (wAluBits x) l)
  | .fmin h x => some (raw3 0x4C#8 h 3 (wAluBits x) 0)
  | .fmin5w h x l => some (raw3 0x4C#8 h 5 (wAluBits x) l)
  | .fmax h x => some (raw3 0x4D#8 h 3 (wAluBits x) 0)
  | .fmax5w h x l => some (raw3 0x4D#8 h 5 (wAluBits x) l)
  | .fcmp h x => some (raw3 0x4E#8 h 3 (wAluBits x) 0)
  | .fcmp5w h x l => some (raw3 0x4E#8 h 5 (wAluBits x) l)
  | .frnd h x => some (raw3 0x4F#8 h 3 (wAluBits x) 0)
  | .frnd5w h x l => some (raw3 0x4F#8 h 5 (wAluBits x) l)
  | .fclass h x => some (raw3 0x50#8 h 3 (wAluBits x) 0)
  | .fclass5w h x l => some (raw3 0x50#8 h 5 (wAluBits x) l)
  | .fscale h x => some (raw3 0x51#8 h 3 (wAluBits x) 0)
  | .fscale5w h x l => some (raw3 0x51#8 h 5 (wAluBits x) l)
  | .frcp h x => some (raw3 0x58#8 h 3 (wAluBits x) 0)
  | .frsq h x => some (raw3 0x59#8 h 3 (wAluBits x) 0)
  | .fsqrt h x => some (raw3 0x5A#8 h 3 (wAluBits x) 0)
  | .fex2 h x => some (raw3 0x5B#8 h 3 (wAluBits x) 0)
  | .flg2 h x => some (raw3 0x5C#8 h 3 (wAluBits x) 0)
  | .fsin h x => some (raw3 0x5D#8 h 3 (wAluBits x) 0)
  | .fcos h x => some (raw3 0x5E#8 h 3 (wAluBits x) 0)
  | .ftanh h x => some (raw3 0x5F#8 h 3 (wAluBits x) 0)
  | .hadd2 h x => some (raw3 0x60#8 h 3 (wAluBits x) 0)
  | .hadd25w h x l => some (raw3 0x60#8 h 5 (wAluBits x) l)
  | .hmul2 h x => some (raw3 0x61#8 h 3 (wAluBits x) 0)
  | .hmul25w h x l => some (raw3 0x61#8 h 5 (wAluBits x) l)
  | .hfma2 h x => some (raw3 0x62#8 h 3 (wAluBits x) 0)
  | .hfma25w h x l => some (raw3 0x62#8 h 5 (wAluBits x) l)
  | .cvt h x => some (raw3 0x64#8 h 3 (wCvtBits x) 0)
  | .cvtn h x => some (raw3 0x65#8 h 3 (wCvtBits x) 0)
  | .pack4 h x => some (raw3 0x66#8 h 3 (wCvtBits x) 0)
  | .unpk4 h x => some (raw3 0x67#8 h 3 (wCvtBits x) 0)
  | .shfl h x => some (raw3 0x68#8 h 3 (wShflBits x) 0)
  | .ballot h => some (raw3 0x69#8 h 3 0 0)
  | .vote h x => some (raw3 0x6A#8 h 3 (wVoteBits x) 0)
  | .psum h x => some (raw3 0x6B#8 h 3 (wAluBits x) 0)
  | .redux h x => some (raw3 0x6C#8 h 3 (wReduxBits x) 0)
  | .matchV h x => some (raw3 0x6D#8 h 3 (wTyBits x) 0)
  | .movU1 f => some (raw1 0x6E#8 f)
  | .mov h x => some (raw3 0x6E#8 h 3 (wAluBits x) 0)
  | .moviM1 f => some (raw1 0x6F#8 f)
  | .movi h x => some (raw3 0x6F#8 h 3 (wAluBits x) 0)
  | .movi5w h x l => some (raw3 0x6F#8 h 5 (wAluBits x) l)
  | .pair h x => some (raw3 0xFF#8 h 3 (wPairBits x) 0)
  | .ld h x => some (raw3 0x90#8 h 3 (wMemBits x) 0)
  | .ld5w h x l => some (raw3 0x90#8 h 5 (wMemBits x) l)
  | .st h x => some (raw3 0x91#8 h 3 (wMemBits x) 0)
  | .st5w h x l => some (raw3 0x91#8 h 5 (wMemBits x) l)
  | .ldl h x => some (raw3 0x92#8 h 3 (wMemBits x) 0)
  | .ldl5w h x l => some (raw3 0x92#8 h 5 (wMemBits x) l)
  | .stl h x => some (raw3 0x93#8 h 3 (wMemBits x) 0)
  | .stl5w h x l => some (raw3 0x93#8 h 5 (wMemBits x) l)
  | .ldc h x => some (raw3 0x94#8 h 3 (wMemBits x) 0)
  | .ldc5w h x l => some (raw3 0x94#8 h 5 (wMemBits x) l)
  | .lda h x => some (raw3 0x95#8 h 3 (wMemBits x) 0)
  | .lda5w h x l => some (raw3 0x95#8 h 5 (wMemBits x) l)
  | .strel h x => some (raw3 0x96#8 h 3 (wMemBits x) 0)
  | .strel5w h x l => some (raw3 0x96#8 h 5 (wMemBits x) l)
  | .atom h x => some (raw3 0x97#8 h 3 (wAtomBits x) 0)
  | .atom5w h x l => some (raw3 0x97#8 h 5 (wAtomBits x) l)
  | .atoml h x => some (raw3 0x98#8 h 3 (wAtomBits x) 0)
  | .atoml5w h x l => some (raw3 0x98#8 h 5 (wAtomBits x) l)
  | .red h x => some (raw3 0x99#8 h 3 (wAtomBits x) 0)
  | .red5w h x l => some (raw3 0x99#8 h 5 (wAtomBits x) l)
  | .fenceZ1 f => some (raw1 0x9A#8 f)
  | .fence h x => some (raw3 0x9A#8 h 3 (wFenceBits x) 0)
  | .pref h x => some (raw3 0x9B#8 h 3 (wMemBits x) 0)
  | .pref5w h x l => some (raw3 0x9B#8 h 5 (wMemBits x) l)
  | .stashmap h x => some (raw3 0x9C#8 h 3 (wStashBits x) 0)
  | .stashunmap h x => some (raw3 0x9D#8 h 3 (wStashBits x) 0)
  | .stashsync h x => some (raw3 0x9E#8 h 3 (wStashBits x) 0)
  | .stashinv h x => some (raw3 0x9F#8 h 3 (wStashBits x) 0)
  | .discard h => some (raw3 0xA8#8 h 3 0 0)
  | .pghint h x => some (raw3 0xA9#8 h 3 (wHintBits x) 0)
  | .pgpoolGet h => some (raw3 0xAA#8 h 3 0 0)
  | .pgpoolPut h => some (raw3 0xAA#8 h 3 0 0)
  | .pgmap h => some (raw3 0xAB#8 h 3 0 0)
  | .pgmapFwd h => some (raw3 0xAB#8 h 3 0 0)
  | .tlbinv h => some (raw3 0xAC#8 h 3 0 0)
  | .barinit h x => some (raw3 0xB0#8 h 3 (wSlotBits x) 0)
  | .barexp h x => some (raw3 0xB1#8 h 3 (wSlotBits x) 0)
  | .bararv h x => some (raw3 0xB2#8 h 3 (wSlotBits x) 0)
  | .barwait h x => some (raw3 0xB3#8 h 3 (wSlotBits x) 0)
  | .bararw h x => some (raw3 0xB4#8 h 3 (wSlotBits x) 0)
  | .bartest h x => some (raw3 0xB5#8 h 3 (wSlotBits x) 0)
  | .barinv h x => some (raw3 0xB6#8 h 3 (wSlotBits x) 0)
  | .cpy h x => some (raw3 0xB8#8 h 3 (wCpyBits x) 0)
  | .cpy2d h x => some (raw3 0xB9#8 h 3 (wCpyBits x) 0)
  | .cpys h x => some (raw3 0xBA#8 h 3 (wCpyBits x) 0)
  | .pfx h x => some (raw3 0xBB#8 h 3 (wPfxBits x) 0)
  | .pfxcancel h => some (raw3 0xBC#8 h 3 0 0)
  | .apstart h x => some (raw3 0xC0#8 h 3 (wApBits x) 0)
  | .appop h x => some (raw3 0xC1#8 h 3 (wApBits x) 0)
  | .appush h x => some (raw3 0xC2#8 h 3 (wApBits x) 0)
  | .apstat h x => some (raw3 0xC3#8 h 3 (wApBits x) 0)
  | .apstop h x => some (raw3 0xC4#8 h 3 (wApBits x) 0)
  | .agath h x => some (raw3 0xC5#8 h 3 (wAgBits x) 0)
  | .ascat h x => some (raw3 0xC6#8 h 3 (wAgBits x) 0)
  | .apreplay h => some (raw3 0xC7#8 h 3 0 0)
  | .mzero h => some (raw3 0xC8#8 h 3 0 0)
  | .mma h x => some (raw3 0xC9#8 h 3 (wMmaBits x) 0)
  | .mmas h x => some (raw3 0xCA#8 h 3 (wMmaBits x) 0)
  | .mld h => some (raw3 0xCB#8 h 3 0 0)
  | .accrd h x => some (raw3 0xCC#8 h 3 (wAccBits x) 0)
  | .accwr h x => some (raw3 0xCD#8 h 3 (wAccBits x) 0)
  | .accst h x => some (raw3 0xCE#8 h 3 (wAccstBits x) 0)
  | .mstat h => some (raw3 0xCF#8 h 3 0 0)
  | .qhist h x => some (raw3 0xD8#8 h 3 (wQBits x) 0)
  | .qclip h x => some (raw3 0xD9#8 h 3 (wQBits x) 0)
  | .qpack h x => some (raw3 0xDA#8 h 3 (wQBits x) 0)
  | .qolst h x => some (raw3 0xDB#8 h 3 (wQBits x) 0)
  | .qrst h x => some (raw3 0xDC#8 h 3 (wQBits x) 0)
  | .emit h x => some (raw3 0xE0#8 h 3 (wEmitBits x) 0)
  | .emitt h x => some (raw3 0xE1#8 h 3 (wEmitBits x) 0)
  | .recld h => some (raw3 0xE2#8 h 3 0 0)
  | .flushq h x => some (raw3 0xE3#8 h 3 (wFlushBits x) 0)
  | .glaunch h => some (raw3 0xE4#8 h 3 0 0)
  | .gcancel h => some (raw3 0xE5#8 h 3 0 0)
  | .gwait h => some (raw3 0xE6#8 h 3 0 0)
  | .podbar h x => some (raw3 0xEC#8 h 3 (wNibBits x) 0)
  | .podqry h x => some (raw3 0xED#8 h 3 (wNibBits x) 0)
  | .podflt h x => some (raw3 0xEE#8 h 3 (wPodfltBits x) 0)
  | .placementReload _ _ => none
  | .ualinkPortFailure _ => none

/-- The words of an instruction's fields (R36, R39, R43). -/
def rawWords (r : Raw) : List Word :=
  let len : BitVec 2 := if r.len = 1 then 0b00#2 else if r.len = 3 then 0b01#2 else 0b10#2
  let w0 : Word := r.b ++ r.a ++ r.op ++ r.st ++ len
  let w1 : Word := r.mod ++ r.hold ++ r.guard ++ r.d ++ r.c ++ 0b11#2
  let w2 : Word := r.x ++ 0b11#2
  let w3 : Word := bits r.lit 0 30 ++ 0b11#2
  let w4 : Word := bits r.lit 30 30 ++ 0b11#2
  if r.len = 1 then [w0] else if r.len = 3 then [w0, w1, w2] else [w0, w1, w2, w3, w4]

end Sys2Proof.Machine
end

