-- ==== Sys2Proof/Machine/Form.lean ====
section
/-! DEFINITION. The operand forms of every instruction: which registers its fields name (R59), how it is checked from its words
alone (step 5 of R65 and the field rules of each chapter), its guard and its write latency (R49). -/
namespace Sys2Proof.Machine

/-- A register as an instruction names it, or as a pending write holds it (R59). -/
inductive RegName where
  | v (n : Nat) | s (n : Nat) | p (n : Nat) | k (n : Nat)
  deriving DecidableEq, Repr

/-- A register operand: whether the field is legal for its class (R59), and the registers it names. -/
structure Opd where
  ok : Bool
  regs : List RegName
  deriving DecidableEq, Repr

/-- The source lane of a SHFL, or none when it is out of range (R164). -/
def shflSrc (mode lane k : Nat) : Option Nat :=
  let n : Option Nat := match mode with
    | 0 => some k
    | 1 => some (Nat.xor lane k)
    | 2 => if k ≤ lane then some (lane - k) else none
    | 3 => some (lane + k)
    | _ => some ((lane + k) % 32)
  n.filter (fun i => decide (i < 32))

/-- The registers that a cross-lane instruction may read in lanes outside its fragment's mask (R163), and in which lanes: one that the word
names (VTOS), or those of a SHFL's MODE and index, a register or an immediate. -/
inductive CrossRead where
  | lane (regs : List RegName) (n : Nat)
  | shfl (regs : List RegName) (mode : Nat) (idx : Option Nat) (imm : Word)
  deriving DecidableEq, Repr

/-- What an instruction's words say about issue. `dst` pairs each destination with its latency, 0 for variable (R49).
`hold` lists the vector register at the first, second and third source position (R39). -/
structure Shape where
  ok : Bool
  src : List RegName
  dst : List (RegName × Nat)
  guard : BitVec 4 := 0b0111#4
  uni : Bool := false
  drain : Bool := false
  coll : Bool := false
  priv : Bool := false
  hold : List (Option Nat) := []
  holdSel : BitVec 2 := 0
  tiles : List Nat := []
  slot : Option (Nat × Bool × Nat) := none
  pair : Bool := false
  cross : Option CrossRead := none
  deriving DecidableEq, Repr

/-- `n` registers from a v-field, which must be a multiple of `n` (R59). -/
def vOp (f : BitVec 9) (n : Nat) : Opd := { ok := f.toNat % n == 0, regs := (rangeFrom f.toNat n).map .v }
/-- `n` consecutive v-registers with no alignment (R370, R372). -/
def vBlock (f : BitVec 9) (n : Nat) : Opd := { ok := true, regs := (rangeFrom f.toNat n).map .v }
/-- `n` registers from an s-field, which must be a multiple of `n` and below 128 (R59). -/
def sOp (f : BitVec 9) (n : Nat) : Opd :=
  { ok := f.toNat % n == 0 && f.toNat + n ≤ 128, regs := (rangeFrom f.toNat n).map .s }
/-- A per-lane predicate field (R59). -/
def pOp (f : BitVec 9) : Opd := { ok := f.toNat ≤ 7, regs := [.p f.toNat] }
/-- A uniform predicate field (R59). -/
def kOp (f : BitVec 9) : Opd := { ok := f.toNat ≤ 3, regs := [.k f.toNat] }
/-- A field that must be zero (R3, R39). -/
def zOp (f : BitVec 9) : Opd := { ok := f == 0, regs := [] }
/-- A field read as a number. -/
def nOp : Opd := { ok := true, regs := [] }

/-- The vector register a HOLD may name at an operand (R39). Of an operand of several registers it is the lowest: the spec does not say which
one the buffer of one register takes (R55, log 117). -/
def heldOf (o : Opd) : Option Nat :=
  match o.regs with
  | .v n :: _ => some n
  | _ => none

/-- The predicate a guard reads (R46). -/
def guardRegs (g : BitVec 4) (uni : Bool) : List RegName :=
  if bits g 0 3 = 7 then [] else if uni then [.k (bits g 0 3).toNat] else [.p (bits g 0 3).toNat]

/-- The guard encodings a class allows (R46). -/
def guardOk (g : BitVec 4) (uni : Bool) : Bool := !uni || (bits g 0 3).toNat < 4 || bits g 0 3 == 7

/-- The MOD bits outside a mask are zero (R3). -/
def modOk (m : BitVec 6) (used : BitVec 6) : Bool := m &&& ~~~used == 0

/-- The shape of a three- or five-word instruction with sources b, c, d and destination a; `lat` is its write latency. -/
def shape3 (h : Hd) (uni : Bool) (used : BitVec 6) (a b c d : Opd) (lat : Nat) (ok : Bool) : Shape :=
  { ok := ok && a.ok && b.ok && c.ok && d.ok && modOk h.mod used && guardOk h.guard uni &&
      (h.hold == 0 || ((([heldOf b, heldOf c, heldOf d])[h.hold.toNat - 1]?).join).isSome),
    src := b.regs ++ c.regs ++ d.regs ++ guardRegs h.guard uni, dst := a.regs.map (fun r => (r, lat)),
    guard := h.guard, uni := uni, hold := [heldOf b, heldOf c, heldOf d], holdSel := h.hold }

/-- A shape that reads its field A as well, for stores to it (R143, R160). -/
def alsoReads (s : Shape) (o : Opd) : Shape := { s with ok := s.ok && o.ok, src := o.regs ++ s.src }
/-- A shape with further destinations. -/
def alsoWrites (s : Shape) (o : Opd) (lat : Nat) : Shape :=
  { s with ok := s.ok && o.ok, dst := s.dst ++ o.regs.map (fun r => (r, lat)) }
/-- A shape whose HOLD must be 0b00. -/
def noHold (h : Hd) (s : Shape) : Shape := { s with ok := s.ok && h.hold == 0 }
/-- A collective instruction's shape (R24), with no HOLD. -/
def collective (h : Hd) (s : Shape) : Shape := { noHold h s with coll := true }
/-- The shape of an instruction of opcodes 0x02 to 0x0E (R51). -/
def draining (s : Shape) : Shape := { s with drain := true }
/-- A guard that must be always or never (R134). -/
def plainGuard (h : Hd) (s : Shape) : Shape := { s with ok := s.ok && bits h.guard 0 3 == 7 }

/-! ### One-word moulds (R45) -/

/-- Mould Z1: fields A and B zero. -/
def shapeZ1 (f : F1) : Shape := { ok := f.a == 0 && f.b == 0, src := [], dst := [] }
/-- Mould J1. -/
def shapeJ1 : Shape := { ok := true, src := [], dst := [], drain := true }
/-- Mould I1, U1 or M1 of a vector instruction: B is a source register when `src` is true, A also when `acc` is. -/
def shapeV1 (f : F1) (acc src : Bool) (lat : Nat) : Shape :=
  { ok := true, src := (if acc then [.v f.a.toNat] else []) ++ (if src then [.v f.b.toNat] else []), dst := [(.v f.a.toNat, lat)] }
/-- Mould I1, U1 or M1 of a uniform instruction: the register fields' bits 8:7 are zero (R45). -/
def shapeS1 (f : F1) (acc src : Bool) (lat : Nat) : Shape :=
  { ok := f.a.toNat < 128 && (!src || f.b.toNat < 128),
    src := (if acc then [.s f.a.toNat] else []) ++ (if src then [.s f.b.toNat] else []), dst := [(.s f.a.toNat, lat)], uni := true }

/-! ### Types, rounding and immediates -/

/-- Registers of an operand of a type. -/
def tyRegs : Ty → Nat
  | .i64 | .n64 | .f64 => 2
  | _ => 1

/-- The signed and unsigned integer types (R73). -/
def intTys : List Ty := [.i32, .n32, .i64, .n64, .i16, .n16, .i8, .n8]
/-- The 32- and 64-bit integer types. -/
def wordTys : List Ty := [.i32, .n32, .i64, .n64]
/-- The raw-bit types .n32 and .n64. -/
def rawTys : List Ty := [.n32, .n64]
/-- The floating types of R149. -/
def fltTys : List Ty := [.f32, .f64, .f16, .bf16]

/-- Rounding codes an instruction with RND may carry (R42, R149). -/
def rndAny : List Nat := [0, 1, 2, 3, 5]

/-- How the immediate of an operand is expanded (R43). -/
inductive ImmK where
  | int32 | int64 | f16 | f32 | f64
  deriving DecidableEq, Repr

/-- How an immediate of a type's own operand is expanded (R43). -/
def immKOf : Ty → ImmK
  | .f32 => .f32
  | .f64 => .f64
  | .f16 | .bf16 => .f16
  | .i64 | .n64 => .int64
  | _ => .int32

/-- The immediate or literal of an operand (R43). -/
def immVal (k : ImmK) (imm20 : BitVec 20) (lit : Option (BitVec 60)) : DWord :=
  match lit, k with
  | none, .int32 | none, .int64 => sx imm20
  | none, .f32 => zx (imm20 ++ 0#12)
  | none, .f64 => imm20 ++ 0#44
  | none, .f16 => zx (bits imm20 0 16 ++ bits imm20 0 16)
  | some l, .int64 => sx l
  | some l, .f64 => l ++ 0#4
  | some l, _ => zx (bits l 0 32)

/-- The form rules of an immediate or literal (R43, R44): `used` when IMM20 supplies an operand. -/
def immOk (k : ImmK) (imm : Bool) (imm20 : BitVec 20) (lit : Option (BitVec 60)) : Bool :=
  (imm || imm20 == 0) && (!(imm && k == .f16) || bits imm20 16 4 == 0) &&
  match lit with
  | none => true
  | some l => !imm && (k == .int64 || k == .f64 || bits l 32 28 == 0)

/-! ### Arithmetic forms (R142, R143) -/

/-- A source operand of an arithmetic instruction. -/
inductive Src where
  | v (n : Nat)
  | s (n : Nat)
  | imm (x : DWord)
  deriving DecidableEq, Repr

/-- What an arithmetic instruction's entry allows: number of sources, types, SAT, RND codes, MOD bits, the widths of its
sources in registers, the expansion of the last source, and its latency. -/
structure Alu where
  n : Nat
  tys : List Ty
  sat : Bool := false
  rnds : List Nat := [0]
  mod : BitVec 6 := 0
  ws : List Nat
  k : ImmK
  lat : Nat
  /-- a lone source may be replaced by IMM20 (MOVI and SLDI only, R142, R137) -/
  one : Bool := false
  acc : Bool := false
  deriving DecidableEq, Repr

/-- Whether .acc applies (R143). -/
def isAcc (p : Alu) (h : Hd) : Bool := p.acc && bit h.mod 0

/-- The sources of a vector arithmetic instruction in assembly order, the addend of .acc last (R142, R143). -/
def vSrcs (p : Alu) (h : Hd) (x : WAlu) (lit : Option (BitVec 60)) : List Src :=
  let n := if isAcc p h then p.n - 1 else p.n
  let i : Src := .imm (immVal p.k x.imm20 lit)
  let sub := x.imm || lit.isSome
  let l : List Src := [if x.ub then .s h.b.toNat else .v h.b.toNat, .v h.c.toNat, .v h.d.toNat]
  ((List.range n).map (fun j => if sub && j + 1 == n then i else l.getD j i)) ++ (if isAcc p h then [.v h.a.toNat] else [])

/-- The operand of field j of an arithmetic instruction: a source register, or a field that must be zero. -/
def aluOpd (p : Alu) (h : Hd) (x : WAlu) (sub : Bool) (uniform : Bool) (j : Nat) (f : BitVec 9) : Opd :=
  let n := if isAcc p h then p.n - 1 else p.n
  if n ≤ j || (sub && j + 1 == n) then zOp f
  else if uniform || (j == 0 && x.ub) then sOp f (p.ws.getD j 1) else vOp f (p.ws.getD j 1)

/-- The word-2 rules of an arithmetic instruction (R40 to R44, R142). -/
def aluOk (p : Alu) (h : Hd) (x : WAlu) (lit : Option (BitVec 60)) : Bool :=
  let n := if isAcc p h then p.n - 1 else p.n
  p.tys.contains x.ty && p.rnds.contains x.rnd.toNat && (!x.sat || p.sat) && immOk p.k x.imm x.imm20 lit &&
  !(x.ub && (n == 0 || (n == 1 && lit.isSome))) && !(x.imm && n == 1 && !p.one) && !(p.one && !x.imm && lit.isNone)

/-- The shape of a vector arithmetic instruction with destination `a` and, for ISEL, its predicate in field D (R142 to R157). -/
def vShape (p : Alu) (h : Hd) (x : WAlu) (lit : Option (BitVec 60)) (a : Opd) (dp : Option Opd) : Shape :=
  let sub := x.imm || lit.isSome
  let d := match dp with
    | some o => o
    | none => aluOpd p h x sub false 2 h.d
  let s := shape3 h false p.mod a (aluOpd p h x sub false 0 h.b) (aluOpd p h x sub false 1 h.c) d p.lat (aluOk p h x lit)
  if isAcc p h then alsoReads s { a with ok := true } else s

/-- The shape of a uniform arithmetic instruction (R136, R137): RND and UB zero. -/
def sShape (p : Alu) (h : Hd) (x : WAlu) (lit : Option (BitVec 60)) (a : Opd) (dp : Option Opd) : Shape :=
  let sub := x.imm || lit.isSome
  let d := match dp with
    | some o => o
    | none => zOp h.d
  shape3 h true p.mod a (aluOpd p h x sub true 0 h.b) (aluOpd p h x sub true 1 h.c) d p.lat (aluOk p h x lit && !x.ub)

/-! Latencies of R49. -/

/-- Vector integer other than multiplies, MOV and MOVI. -/
def latInt (t : Ty) : Nat := if tyRegs t = 2 then 6 else 4
/-- IMUL, IMULH and IMAD. -/
def latMul (t : Ty) : Nat := if tyRegs t = 2 then 10 else 6
/-- FADD to FSCALE. -/
def latFlt (t : Ty) : Nat := if t = .f64 then 9 else 5

/-- The entry of a uniform two-source instruction (R136). -/
def aluS (x : WAlu) (sat shift : Bool) (lat : Nat) : Alu :=
  let w := tyRegs x.ty
  { n := 2, tys := wordTys, sat := sat, ws := [w, if shift then 1 else w], k := if shift then .int32 else immKOf x.ty, lat := lat }
/-- The entry of SMOV. -/
def aluSmov (x : WAlu) : Alu := { n := 1, tys := rawTys, ws := [tyRegs x.ty], k := .int32, lat := 2 }
/-- The entry of SLDI. -/
def aluSldi (x : WAlu) : Alu := { n := 1, tys := wordTys, ws := [1], k := immKOf x.ty, lat := 2, one := true }
/-- The entry of a vector integer instruction (R144 to R148). -/
def aluI (x : WAlu) (n : Nat) (tys : List Ty) (sat : Bool) (lat : Nat) : Alu :=
  let w := tyRegs x.ty
  { n := n, tys := tys, sat := sat, ws := [w, w, w], k := immKOf x.ty, lat := lat }
/-- The entry of a vector shift, and of BFE: the second source is 32 bits wide (R142). -/
def aluSh (x : WAlu) (tys : List Ty) : Alu :=
  { n := 2, tys := tys, ws := [tyRegs x.ty, 1], k := .int32, lat := latInt x.ty }
/-- The entry of BFI. -/
def aluBfi (x : WAlu) : Alu :=
  { n := 3, tys := wordTys, ws := [tyRegs x.ty, 1, tyRegs x.ty], k := immKOf x.ty, lat := latInt x.ty }
/-- The entry of a rounding floating instruction (R149). -/
def aluF (x : WAlu) (n : Nat) (sat : Bool) (rnds : List Nat) : Alu :=
  let w := tyRegs x.ty
  { n := n, tys := fltTys, sat := sat, rnds := rnds, ws := [w, w, w], k := immKOf x.ty, lat := latFlt x.ty }
/-- The entry of FSCALE. -/
def aluScale (x : WAlu) : Alu :=
  { n := 2, tys := fltTys, sat := true, rnds := rndAny, ws := [tyRegs x.ty, 1], k := .int32, lat := latFlt x.ty }
/-- The entry of a special function (R154): variable latency, one source, no immediate. -/
def aluSpecial (rnds : List Nat) (sat : Bool) : Alu :=
  { n := 1, tys := [.f32, .f16, .bf16], sat := sat, rnds := rnds, ws := [1], k := .f32, lat := 0 }
/-- The entry of a packed half instruction (R157). -/
def aluH (n : Nat) : Alu :=
  { n := n, tys := [.f16, .bf16], sat := true, rnds := rndAny, ws := [1, 1, 1], k := .f16, lat := 5 }
/-- The entry of PSUM (R167). -/
def aluPsum (x : WAlu) : Alu :=
  { n := 1, tys := [.i32, .n32, .i64, .n64, .f32], rnds := if x.ty = .f32 then [0, 1, 2, 3] else [0], mod := 1,
    ws := [tyRegs x.ty], k := .int32, lat := 12 }
/-- The entry of MOV (R170). -/
def aluMov (x : WAlu) : Alu := { n := 1, tys := rawTys, ws := [tyRegs x.ty], k := .int32, lat := latInt x.ty }
/-- The entry of MOVI (R170). -/
def aluMovi (x : WAlu) : Alu :=
  { n := 1, tys := wordTys ++ fltTys, ws := [1], k := immKOf x.ty, lat := latInt x.ty, one := true }

/-! ### Conversions (R158 to R162) -/

/-- Whether a type is an integer. -/
def isInt (t : Ty) : Bool := intTys.contains t

/-- The RND code of a conversion: no reserved code, and no .sr into an integer (R42, R158, R162). -/
def cvtRndOk (x : WCvt) : Bool := x.rnd.toNat ≤ 5 && !(x.rnd == 5 && isInt x.ty)

/-- CVT (R158). -/
def shapeCvt (h : Hd) (x : WCvt) : Shape :=
  shape3 h false 0 (vOp h.a (tyRegs x.ty)) (vOp h.b (tyRegs x.sty)) (zOp h.c) (zOp h.d) 6 (cvtRndOk x)
/-- CVTN (R159). -/
def shapeCvtn (h : Hd) (x : WCvt) : Shape :=
  shape3 h false 0 (vOp h.a 1) (vOp h.b 1) (vOp h.c 1) (zOp h.d) 6
    (cvtRndOk x && [Ty.f16, .bf16, .i16, .n16].contains x.ty && [Ty.f32, .i32, .n32].contains x.sty)
/-- PACK4 (R160): .ra is not accepted (R42). -/
def shapePack4 (h : Hd) (x : WCvt) : Shape :=
  let tysOk := ([Ty.e4m3, .e5m2, .e8m0, .e2m1].contains x.ty && x.sty == .f32) ||
    ([Ty.i8, .n8].contains x.ty && [Ty.i32, .n32].contains x.sty)
  let hi := bit h.mod 0
  let s := shape3 h false 1 (vOp h.a 1) (vOp h.b 2) (vOp h.c 2) (zOp h.d) 6
    (cvtRndOk x && x.rnd != 4 && tysOk && (!hi || x.ty == .e2m1))
  if hi then alsoReads s (vOp h.a 1) else s
/-- UNPK4 (R161). -/
def shapeUnpk4 (h : Hd) (x : WCvt) : Shape :=
  let tysOk := ([Ty.e4m3, .e5m2, .e8m0, .e2m1].contains x.sty && x.ty == .f32) ||
    ([Ty.i8, .n8].contains x.sty && [Ty.i32, .n32].contains x.ty)
  shape3 h false 1 (vOp h.a 4) (vOp h.b 1) (zOp h.c) (zOp h.d) 6
    (x.rnd == 0 && !x.sat && tysOk && (!bit h.mod 0 || x.sty == .e2m1))

/-! ### Cross-lane (R163 to R169) -/

/-- SHFL (R164). -/
def shapeShfl (h : Hd) (x : WShfl) : Shape :=
  let w := tyRegs x.ty
  let s := shape3 h false 0 (vOp h.a w) (vOp h.b w) (if x.imm then zOp h.c else vOp h.c 1) nOp 6
    (rawTys.contains x.ty && x.mode.toNat < 5 && (x.imm || x.imm20 == 0))
  if h.d == 7 then s else alsoWrites s (pOp h.d) 6
/-- BALLOT (R165). -/
def shapeBallot (h : Hd) : Shape := shape3 h false 1 (sOp h.a 1) (pOp h.b) (zOp h.c) (zOp h.d) 6 true
/-- VOTE (R166). -/
def shapeVote (h : Hd) (x : WVote) : Shape := shape3 h false 1 (pOp h.a) (pOp h.b) (zOp h.c) (zOp h.d) 6 (x.mode.toNat < 4)
/-- REDUX (R168). -/
def shapeRedux (h : Hd) (x : WRedux) : Shape :=
  let op := (bits h.mod 0 3).toNat
  let w := tyRegs x.ty
  let tys := if op < 3 then [Ty.i32, .n32, .i64, .n64, .f32] else rawTys
  let rnds := if x.ty = .f32 && op == 0 then [0, 1, 2, 3] else [0]
  shape3 h false 7 (vOp h.a w) (vOp h.b w) (zOp h.c) (zOp h.d) 12
    (op < 6 && tys.contains x.ty && rnds.contains x.rnd.toNat && 1 ≤ x.width.toNat && x.width.toNat ≤ 5)
/-- MATCH (R169). -/
def shapeMatch (h : Hd) (x : WTy) : Shape :=
  let s := shape3 h false 1 (vOp h.a 1) (vOp h.b (tyRegs x.ty)) (zOp h.c) nOp 6 (rawTys.contains x.ty)
  if h.d == 7 then s else alsoWrites s (pOp h.d) 6
/-- LOP3 (R146). -/
def shapeLop3 (h : Hd) (x : WLop3) (lit : Option (BitVec 60)) : Shape :=
  let w := tyRegs x.ty
  let litOk := match lit with
    | none => true
    | some l => x.ty == .n64 || bits l 32 28 == 0
  shape3 h false 0 (vOp h.a w) (if x.ub then sOp h.b w else vOp h.b w) (vOp h.c w) (if lit.isSome then zOp h.d else vOp h.d w)
    (latInt x.ty) (rawTys.contains x.ty && !x.imm && litOk)

/-! ### PAIR (R56 to R58) -/

/-- One half of a PAIR: sub-opcode, destination and sources. -/
structure Half where
  op : Nat
  d : Nat
  a : Nat
  b : Nat
  deriving DecidableEq, Repr

/-- The two halves of a PAIR (R56). -/
def halves (h : Hd) (x : WPair) : Half × Half :=
  ({ op := (h.mod ++ ofBool x.op0lo).toNat, d := h.a.toNat, a := h.b.toNat, b := h.c.toNat },
   { op := x.op1.toNat, d := h.d.toNat, a := x.a1.toNat, b := x.b1.toNat })

/-- An assigned sub-opcode (R57). -/
def halfOk (f : Half) : Bool :=
  ((1 ≤ f.op && f.op ≤ 0x0F) || (0x11 ≤ f.op && f.op ≤ 0x16) || (0x20 ≤ f.op && f.op ≤ 0x26) || (0x28 ≤ f.op && f.op ≤ 0x2E)) &&
  (f.op != 0x0F || f.b == 0)

/-- The vector registers a half reads, accumulating destinations included (R57). -/
def halfReads (f : Half) : List Nat :=
  f.a :: ((if f.op == 0x0F then [] else [f.b]) ++ (if f.op == 0x04 || f.op == 0x14 then [f.d] else []))

/-- The predicate a sel half reads (R57). -/
def halfPreds (f : Half) : List RegName := if 0x20 ≤ f.op then [.p (f.op % 8)] else []

/-- The latency of a half: that of its sub-operation (R49). -/
def halfLat (f : Half) : Nat :=
  if f.op == 0x03 || f.op == 0x04 then 6 else if 0x11 ≤ f.op && f.op ≤ 0x16 then 5 else 4

/-- A half of multiply class (R57). -/
def halfMul (f : Half) : Bool := f.op == 0x03 || f.op == 0x04

/-- PAIR (R56 to R58); the bank rule depends on the operand buffer and is checked at issue. -/
def shapePair (h : Hd) (x : WPair) : Shape :=
  let f := (halves h x).1
  let g := (halves h x).2
  let pos : List (Option Nat) := [some f.a, if f.op == 0x0F then none else some f.b, some g.a]
  { ok := halfOk f && halfOk g && f.d != g.d && !(halfReads f).contains g.d && !(halfReads g).contains f.d &&
      !(halfMul f && halfMul g) && (h.hold == 0 || ((pos[h.hold.toNat - 1]?).join).isSome),
    src := (halfReads f ++ halfReads g).map .v ++ halfPreds f ++ halfPreds g ++ guardRegs h.guard false,
    dst := [(.v f.d, halfLat f), (.v g.d, halfLat g)], guard := h.guard, hold := pos, holdSel := h.hold, pair := true }

/-! ### Sequencer (R134 to R140) -/

/-- A control instruction with an OFF20 target and no other operand. -/
def shapeBranch (h : Hd) : Shape := draining (plainGuard h (shape3 h false 0 (zOp h.a) (zOp h.b) (zOp h.c) (zOp h.d) 0 true))
/-- A control instruction without operands (NOP, EXIT). -/
def shapeBare (h : Hd) : Shape := shape3 h false 0 (zOp h.a) (zOp h.b) (zOp h.c) (zOp h.d) 0 true
/-- BRC (R115). -/
def shapeBrc (h : Hd) : Shape := draining (plainGuard h (shape3 h false 1 (zOp h.a) (pOp h.b) nOp nOp 0 true))
/-- YIELDC and WAITC (R124): `cont` when D:C holds the continuation. -/
def shapeWait (h : Hd) (x : WWait) (cont : Bool) : Shape :=
  let cnt := x.kind == 0
  let s := draining (plainGuard h (shape3 h false 0 (zOp h.a) (if cnt then zOp h.b else sOp h.b 1)
    (if cont then nOp else zOp h.c) (if cont then nOp else zOp h.d) 0
    (x.kind != 3 && (if cnt then x.slot == 0 && x.cls.toNat < 6 && !x.cl && x.cpos == 0 else x.cls == 0 && x.thresh == 0))))
  if cnt then s else { s with slot := some (x.slot.toNat, x.cl, x.cpos.toNat) }

/-- The special registers of R107. -/
def sregListed (n : Nat) : Bool := n ≤ 0x15 || (0x20 ≤ n && n ≤ 0x2D)
/-- The per-lane special registers (R107). -/
def sregLane (n : Nat) : Bool := n == 0x00 || n == 0x0C
/-- The read-only special registers (R107). -/
def sregRO (n : Nat) : Bool :=
  !(n == 0x0A || n == 0x0B || n == 0x0C || (0x20 ≤ n && n ≤ 0x29) || n == 0x2D)

/-- RSR (R107, R139): field A is the register read into. -/
def shapeRsr (a b : BitVec 9) : Shape :=
  let n := b.toNat
  if sregLane n then { ok := sregListed n, src := [], dst := [(.v a.toNat, 0)], uni := true }
  else { ok := sregListed n && a.toNat < 128, src := [], dst := [(.s a.toNat, 0)], uni := true }
/-- WSR (R107, R139): a write to a read-only register traps PRIV in user mode. -/
def shapeWsr (a b : BitVec 9) : Shape :=
  let n := b.toNat
  if sregLane n then { ok := sregListed n, src := [.v a.toNat], dst := [], uni := true, priv := sregRO n }
  else { ok := sregListed n && a.toNat < 128, src := [.s a.toNat], dst := [], uni := true, priv := sregRO n }
/-- The three-word form of RSR or WSR: fields C and D zero (R139). -/
def withHd (h : Hd) (s : Shape) : Shape :=
  { s with ok := s.ok && h.c == 0 && h.d == 0 && h.mod == 0 && h.hold == 0 && guardOk h.guard true,
           src := s.src ++ guardRegs h.guard true, guard := h.guard }

/-! ### Load-store (R188 to R195) -/

/-- Registers of a SIZE (R189). -/
def sizeRegs (n : Nat) : Nat := if n == 6 then 4 else if n == 5 then 2 else 1

/-- Bytes of a SIZE (R189). -/
def sizeBytes (n : Nat) : Nat := ([1, 1, 2, 2, 4, 8, 16]).getD n 1

/-- The base operand of a memory instruction: a pair, or one register for a local access (R188). -/
def baseOp (h : Hd) (ub loc : Bool) : Opd := if ub then sOp h.b (if loc then 1 else 2) else vOp h.b (if loc then 1 else 2)

/-- Which loads and stores may be strong, or remote (R190). -/
inductive MemKind where
  | plain | local | const | acq | rel | pref
  deriving DecidableEq, Repr

/-- LD, ST, LDL, STL, LDC, LDA, STREL and PREF (R188 to R190, R193). -/
def shapeMem (h : Hd) (x : WMem) (five store : Bool) (k : MemKind) : Shape :=
  let n := x.size.toNat
  let strong := bit h.mod 2
  let remote := bit h.mod 3
  let ok := bits h.mod 0 2 != 3 && x.scope.toNat ≤ 5 && (!five || x.off == 0) &&
    (if k = .pref then n ≤ 1 else n ≤ 6 && !(store && (n == 1 || n == 3))) &&
    (!remote || (k = .acq && x.scope == 3)) && (!strong || k = .plain || k = .local) &&
    (x.scope == 0 || strong || k = .acq || k = .rel)
  shape3 h false 0b001111 (if store || k = .pref then zOp h.a else vOp h.a (sizeRegs n)) (baseOp h x.ub (k = .local))
    (if store then vOp h.c (sizeRegs n) else zOp h.c) (zOp h.d) 0 ok

/-- ATOM, ATOML and RED (R191). -/
def shapeAtom (h : Hd) (x : WAtom) (five loc red : Bool) : Shape :=
  let op := (bits h.mod 0 3).toNat
  let w := tyRegs x.ty
  let remote := bit h.mod 3
  let tys := if op == 0 || 6 ≤ op then [Ty.i32, .n32, .i64, .n64, .f32, .f64] else wordTys
  let ok := tys.contains x.ty && x.scope.toNat ≤ 5 && (!five || x.off == 0) &&
    !(red && (6 ≤ op || x.order == 1 || x.order == 3)) && (!remote || ((x.order == 1 || x.order == 3) && x.scope == 3))
  shape3 h false 0b001111 (if red then zOp h.a else vOp h.a w) (baseOp h x.ub loc) (vOp h.c w)
    (if op == 7 then vOp h.d w else zOp h.d) 0 ok

/-- FENCE (R192). -/
def shapeFence (h : Hd) (x : WFence) : Shape := shape3 h false 0 (zOp h.a) (zOp h.b) (zOp h.c) (zOp h.d) 0 (x.scope.toNat ≤ 5)
/-- STASHMAP (R194). -/
def shapeStashmap (h : Hd) : Shape := shape3 h false 0 (zOp h.a) (sOp h.b 1) (sOp h.c 2) (sOp h.d 1) 0 true
/-- STASHUNMAP, STASHSYNC and STASHINV (R195): `all` when bit 27 may be set. -/
def shapeStash (h : Hd) (x : WStash) (all : Bool) : Shape :=
  shape3 h false 0 (zOp h.a) (zOp h.b) (zOp h.c) (zOp h.d) 0 (!x.flag || (all && x.win == 0))

/-! ### Map unit (R227, R228) -/

/-- DISCARD and PGHINT: a base pair and a count. -/
def shapeRange (h : Hd) (ok : Bool) : Shape := shape3 h false 0 (zOp h.a) (sOp h.b 2) (sOp h.c 1) (zOp h.d) 0 ok
/-- A supervisor-only shape (R63). -/
def supervisor (s : Shape) : Shape := { s with priv := true }
/-- PGPOOL (R227). -/
def shapePgpool (h : Hd) (put : Bool) : Shape :=
  let s := shape3 h false 1 (if put then zOp h.a else sOp h.a 2) (if put then sOp h.b 2 else zOp h.b) nOp (zOp h.d) 0 (bit h.mod 0 == put)
  supervisor (alsoWrites s (kOp h.c) 0)
/-- PGMAP and PGMAP.fwd (R227). -/
def shapePgmap (h : Hd) (fwd : Bool) : Shape :=
  supervisor (shape3 h false (if fwd then 2 else 1) (if fwd then zOp h.a else sOp h.a 1) (if fwd then zOp h.b else sOp h.b 2)
    (if fwd then zOp h.c else sOp h.c 2) (zOp h.d) 0 (bit h.mod 1 == fwd))
/-- TLBINV (R227). -/
def shapeTlbinv (h : Hd) : Shape :=
  let page := bit h.mod 0
  supervisor (shape3 h false 1 (zOp h.a) (if page then sOp h.b 2 else zOp h.b) (if page then sOp h.c 1 else zOp h.c) (zOp h.d) 0 true)

/-! ### Barrier unit, copy engine, access processor -/

/-- A barrier instruction's shape with its slot (R242, R243). -/
def shapeBar (h : Hd) (x : WSlot) (used : BitVec 6) (a b c d : Opd) (ok : Bool) : Shape :=
  { noHold h (shape3 h false used a b c d 0 ok) with slot := some (x.slot.toNat, x.cl, x.cpos.toNat) }

/-- Slot fields that must be zero when REP or NB is 0, and the slot otherwise (R254). -/
def repSlot (s : Shape) (rep : Bool) (slot : BitVec 10) (cl : Bool) (cpos : BitVec 4) : Shape :=
  if rep then { s with slot := some (slot.toNat, cl, cpos.toNat) } else { s with ok := s.ok && slot == 0 && !cl && cpos == 0 }

/-- CPY, CPY2D and CPYS (R254). -/
def shapeCpy (h : Hd) (x : WCpy) (dlOk zwsOk : Bool) (srcRegs lenRegs : Nat) : Shape :=
  let dl := bit h.mod 1
  let zws := bit h.mod 0
  let s := collective h (shape3 h false 3 nOp (sOp h.b srcRegs) (sOp h.c lenRegs) (if zws then sOp h.d 1 else zOp h.d) 0
    ((dlOk || !dl) && (zwsOk || !zws) && x.scope.toNat ≤ 5 && (x.rep || x.cbit == 0)))
  repSlot (alsoReads s (sOp h.a (if dl then 1 else 2))) x.rep x.slot x.cl x.cpos

/-- PFX (R269). -/
def shapePfx (h : Hd) (x : WPfx) : Shape :=
  repSlot (collective h (shape3 h false 0 (zOp h.a) (sOp h.b 2) (sOp h.c 1) (sOp h.d 1) 0 true)) x.nb x.slot x.cl x.cpos

/-- A predicate field where 7 means none (R283). -/
def optP (s : Shape) (f : BitVec 9) : Shape := if f == 7 then s else alsoWrites s (pOp f) 0

/-- A stream instruction (R283): `sz` when the SIZE field is used. -/
def shapeAp (h : Hd) (x : WAp) (a b c d : Opd) (sz : Bool) : Shape :=
  noHold h (shape3 h false 0 a b c d 0 (if sz then x.size.toNat ≤ 6 else x.size == 0))

/-- AGATH and ASCAT (R278, R279). -/
def shapeAg (h : Hd) (x : WAg) (gather : Bool) : Shape :=
  let n := x.size.toNat
  let data := vOp h.a (sizeRegs n)
  let s := noHold h (shape3 h false 0 (if gather then data else nOp) (sOp h.b 2) (vOp h.c 1) (sOp h.d 4) 0
    (n ≤ 6 && x.scope.toNat ≤ 5 && (gather || (n != 1 && n != 3 && x.okp == 0))))
  let s := if gather then optP s (x.okp.setWidth 9) else alsoReads s data
  repSlot s x.rep x.slot x.cl x.cpos

/-! ### Matrix engine and quantiser -/

/-- A tile field (R59). -/
def tOp (f : BitVec 9) : Opd := { ok := f.toNat ≤ 20, regs := [] }

/-- A matrix instruction that names a tile (R309). -/
def shapeTile (h : Hd) (tile : BitVec 9) (used : BitVec 6) (a b c d : Opd) (ok : Bool) : Shape :=
  { collective h (shape3 h false used a b c d 0 (ok && tile.toNat ≤ 20)) with tiles := [tile.toNat] }

/-- The legal type pairs of R299. -/
def pairOk (a b : Ty) : Bool :=
  ([Ty.e4m3, .e5m2, .e2m1].contains a && [Ty.e4m3, .e5m2, .e2m1].contains b) || (a == .bf16 && b == .bf16) || (a == .f16 && b == .f16)

/-- MMA and MMAS (R311). -/
def shapeMma (h : Hd) (x : WMma) (sparse : Bool) : Shape :=
  shapeTile h h.a 0b111111 (tOp h.a) (sOp h.b 1) (sOp h.c 1) (sOp h.d 1)
    (pairOk x.aty x.bty && (if sparse then x.pat != 0 && !(x.pat == 1 && bits h.mod 0 3 != 0) && !(x.pat == 2 && bits h.mod 3 3 != 0)
      else x.pat == 0 && h.mod == 0))

/-- The destination types of ACCRD and ACCST (R315, R318). -/
def accTys : List Ty := [.f32, .f64, .f16, .bf16, .e4m3, .e5m2]

/-- The TYPE, RND, SAT and WIDE rules of ACCRD and ACCST (R315). -/
def accOk (ty : Ty) (rnd : BitVec 3) (sat wide : Bool) : Bool :=
  if wide then ty == .i32 && rnd == 0 && !sat else accTys.contains ty && rnd.toNat < 4

/-- Registers of an ACCRD or ACCWR element (R315). -/
def accRegs (ty : Ty) (wide : Bool) : Nat := if wide then 4 else tyRegs ty

/-- ACCRD (R315, R316). -/
def shapeAccrd (h : Hd) (x : WAcc) : Shape :=
  shapeTile h h.b 1 (vOp h.a (accRegs x.ty x.wide)) (tOp h.b) (sOp h.c 1) (zOp h.d) (accOk x.ty x.rnd x.sat x.wide)
/-- ACCWR (R315, R317). -/
def shapeAccwr (h : Hd) (x : WAcc) : Shape :=
  shapeTile h h.a 3 (tOp h.a) (vOp h.b (accRegs x.ty x.wide)) (sOp h.c 1) (zOp h.d)
    (x.rnd == 0 && !x.sat && (if x.wide then x.ty == .i32 else fltTys.contains x.ty))
/-- ACCST (R318). -/
def shapeAccst (h : Hd) (x : WAccst) : Shape :=
  repSlot (shapeTile h h.a 0 (tOp h.a) (sOp h.b 2) (sOp h.c 1) (sOp h.d 1)
    (accOk x.ty x.rnd x.sat x.wide && (!x.pad || x.wide) && x.scope.toNat ≤ 5)) x.rep x.slot x.cl x.cpos

/-- A quantiser instruction (R340). -/
def shapeQ (h : Hd) (x : WQ) (pack hist : Bool) : Shape :=
  collective h (shape3 h false 0 (zOp h.a) (sOp h.b 1) (zOp h.c) (zOp h.d) 0
    (x.scope.toNat ≤ 5 && (x.rnd == 0 || (pack && x.rnd == 5)) && (pack || !x.strict) && (hist || !x.acc)))

/-! ### Graph scheduler and pod (R369 to R376, R407 to R410) -/

/-- EMIT (R370): `n` registers hold a record. -/
def shapeEmit (h : Hd) (x : WEmit) (n : Nat) : Shape :=
  let nb := bit h.mod 1
  let xx := bit h.mod 0
  noHold h (shape3 h false 3 (if nb then pOp h.a else zOp h.a) (vBlock h.b n) (if xx then vOp h.c 1 else zOp h.c) (zOp h.d) 0
    (!xx || x.succ == 0))
/-- EMITT (R371). -/
def shapeEmitt (h : Hd) : Shape :=
  noHold h (shape3 h false 2 (if bit h.mod 1 then kOp h.a else zOp h.a) (sOp h.b 1) (zOp h.c) (zOp h.d) 0 true)
/-- RECLD (R372): `n` registers receive a record. -/
def shapeRecld (h : Hd) (n : Nat) : Shape :=
  let a : Opd := if bit h.mod 0 then { ok := h.a.toNat + n ≤ 128, regs := (rangeFrom h.a.toNat n).map .s } else vBlock h.a n
  noHold h (shape3 h false 1 a (zOp h.b) (zOp h.c) (zOp h.d) 0 true)
/-- FLUSHQ (R373). -/
def shapeFlushq (h : Hd) (x : WFlush) : Shape :=
  noHold h (shape3 h false 1 (zOp h.a) (zOp h.b) (zOp h.c) (zOp h.d) 0 (!bit h.mod 0 || x.succ == 0))
/-- GLAUNCH (R374). -/
def shapeGlaunch (h : Hd) : Shape :=
  let nb := bit h.mod 1
  let s := noHold h (shape3 h false 2 (sOp h.a 1) (sOp h.b 1) (if nb then nOp else zOp h.c) (zOp h.d) 0 true)
  if nb then alsoWrites s (kOp h.c) 0 else s
/-- PODBAR (R408). -/
def shapePodbar (h : Hd) : Shape :=
  let m := (bits h.mod 0 2).toNat
  noHold h (shape3 h false 3 (if m == 1 then sOp h.a 1 else pOp h.a) (sOp h.b 1) (zOp h.c) (zOp h.d) 0 (m != 3))
/-- PODQRY (R409). -/
def shapePodqry (h : Hd) (x : WNib) : Shape :=
  noHold h (shape3 h false 0 (sOp h.a 1) (if x.n == 7 then sOp h.b 1 else zOp h.b) (zOp h.c) (zOp h.d) 0 (x.n.toNat < 8))
/-- PODFLT (R410). -/
def shapePodflt (h : Hd) (x : WPodflt) : Shape :=
  noHold h (shape3 h false 0 (sOp h.a 1) (sOp h.b 1) (zOp h.c) (zOp h.d) 0 (x.sel.toNat < 7 && (x.sel == 6 || x.word == 0)))

/-- The shape of a row that no instruction word encodes. -/
def noShape : Shape := { ok := true, src := [], dst := [] }

/-- The shape of NOP_Z1 (R64). -/
def shNopZ1 (f : F1) : Shape :=
  shapeZ1 f
/-- The shape of NOP (R64). -/
def shNop (h : Hd) : Shape :=
  shapeBare h
/-- The shape of BRA_J1 (R134). -/
def shBraJ1 : Shape :=
  shapeJ1
/-- The shape of BRA (R134). -/
def shBra (h : Hd) : Shape :=
  shapeBranch h
/-- The shape of BRX (R134). -/
def shBrx (h : Hd) : Shape :=
  draining (plainGuard h (shape3 h false 0 (zOp h.a) (sOp h.b 2) (zOp h.c) (zOp h.d) 0 true))
/-- The shape of BRC (R115). -/
def shBrc (h : Hd) : Shape :=
  shapeBrc h
/-- The shape of JOIN (R116). -/
def shJoin (h : Hd) : Shape :=
  shapeBranch h
/-- The shape of CALL_J1 (R120). -/
def shCallJ1 : Shape :=
  shapeJ1
/-- The shape of CALL (R120). -/
def shCall (h : Hd) : Shape :=
  shapeBranch h
/-- The shape of CALLX (R121). -/
def shCallx (h : Hd) : Shape :=
  draining (plainGuard h (shape3 h false 0 (zOp h.a) (vOp h.b 2) (zOp h.c) (zOp h.d) 0 true))
/-- The shape of RET_Z1 (R122). -/
def shRetZ1 (f : F1) : Shape :=
  draining (shapeZ1 f)
/-- The shape of RET (R122). -/
def shRet (h : Hd) : Shape :=
  draining (plainGuard h (shapeBare h))
/-- The shape of EXIT_Z1 (R118). -/
def shExitZ1 (f : F1) : Shape :=
  draining (shapeZ1 f)
/-- The shape of EXIT (R118). -/
def shExit (h : Hd) : Shape :=
  draining (shapeBare h)
/-- The shape of YIELD_Z1 (R123). -/
def shYieldZ1 (f : F1) : Shape :=
  draining (shapeZ1 f)
/-- The shape of YIELD (R123). -/
def shYield (h : Hd) : Shape :=
  draining (plainGuard h (shapeBare h))
/-- The shape of YIELDC (R124). -/
def shYieldc (h : Hd) (x : WWait) : Shape :=
  shapeWait h x true
/-- The shape of WAITC (R124). -/
def shWaitc (h : Hd) (x : WWait) : Shape :=
  shapeWait h x false
/-- The shape of TRAP (R132). -/
def shTrap (h : Hd) (x : WTrap) : Shape :=
  draining (shape3 h false 0 (zOp h.a) (zOp h.b) (zOp h.c) (zOp h.d) 0 (bit x.cause 11))
/-- The shape of SVRET (R131). -/
def shSvret (f : F1) : Shape :=
  draining (supervisor (shapeZ1 f))
/-- The shape of PLOP (R135). -/
def shPlop (h : Hd) : Shape :=
  shape3 h false 0 (pOp h.a) (pOp h.b) (pOp h.c) (pOp h.d) 2 true
/-- The shape of SADD_I1 (R136). -/
def shSaddI1 (f : F1) : Shape :=
  shapeS1 f true false 2
/-- The shape of SADD (R136). -/
def shSadd (h : Hd) (x : WAlu) : Shape :=
  sShape (aluS x true false 2) h x none (sOp h.a (tyRegs x.ty)) none
/-- The shape of SADD_5W (R136). -/
def shSadd5w (h : Hd) (x : WAlu) (l : BitVec 60) : Shape :=
  sShape (aluS x true false 2) h x (some l) (sOp h.a (tyRegs x.ty)) none
/-- The shape of SSUB_I1 (R136). -/
def shSsubI1 (f : F1) : Shape :=
  shapeS1 f true false 2
/-- The shape of SSUB (R136). -/
def shSsub (h : Hd) (x : WAlu) : Shape :=
  sShape (aluS x true false 2) h x none (sOp h.a (tyRegs x.ty)) none
/-- The shape of SSUB_5W (R136). -/
def shSsub5w (h : Hd) (x : WAlu) (l : BitVec 60) : Shape :=
  sShape (aluS x true false 2) h x (some l) (sOp h.a (tyRegs x.ty)) none
/-- The shape of SMUL_I1 (R136). -/
def shSmulI1 (f : F1) : Shape :=
  shapeS1 f true false 4
/-- The shape of SMUL (R136). -/
def shSmul (h : Hd) (x : WAlu) : Shape :=
  sShape (aluS x true false 4) h x none (sOp h.a (tyRegs x.ty)) none
/-- The shape of SMUL_5W (R136). -/
def shSmul5w (h : Hd) (x : WAlu) (l : BitVec 60) : Shape :=
  sShape (aluS x true false 4) h x (some l) (sOp h.a (tyRegs x.ty)) none
/-- The shape of SMULH_I1 (R136). -/
def shSmulhI1 (f : F1) : Shape :=
  shapeS1 f true false 4
/-- The shape of SMULH (R136). -/
def shSmulh (h : Hd) (x : WAlu) : Shape :=
  sShape (aluS x false false 4) h x none (sOp h.a (tyRegs x.ty)) none
/-- The shape of SMULH_5W (R136). -/
def shSmulh5w (h : Hd) (x : WAlu) (l : BitVec 60) : Shape :=
  sShape (aluS x false false 4) h x (some l) (sOp h.a (tyRegs x.ty)) none
/-- The shape of SAND_I1 (R136). -/
def shSandI1 (f : F1) : Shape :=
  shapeS1 f true false 2
/-- The shape of SAND (R136). -/
def shSand (h : Hd) (x : WAlu) : Shape :=
  sShape (aluS x false false 2) h x none (sOp h.a (tyRegs x.ty)) none
/-- The shape of SAND_5W (R136). -/
def shSand5w (h : Hd) (x : WAlu) (l : BitVec 60) : Shape :=
  sShape (aluS x false false 2) h x (some l) (sOp h.a (tyRegs x.ty)) none
/-- The shape of SOR_I1 (R136). -/
def shSorI1 (f : F1) : Shape :=
  shapeS1 f true false 2
/-- The shape of SOR (R136). -/
def shSor (h : Hd) (x : WAlu) : Shape :=
  sShape (aluS x false false 2) h x none (sOp h.a (tyRegs x.ty)) none
/-- The shape of SOR_5W (R136). -/
def shSor5w (h : Hd) (x : WAlu) (l : BitVec 60) : Shape :=
  sShape (aluS x false false 2) h x (some l) (sOp h.a (tyRegs x.ty)) none
/-- The shape of SXOR_I1 (R136). -/
def shSxorI1 (f : F1) : Shape :=
  shapeS1 f true false 2
/-- The shape of SXOR (R136). -/
def shSxor (h : Hd) (x : WAlu) : Shape :=
  sShape (aluS x false false 2) h x none (sOp h.a (tyRegs x.ty)) none
/-- The shape of SXOR_5W (R136). -/
def shSxor5w (h : Hd) (x : WAlu) (l : BitVec 60) : Shape :=
  sShape (aluS x false false 2) h x (some l) (sOp h.a (tyRegs x.ty)) none
/-- The shape of SSHL_I1 (R136). -/
def shSshlI1 (f : F1) : Shape :=
  shapeS1 f true false 2
/-- The shape of SSHL (R136). -/
def shSshl (h : Hd) (x : WAlu) : Shape :=
  sShape (aluS x false true 2) h x none (sOp h.a (tyRegs x.ty)) none
/-- The shape of SSHL_5W (R136). -/
def shSshl5w (h : Hd) (x : WAlu) (l : BitVec 60) : Shape :=
  sShape (aluS x false true 2) h x (some l) (sOp h.a (tyRegs x.ty)) none
/-- The shape of SSHR_I1 (R136). -/
def shSshrI1 (f : F1) : Shape :=
  shapeS1 f true false 2
/-- The shape of SSHR (R136). -/
def shSshr (h : Hd) (x : WAlu) : Shape :=
  sShape (aluS x false true 2) h x none (sOp h.a (tyRegs x.ty)) none
/-- The shape of SSHR_5W (R136). -/
def shSshr5w (h : Hd) (x : WAlu) (l : BitVec 60) : Shape :=
  sShape (aluS x false true 2) h x (some l) (sOp h.a (tyRegs x.ty)) none
/-- The shape of SSRA_I1 (R136). -/
def shSsraI1 (f : F1) : Shape :=
  shapeS1 f true false 2
/-- The shape of SSRA (R136). -/
def shSsra (h : Hd) (x : WAlu) : Shape :=
  sShape (aluS x false true 2) h x none (sOp h.a (tyRegs x.ty)) none
/-- The shape of SSRA_5W (R136). -/
def shSsra5w (h : Hd) (x : WAlu) (l : BitVec 60) : Shape :=
  sShape (aluS x false true 2) h x (some l) (sOp h.a (tyRegs x.ty)) none
/-- The shape of SMIN_I1 (R136). -/
def shSminI1 (f : F1) : Shape :=
  shapeS1 f true false 2
/-- The shape of SMIN (R136). -/
def shSmin (h : Hd) (x : WAlu) : Shape :=
  sShape (aluS x false false 2) h x none (sOp h.a (tyRegs x.ty)) none
/-- The shape of SMIN_5W (R136). -/
def shSmin5w (h : Hd) (x : WAlu) (l : BitVec 60) : Shape :=
  sShape (aluS x false false 2) h x (some l) (sOp h.a (tyRegs x.ty)) none
/-- The shape of SMAX_I1 (R136). -/
def shSmaxI1 (f : F1) : Shape :=
  shapeS1 f true false 2
/-- The shape of SMAX (R136). -/
def shSmax (h : Hd) (x : WAlu) : Shape :=
  sShape (aluS x false false 2) h x none (sOp h.a (tyRegs x.ty)) none
/-- The shape of SMAX_5W (R136). -/
def shSmax5w (h : Hd) (x : WAlu) (l : BitVec 60) : Shape :=
  sShape (aluS x false false 2) h x (some l) (sOp h.a (tyRegs x.ty)) none
/-- The shape of SSEL (R137). -/
def shSsel (h : Hd) (x : WAlu) : Shape :=
  sShape (aluS x false false 2) h x none (sOp h.a (tyRegs x.ty)) (some (kOp h.d))
/-- The shape of SSEL_5W (R137). -/
def shSsel5w (h : Hd) (x : WAlu) (l : BitVec 60) : Shape :=
  sShape (aluS x false false 2) h x (some l) (sOp h.a (tyRegs x.ty)) (some (kOp h.d))
/-- The shape of SCMP (R137). -/
def shScmp (h : Hd) (x : WAlu) : Shape :=
  let s := sShape ({ aluS x false false 2 with mod := 7 }) h x none (kOp h.a) none
  { s with ok := s.ok && (bits h.mod 0 3).toNat < 6 }
/-- The shape of SCMP_5W (R137). -/
def shScmp5w (h : Hd) (x : WAlu) (l : BitVec 60) : Shape :=
  let s := sShape ({ aluS x false false 2 with mod := 7 }) h x (some l) (kOp h.a) none
  { s with ok := s.ok && (bits h.mod 0 3).toNat < 6 }
/-- The shape of SMOV_U1 (R137). -/
def shSmovU1 (f : F1) : Shape :=
  shapeS1 f false true 2
/-- The shape of SMOV (R137). -/
def shSmov (h : Hd) (x : WAlu) : Shape :=
  sShape (aluSmov x) h x none (sOp h.a (tyRegs x.ty)) none
/-- The shape of SLDI_M1 (R137). -/
def shSldiM1 (f : F1) : Shape :=
  shapeS1 f false false 2
/-- The shape of SLDI (R137). -/
def shSldi (h : Hd) (x : WAlu) : Shape :=
  sShape (aluSldi x) h x none (sOp h.a (tyRegs x.ty)) none
/-- The shape of SLDI_5W (R137). -/
def shSldi5w (h : Hd) (x : WAlu) (l : BitVec 60) : Shape :=
  sShape (aluSldi x) h x (some l) (sOp h.a (tyRegs x.ty)) none
/-- The shape of SLDK (R138). -/
def shSldk (h : Hd) (x : WSldk) : Shape :=
  shape3 h true 0 (sOp h.a (tyRegs x.ty)) (sOp h.b 2) (zOp h.c) (zOp h.d) 0 (rawTys.contains x.ty)
/-- The shape of SFFS_U1 (R137). -/
def shSffsU1 (f : F1) : Shape :=
  shapeS1 f false true 2
/-- The shape of SFFS (R137). -/
def shSffs (h : Hd) (x : WTy) : Shape :=
  shape3 h true 0 (sOp h.a 1) (sOp h.b (tyRegs x.ty)) (zOp h.c) (zOp h.d) 2 (rawTys.contains x.ty)
/-- The shape of SPOP_U1 (R137). -/
def shSpopU1 (f : F1) : Shape :=
  shapeS1 f false true 2
/-- The shape of SPOP (R137). -/
def shSpop (h : Hd) (x : WTy) : Shape :=
  shape3 h true 0 (sOp h.a 1) (sOp h.b (tyRegs x.ty)) (zOp h.c) (zOp h.d) 2 (rawTys.contains x.ty)
/-- The shape of RSR_U1 (R139). -/
def shRsrU1 (f : F1) : Shape :=
  shapeRsr f.a f.b
/-- The shape of RSR (R139). -/
def shRsr (h : Hd) : Shape :=
  withHd h (shapeRsr h.a h.b)
/-- The shape of WSR_U1 (R139). -/
def shWsrU1 (f : F1) : Shape :=
  shapeWsr f.a f.b
/-- The shape of WSR (R139). -/
def shWsr (h : Hd) : Shape :=
  withHd h (shapeWsr h.a h.b)
/-- The shape of REGGIVE (R126). -/
def shReggive (h : Hd) (x : WNib) : Shape :=
  shape3 h true 0 (zOp h.a) (zOp h.b) (zOp h.c) (zOp h.d) 0 (x.n != 0)
/-- The shape of REGCLAIM (R126). -/
def shRegclaim (h : Hd) (x : WNib) : Shape :=
  shape3 h true 0 (zOp h.a) (zOp h.b) (zOp h.c) (zOp h.d) 0 (x.n != 0)
/-- The shape of VTOS (R137). -/
def shVtos (h : Hd) (x : WVtos) : Shape :=
  { shape3 h true 1 (sOp h.a (tyRegs x.ty)) (vOp h.b (tyRegs x.ty)) (zOp h.c) (zOp h.d) 4
  (rawTys.contains x.ty && (!bit h.mod 0 || x.lane == 0)) with
    cross := if bit h.mod 0 then none else some (.lane (vOp h.b (tyRegs x.ty)).regs x.lane.toNat) }
/-- The shape of STOV (R137). -/
def shStov (h : Hd) (x : WTy) : Shape :=
  shape3 h true 0 (vOp h.a (tyRegs x.ty)) (sOp h.b (tyRegs x.ty)) (zOp h.c) (zOp h.d) 4 (rawTys.contains x.ty)
/-- The shape of KLOP (R137). -/
def shKlop (h : Hd) : Shape :=
  shape3 h true 0 (kOp h.a) (kOp h.b) (kOp h.c) (kOp h.d) 2 true
/-- The shape of IADD_I1 (R144). -/
def shIaddI1 (f : F1) : Shape :=
  shapeV1 f true false 4
/-- The shape of IADD (R144). -/
def shIadd (h : Hd) (x : WAlu) : Shape :=
  vShape (aluI x 2 intTys true (latInt x.ty)) h x none (vOp h.a (tyRegs x.ty)) none
/-- The shape of IADD_5W (R144). -/
def shIadd5w (h : Hd) (x : WAlu) (l : BitVec 60) : Shape :=
  vShape (aluI x 2 intTys true (latInt x.ty)) h x (some l) (vOp h.a (tyRegs x.ty)) none
/-- The shape of ISUB_I1 (R144). -/
def shIsubI1 (f : F1) : Shape :=
  shapeV1 f true false 4
/-- The shape of ISUB (R144). -/
def shIsub (h : Hd) (x : WAlu) : Shape :=
  vShape (aluI x 2 intTys true (latInt x.ty)) h x none (vOp h.a (tyRegs x.ty)) none
/-- The shape of ISUB_5W (R144). -/
def shIsub5w (h : Hd) (x : WAlu) (l : BitVec 60) : Shape :=
  vShape (aluI x 2 intTys true (latInt x.ty)) h x (some l) (vOp h.a (tyRegs x.ty)) none
/-- The shape of IMUL_I1 (R144). -/
def shImulI1 (f : F1) : Shape :=
  shapeV1 f true false 6
/-- The shape of IMUL (R144). -/
def shImul (h : Hd) (x : WAlu) : Shape :=
  vShape (aluI x 2 intTys true (latMul x.ty)) h x none (vOp h.a (tyRegs x.ty)) none
/-- The shape of IMUL_5W (R144). -/
def shImul5w (h : Hd) (x : WAlu) (l : BitVec 60) : Shape :=
  vShape (aluI x 2 intTys true (latMul x.ty)) h x (some l) (vOp h.a (tyRegs x.ty)) none
/-- The shape of IMULH_I1 (R144). -/
def shImulhI1 (f : F1) : Shape :=
  shapeV1 f true false 6
/-- The shape of IMULH (R144). -/
def shImulh (h : Hd) (x : WAlu) : Shape :=
  vShape (aluI x 2 wordTys false (latMul x.ty)) h x none (vOp h.a (tyRegs x.ty)) none
/-- The shape of IMULH_5W (R144). -/
def shImulh5w (h : Hd) (x : WAlu) (l : BitVec 60) : Shape :=
  vShape (aluI x 2 wordTys false (latMul x.ty)) h x (some l) (vOp h.a (tyRegs x.ty)) none
/-- The shape of IMAD (R144). -/
def shImad (h : Hd) (x : WAlu) : Shape :=
  vShape ({ aluI x 3 intTys true (latMul x.ty) with acc := true, mod := 1 }) h x none (vOp h.a (tyRegs x.ty)) none
/-- The shape of IMAD_5W (R144). -/
def shImad5w (h : Hd) (x : WAlu) (l : BitVec 60) : Shape :=
  vShape ({ aluI x 3 intTys true (latMul x.ty) with acc := true, mod := 1 }) h x (some l) (vOp h.a (tyRegs x.ty)) none
/-- The shape of IABS_U1 (R144). -/
def shIabsU1 (f : F1) : Shape :=
  shapeV1 f false true 4
/-- The shape of IABS (R144). -/
def shIabs (h : Hd) (x : WAlu) : Shape :=
  vShape (aluI x 1 [.i32, .i64, .i16, .i8] true (latInt x.ty)) h x none (vOp h.a (tyRegs x.ty)) none
/-- The shape of INEG_U1 (R144). -/
def shInegU1 (f : F1) : Shape :=
  shapeV1 f false true 4
/-- The shape of INEG (R144). -/
def shIneg (h : Hd) (x : WAlu) : Shape :=
  vShape (aluI x 1 intTys true (latInt x.ty)) h x none (vOp h.a (tyRegs x.ty)) none
/-- The shape of IMIN_I1 (R144). -/
def shIminI1 (f : F1) : Shape :=
  shapeV1 f true false 4
/-- The shape of IMIN (R144). -/
def shImin (h : Hd) (x : WAlu) : Shape :=
  vShape (aluI x 2 intTys false (latInt x.ty)) h x none (vOp h.a (tyRegs x.ty)) none
/-- The shape of IMIN_5W (R144). -/
def shImin5w (h : Hd) (x : WAlu) (l : BitVec 60) : Shape :=
  vShape (aluI x 2 intTys false (latInt x.ty)) h x (some l) (vOp h.a (tyRegs x.ty)) none
/-- The shape of IMAX_I1 (R144). -/
def shImaxI1 (f : F1) : Shape :=
  shapeV1 f true false 4
/-- The shape of IMAX (R144). -/
def shImax (h : Hd) (x : WAlu) : Shape :=
  vShape (aluI x 2 intTys false (latInt x.ty)) h x none (vOp h.a (tyRegs x.ty)) none
/-- The shape of IMAX_5W (R144). -/
def shImax5w (h : Hd) (x : WAlu) (l : BitVec 60) : Shape :=
  vShape (aluI x 2 intTys false (latInt x.ty)) h x (some l) (vOp h.a (tyRegs x.ty)) none
/-- The shape of ICMP (R145). -/
def shIcmp (h : Hd) (x : WAlu) : Shape :=
  let s := vShape ({ aluI x 2 intTys false (latInt x.ty) with mod := 7 }) h x none (pOp h.a) none
  { s with ok := s.ok && (bits h.mod 0 3).toNat < 6 }
/-- The shape of ICMP_5W (R145). -/
def shIcmp5w (h : Hd) (x : WAlu) (l : BitVec 60) : Shape :=
  let s := vShape ({ aluI x 2 intTys false (latInt x.ty) with mod := 7 }) h x (some l) (pOp h.a) none
  { s with ok := s.ok && (bits h.mod 0 3).toNat < 6 }
/-- The shape of ISEL (R145). -/
def shIsel (h : Hd) (x : WAlu) : Shape :=
  vShape ({ aluI x 2 wordTys false (latInt x.ty) with mod := 1 }) h x none (vOp h.a (tyRegs x.ty)) (some (pOp h.d))
/-- The shape of ISEL_5W (R145). -/
def shIsel5w (h : Hd) (x : WAlu) (l : BitVec 60) : Shape :=
  vShape ({ aluI x 2 wordTys false (latInt x.ty) with mod := 1 }) h x (some l) (vOp h.a (tyRegs x.ty)) (some (pOp h.d))
/-- The shape of ISHL_I1 (R144). -/
def shIshlI1 (f : F1) : Shape :=
  shapeV1 f true false 4
/-- The shape of ISHL (R144). -/
def shIshl (h : Hd) (x : WAlu) : Shape :=
  vShape (aluSh x intTys) h x none (vOp h.a (tyRegs x.ty)) none
/-- The shape of ISHL_5W (R144). -/
def shIshl5w (h : Hd) (x : WAlu) (l : BitVec 60) : Shape :=
  vShape (aluSh x intTys) h x (some l) (vOp h.a (tyRegs x.ty)) none
/-- The shape of ISHR_I1 (R144). -/
def shIshrI1 (f : F1) : Shape :=
  shapeV1 f true false 4
/-- The shape of ISHR (R144). -/
def shIshr (h : Hd) (x : WAlu) : Shape :=
  vShape (aluSh x intTys) h x none (vOp h.a (tyRegs x.ty)) none
/-- The shape of ISHR_5W (R144). -/
def shIshr5w (h : Hd) (x : WAlu) (l : BitVec 60) : Shape :=
  vShape (aluSh x intTys) h x (some l) (vOp h.a (tyRegs x.ty)) none
/-- The shape of ISRA_I1 (R144). -/
def shIsraI1 (f : F1) : Shape :=
  shapeV1 f true false 4
/-- The shape of ISRA (R144). -/
def shIsra (h : Hd) (x : WAlu) : Shape :=
  vShape (aluSh x intTys) h x none (vOp h.a (tyRegs x.ty)) none
/-- The shape of ISRA_5W (R144). -/
def shIsra5w (h : Hd) (x : WAlu) (l : BitVec 60) : Shape :=
  vShape (aluSh x intTys) h x (some l) (vOp h.a (tyRegs x.ty)) none
/-- The shape of IAND_I1 (R144). -/
def shIandI1 (f : F1) : Shape :=
  shapeV1 f true false 4
/-- The shape of IAND (R144). -/
def shIand (h : Hd) (x : WAlu) : Shape :=
  vShape (aluI x 2 intTys false (latInt x.ty)) h x none (vOp h.a (tyRegs x.ty)) none
/-- The shape of IAND_5W (R144). -/
def shIand5w (h : Hd) (x : WAlu) (l : BitVec 60) : Shape :=
  vShape (aluI x 2 intTys false (latInt x.ty)) h x (some l) (vOp h.a (tyRegs x.ty)) none
/-- The shape of IOR_I1 (R144). -/
def shIorI1 (f : F1) : Shape :=
  shapeV1 f true false 4
/-- The shape of IOR (R144). -/
def shIor (h : Hd) (x : WAlu) : Shape :=
  vShape (aluI x 2 intTys false (latInt x.ty)) h x none (vOp h.a (tyRegs x.ty)) none
/-- The shape of IOR_5W (R144). -/
def shIor5w (h : Hd) (x : WAlu) (l : BitVec 60) : Shape :=
  vShape (aluI x 2 intTys false (latInt x.ty)) h x (some l) (vOp h.a (tyRegs x.ty)) none
/-- The shape of IXOR_I1 (R144). -/
def shIxorI1 (f : F1) : Shape :=
  shapeV1 f true false 4
/-- The shape of IXOR (R144). -/
def shIxor (h : Hd) (x : WAlu) : Shape :=
  vShape (aluI x 2 intTys false (latInt x.ty)) h x none (vOp h.a (tyRegs x.ty)) none
/-- The shape of IXOR_5W (R144). -/
def shIxor5w (h : Hd) (x : WAlu) (l : BitVec 60) : Shape :=
  vShape (aluI x 2 intTys false (latInt x.ty)) h x (some l) (vOp h.a (tyRegs x.ty)) none
/-- The shape of LOP3 (R146). -/
def shLop3 (h : Hd) (x : WLop3) : Shape :=
  shapeLop3 h x none
/-- The shape of LOP3_5W (R146). -/
def shLop35w (h : Hd) (x : WLop3) (l : BitVec 60) : Shape :=
  shapeLop3 h x (some l)
/-- The shape of POPC_U1 (R148). -/
def shPopcU1 (f : F1) : Shape :=
  shapeV1 f false true 4
/-- The shape of POPC (R148). -/
def shPopc (h : Hd) (x : WAlu) : Shape :=
  vShape (aluI x 1 rawTys false (latInt x.ty)) h x none (vOp h.a 1) none
/-- The shape of CLZ_U1 (R148). -/
def shClzU1 (f : F1) : Shape :=
  shapeV1 f false true 4
/-- The shape of CLZ (R148). -/
def shClz (h : Hd) (x : WAlu) : Shape :=
  vShape (aluI x 1 rawTys false (latInt x.ty)) h x none (vOp h.a 1) none
/-- The shape of BREV_U1 (R148). -/
def shBrevU1 (f : F1) : Shape :=
  shapeV1 f false true 4
/-- The shape of BREV (R148). -/
def shBrev (h : Hd) (x : WAlu) : Shape :=
  vShape (aluI x 1 rawTys false (latInt x.ty)) h x none (vOp h.a (tyRegs x.ty)) none
/-- The shape of BFE (R147). -/
def shBfe (h : Hd) (x : WAlu) : Shape :=
  vShape (aluSh x wordTys) h x none (vOp h.a (tyRegs x.ty)) none
/-- The shape of BFE_5W (R147). -/
def shBfe5w (h : Hd) (x : WAlu) (l : BitVec 60) : Shape :=
  vShape (aluSh x wordTys) h x (some l) (vOp h.a (tyRegs x.ty)) none
/-- The shape of BFI (R147). -/
def shBfi (h : Hd) (x : WAlu) : Shape :=
  vShape (aluBfi x) h x none (vOp h.a (tyRegs x.ty)) none
/-- The shape of BFI_5W (R147). -/
def shBfi5w (h : Hd) (x : WAlu) (l : BitVec 60) : Shape :=
  vShape (aluBfi x) h x (some l) (vOp h.a (tyRegs x.ty)) none
/-- The shape of FADD (R149). -/
def shFadd (h : Hd) (x : WAlu) : Shape :=
  vShape (aluF x 2 true rndAny) h x none (vOp h.a (tyRegs x.ty)) none
/-- The shape of FADD_5W (R149). -/
def shFadd5w (h : Hd) (x : WAlu) (l : BitVec 60) : Shape :=
  vShape (aluF x 2 true rndAny) h x (some l) (vOp h.a (tyRegs x.ty)) none
/-- The shape of FSUB (R149). -/
def shFsub (h : Hd) (x : WAlu) : Shape :=
  vShape (aluF x 2 true rndAny) h x none (vOp h.a (tyRegs x.ty)) none
/-- The shape of FSUB_5W (R149). -/
def shFsub5w (h : Hd) (x : WAlu) (l : BitVec 60) : Shape :=
  vShape (aluF x 2 true rndAny) h x (some l) (vOp h.a (tyRegs x.ty)) none
/-- The shape of FMUL (R149). -/
def shFmul (h : Hd) (x : WAlu) : Shape :=
  vShape (aluF x 2 true rndAny) h x none (vOp h.a (tyRegs x.ty)) none
/-- The shape of FMUL_5W (R149). -/
def shFmul5w (h : Hd) (x : WAlu) (l : BitVec 60) : Shape :=
  vShape (aluF x 2 true rndAny) h x (some l) (vOp h.a (tyRegs x.ty)) none
/-- The shape of FFMA (R149). -/
def shFfma (h : Hd) (x : WAlu) : Shape :=
  vShape ({ aluF x 3 true rndAny with acc := true, mod := 1 }) h x none (vOp h.a (tyRegs x.ty)) none
/-- The shape of FFMA_5W (R149). -/
def shFfma5w (h : Hd) (x : WAlu) (l : BitVec 60) : Shape :=
  vShape ({ aluF x 3 true rndAny with acc := true, mod := 1 }) h x (some l) (vOp h.a (tyRegs x.ty)) none
/-- The shape of FMIN (R150). -/
def shFmin (h : Hd) (x : WAlu) : Shape :=
  vShape (aluF x 2 false [0]) h x none (vOp h.a (tyRegs x.ty)) none
/-- The shape of FMIN_5W (R150). -/
def shFmin5w (h : Hd) (x : WAlu) (l : BitVec 60) : Shape :=
  vShape (aluF x 2 false [0]) h x (some l) (vOp h.a (tyRegs x.ty)) none
/-- The shape of FMAX (R150). -/
def shFmax (h : Hd) (x : WAlu) : Shape :=
  vShape (aluF x 2 false [0]) h x none (vOp h.a (tyRegs x.ty)) none
/-- The shape of FMAX_5W (R150). -/
def shFmax5w (h : Hd) (x : WAlu) (l : BitVec 60) : Shape :=
  vShape (aluF x 2 false [0]) h x (some l) (vOp h.a (tyRegs x.ty)) none
/-- The shape of FCMP (R151). -/
def shFcmp (h : Hd) (x : WAlu) : Shape :=
  let s := vShape ({ aluF x 2 false [0] with mod := 15 }) h x none (pOp h.a) none
  { s with ok := s.ok && (bits h.mod 0 4).toNat < 8 }
/-- The shape of FCMP_5W (R151). -/
def shFcmp5w (h : Hd) (x : WAlu) (l : BitVec 60) : Shape :=
  let s := vShape ({ aluF x 2 false [0] with mod := 15 }) h x (some l) (pOp h.a) none
  { s with ok := s.ok && (bits h.mod 0 4).toNat < 8 }
/-- The shape of FRND (R152). -/
def shFrnd (h : Hd) (x : WAlu) : Shape :=
  vShape (aluF x 1 false [0, 1, 2, 3]) h x none (vOp h.a (tyRegs x.ty)) none
/-- The shape of FRND_5W (R152). -/
def shFrnd5w (h : Hd) (x : WAlu) (l : BitVec 60) : Shape :=
  vShape (aluF x 1 false [0, 1, 2, 3]) h x (some l) (vOp h.a (tyRegs x.ty)) none
/-- The shape of FCLASS (R153). -/
def shFclass (h : Hd) (x : WAlu) : Shape :=
  vShape (aluF x 1 false [0]) h x none (vOp h.a 1) none
/-- The shape of FCLASS_5W (R153). -/
def shFclass5w (h : Hd) (x : WAlu) (l : BitVec 60) : Shape :=
  vShape (aluF x 1 false [0]) h x (some l) (vOp h.a 1) none
/-- The shape of FSCALE (R149). -/
def shFscale (h : Hd) (x : WAlu) : Shape :=
  vShape (aluScale x) h x none (vOp h.a (tyRegs x.ty)) none
/-- The shape of FSCALE_5W (R149). -/
def shFscale5w (h : Hd) (x : WAlu) (l : BitVec 60) : Shape :=
  vShape (aluScale x) h x (some l) (vOp h.a (tyRegs x.ty)) none
/-- The shape of FRCP (R154). -/
def shFrcp (h : Hd) (x : WAlu) : Shape :=
  vShape (aluSpecial [0] false) h x none (vOp h.a 1) none
/-- The shape of FRSQ (R154). -/
def shFrsq (h : Hd) (x : WAlu) : Shape :=
  vShape (aluSpecial [0] false) h x none (vOp h.a 1) none
/-- The shape of FSQRT (R154). -/
def shFsqrt (h : Hd) (x : WAlu) : Shape :=
  vShape (aluSpecial [0, 1, 2, 3] false) h x none (vOp h.a 1) none
/-- The shape of FEX2 (R156). -/
def shFex2 (h : Hd) (x : WAlu) : Shape :=
  vShape (aluSpecial [0] true) h x none (vOp h.a 1) none
/-- The shape of FLG2 (R156). -/
def shFlg2 (h : Hd) (x : WAlu) : Shape :=
  vShape (aluSpecial [0] false) h x none (vOp h.a 1) none
/-- The shape of FSIN (R156). -/
def shFsin (h : Hd) (x : WAlu) : Shape :=
  vShape (aluSpecial [0] false) h x none (vOp h.a 1) none
/-- The shape of FCOS (R156). -/
def shFcos (h : Hd) (x : WAlu) : Shape :=
  vShape (aluSpecial [0] false) h x none (vOp h.a 1) none
/-- The shape of FTANH (R156). -/
def shFtanh (h : Hd) (x : WAlu) : Shape :=
  vShape (aluSpecial [0] false) h x none (vOp h.a 1) none
/-- The shape of HADD2 (R157). -/
def shHadd2 (h : Hd) (x : WAlu) : Shape :=
  vShape (aluH 2) h x none (vOp h.a 1) none
/-- The shape of HADD2_5W (R157). -/
def shHadd25w (h : Hd) (x : WAlu) (l : BitVec 60) : Shape :=
  vShape (aluH 2) h x (some l) (vOp h.a 1) none
/-- The shape of HMUL2 (R157). -/
def shHmul2 (h : Hd) (x : WAlu) : Shape :=
  vShape (aluH 2) h x none (vOp h.a 1) none
/-- The shape of HMUL2_5W (R157). -/
def shHmul25w (h : Hd) (x : WAlu) (l : BitVec 60) : Shape :=
  vShape (aluH 2) h x (some l) (vOp h.a 1) none
/-- The shape of HFMA2 (R157). -/
def shHfma2 (h : Hd) (x : WAlu) : Shape :=
  vShape ({ aluH 3 with acc := true, mod := 1 }) h x none (vOp h.a 1) none
/-- The shape of HFMA2_5W (R157). -/
def shHfma25w (h : Hd) (x : WAlu) (l : BitVec 60) : Shape :=
  vShape ({ aluH 3 with acc := true, mod := 1 }) h x (some l) (vOp h.a 1) none
/-- The shape of CVT (R158). -/
def shCvt (h : Hd) (x : WCvt) : Shape :=
  shapeCvt h x
/-- The shape of CVTN (R159). -/
def shCvtn (h : Hd) (x : WCvt) : Shape :=
  shapeCvtn h x
/-- The shape of PACK4 (R160). -/
def shPack4 (h : Hd) (x : WCvt) : Shape :=
  shapePack4 h x
/-- The shape of UNPK4 (R161). -/
def shUnpk4 (h : Hd) (x : WCvt) : Shape :=
  shapeUnpk4 h x
/-- The shape of SHFL (R164). -/
def shShfl (h : Hd) (x : WShfl) : Shape :=
  { shapeShfl h x with cross := some (.shfl (vOp h.b (tyRegs x.ty)).regs x.mode.toNat (if x.imm then none else some h.c.toNat) (lo32 (sx x.imm20))) }
/-- The shape of BALLOT (R165). -/
def shBallot (h : Hd) : Shape :=
  shapeBallot h
/-- The shape of VOTE (R166). -/
def shVote (h : Hd) (x : WVote) : Shape :=
  shapeVote h x
/-- The shape of PSUM (R167). -/
def shPsum (h : Hd) (x : WAlu) : Shape :=
  let s := vShape (aluPsum x) h x none (vOp h.a (tyRegs x.ty)) none
  { s with ok := s.ok && !x.ub }
/-- The shape of REDUX (R168). -/
def shRedux (h : Hd) (x : WRedux) : Shape :=
  shapeRedux h x
/-- The shape of MATCH (R169). -/
def shMatchV (h : Hd) (x : WTy) : Shape :=
  shapeMatch h x
/-- The shape of MOV_U1 (R170). -/
def shMovU1 (f : F1) : Shape :=
  shapeV1 f false true 4
/-- The shape of MOV (R170). -/
def shMov (h : Hd) (x : WAlu) : Shape :=
  vShape (aluMov x) h x none (vOp h.a (tyRegs x.ty)) none
/-- The shape of MOVI_M1 (R170). -/
def shMoviM1 (f : F1) : Shape :=
  shapeV1 f false false 4
/-- The shape of MOVI (R170). -/
def shMovi (h : Hd) (x : WAlu) : Shape :=
  let s := vShape (aluMovi x) h x none (vOp h.a (tyRegs x.ty)) none
  { s with ok := s.ok && h.b == 0 && !x.ub }
/-- The shape of MOVI_5W (R170). -/
def shMovi5w (h : Hd) (x : WAlu) (l : BitVec 60) : Shape :=
  let s := vShape (aluMovi x) h x (some l) (vOp h.a (tyRegs x.ty)) none
  { s with ok := s.ok && h.b == 0 && !x.ub }
/-- The shape of PAIR (R56). -/
def shPair (h : Hd) (x : WPair) : Shape :=
  shapePair h x
/-- The shape of LD (R190). -/
def shLd (h : Hd) (x : WMem) : Shape :=
  shapeMem h x false false .plain
/-- The shape of LD_5W (R190). -/
def shLd5w (h : Hd) (x : WMem) : Shape :=
  shapeMem h x true false .plain
/-- The shape of ST (R190). -/
def shSt (h : Hd) (x : WMem) : Shape :=
  shapeMem h x false true .plain
/-- The shape of ST_5W (R190). -/
def shSt5w (h : Hd) (x : WMem) : Shape :=
  shapeMem h x true true .plain
/-- The shape of LDL (R190). -/
def shLdl (h : Hd) (x : WMem) : Shape :=
  shapeMem h x false false .local
/-- The shape of LDL_5W (R190). -/
def shLdl5w (h : Hd) (x : WMem) : Shape :=
  shapeMem h x true false .local
/-- The shape of STL (R190). -/
def shStl (h : Hd) (x : WMem) : Shape :=
  shapeMem h x false true .local
/-- The shape of STL_5W (R190). -/
def shStl5w (h : Hd) (x : WMem) : Shape :=
  shapeMem h x true true .local
/-- The shape of LDC (R190). -/
def shLdc (h : Hd) (x : WMem) : Shape :=
  shapeMem h x false false .const
/-- The shape of LDC_5W (R190). -/
def shLdc5w (h : Hd) (x : WMem) : Shape :=
  shapeMem h x true false .const
/-- The shape of LDA (R190). -/
def shLda (h : Hd) (x : WMem) : Shape :=
  shapeMem h x false false .acq
/-- The shape of LDA_5W (R190). -/
def shLda5w (h : Hd) (x : WMem) : Shape :=
  shapeMem h x true false .acq
/-- The shape of STREL (R190). -/
def shStrel (h : Hd) (x : WMem) : Shape :=
  shapeMem h x false true .rel
/-- The shape of STREL_5W (R190). -/
def shStrel5w (h : Hd) (x : WMem) : Shape :=
  shapeMem h x true true .rel
/-- The shape of ATOM (R191). -/
def shAtom (h : Hd) (x : WAtom) : Shape :=
  shapeAtom h x false false false
/-- The shape of ATOM_5W (R191). -/
def shAtom5w (h : Hd) (x : WAtom) : Shape :=
  shapeAtom h x true false false
/-- The shape of ATOML (R191). -/
def shAtoml (h : Hd) (x : WAtom) : Shape :=
  shapeAtom h x false true false
/-- The shape of ATOML_5W (R191). -/
def shAtoml5w (h : Hd) (x : WAtom) : Shape :=
  shapeAtom h x true true false
/-- The shape of RED (R191). -/
def shRed (h : Hd) (x : WAtom) : Shape :=
  shapeAtom h x false false true
/-- The shape of RED_5W (R191). -/
def shRed5w (h : Hd) (x : WAtom) : Shape :=
  shapeAtom h x true false true
/-- The shape of FENCE_Z1 (R192). -/
def shFenceZ1 (f : F1) : Shape :=
  shapeZ1 f
/-- The shape of FENCE (R192). -/
def shFence (h : Hd) (x : WFence) : Shape :=
  shapeFence h x
/-- The shape of PREF (R193). -/
def shPref (h : Hd) (x : WMem) : Shape :=
  shapeMem h x false false .pref
/-- The shape of PREF_5W (R193). -/
def shPref5w (h : Hd) (x : WMem) : Shape :=
  shapeMem h x true false .pref
/-- The shape of STASHMAP (R194). -/
def shStashmap (h : Hd) : Shape :=
  shapeStashmap h
/-- The shape of STASHUNMAP (R195). -/
def shStashunmap (h : Hd) (x : WStash) : Shape :=
  shapeStash h x false
/-- The shape of STASHSYNC (R195). -/
def shStashsync (h : Hd) (x : WStash) : Shape :=
  shapeStash h x true
/-- The shape of STASHINV (R195). -/
def shStashinv (h : Hd) (x : WStash) : Shape :=
  shapeStash h x false
/-- The shape of DISCARD (R222). -/
def shDiscard (h : Hd) : Shape :=
  shapeRange h true
/-- The shape of PGHINT (R228). -/
def shPghint (h : Hd) (x : WHint) : Shape :=
  shapeRange h (x.kind != 3)
/-- The shape of PGPOOL_GET (R220). -/
def shPgpoolGet (h : Hd) : Shape :=
  shapePgpool h false
/-- The shape of PGPOOL_PUT (R220). -/
def shPgpoolPut (h : Hd) : Shape :=
  shapePgpool h true
/-- The shape of PGMAP (R220). -/
def shPgmap (h : Hd) : Shape :=
  shapePgmap h false
/-- The shape of PGMAP_FWD (R220). -/
def shPgmapFwd (h : Hd) : Shape :=
  shapePgmap h true
/-- The shape of TLBINV (R229). -/
def shTlbinv (h : Hd) : Shape :=
  shapeTlbinv h
/-- The shape of BARINIT (R245). -/
def shBarinit (h : Hd) (x : WSlot) : Shape :=
  shapeBar h x 3 (zOp h.a) (sOp h.b 1) (if bit h.mod 0 then zOp h.c else sOp h.c 1) (zOp h.d) true
/-- The shape of BAREXP (R246). -/
def shBarexp (h : Hd) (x : WSlot) : Shape :=
  shapeBar h x 0 (zOp h.a) (sOp h.b 1) (zOp h.c) (zOp h.d) true
/-- The shape of BARARV (R247). -/
def shBararv (h : Hd) (x : WSlot) : Shape :=
  shapeBar h x 3 (if bit h.mod 1 then zOp h.a else sOp h.a 1) (if h.mod == 0 then zOp h.b else sOp h.b 1) (zOp h.c) (zOp h.d) (h.mod != 3)
/-- The shape of BARWAIT (R248). -/
def shBarwait (h : Hd) (x : WSlot) : Shape :=
  shapeBar h x 0 (pOp h.a) (sOp h.b 1) (zOp h.c) (zOp h.d) true
/-- The shape of BARARW (R247). -/
def shBararw (h : Hd) (x : WSlot) : Shape :=
  shapeBar h x 1 (pOp h.a) (if bit h.mod 0 then sOp h.b 1 else zOp h.b) (zOp h.c) (zOp h.d) true
/-- The shape of BARTEST (R248). -/
def shBartest (h : Hd) (x : WSlot) : Shape :=
  let s := shapeBar h x 3 (pOp h.a) (sOp h.b 1) (zOp h.c) (if h.mod == 0 then nOp else zOp h.d) (h.mod != 3)
  if h.mod == 0 && h.d != 7 then alsoWrites s (pOp h.d) 0 else s
/-- The shape of BARINV (R249). -/
def shBarinv (h : Hd) (x : WSlot) : Shape :=
  shapeBar h x 0 (zOp h.a) (zOp h.b) (zOp h.c) (zOp h.d) true
/-- The shape of CPY (R254). -/
def shCpy (h : Hd) (x : WCpy) : Shape :=
  shapeCpy h x true true 2 1
/-- The shape of CPY2D (R255). -/
def shCpy2d (h : Hd) (x : WCpy) : Shape :=
  shapeCpy h x true false 2 4
/-- The shape of CPYS (R254). -/
def shCpys (h : Hd) (x : WCpy) : Shape :=
  shapeCpy h x false false 1 1
/-- The shape of PFX (R269). -/
def shPfx (h : Hd) (x : WPfx) : Shape :=
  shapePfx h x
/-- The shape of PFXCANCEL (R272). -/
def shPfxcancel (h : Hd) : Shape :=
  collective h (shape3 h false 1 (zOp h.a) (if bit h.mod 0 then zOp h.b else sOp h.b 1) (zOp h.c) (zOp h.d) 0 true)
/-- The shape of APSTART (R284). -/
def shApstart (h : Hd) (x : WAp) : Shape :=
  shapeAp h x (zOp h.a) (sOp h.b 1) (zOp h.c) (zOp h.d) false
/-- The shape of APPOP (R285). -/
def shAppop (h : Hd) (x : WAp) : Shape :=
  optP (optP (shapeAp h x (vOp h.a (sizeRegs x.size.toNat)) (zOp h.b) nOp nOp true) h.c) h.d
/-- The shape of APPUSH (R286). -/
def shAppush (h : Hd) (x : WAp) : Shape :=
  alsoReads (shapeAp h x nOp (zOp h.b) (vOp h.c 1) (zOp h.d) true) (vOp h.a (sizeRegs x.size.toNat))
/-- The shape of APSTAT (R287). -/
def shApstat (h : Hd) (x : WAp) : Shape :=
  shapeAp h x (sOp h.a 1) (zOp h.b) (zOp h.c) (zOp h.d) false
/-- The shape of APSTOP (R288). -/
def shApstop (h : Hd) (x : WAp) : Shape :=
  shapeAp h x (zOp h.a) (zOp h.b) (zOp h.c) (zOp h.d) false
/-- The shape of AGATH (R279). -/
def shAgath (h : Hd) (x : WAg) : Shape :=
  shapeAg h x true
/-- The shape of ASCAT (R279). -/
def shAscat (h : Hd) (x : WAg) : Shape :=
  shapeAg h x false
/-- The shape of APREPLAY (R292). -/
def shApreplay (h : Hd) : Shape :=
  supervisor (shape3 h false 1 (sOp h.a 2) (if bit h.mod 0 then sOp h.b 1 else zOp h.b) (zOp h.c) (zOp h.d) 0 (h.hold == 0))
/-- The shape of MZERO (R314). -/
def shMzero (h : Hd) : Shape :=
  shapeTile h h.a 0 (tOp h.a) (zOp h.b) (zOp h.c) (zOp h.d) true
/-- The shape of MMA (R313). -/
def shMma (h : Hd) (x : WMma) : Shape :=
  shapeMma h x false
/-- The shape of MMAS (R313). -/
def shMmas (h : Hd) (x : WMma) : Shape :=
  shapeMma h x true
/-- The shape of MLD (R320). -/
def shMld (h : Hd) : Shape :=
  collective h (shape3 h false 0 { ok := h.a.toNat ≤ 7, regs := [] } (sOp h.b 2) (zOp h.c) (zOp h.d) 0 true)
/-- The shape of ACCRD (R316). -/
def shAccrd (h : Hd) (x : WAcc) : Shape :=
  shapeAccrd h x
/-- The shape of ACCWR (R317). -/
def shAccwr (h : Hd) (x : WAcc) : Shape :=
  shapeAccwr h x
/-- The shape of ACCST (R319). -/
def shAccst (h : Hd) (x : WAccst) : Shape :=
  shapeAccst h x
/-- The shape of MSTAT (R321). -/
def shMstat (h : Hd) : Shape :=
  shapeTile h h.b 0 (sOp h.a 1) (tOp h.b) (zOp h.c) (zOp h.d) true
/-- The shape of QHIST (R330). -/
def shQhist (h : Hd) (x : WQ) : Shape :=
  shapeQ h x false true
/-- The shape of QCLIP (R331). -/
def shQclip (h : Hd) (x : WQ) : Shape :=
  shapeQ h x false false
/-- The shape of QPACK (R332). -/
def shQpack (h : Hd) (x : WQ) : Shape :=
  shapeQ h x true false
/-- The shape of QOLST (R338). -/
def shQolst (h : Hd) (x : WQ) : Shape :=
  shapeQ h x false false
/-- The shape of QRST (R339). -/
def shQrst (h : Hd) (x : WQ) : Shape :=
  shapeQ h x false false
/-- The shape of EMIT (R370). -/
def shEmit (rw : Nat → Nat) (h : Hd) (x : WEmit) : Shape :=
  shapeEmit h x (rw x.rtype.toNat)
/-- The shape of EMITT (R371). -/
def shEmitt (h : Hd) : Shape :=
  shapeEmitt h
/-- The shape of RECLD (R372). -/
def shRecld (iw : Nat) (h : Hd) : Shape :=
  shapeRecld h iw
/-- The shape of FLUSHQ (R373). -/
def shFlushq (h : Hd) (x : WFlush) : Shape :=
  shapeFlushq h x
/-- The shape of GLAUNCH (R374). -/
def shGlaunch (h : Hd) : Shape :=
  shapeGlaunch h
/-- The shape of GCANCEL (R375). -/
def shGcancel (h : Hd) : Shape :=
  noHold h (shape3 h false 1 (zOp h.a) (sOp h.b 1) (zOp h.c) (zOp h.d) 0 true)
/-- The shape of GWAIT (R376). -/
def shGwait (h : Hd) : Shape :=
  noHold h (shape3 h false 1 (sOp h.a 1) (sOp h.b 1) (zOp h.c) (zOp h.d) 0 true)
/-- The shape of PODBAR (R408). -/
def shPodbar (h : Hd) : Shape :=
  shapePodbar h
/-- The shape of PODQRY (R409). -/
def shPodqry (h : Hd) (x : WNib) : Shape :=
  shapePodqry h x
/-- The shape of PODFLT (R410). -/
def shPodflt (h : Hd) (x : WPodflt) : Shape :=
  shapePodflt h x

/-- The shape of an instruction. `rw` gives the words of a record of each type of the group's graph, and `iw` the words of its
node's input record. -/
def shape (rw : Nat → Nat) (iw : Nat) (i : Instr) : Shape :=
  match i with
  | .pcieLinkUp _ => noShape
  | .hostReset => noShape
  | .stage1Entry _ => noShape
  | .go2 => noShape
  | .stage2Entry _ => noShape
  | .go3 => noShape
  | .stage3Entry _ _ _ => noShape
  | .podRootLeaves _ => noShape
  | .pceilWrite _ => noShape
  | .clockLower => noShape
  | .idleEntry => noShape
  | .idleExit => noShape
  | .invgo => noShape
  | .migRequest => noShape
  | .migDone => noShape
  | .moveClaimGrant => noShape
  | .load _ => noShape
  | .unload _ => noShape
  | .halt _ => noShape
  | .resume _ => noShape
  | .term _ => noShape
  | .preemptionSave _ => noShape
  | .qtailWrite _ _ => noShape
  | .hostQueueRecordConsume _ => noShape
  | .frespResume _ _ => noShape
  | .frespTerminate _ _ => noShape
  | .attestCommand => noShape
  | .monitorClr _ => noShape
  | .powerSampleTimer _ => noShape
  | .registerWrite _ _ _ => noShape
  | .hostApertureAccess _ _ _ _ => noShape
  | .hostMemoryAccess _ _ _ _ _ => noShape
  | .scrubPass _ _ _ => noShape
  | .rowRemap _ _ => noShape
  | .stashFill _ _ _ => noShape
  | .stashWriteBack _ _ _ => noShape
  | .l2Recall _ _ _ => noShape
  | .remoteLineRequest _ _ _ _ => noShape
  | .lineMigration _ _ => noShape
  | .faultRecordPost _ => noShape
  | .hotWindowExpiry => noShape
  | .cfillService _ _ => noShape
  | .peerAccess _ => noShape
  | .asyncFaultDelivery _ => noShape
  | .operationRetire _ _ => noShape
  | .yieldResume _ => noShape
  | .regclaimGrant _ _ => noShape
  | .engineArrival _ => noShape
  | .barrierWatchdogExpiry _ _ => noShape
  | .copyChunkDone _ _ => noShape
  | .copyFault _ _ => noShape
  | .remainderChunk _ => noShape
  | .prefetchLine _ => noShape
  | .accessElementDone _ _ => noShape
  | .accessOperationStop _ => noShape
  | .streamEntryReady _ _ => noShape
  | .streamFaultHold _ _ => noShape
  | .streamContextFree _ _ => noShape
  | .mmaSegmentDone _ => noShape
  | .matrixFault _ => noShape
  | .accstRowDone _ => noShape
  | .mzeroDone _ => noShape
  | .accwrDone _ => noShape
  | .accrdDone _ => noShape
  | .mldDone _ => noShape
  | .quantOpDone _ => noShape
  | .quantFault _ => noShape
  | .launchStart _ _ => noShape
  | .reservationGrant _ _ _ => noShape
  | .teamForm _ _ _ _ => noShape
  | .teamDispatch _ _ => noShape
  | .queueOverflow _ => noShape
  | .launchComplete _ => noShape
  | .recordEnvelope _ _ => noShape
  | .acknowledgement _ _ => noShape
  | .creditRequest _ _ => noShape
  | .creditGrant _ _ => noShape
  | .retransmitTimeout _ _ _ => noShape
  | .launch _ _ => noShape
  | .start _ _ => noShape
  | .started _ _ => noShape
  | .deal _ _ => noShape
  | .rdone _ _ => noShape
  | .fault _ _ => noShape
  | .cancel _ _ => noShape
  | .wave _ _ => noShape
  | .reply _ _ => noShape
  | .final _ _ => noShape
  | .pbarv _ _ => noShape
  | .pbres _ _ => noShape
  | .pbrel _ _ => noShape
  | .query _ _ => noShape
  | .answer _ _ => noShape
  | .zeroWord _ => noShape
  | .unassignedOpcode _ => noShape
  | .nopZ1 f => shNopZ1 f
  | .nop h => shNop h
  | .braJ1 _ => shBraJ1
  | .bra h _ => shBra h
  | .brx h => shBrx h
  | .brc h _ => shBrc h
  | .join h _ => shJoin h
  | .callJ1 _ => shCallJ1
  | .call h _ => shCall h
  | .callx h => shCallx h
  | .retZ1 f => shRetZ1 f
  | .ret h => shRet h
  | .exitZ1 f => shExitZ1 f
  | .exit h => shExit h
  | .yieldZ1 f => shYieldZ1 f
  | .yield h => shYield h
  | .yieldc h x => shYieldc h x
  | .waitc h x => shWaitc h x
  | .trap h x => shTrap h x
  | .svret f => shSvret f
  | .plop h _ => shPlop h
  | .saddI1 f => shSaddI1 f
  | .sadd h x => shSadd h x
  | .sadd5w h x l => shSadd5w h x l
  | .ssubI1 f => shSsubI1 f
  | .ssub h x => shSsub h x
  | .ssub5w h x l => shSsub5w h x l
  | .smulI1 f => shSmulI1 f
  | .smul h x => shSmul h x
  | .smul5w h x l => shSmul5w h x l
  | .smulhI1 f => shSmulhI1 f
  | .smulh h x => shSmulh h x
  | .smulh5w h x l => shSmulh5w h x l
  | .sandI1 f => shSandI1 f
  | .sand h x => shSand h x
  | .sand5w h x l => shSand5w h x l
  | .sorI1 f => shSorI1 f
  | .sor h x => shSor h x
  | .sor5w h x l => shSor5w h x l
  | .sxorI1 f => shSxorI1 f
  | .sxor h x => shSxor h x
  | .sxor5w h x l => shSxor5w h x l
  | .sshlI1 f => shSshlI1 f
  | .sshl h x => shSshl h x
  | .sshl5w h x l => shSshl5w h x l
  | .sshrI1 f => shSshrI1 f
  | .sshr h x => shSshr h x
  | .sshr5w h x l => shSshr5w h x l
  | .ssraI1 f => shSsraI1 f
  | .ssra h x => shSsra h x
  | .ssra5w h x l => shSsra5w h x l
  | .sminI1 f => shSminI1 f
  | .smin h x => shSmin h x
  | .smin5w h x l => shSmin5w h x l
  | .smaxI1 f => shSmaxI1 f
  | .smax h x => shSmax h x
  | .smax5w h x l => shSmax5w h x l
  | .ssel h x => shSsel h x
  | .ssel5w h x l => shSsel5w h x l
  | .scmp h x => shScmp h x
  | .scmp5w h x l => shScmp5w h x l
  | .smovU1 f => shSmovU1 f
  | .smov h x => shSmov h x
  | .sldiM1 f => shSldiM1 f
  | .sldi h x => shSldi h x
  | .sldi5w h x l => shSldi5w h x l
  | .sldk h x => shSldk h x
  | .sffsU1 f => shSffsU1 f
  | .sffs h x => shSffs h x
  | .spopU1 f => shSpopU1 f
  | .spop h x => shSpop h x
  | .rsrU1 f => shRsrU1 f
  | .rsr h => shRsr h
  | .wsrU1 f => shWsrU1 f
  | .wsr h => shWsr h
  | .reggive h x => shReggive h x
  | .regclaim h x => shRegclaim h x
  | .vtos h x => shVtos h x
  | .stov h x => shStov h x
  | .klop h _ => shKlop h
  | .iaddI1 f => shIaddI1 f
  | .iadd h x => shIadd h x
  | .iadd5w h x l => shIadd5w h x l
  | .isubI1 f => shIsubI1 f
  | .isub h x => shIsub h x
  | .isub5w h x l => shIsub5w h x l
  | .imulI1 f => shImulI1 f
  | .imul h x => shImul h x
  | .imul5w h x l => shImul5w h x l
  | .imulhI1 f => shImulhI1 f
  | .imulh h x => shImulh h x
  | .imulh5w h x l => shImulh5w h x l
  | .imad h x => shImad h x
  | .imad5w h x l => shImad5w h x l
  | .iabsU1 f => shIabsU1 f
  | .iabs h x => shIabs h x
  | .inegU1 f => shInegU1 f
  | .ineg h x => shIneg h x
  | .iminI1 f => shIminI1 f
  | .imin h x => shImin h x
  | .imin5w h x l => shImin5w h x l
  | .imaxI1 f => shImaxI1 f
  | .imax h x => shImax h x
  | .imax5w h x l => shImax5w h x l
  | .icmp h x => shIcmp h x
  | .icmp5w h x l => shIcmp5w h x l
  | .isel h x => shIsel h x
  | .isel5w h x l => shIsel5w h x l
  | .ishlI1 f => shIshlI1 f
  | .ishl h x => shIshl h x
  | .ishl5w h x l => shIshl5w h x l
  | .ishrI1 f => shIshrI1 f
  | .ishr h x => shIshr h x
  | .ishr5w h x l => shIshr5w h x l
  | .israI1 f => shIsraI1 f
  | .isra h x => shIsra h x
  | .isra5w h x l => shIsra5w h x l
  | .iandI1 f => shIandI1 f
  | .iand h x => shIand h x
  | .iand5w h x l => shIand5w h x l
  | .iorI1 f => shIorI1 f
  | .ior h x => shIor h x
  | .ior5w h x l => shIor5w h x l
  | .ixorI1 f => shIxorI1 f
  | .ixor h x => shIxor h x
  | .ixor5w h x l => shIxor5w h x l
  | .lop3 h x => shLop3 h x
  | .lop35w h x l => shLop35w h x l
  | .popcU1 f => shPopcU1 f
  | .popc h x => shPopc h x
  | .clzU1 f => shClzU1 f
  | .clz h x => shClz h x
  | .brevU1 f => shBrevU1 f
  | .brev h x => shBrev h x
  | .bfe h x => shBfe h x
  | .bfe5w h x l => shBfe5w h x l
  | .bfi h x => shBfi h x
  | .bfi5w h x l => shBfi5w h x l
  | .fadd h x => shFadd h x
  | .fadd5w h x l => shFadd5w h x l
  | .fsub h x => shFsub h x
  | .fsub5w h x l => shFsub5w h x l
  | .fmul h x => shFmul h x
  | .fmul5w h x l => shFmul5w h x l
  | .ffma h x => shFfma h x
  | .ffma5w h x l => shFfma5w h x l
  | .fmin h x => shFmin h x
  | .fmin5w h x l => shFmin5w h x l
  | .fmax h x => shFmax h x
  | .fmax5w h x l => shFmax5w h x l
  | .fcmp h x => shFcmp h x
  | .fcmp5w h x l => shFcmp5w h x l
  | .frnd h x => shFrnd h x
  | .frnd5w h x l => shFrnd5w h x l
  | .fclass h x => shFclass h x
  | .fclass5w h x l => shFclass5w h x l
  | .fscale h x => shFscale h x
  | .fscale5w h x l => shFscale5w h x l
  | .frcp h x => shFrcp h x
  | .frsq h x => shFrsq h x
  | .fsqrt h x => shFsqrt h x
  | .fex2 h x => shFex2 h x
  | .flg2 h x => shFlg2 h x
  | .fsin h x => shFsin h x
  | .fcos h x => shFcos h x
  | .ftanh h x => shFtanh h x
  | .hadd2 h x => shHadd2 h x
  | .hadd25w h x l => shHadd25w h x l
  | .hmul2 h x => shHmul2 h x
  | .hmul25w h x l => shHmul25w h x l
  | .hfma2 h x => shHfma2 h x
  | .hfma25w h x l => shHfma25w h x l
  | .cvt h x => shCvt h x
  | .cvtn h x => shCvtn h x
  | .pack4 h x => shPack4 h x
  | .unpk4 h x => shUnpk4 h x
  | .shfl h x => shShfl h x
  | .ballot h => shBallot h
  | .vote h x => shVote h x
  | .psum h x => shPsum h x
  | .redux h x => shRedux h x
  | .matchV h x => shMatchV h x
  | .movU1 f => shMovU1 f
  | .mov h x => shMov h x
  | .moviM1 f => shMoviM1 f
  | .movi h x => shMovi h x
  | .movi5w h x l => shMovi5w h x l
  | .pair h x => shPair h x
  | .ld h x => shLd h x
  | .ld5w h x _ => shLd5w h x
  | .st h x => shSt h x
  | .st5w h x _ => shSt5w h x
  | .ldl h x => shLdl h x
  | .ldl5w h x _ => shLdl5w h x
  | .stl h x => shStl h x
  | .stl5w h x _ => shStl5w h x
  | .ldc h x => shLdc h x
  | .ldc5w h x _ => shLdc5w h x
  | .lda h x => shLda h x
  | .lda5w h x _ => shLda5w h x
  | .strel h x => shStrel h x
  | .strel5w h x _ => shStrel5w h x
  | .atom h x => shAtom h x
  | .atom5w h x _ => shAtom5w h x
  | .atoml h x => shAtoml h x
  | .atoml5w h x _ => shAtoml5w h x
  | .red h x => shRed h x
  | .red5w h x _ => shRed5w h x
  | .fenceZ1 f => shFenceZ1 f
  | .fence h x => shFence h x
  | .pref h x => shPref h x
  | .pref5w h x _ => shPref5w h x
  | .stashmap h _ => shStashmap h
  | .stashunmap h x => shStashunmap h x
  | .stashsync h x => shStashsync h x
  | .stashinv h x => shStashinv h x
  | .discard h => shDiscard h
  | .pghint h x => shPghint h x
  | .pgpoolGet h => shPgpoolGet h
  | .pgpoolPut h => shPgpoolPut h
  | .pgmap h => shPgmap h
  | .pgmapFwd h => shPgmapFwd h
  | .tlbinv h => shTlbinv h
  | .barinit h x => shBarinit h x
  | .barexp h x => shBarexp h x
  | .bararv h x => shBararv h x
  | .barwait h x => shBarwait h x
  | .bararw h x => shBararw h x
  | .bartest h x => shBartest h x
  | .barinv h x => shBarinv h x
  | .cpy h x => shCpy h x
  | .cpy2d h x => shCpy2d h x
  | .cpys h x => shCpys h x
  | .pfx h x => shPfx h x
  | .pfxcancel h => shPfxcancel h
  | .apstart h x => shApstart h x
  | .appop h x => shAppop h x
  | .appush h x => shAppush h x
  | .apstat h x => shApstat h x
  | .apstop h x => shApstop h x
  | .agath h x => shAgath h x
  | .ascat h x => shAscat h x
  | .apreplay h => shApreplay h
  | .mzero h => shMzero h
  | .mma h x => shMma h x
  | .mmas h x => shMmas h x
  | .mld h => shMld h
  | .accrd h x => shAccrd h x
  | .accwr h x => shAccwr h x
  | .accst h x => shAccst h x
  | .mstat h => shMstat h
  | .qhist h x => shQhist h x
  | .qclip h x => shQclip h x
  | .qpack h x => shQpack h x
  | .qolst h x => shQolst h x
  | .qrst h x => shQrst h x
  | .emit h x => shEmit rw h x
  | .emitt h _ => shEmitt h
  | .recld h => shRecld iw h
  | .flushq h x => shFlushq h x
  | .glaunch h => shGlaunch h
  | .gcancel h => shGcancel h
  | .gwait h => shGwait h
  | .podbar h _ => shPodbar h
  | .podqry h x => shPodqry h x
  | .podflt h x => shPodflt h x
  | .placementReload _ _ => noShape
  | .ualinkPortFailure _ => noShape

/-- An instruction's words break no rule that the words alone decide (step 5 of R65). An event breaks none. -/
def formOk (i : Instr) : Bool := (shape (fun _ => 0) 0 i).ok

end Sys2Proof.Machine
end

