-- ==== Sys2Proof/Machine/State.lean ====
section
/-! DEFINITION. The state of one BT440 package as plain data, and the state right after reset. Each structure's docstring
names the rule of spec/ that gives it. -/
namespace Sys2Proof.Machine

/-- Why a step stops for good. -/
inductive Fault where
  /-- An access, by a translated leaf or by a physical address the driver gave, reached a device physical address at or above
  512 GiB, where no HBM stack is (the package table of chapter 1, R7), or at or above 64 GiB before stage 2 (R412). Raised by the memory operations. Safe: the machine stops. -/
  | absentDeviceMemory
  deriving DecidableEq, Repr

/-- Why a row has no meaning. -/
inductive Refusal where
  /-- The row has no meaning yet. Raised by `exec`. Safe: the machine stops. -/
  | notModelled (mnemonic : String)
  deriving DecidableEq, Repr

/-! ### Groups: fragments, control stack, pending writes, waits -/

/-- KIND of a control-stack entry (R109). -/
inductive EKind where
  | div | frag | call | callx
  deriving DecidableEq, Repr

/-- A control-stack entry (R109). -/
structure Entry where
  kind : EKind
  pc : DWord
  mask : Mask
  aux : Mask
  link : BitVec 16
  vreg : BitVec 9
  sup : Bool
  live : Bool
  fmt : BitVec 2
  deriving DecidableEq, Repr

/-- A barrier slot by the team that owns it and its team slot number (R231). -/
structure SlotRef where
  team : Nat
  slot : Nat
  deriving DecidableEq, Repr

/-- The condition of a WAITC or YIELDC (R124): a counter threshold, or chunk-map bits of a slot's generation. -/
inductive Cond where
  | counter (cls : Nat) (thresh : Nat)
  | chunk (slot : SlotRef) (gen : BitVec 16) (any : Bool) (bitmask : BitVec 512)
  deriving DecidableEq, Repr

/-- What a fragment waits for (the wait state of R104, and the blocking instructions of the engine chapters). -/
inductive Wait where
  /-- WAITC (R124) -/
  | cond (c : Cond)
  /-- BARWAIT, BARARW (R247, R248): the slot, the token, the predicate and the lanes it is written in -/
  | bar (slot : SlotRef) (token : Word) (pd : Nat) (lanes : Mask)
  /-- BARINV, or a BARINIT that advances GEN, while an operation carries the next tag (R239): KIND, EXPECT and PART that follow -/
  | inval (slot : SlotRef) (kind : Nat) (expect : Nat) (part : Word)
  /-- REGCLAIM (R126): blocks, and the issue order among claims -/
  | claim (n : Nat) (order : Nat)
  /-- EMIT, EMITT (R370): the reservations not yet granted -/
  | emit (rids : List Nat)
  /-- GWAIT (R376): the LSEQ and the s-register -/
  | gwait (lseq : Word) (sd : Nat)
  /-- APPOP (R285): the entry taken, where its elements go, and its serial number, for what it supersedes when it is served (R280) -/
  | appop (snum : Nat) (entry : Nat) (vd : Nat) (okp : Nat) (fltp : Nat) (lanes : Mask) (order : Nat)
  /-- PODBAR waiting on a token (R408) -/
  | podbar (lid : Nat) (bar : Nat) (token : Word) (pd : Nat) (lanes : Mask)
  /-- PODBAR waiting for the holder's token (R404 PBRES): `arv` writes the s-register, else it then waits -/
  | podtok (arrival : Word) (lid : Nat) (bar : Nat) (arv : Bool) (dst : Nat) (lanes : Mask)
  /-- PODQRY waiting for the wave root's ANSWER (R409) -/
  | podqry (query : Word) (sd : Nat)
  deriving DecidableEq, Repr

/-- A fragment (R104), with its operand buffer (R55), the cycle from which it may issue (R48), the lanes a replayed
instruction is limited to (R131), what it waits for, since when it has been ready (R127), and since when a missing resource stalls
it, with the resource: 1 an operation slot, 16 + k a counter of class k (R20), 2 a stream context (R274), 0 another. -/
structure Frag where
  mask : Mask
  pc : DWord
  fmt : BitVec 2
  rsp : BitVec 16
  sup : Bool
  last : Nat
  chl : Word
  ready : Nat
  buf : Option Nat
  only : Option Mask
  wait : Option Wait
  since : Option Nat
  stalled : Option (Nat × Nat)
  /-- the cycle in which its wait began: that of its last issue outside a handler (R271, R421) -/
  waitAt : Nat := 0
  deriving DecidableEq, Repr

/-- A pending fixed-latency write (R49, R50): the issuing slot, the register, the value of each lane written (lane 0 for a
uniform register; 0 or 1 for a predicate), its latency, and the issue distance so far. -/
structure PWrite where
  slot : Nat
  reg : RegName
  vals : List (Nat × Word)
  lat : Nat
  dist : Nat
  deriving DecidableEq, Repr

/-- Flags of an instruction that has not yet written its result (R85): the issuing slot, the flags, its latency, and the issue
distance so far. -/
structure PFlag where
  slot : Nat
  flags : BitVec 7
  lat : Nat
  dist : Nat
  deriving DecidableEq, Repr

/-- A yield-wait (R25): the condition, the slot that yielded, its continuation PC and the PC of its YIELDC. -/
structure YWait where
  cond : Cond
  slot : Nat
  pc : DWord
  from_ : DWord
  deriving DecidableEq, Repr

/-- A fault before its disposition (R26, R216): code, lanes, fault address, access kind, whether it is a first touch of a
device-pool-backed page (R27), and the four DETAIL words of its record. -/
structure FaultInfo where
  code : BitVec 16
  mask : Mask
  addr : DWord
  kind : Nat
  first : Bool
  det : List Word
  deriving DecidableEq, Repr

/-- The handler registers of a group (R104, R107, R129), the access kind of R216, the slot whose fragment runs the handler, and
what that fragment waited for when an asynchronous fault interrupted it (R28). -/
structure Handler where
  ecause : BitVec 16
  epc : DWord
  enpc : DWord
  eaddr : DWord
  emask : Mask
  efrag : Mask
  erest : Mask
  replay : Bool
  ersp : BitVec 16
  efmt : BitVec 2
  kind : Nat
  slot : Option Nat
  wait : Option Wait
  /-- the cycle in which that wait began (R271, R421) -/
  waitAt : Nat
  /-- the asynchronous operation whose fault is served (R28), if one is -/
  op : Option Nat
  /-- the stream whose fault is served (R290), if one is -/
  stream : Option Nat
  /-- the entry that fault holds -/
  entry : Nat
  /-- that stream's number, and the entry's positions below NIDX (R292) -/
  sid : Nat := 0
  pos : Mask := 0
  /-- the yield-wait that the handler interrupted (R25, R28) -/
  yw : Option YWait := none
  deriving DecidableEq, Repr

/-- A parked group (R27, R215): the tickets of the parts not yet answered, the slot to run again and its lanes, the operation or
stream to continue, and whether a PGMAP.fwd group finishes its SVRET. `dead` marks a group that issues nothing more (R401). -/
structure Park where
  tickets : List Nat
  dead : Bool
  slot : Nat
  only : Option Mask
  op : Option Nat
  stream : Option Nat
  svret : Bool
  /-- that stream's number (R290) -/
  sid : Nat := 0
  deriving DecidableEq, Repr

/-- A resident group (R104 to R107, R17, R85, R94). Registers: `v` by register × 32 + lane; `s` by register; `p` a lane mask by
predicate; `k` 1 for a true uniform predicate; `seed` by lane. `chip` holds the on-chip control-stack entries, lowest first. -/
structure Group where
  page : Nat
  team : Nat
  core : Nat
  gslot : Nat
  quad : Nat
  idx : Nat
  role : Nat
  slot0 : Option Frag
  slot1 : Option Frag
  exited : Mask
  sp : Nat
  chip : List Entry
  /-- the indices of the live FRAG entries, highest first, and whether each was made in supervisor mode (R117) -/
  fidx : List (Nat × Bool)
  v : FMap Word
  s : FMap Word
  p : FMap Mask
  k : FMap Word
  seed : FMap Word
  seedbase : Word
  fstat : BitVec 7
  cnt : FMap Nat
  allot : Nat
  h : Handler
  yw : Option YWait
  park : Option Park
  /-- the records PGMAP.fwd posted and that have no answer yet (R220) -/
  fwd : List Nat
  pend : List PWrite
  ended : Bool
  /-- flags whose instructions have not yet written their results (R85) -/
  pfl : List PFlag := []
  /-- by index of a FRAG entry that YIELD pushed, the cycle from which its fragment may issue (R48, R123) -/
  owed : FMap Nat := []
  deriving DecidableEq, Repr

/-! ### Engine operations -/

/-- A tile descriptor (R297). -/
structure TileDesc where
  elem : DWord
  moff : Word
  xoff : Word
  ooff : Word
  pitch : Nat
  fmt : Ty
  ocap : Nat
  ocount : Nat
  deriving DecidableEq, Repr

/-- A quantiser descriptor (R328). -/
structure QDesc where
  src : DWord
  spitch : Nat
  toff : Nat
  hoff : Nat
  coff : Nat
  foff : Nat
  sideB : Bool
  bf16 : Bool
  seg : Nat
  lines : Nat
  pct : Nat
  deriving DecidableEq, Repr

/-- A copy operation (R253 to R255, R258, R264, R266): `finished` chunks, those being written with the bytes read for them (`held`),
the record starts found so far (`zoff`), and the hand-off to Skesunal with its record's ticket and whether it has been answered. -/
structure CopyOp where
  src : DWord
  srcLocal : Bool
  dst : DWord
  dstLocal : Bool
  rows : Nat
  rowBytes : Nat
  spitch : Nat
  dpitch : Nat
  zws : Bool
  bound : Nat
  scope : BitVec 3
  rep : Bool
  cbit : Nat
  finished : List Nat
  held : List (Nat × List Byte)
  zoff : List Nat
  /-- held chunks that the remainder service has read (R266) -/
  late : List Nat
  rem : Option (Nat × Bool)
  deriving DecidableEq, Repr

/-- A direct access operation or pushed scatter entry (R274, R278, R286). `size` is the SIZE code. `lower` holds the lanes whose lower split part is
done (R276); `faulted` the lanes that met a fault since the last retry; `vskip`, by destination register, and `oskip` the lanes that a younger
write of the register, or of the ok predicate, has taken (R280); `entry` the stream and entry of a pushed entry. -/
structure DirectOp where
  gather : Bool
  size : Nat
  base : DWord
  bound : DWord
  stride : Word
  fill : Word
  sent : Bool
  split : Bool
  scope : BitVec 3
  okp : Nat
  vd : Nat
  active : Mask
  idx : List (Nat × Word)
  data : List (Nat × BitVec 128)
  done : Mask
  lower : Mask
  faulted : List (Nat × FaultInfo)
  vskip : FMap Mask
  oskip : Mask
  entry : Option (Nat × Nat)
  deriving DecidableEq, Repr

/-- What a matrix operation does (R311 to R320) and how far it is. -/
inductive MatKind where
  | mzero
  | mma (a : TileDesc) (b : TileDesc) (m : Nat) (n : Nat) (nseg : Nat) (sparse : Bool) (pat : BitVec 2) (ma : Nat) (mb : Nat) (prog : Nat)
  | mld (mreg : Nat) (addr : DWord)
  | accrd (vd : Nat) (pos : Nat) (qtr : Nat) (col : Bool) (ty : Ty) (rnd : BitVec 3) (sat : Bool) (wide : Bool)
  | accwr (pos : Nat) (qtr : Nat) (col : Bool) (add : Bool) (vals : List Acc)
  | accst (base : DWord) (row0 : Nat) (nrows : Nat) (pitch : Nat) (ty : Ty) (rnd : BitVec 3) (sat : Bool) (wide : Bool) (pad : Bool)
      (scope : BitVec 3) (rep : Bool) (rows : Nat)
  deriving DecidableEq, Repr

/-- A quantiser operation (R328, R334, R340). -/
structure QuantOp where
  code : Nat
  d : QDesc
  td : TileDesc
  sq : List Word
  sr : Bool
  strict : Bool
  acc : Bool
  scope : BitVec 3
  deriving DecidableEq, Repr

/-- The engine's part of an operation. -/
inductive OpKind where
  | copy (c : CopyOp)
  | direct (d : DirectOp)
  | matrix (tile : Nat) (m : MatKind)
  | quant (q : QuantOp)
  /-- a link operation: the records (destination package, sequence) not yet acknowledged (R391) -/
  | link (await : List (Nat × BitVec 22))
  deriving DecidableEq, Repr

/-- Where the fault of a stopped operation stands (R28, R289): the faults met, whether they have been delivered, and the records
that have no answer yet. -/
structure Stop where
  faults : List FaultInfo
  sent : Bool
  tickets : List Nat
  deriving DecidableEq, Repr

/-- An accepted asynchronous operation (R16 to R18, R20, R28, R237). `todo` are the counter classes it has still to complete,
`ripe` those completed and not yet retired; `flags` what it adds to FSTAT when it retires (R85). -/
structure Op where
  id : Nat
  place : Nat
  page : Nat
  team : Nat
  core : Nat
  pc : DWord
  op : BitVec 8
  fmt : BitVec 2
  reg : Option (SlotRef × BitVec 16)
  todo : List Nat
  ripe : List Nat
  stop : Option Stop
  flags : BitVec 7
  kind : OpKind
  deriving DecidableEq, Repr

/-- A fault record (R216). -/
structure FRec where
  seq : Word
  code : BitVec 16
  kind : Nat
  flags : BitVec 8
  node : Nat
  team : Word
  core : Nat
  gslot : Nat
  group : Nat
  pc : DWord
  va : DWord
  mask : Mask
  parts : Nat
  part : Nat
  d0 : Word
  d1 : Word
  d2 : Word
  d3 : Word
  deriving DecidableEq, Repr

/-- An arrival on its way to a slot of another core of the cluster (R238, R240). `credit` bytes, or the chunk-map bit. -/
structure Arrival where
  /-- the operation it comes from, and its engine class -/
  op : Nat
  cls : Nat
  slot : SlotRef
  tag : BitVec 16
  bit : Option Nat
  bytes : Nat
  final : Bool
  /-- the issuing group's fields of a record, for an arrival that ends the context (R238, R427) -/
  frec : FRec
  deriving DecidableEq, Repr

/-! ### Teams -/

/-- A barrier slot (R233). KIND: 0 Free, 1 counting, 2 chunk map. NWAIT is the number of its waiters, which the groups hold. `latest` is the model's
own: the cycle, class and operation of the latest arrival, for the order within a cycle (R240). -/
structure Slot where
  kind : Nat
  gen : BitVec 16
  phase : BitVec 16
  expect : Nat
  arrived : Nat
  part : Word
  arrmask : Word
  tx : Int
  bits : BitVec 512
  pend : BitVec 12
  age : Word
  latest : Nat × Nat × Nat
  deriving DecidableEq, Repr

/-- A live stash line (R179): `owned` with its dirty mask, or shared; `key` is the memory key of the global line. -/
structure Line where
  owned : Bool
  dirty : BitVec 256
  key : Nat
  deriving DecidableEq, Repr

/-- A live stash window (R178) and its lines that are not Invalid, by line index. -/
structure Window where
  rw : Bool
  loff : Nat
  size : Nat
  gbase : DWord
  lines : FMap Line
  deriving DecidableEq, Repr

/-- An entry of a gather stream (R284): delivered elements by position, ok, fault and delivered bits, and the fault that holds
it (position, fault, whether of the index array). -/
structure SEntry where
  n : Nat
  data : List (Nat × BitVec 128)
  ok : Mask
  flt : Mask
  del : Mask
  held : List (Nat × FaultInfo × Bool)
  deriving DecidableEq, Repr

/-- A stream context (R274, R282, R287): the descriptor as read (`size` is the SIZE code), STATE, the entries not yet taken or given up, the next one to
produce, entries taken or pushed, and entries whose APPOP faulted and is to issue again (R290). -/
structure Stream where
  scatter : Bool
  base : DWord
  bound : DWord
  idx : DWord
  nidx : Nat
  stride : Word
  fill : Word
  qoff : Nat
  scope : BitVec 3
  size : Nat
  qdepth : Nat
  sent : Bool
  split : Bool
  fpol : Bool
  state : Nat
  entries : List SEntry
  next : Nat
  taken : Nat
  back : List Nat
  /-- queue places that software has written while the stream is live: their entries' contents are undefined -/
  spoilt : List Nat
  /-- its number, by which a handler knows it from a later stream of the same SNUM (R292) -/
  sid : Nat := 0
  deriving DecidableEq, Repr

/-- An accumulator tile: elements by row × 128 + column, and the NAN and INF bits of TSTAT (R294 to R296). -/
structure Tile where
  el : FMap Acc
  nan : Bool
  inf : Bool
  deriving DecidableEq, Repr

/-- A team on its core (R12, R104, R126, R175, R231, R294, R303, R355, R372). `base` and `size` are its local allocation;
`pools` the register blocks by quadrant; `meta` the complement of each metadata register (all bits 1 at dispatch). -/
structure Team where
  page : Nat
  lid : Nat
  node : Nat
  kind : Nat
  t : Nat
  depth : Nat
  core : Nat
  ngroup : Nat
  base : Nat
  size : Nat
  nslots : Nat
  ntiles : Nat
  charge : Nat
  /-- cluster serial, row, column, h, w; for a team of no cluster the serial is none -/
  clu : Option Nat
  row : Nat
  col : Nat
  cluh : Nat
  cluw : Nat
  pools : FMap Nat
  windows : FMap Window
  slots : FMap Slot
  tiles : FMap Tile
  metan : FMap (BitVec 16384)
  streams : FMap Stream
  /-- the input records: for a lane-record node by lane × 1 + 32 × group, otherwise at 0 -/
  recs : List (Nat × List Word)
  range : Option Nat
  ended : Bool
  deriving DecidableEq, Repr

/-! ### Graphs, launches, queues -/

/-- A role of a node (R347). -/
structure Role where
  ng : Nat
  regs : Nat
  prio : Nat
  deriving DecidableEq, Repr

/-- A node descriptor (R347). KIND: 0 lane-record, 1 team-record, 2 grid. -/
structure Node where
  entry : DWord
  kind : Nat
  pod : Bool
  itype : Nat
  energy : Nat
  recur : Nat
  reserve : Nat
  cluh : Nat
  cluw : Nat
  slots : Nat
  tiles : Nat
  loc : Nat
  roles : List Role
  qcap : Nat
  succ : List Nat
  deriving DecidableEq, Repr

/-- A graph descriptor (R346): the root and, for each record type, its size in bytes. -/
structure Graph where
  root : Nat
  types : List Nat
  nodes : List Node
  deriving DecidableEq, Repr

/-- A launch record (R350). -/
structure LRec where
  graph : DWord
  recs : DWord
  nrec : Word
  pod : Bool
  spill : Word
  lseed : Word
  spillbase : DWord
  cpl : DWord
  tag : Word
  deriving DecidableEq, Repr

/-- A reservation in a queue segment (R353): waiting, or granted (pending). `flush` says that a FLUSHQ reached it after its grant
(R373), `place` its place in the queue, `order` when its reservation was granted (R361). -/
structure QRec where
  rid : Nat
  node : Nat
  die : Nat
  data : List Word
  depth : Nat
  granted : Bool
  spilled : Bool
  flush : Bool
  /-- the package for whose record a credit holds this reservation, before the record comes; while the grant is deferred, `data`
  holds the number of credits asked for (R390) -/
  empty : Option Nat
  place : Nat
  order : Nat
  deriving DecidableEq, Repr

/-- A reservation of a record bound for another package that waits for a credit (R390). -/
structure RemRec where
  rid : Nat
  node : Nat
  pkg : Nat
  rtype : Nat
  data : List Word
  depth : Nat
  op : Nat
  deriving DecidableEq, Repr

/-- A grid record that has been taken: the die of its segment (none for a dealt range), its teams, the next T to form, the end of
the range, data and place in the serving order (R356, R361, R397). -/
structure GridJob where
  node : Nat
  seg : Option Nat
  next : Nat
  last : Nat
  data : List Word
  order : Nat
  range : Option Nat
  deriving DecidableEq, Repr

/-- One team of a formed team or cluster. -/
structure Seed where
  t : Nat
  depth : Nat
  recs : List (Nat × List Word)
  deriving DecidableEq, Repr

/-- A formed team or cluster that waits for admission on its die (R357, R361). Until then its records hold their space in the
segment of die `seg`: `spilled` of them in the spill area. -/
structure Formed where
  fid : Nat
  lid : Nat
  node : Nat
  seg : Nat
  die : Nat
  spilled : Nat
  order : Nat
  seeds : List Seed
  range : Option Nat
  deriving DecidableEq, Repr

/-- A pod barrier (R405). -/
structure PodBar where
  phase : BitVec 16
  expect : BitVec 24
  arrived : BitVec 24
  deriving DecidableEq, Repr

/-- A launch on this package (R350 to R352, R364 to R367, R391, R395 to R403). PHASE: 0 accepted and not started, 1 started.
CANCEL: 0 none, 1 soft, 2 hard. -/
structure Launch where
  lid : Nat
  page : Nat
  lseq : Word
  home : Nat
  r : LRec
  g : Graph
  parent : Option Nat
  level : Nat
  phase : Nat
  cancel : Nat
  /-- a cancel that came before the start of a launch of pod scope, by kind: it is applied when the launch starts (R396) -/
  held : Nat
  code : Nat
  reason : Nat
  fcode : BitVec 16
  fcount : Nat
  fnode : Nat
  fpkg : Nat
  nteams : Nat
  nrecs : Nat
  dropped : Nat
  spillmax : Nat
  spilluse : Nat
  init : Nat
  q : List QRec
  rq : List RemRec
  grids : List GridJob
  nextT : FMap Nat
  ovf : Nat
  sent : Nat
  recv : Nat
  /-- queries of PODQRY: number, selector, operand; the first has been sent and has no answer yet (R409) -/
  queries : List (Word × Word × Word) := []
  credits : List (Nat × Nat × Nat)
  asked : List (Nat × Nat)
  /-- packages that have been asked for credits: they hold a part of the launch (R390) -/
  lent : List Nat
  pseq : Option Word
  podroot : Nat
  nt : Nat
  nr : Nat
  rlen : Nat
  grid : List Word
  bars : FMap PodBar
  wave : Option Nat
  /-- FINAL parts that have come, the completion record they carry, the faulting packages (R403, R404) -/
  final : List Nat
  totals : List Word
  fpkgs : List Nat
  status : Option Word
  deriving DecidableEq, Repr

/-- What the pod root or wave root holds of one launch (R394 to R402). -/
structure Root where
  pseq : Option Word
  podctx : BitVec 16
  page : Nat
  home : Nat
  lseq : Word
  r : LRec
  members : List Nat
  started : List (Nat × Nat)
  nt : Nat
  rlen : Nat
  nr : Nat
  dealt : List Nat
  done : List Nat
  cancel : Nat
  faults : List (Nat × BitVec 16 × Nat)
  wave : Nat
  replies : List (Nat × Envelope)
  prev : Option (Nat × Nat)
  finished : Bool
  deriving DecidableEq, Repr

/-! ### Contexts -/

/-- The 256-byte context descriptor as read at LOAD (R34, R113, R207, R250, R381). -/
structure Desc where
  savebase : DWord
  savesize : Word
  hndbase : DWord
  csbase : DWord
  csentries : Nat
  stallchk : Bool
  hnden : BitVec 16
  hsavebase : DWord
  hsavestride : Word
  ptroot : DWord
  ctxid : BitVec 16
  asid : BitVec 12
  frqbase : DWord
  frqsize : Nat
  poolsize : Nat
  poolhdr : DWord
  hoten : Bool
  hotthresh : Nat
  wdcycles : Nat
  wddiag : DWord
  podtab : DWord
  podctx : BitVec 16
  rto : Nat
  nretry : Nat
  deriving DecidableEq, Repr

/-- A fault part without an answer, by a ticket, and what its answer continues (R218, R266, R183): a group's part, a copy's
remainder, a stash line, or nothing. SEQ 0 marks a part that Skesunal's fill service has not yet posted (R221). -/
structure Pending where
  ticket : Nat
  frec : FRec
  place : Option Nat
  op : Option Nat
  line : Option (Nat × Nat × Nat)
  deriving DecidableEq, Repr

/-- A context page (R414) and the context it has loaded. STATE: 0 empty, 1 loading, 2 running, 3 halting, 4 halted,
5 refused, 6 terminated. -/
structure Ctx where
  descAddr : DWord
  reason : BitVec 16
  qerr : Bool
  state : Nat
  qbase : DWord
  qsize : Word
  qhead : Word
  qtail : Word
  d : Desc
  seq : Word
  wr : Word
  heldRecs : List FRec
  waiting : List Pending
  nextLseq : Word
  /-- the most recently completed launches, newest first: LSEQ, status, FCODE, FPKG, FNODE, FCOUNT, faulting packages, own home -/
  closed : List (Word × Word × List Nat × List Nat)
  members : List Nat
  /-- the pod table as the link engine last read it: for directory entry g, its GRAPH and its placement entries that are not 0 -/
  dir : List (Nat × DWord)
  place : FMap (BitVec 16)
  /-- the terminal record of a termination that this step still has to carry out, and the watchdog's block after SEQ that goes with it
  (the model's own fields) -/
  doom : Option FRec
  block : Option (List Byte)
  deriving DecidableEq, Repr

/-! ### Package-wide units -/

/-- A translation cache entry (R208, R213): ASID, the page's base and size in 64 KiB units, the leaf. -/
structure Tlb where
  asid : BitVec 12
  base : Nat
  units : Nat
  leaf : DWord
  deriving DecidableEq, Repr

/-- A waiting or granted page move claim (R224, R419); `loc` is where the page was when the claim was granted. -/
structure Claim where
  asid : BitVec 12
  unit : Nat
  host : Bool
  /-- the fault record from which the driver requests the claim; 0 of the host's -/
  seq : Word
  granted : Bool
  loc : Option Nat
  deriving DecidableEq, Repr

/-- What the map unit counts for a page (R225): the last move was toward the host, reversals, and the lines written since. -/
structure Moves where
  page : Nat
  asid : BitVec 12
  toHost : Option Bool
  revs : Nat
  lines : List Nat
  deriving DecidableEq, Repr

/-- A prefetch queue entry (R253, R269): lines done so far, and the hint record that the first page not in device memory posts. -/
structure Pfx where
  core : Nat
  page : Nat
  base : DWord
  len : Nat
  next : Nat
  tag : BitVec 16
  prio : Nat
  need : Option (SlotRef × BitVec 16 × BitVec 16)
  hint : Option FRec
  deriving DecidableEq, Repr

/-- A monitor block (R421). -/
structure Monitor where
  en : Bool
  frz : Bool
  shift : BitVec 5
  event : BitVec 8
  src : BitVec 16
  count : Word
  min : Word
  max : Word
  bins : FMap Word
  /-- the samples of the latest cycle with one, and that cycle, for a CLR in the same cycle (the model's own fields) -/
  recent : List Word
  stamp : Nat
  deriving DecidableEq, Repr

/-- The system controller and the host's register space (R412 to R424). `going` is how far the start has been asked to go: 0 before the
PCIe link is up, 1 from then on, 2 after GO2, 3 after GO3. -/
structure Sys where
  stage : Nat
  err : BitVec 4
  ports : BitVec 16
  pkg : BitVec 10
  going : Nat
  pceil : BitVec 2
  lattol : Word
  pstate : Nat
  budget : Nat
  /-- a tail write, an envelope or a LOAD has come in an idle state (R420) -/
  wake : Bool
  invasid : Word
  invcnt : Word
  invbase : DWord
  /-- an invalidation of R418 that is not complete: its ASID and its range -/
  inv : Option (BitVec 12 × Option (Nat × Nat))
  migasid : Word
  migva : DWord
  mig : Nat
  /-- pages whose rings have not resumed since 4,096 launches were live (R415) -/
  stalled : List Nat
  attest : FMap Byte
  /-- the digests of the images that were verified, Skesunal's first (R423, R424) -/
  digests : List (BitVec 512)
  mons : FMap Monitor
  fab : Nat
  /-- the last window of 2^20 fabric cycles in which power was sampled, and the one the hot-page tracker counts (R421, R226) -/
  fabpow : Nat
  hotwin : Nat
  /-- corrected errors by row (stack × 2^40 + row), rows remapped; by stack, one more than the window of 2^36 fabric cycles of the latest scrub
  pass, and the temperature (R422) -/
  corrected : FMap Nat
  remapped : List Nat
  scrubs : FMap Nat
  temps : FMap Word
  deriving DecidableEq, Repr

/-- A retained envelope (R386, R388). -/
structure Retained where
  seq : BitVec 22
  e : Envelope
  tries : Nat
  timer : Nat
  lid : Nat
  deriving DecidableEq, Repr

/-- The sender's side of a stream (R386, R388). -/
structure Tx where
  dst : Nat
  podctx : BitVec 16
  next : BitVec 22
  kept : List Retained
  /-- envelopes that wait because 256 are unacknowledged -/
  backlog : List (Envelope × Nat × Nat)
  unreach : Bool
  deriving DecidableEq, Repr

/-- The receiver's side of a stream (R387). -/
structure Rx where
  src : Nat
  podctx : BitVec 16
  acclo : BitVec 22
  win : BitVec 256
  deriving DecidableEq, Repr

/-- The link engine and the pod dispatchers (R378 to R411). -/
structure Link where
  joined : List Nat
  root : Option Nat
  pseq : Word
  roots : List Root
  tx : List Tx
  rx : List Rx
  /-- envelopes dropped (R385) -/
  drops : Nat
  /-- CANCELs that came before their START (R396): context page, LSEQ, home package, hard; the highest PSEQ that a member has started (R394) -/
  cancels : List (Nat × Word × Nat × Bool)
  started : Word
  /-- envelopes taken that wait to act: for a place in the launch table, or for a read that waits (R351, R183) -/
  late : List (Nat × Envelope)
  /-- arrivals and queries numbered so far -/
  nextArr : Word
  /-- launches of other homes that have ended here: context page, LSEQ, home package (R390) -/
  ended : List (Nat × Word × Nat) := []
  deriving DecidableEq, Repr

/-- What the package sends out: envelopes by destination, UALink accesses and answers, host read data, answers to the driver's
claims (R224, R380, R384, R413). -/
inductive Sent where
  | envelope (dst : Nat) (e : Envelope)
  | answer (dst : Nat) (v : List Byte) (ok : Bool)
  /-- a UALink access of this package to a peer's memory: a read, or a write or atomic with the bytes it leaves -/
  | peer (dst : Nat) (atomic : Bool) (pa : DWord) (n : Nat) (data : Option (List Byte))
  /-- the answer to a move claim of the driver: a fault record, granted or RETRY (R224) -/
  | claim (page : Nat) (seq : Word) (granted : Bool)
  | hostData (v : DWord)
  deriving DecidableEq, Repr

/-- A range of memory keys whose contents are undefined, from `lo` up to and not including `hi`; `seed` names its free values. -/
structure URange where
  lo : Nat
  hi : Nat
  seed : Nat
  deriving DecidableEq, Repr

/-- Who moves next: a quadrant of a core issues (R10, R127), an event of the table happens, or cycles pass (R4). -/
inductive Turn where
  | issue (core : Nat) (quad : Nat)
  | event (e : Instr)
  | tick (core : Nat) (fab : Nat)
  /-- cycles of one core alone: the counters of two cores stand in no fixed relation (R4) -/
  | drift (core : Nat) (n : Nat)
  /-- a line of device memory meets an uncorrectable error (R422) -/
  | upset (line : Nat)
  /-- a byte of a peer package's memory changes there (R380) -/
  | foreign (key : Nat) (b : Byte)
  /-- the driver requests a move claim from an unanswered fault record of a context (R224) -/
  | driverClaim (page : Nat) (seq : Word)
  /-- word that a member of the pod has started a pod number (R394) -/
  | podStarted (pseq : Word)
  deriving DecidableEq, Repr

/-- One BT440 package. `place` keys are 64 × core + GSLOT. -/
structure State where
  /-- memory: device, host, peers' and core-local bytes by key, canonical -/
  mem : List Host.Cell
  undef : List URange
  /-- the 256-byte lines of device memory that hold an uncorrectable error (R265, R322, R343, R422) -/
  bad : List Nat
  groups : FMap Group
  teams : FMap Team
  ops : List Op
  arrivals : List Arrival
  launches : List Launch
  formed : List Formed
  ctxs : FMap Ctx
  tlb : List Tlb
  claims : List Claim
  moves : List Moves
  /-- accesses counted by the hot-page tracker in this window: ASID × 2^41 + page unit (R226) -/
  hot : FMap Nat
  pfx : List Pfx
  /-- cycles that have passed for every core (R4, R107) -/
  clk : Nat
  /-- by core, the cycles that have passed for it alone: its own cycle counter is `clk` and these (R4, R107) -/
  skew : FMap Nat
  /-- by 4 × core + quadrant, one more than the cycle of its last issue (R10) -/
  issued : FMap Nat
  /-- who last used a range of core-local memory: key range and context page (R175) -/
  locUse : List (Nat × Nat × Nat)
  /-- L2 lines held by another slice than their home (R186) -/
  forward : FMap Nat
  sys : Sys
  link : Link
  out : List Sent
  /-- the fragment whose instruction `exec` runs: place and slot -/
  cur : Nat × Nat
  agenda : List Turn
  /-- events the package owes itself (an envelope to its own package) -/
  owed : List Instr
  /-- serial numbers: operations, teams, launches, reservations, formed teams, orders -/
  serial : Nat
  /-- steps taken: it rotates the default turn -/
  turn : Nat
  /-- free values drawn (the model's own field) -/
  fresh : Nat
  /-- an access reached absent device memory in this step (the model's own field; the step ends in the fault of that name) -/
  absent : Bool
  deriving DecidableEq, Repr

/-- A handler state with every register at its reset value (R107). -/
def Handler.reset : Handler :=
  { ecause := 0, epc := 0, enpc := 0, eaddr := 0, emask := 0, efrag := 0, erest := 0, replay := false, ersp := 0, efmt := 0,
    kind := 15, slot := none, wait := none, waitAt := 0, op := none, stream := none, entry := 0 }

/-- A group with nothing in it: what a place without a resident group reads as. -/
def Group.empty : Group :=
  { page := 0, team := 0, core := 0, gslot := 0, quad := 0, idx := 0, role := 0, slot0 := none, slot1 := none, exited := 0,
    sp := 0, chip := [], fidx := [], v := [], s := [], p := [], k := [], seed := [], seedbase := 0, fstat := 0, cnt := [], allot := 0,
    h := Handler.reset, yw := none, park := none, fwd := [], pend := [], ended := true }

/-- A team with nothing granted. -/
def Team.empty : Team :=
  { page := 0, lid := 0, node := 0, kind := 0, t := 0, depth := 0, core := 0, ngroup := 0, base := 0, size := 0, nslots := 0,
    ntiles := 0, charge := 0, clu := none, row := 0, col := 0, cluh := 0, cluw := 0, pools := [], windows := [], slots := [],
    tiles := [], metan := [], streams := [], recs := [], range := none, ended := true }

/-- A Free slot with GEN 0 (R232). -/
def Slot.free : Slot :=
  { kind := 0, gen := 0, phase := 0, expect := 0, arrived := 0, part := 0, arrmask := 0, tx := 0, bits := 0, pend := 0,
    age := 0, latest := (0, 0, 0) }

/-- A tile as dispatched: every element +0 (R295). -/
def Tile.zero : Tile := { el := [], nan := false, inf := false }

/-- A descriptor with every field 0. -/
def Desc.zero : Desc :=
  { savebase := 0, savesize := 0, hndbase := 0, csbase := 0, csentries := 0, stallchk := false, hnden := 0, hsavebase := 0,
    hsavestride := 0, ptroot := 0, ctxid := 0, asid := 0, frqbase := 0, frqsize := 0, poolsize := 0, poolhdr := 0,
    hoten := false, hotthresh := 0, wdcycles := 0, wddiag := 0, podtab := 0, podctx := 0, rto := 0, nretry := 0 }

/-- A context page at reset (R414): STATE 0 and every register 0. -/
def Ctx.reset : Ctx :=
  { descAddr := 0, reason := 0, qerr := false, state := 0, qbase := 0, qsize := 0, qhead := 0, qtail := 0, d := Desc.zero,
    seq := 1, wr := 0, heldRecs := [], waiting := [], nextLseq := 1, closed := [], members := [], dir := [], place := [], doom := none, block := none }

/-- A monitor block at reset (R421). -/
def Monitor.reset : Monitor :=
  { en := false, frz := false, shift := 0, event := 0, src := 0, count := 0, min := 0xFFFFFFFF, max := 0, bins := [], recent := [], stamp := 0 }

/-- The system controller at reset (R412, R413, R420): stage 0, PCEIL 0, LATTOL 0. -/
def Sys.reset : Sys :=
  { stage := 0, err := 0, ports := 0, pkg := 0, going := 0, pceil := 0, lattol := 0, pstate := 0, budget := 512, wake := false,
    invasid := 0, invcnt := 0, invbase := 0, inv := none, migasid := 0, migva := 0, mig := 0, attest := [], stalled := [], digests := [], mons := [],
    fab := 0, fabpow := 0, hotwin := 0, corrected := [], remapped := [], scrubs := [], temps := [] }

/-- The link engine at reset: no pod, no stream. -/
def Link.reset : Link :=
  { joined := [], root := none, pseq := 1, roots := [], tx := [], rx := [], drops := 0, cancels := [], late := [],
    started := 0, nextArr := 1 }

/-- The package right after reset by the host platform (R412): before stage 0, nothing loaded, nothing resident, no memory
written. -/
def State.reset : State :=
  { mem := [], undef := [], bad := [], groups := [], teams := [], ops := [], arrivals := [], launches := [], formed := [], ctxs := [],
    tlb := [], claims := [], moves := [], hot := [], pfx := [], clk := 0, skew := [], issued := [], locUse := [], forward := [], sys := Sys.reset,
    link := Link.reset, out := [], cur := (0, 0), agenda := [], owed := [], serial := 1, turn := 0, fresh := 0, absent := false }

end Sys2Proof.Machine
end

