-- ==== Sys2Proof/Machine/Mem.lean ====
section
/-! DEFINITION. Memory by flat key, undefined ranges, the regions of the generic address space (R172), page tables and
translation (R209 to R213, R223 to R226). -/
namespace Sys2Proof.Machine

/-! ### Keys -/

/-- The key of a device physical address. -/
def devKey (pa : Nat) : Nat := pa
/-- The key of a host physical address. -/
def hostKey (pa : Nat) : Nat := 2 ^ 52 + pa
/-- The key of a physical address of package p. -/
def peerKey (p pa : Nat) : Nat := 2 ^ 53 + p * 2 ^ 52 + pa
/-- The key of a byte of a core's local memory. -/
def localKey (core off : Nat) : Nat := 2 ^ 64 + core * 2 ^ 21 + off

/-- Whether a key names device memory beyond the stacks in service: eight of 64 GiB, or stack 0 alone before stage 2 (R412). -/
def State.gone (s : State) (k : Nat) : Bool := decide ((if s.sys.stage < 2 then 2 ^ 36 else 2 ^ 39) ≤ k) && decide (k < 2 ^ 52)

/-! ### Bytes -/

/-- The range of undefined contents that covers a key. -/
def undefAt (s : State) (k : Nat) : Option URange := s.undef.find? (fun u => decide (u.lo ≤ k) && decide (k < u.hi))

/-- The byte at a key: a free byte in a range of undefined contents; otherwise the byte listed, or 0. -/
def State.byteAt (s : State) (k : Nat) : Byte :=
  match undefAt s k with
  | some u => Config.freeByte u.seed k
  | none => fget s.mem k 0

/-- The undefined ranges without the keys from lo up to hi. -/
def punch (us : List URange) (lo hi : Nat) : List URange :=
  us.flatMap (fun u =>
    if hi ≤ u.lo || u.hi ≤ lo then [u]
    else (if u.lo < lo then [{ u with hi := lo }] else []) ++ (if hi < u.hi then [{ u with lo := hi }] else []))

/-- One byte written. -/
def State.setByte (s : State) (k : Nat) (b : Byte) : State :=
  { s with mem := fset s.mem k 0 b, undef := punch s.undef k (k + 1), absent := s.absent || s.gone k }

/-- n bytes from a key up. -/
def State.bytesAt (s : State) (k n : Nat) : List Byte := (List.range n).map (fun i => s.byteAt (k + i))

/-- Bytes written from a key up. -/
def State.setBytes (s : State) (k : Nat) : List Byte → State
  | [] => s
  | b :: l => (s.setByte k b).setBytes (k + 1) l

/-- The little-endian value of n bytes. -/
def State.valAt (s : State) (k n : Nat) : Nat := leVal (s.bytesAt k n)
/-- A 32-bit word of memory. -/
def State.wordAtKey (s : State) (k : Nat) : Word := BitVec.ofNat 32 (s.valAt k 4)
/-- A 64-bit word of memory. -/
def State.dwordAtKey (s : State) (k : Nat) : DWord := BitVec.ofNat 64 (s.valAt k 8)
/-- A little-endian value of n bytes written. -/
def State.setVal (s : State) (k n v : Nat) : State := s.setBytes k (leBytes n v)

/-- The bytes from lo up to hi become zero. -/
def State.zeroRange (s : State) (lo hi : Nat) : State :=
  { s with mem := s.mem.filter (fun c => decide (c.1 < lo) || decide (hi ≤ c.1)), undef := punch s.undef lo hi,
           absent := s.absent || s.gone lo }

/-- The bytes from lo up to hi become undefined: free bytes under a fresh seed. -/
def State.undefRange (s : State) (lo hi : Nat) : State :=
  let s := s.zeroRange lo hi
  { s with undef := { lo := lo, hi := hi, seed := s.fresh } :: s.undef, fresh := s.fresh + 1 }

/-- A range of device memory holds an uncorrectable error (R422). -/
def State.badAt (s : State) (k n : Nat) : Bool := s.bad.any (fun l => decide (k < 256 * l + 256) && decide (256 * l < k + n))

/-- The canonical form of memory. -/
def Memory.wf (m : List Host.Cell) : Bool := fwf (0 : Byte) m

/-- A touch of a key by physical address: absent device memory is marked. -/
def State.touch (s : State) (k : Nat) : State := { s with absent := s.absent || s.gone k }

/-! ### Contexts, teams, stash lines -/

/-- A core's local cycle counter (R4, R107). -/
def State.clkOf (s : State) (core : Nat) : Nat := s.clk + fget s.skew core 0

/-- The context page c. -/
def State.ctx (s : State) (page : Nat) : Ctx := fget s.ctxs page Ctx.reset
/-- A context page replaced. -/
def State.setCtx (s : State) (page : Nat) (c : Ctx) : State := { s with ctxs := fput s.ctxs page c }
/-- A team. -/
def State.team (s : State) (id : Nat) : Team := fget s.teams id Team.empty
/-- A team replaced. -/
def State.setTeam (s : State) (id : Nat) (t : Team) : State := { s with teams := fput s.teams id t }

/-- A window with a line replaced or made Invalid. -/
def Window.setLine (w : Window) (ln : Nat) : Option Line → Window
  | some l => { w with lines := fput w.lines ln l }
  | none => { w with lines := fdel w.lines ln }

/-- A line of a team's window replaced or made Invalid. -/
def setLineOf (s : State) (tid win ln : Nat) (l : Option Line) : State :=
  match ffind s.teams tid with
  | none => s
  | some t => match ffind t.windows win with
    | none => s
    | some w => s.setTeam tid { t with windows := fput t.windows win (w.setLine ln l) }

/-- The dirty bytes of a line's local copy put over its global copy (R181). -/
def mergeDirty (s : State) (lkey gkey : Nat) (dirty : BitVec 256) : State :=
  (List.range 256).foldl (fun s i => if bit dirty i then s.setByte (gkey + i) (s.byteAt (lkey + i)) else s) s

/-- The live stash lines that hold a global line, by team, window and line number. -/
def holders (s : State) (gline : Nat) : List (Nat × Nat × Nat) :=
  s.teams.flatMap (fun t => t.2.windows.flatMap (fun w => w.2.lines.flatMap (fun l =>
    if l.2.key == gline then [(t.1, w.1, l.1)] else [])))

/-- Whether snooping a key may need anything: most states hold no stash line. -/
def anyWindow (s : State) : Bool := s.teams.any (fun t => !t.2.windows.isEmpty)

/-- The byte a coherent read of a key returns: a dirty byte of an Owned line stands for the global one (R182). -/
def viewByte (s : State) (key : Nat) : Byte :=
  match firstSome (fun (h : Nat × Nat × Nat) =>
      ((ffind s.teams h.1).bind (fun t => (ffind t.windows h.2.1).bind (fun w => (ffind w.lines h.2.2).bind (fun l =>
        if l.owned && bit l.dirty (key % 256) then some (localKey t.core (t.base + w.loff + 256 * h.2.2 + key % 256)) else none)))))
      (if anyWindow s then holders s (key / 256 * 256) else []) with
  | some k => s.byteAt k
  | none => s.byteAt key

/-- n bytes as a coherent read returns them. -/
def viewBytes (s : State) (key n : Nat) : List Byte := (List.range n).map (fun i => viewByte s (key + i))

/-- A stash line gives its dirty bytes to the global line and becomes Invalid (R179). -/
def yieldLine (s : State) (h : Nat × Nat × Nat) : State :=
  match ffind s.teams h.1 with
  | none => s
  | some t => match (ffind t.windows h.2.1).bind (fun w => (ffind w.lines h.2.2).map (fun l => (w, l))) with
    | none => s
    | some (w, l) =>
      let s := if l.owned then mergeDirty s (localKey t.core (t.base + w.loff + 256 * h.2.2)) l.key l.dirty else s
      setLineOf s h.1 h.2.1 h.2.2 none

/-- Bytes written at .sys by the map unit itself, in its queues and tables: every stash line that holds one of their lines yields it
first (R179, R217). -/
def State.sysPut (s : State) (key : Nat) (l : List Byte) : State :=
  let s := if l.isEmpty || !anyWindow s then s
    else (rangeFrom (key / 256) ((key + l.length - 1) / 256 - key / 256 + 1)).foldl
      (fun s ln => (holders s (256 * ln)).foldl yieldLine s) s
  s.setBytes key l

/-- A little-endian value of n bytes read at .sys. -/
def State.sysVal (s : State) (key n : Nat) : Nat := leVal (viewBytes s key n)
/-- A 64-bit entry read at .sys. -/
def State.sysDword (s : State) (key : Nat) : DWord := BitVec.ofNat 64 (s.sysVal key 8)

/-! ### Regions (R172 to R174) -/

/-- The region of a generic address. -/
inductive Region where
  | translated
  | aperture (core off : Nat)
  | self (off : Nat)
  | cluster (pos off : Nat)
  | reserved
  deriving DecidableEq, Repr

/-- The region of a generic address (R172). -/
def regionOf (a : DWord) : Region :=
  let n := a.toNat
  if n < 0x00F0000000000000 then .translated
  else if n < 0x00F0000010000000 then
    let o := n - 0x00F0000000000000
    .aperture (o / 0x200000) (o % 0x200000)
  else if n < 0x00F8000000000000 then .reserved
  else if n < 0x00F8000000200000 then .self (n - 0x00F8000000000000)
  else if n < 0x00F8000001A00000 then
    let o := n - 0x00F8000000200000
    .cluster (o / 0x200000) (o % 0x200000)
  else .reserved

/-- The n bytes from an address lie in the translated region. -/
def inTranslated (a : DWord) (n : Nat) : Bool := a.toNat + n ≤ 0x00F0000000000000

/-! ### Page tables (R209 to R212) -/

/-- V, LEAF, R, W, X, TSO, PIN, HOME, DISC, CFILL, POOL, DEAD and SHR of an entry (R210, R211). -/
def pteV : Nat := 0
def pteLeaf : Nat := 1
def pteR : Nat := 2
def pteW : Nat := 3
def pteX : Nat := 4
def pteTso : Nat := 5
def ptePin : Nat := 6
def pteHome : Nat := 7
def pteDisc : Nat := 8
def pteCfill : Nat := 9
def ptePool : Nat := 10
def pteDead : Nat := 11
def pteShr : Nat := 12

/-- LOC of a leaf. -/
def pteLoc (e : DWord) : Nat := (bits e 52 2).toNat
/-- PEER of a leaf. -/
def ptePeer (e : DWord) : Nat := (bits e 54 10).toNat
/-- The physical base of a leaf. -/
def ptePa (e : DWord) : Nat := (bits e 16 36).toNat * 65536

/-- The levels of the table: the lowest VA bit and the number of index bits (R209). -/
def levels : List (Nat × Nat × Nat) := [(4, 48, 9), (3, 39, 9), (2, 30, 9), (1, 21, 9), (0, 16, 5)]

/-- A level's shift. -/
def levelShift (lv : Nat) : Nat := if lv = 0 then 16 else 12 + 9 * lv

/-- A valid entry that breaks R210, at a level (R212). -/
def pteBad (lv : Nat) (e : DWord) : Bool :=
  if bit e pteLeaf then
    3 ≤ lv || pteLoc e == 3 || (pteLoc e != 2 && ptePeer e != 0) || bits e 13 3 != 0 || bit e 10 || bit e 9 ||
    (lv == 1 && bits e 16 5 != 0) || (lv == 2 && bits e 16 14 != 0)
  else lv == 0 || bits e 52 12 != 0 || bits e 2 6 != 0 || (lv != 1 && bits e 8 4 != 0)

/-- Where a walk stops. -/
inductive Walk where
  | leaf (lv : Nat) (key : Nat) (e : DWord)
  | invalid (lv : Nat) (key : Nat) (e : DWord)
  | malformed
  | absent
  deriving DecidableEq, Repr

/-- A walk over the remaining levels from a table base: each entry is a strong read at .sys (R212). -/
def walkFrom (s : State) (va : Nat) : List (Nat × Nat × Nat) → Nat → Walk
  | [], _ => .malformed
  | (lv, sh, n) :: ls, base =>
    let k := base + 8 * (va / 2 ^ sh % 2 ^ n)
    if s.gone k then .absent
    else
      let e := s.sysDword k
      if !bit e pteV then .invalid lv k e
      else if pteBad lv e then .malformed
      else if bit e pteLeaf then .leaf lv k e
      else walkFrom s va ls ((bits e 8 44).toNat * 256)

/-- A walk from a context's root. A physical address has 52 bits: PTROOT is taken modulo 2^52 (log 140). -/
def walk (s : State) (d : Desc) (va : Nat) : Walk := walkFrom s va levels (d.ptroot.toNat % 2 ^ 52)

/-- The keys of the entries that such a walk reads. -/
def walkKeys (s : State) (va : Nat) : List (Nat × Nat × Nat) → Nat → List Nat
  | [], _ => []
  | (lv, sh, n) :: ls, base =>
    let k := base + 8 * (va / 2 ^ sh % 2 ^ n)
    if s.gone k then []
    else
      let e := s.sysDword k
      k :: (if !bit e pteV || pteBad lv e || bit e pteLeaf then [] else walkKeys s va ls ((bits e 8 44).toNat * 256))

/-- What an access needs of a leaf (R212). -/
inductive Need where
  | r | w | x
  deriving DecidableEq, Repr

/-- A leaf allows an access. -/
def allows (e : DWord) : Need → Bool
  | .r => bit e pteR
  | .w => bit e pteR && bit e pteW
  | .x => bit e pteX

/-- The outcome of a translation. -/
inductive Xl where
  /-- the memory key, the leaf, the page's base and its 64 KiB units -/
  | ok (key : Nat) (e : DWord) (base units : Nat)
  /-- PAGE_ABSENT: a first touch when `first` -/
  | absentPage (first : Bool)
  | prot
  /-- ENGINE_ERROR of class 0x3 -/
  | malformed
  | absentMem
  deriving DecidableEq, Repr

/-- The memory key of a leaf's byte: device, host, or another package. -/
def leafKey (e : DWord) (off : Nat) : Nat :=
  let pa := ptePa e + off
  if pteLoc e = 0 then devKey pa else if pteLoc e = 1 then hostKey pa else peerKey (ptePeer e) pa

/-- A destination that a context's stream has given up (R388). -/
def unreachable (s : State) (podctx : BitVec 16) (p : Nat) : Bool :=
  s.link.tx.any (fun t => t.dst == p && t.podctx == podctx && t.unreach)

/-- A LOC 0b10 leaf may be used: PEER is another member that is reachable (R380). -/
def peerOk (s : State) (d : Desc) (p : Nat) : Bool :=
  p != s.sys.pkg.toNat && !unreachable s d.podctx p &&
    s.ctxs.any (fun c => decide (2 ≤ c.2.state) && decide (c.2.state ≤ 4) && c.2.d.asid == d.asid && c.2.members.contains p)

/-- A leaf applied to an address, with the permission check. -/
def useLeaf (s : State) (d : Desc) (e : DWord) (base units : Nat) (va : Nat) (need : Need) : Xl :=
  if !allows e need || (pteLoc e = 2 && !peerOk s d (ptePeer e)) then .prot
  else
    let k := leafKey e (va - base * 65536)
    if s.gone k then .absentMem else .ok k e base units

/-- The translation cache's entry for an address (R208, R213). -/
def tlbFind (s : State) (asid : BitVec 12) (va : Nat) : Option Tlb :=
  s.tlb.find? (fun t => t.asid == asid && decide (t.base ≤ va / 65536) && decide (va / 65536 < t.base + t.units))

/-- The translation of an address in a context: a cached entry that allows the access, else a fresh walk (R212 to R214). -/
def translate (s : State) (d : Desc) (va : Nat) (need : Need) : Xl :=
  let fresh := match walk s d va with
    | .leaf lv _ e =>
      let sh := levelShift lv
      useLeaf s d e (va / 2 ^ sh * 2 ^ sh / 65536) (2 ^ sh / 65536) va need
    | .invalid _ _ e => .absentPage (bit e ptePool)
    | .malformed => .malformed
    | .absent => .absentMem
  match tlbFind s d.asid va with
  | some t => if allows t.leaf need then useLeaf s d t.leaf t.base t.units va need else fresh
  | none => fresh

/-- The keys of the entries that the translation of an address reads: none when a cached entry answers it (R208, R212). -/
def readEntries (s : State) (d : Desc) (va : Nat) (need : Need) : List Nat :=
  if (tlbFind s d.asid va).any (fun t => allows t.leaf need) then [] else walkKeys s va levels (d.ptroot.toNat % 2 ^ 52)

/-- A translation kept in the package's caches. -/
def State.keepTlb (s : State) (asid : BitVec 12) (e : DWord) (base units : Nat) : State :=
  if s.tlb.any (fun t => t.asid == asid && t.base == base && t.units == units && t.leaf == e) then s
  else { s with tlb := { asid := asid, base := base, units := units, leaf := e } ::
    s.tlb.filter (fun t => !(t.asid == asid && decide (t.base < base + units) && decide (base < t.base + t.units))) }

/-- The translation caches lose an ASID's entries of a range of units, or all of them (R213, R229). -/
def State.dropTlb (s : State) (asid : BitVec 12) (range : Option (Nat × Nat)) : State :=
  { s with tlb := s.tlb.filter (fun t => t.asid != asid || match range with
    | none => false
    | some (lo, n) => !(decide (t.base < lo + n) && decide (lo < t.base + t.units))) }

/-! ### What the map unit counts (R223, R225, R226) -/

/-- A translated page is DEAD now: a cached leaf may be older than its entry, which decides while it maps the same frame (R223). -/
def deadNow (s : State) (d : Desc) (va : Nat) (e : DWord) : Bool :=
  bit e pteDead && match walk s d va with
    | .leaf _ _ e0 => bit e0 pteDead || ptePa e0 != ptePa e
    | _ => true

/-- A leaf as its entry now stands in DEAD. -/
def leafNow (s : State) (d : Desc) (va : Nat) (e : DWord) : DWord := if deadNow s d va e then e else setBit e pteDead false

/-- The cached leaves of a page lose DEAD. -/
def clearDeadTlb (s : State) (d : Desc) (base : Nat) (e : DWord) : State :=
  { s with tlb := s.tlb.map (fun t => if t.asid == d.asid && t.base == base then { t with leaf := setBit e pteDead false } else t) }

/-- The first write to a DEAD page zeroes the frame and clears DEAD (R223). -/
def reviveDead (s : State) (d : Desc) (va : Nat) (e : DWord) (base units : Nat) : State :=
  if !bit e pteDead then s
  else if !deadNow s d va e then clearDeadTlb s d base e
  else
    let lo := leafKey e 0
    let s := clearDeadTlb (s.zeroRange lo (lo + units * 65536)) d base e
    match walk s d va with
    | .leaf _ k e0 => if bit e0 pteDead then s.sysPut k (leBytes 8 (setBit e0 pteDead false).toNat) else s
    | _ => s

/-- A write by the side that holds a page counts its lines: at 32 distinct ones the reversals restart (R225). -/
def noteMove (s : State) (asid : BitVec 12) (base : Nat) (va : Nat) : State :=
  { s with moves := s.moves.map (fun m =>
      if m.asid == asid && m.page == base then
        let ln := va / 256
        let ls := if m.lines.contains ln then m.lines else m.lines ++ [ln]
        if 32 ≤ ls.length then { m with lines := [], revs := 0 } else { m with lines := ls }
      else m) }

/-- The key of a page in the hot-page tracker. -/
def hotKey (asid : BitVec 12) (unit : Nat) : Nat := asid.toNat * 2 ^ 41 + unit

/-- The window of 2^20 fabric cycles in which the tracker counts: in a new one it counts anew (R226). -/
def hotWindow (s : State) : State :=
  let w := s.sys.fab / 2 ^ 20
  if s.sys.hotwin < w then { s with hot := [], sys := { s.sys with hotwin := w } } else s

/-- A performed access seen by the map unit: cached, counted, and on a write the page's lines. Answers the state and whether the
hot-page tracker selects the page now (R226). -/
def noteAccess (s : State) (d : Desc) (va : Nat) (e : DWord) (base units : Nat) (write : Bool) : State × Bool :=
  let s := s.keepTlb d.asid (leafNow s d va e) base units
  let s := if write then reviveDead s d va e base units else s
  let s := if write && pteLoc e != 1 then noteMove s d.asid base va else s
  if d.hoten && pteLoc e != 0 then
    let s := hotWindow s
    let k := hotKey d.asid (va / 65536)
    let n := fget s.hot k 0 + 1
    ({ s with hot := fput s.hot k n }, n == d.hotthresh)
  else (s, false)

/-- The bytes an access reads at a leaf: zeros from a DEAD page (R223). -/
def leafBytes (s : State) (d : Desc) (va : Nat) (e : DWord) (key n : Nat) : List Byte :=
  if deadNow s d va e then List.replicate n 0 else s.bytesAt key n

end Sys2Proof.Machine
end

