-- ==== Sys2Proof/Machine/Monitor.lean ====
section
/-! DEFINITION. Monitor samples (R421). -/
namespace Sys2Proof.Machine

/-- The events a monitor can sample (R421). -/
def monEvents : List Nat := [0x01, 0x02, 0x03, 0x04, 0x05, 0x06, 0x07, 0x08]

/-- The bin of a sample. -/
def Monitor.bin (m : Monitor) (v : Word) : Nat :=
  let u := v.toNat / 2 ^ m.shift.toNat
  if u = 0 then 0 else Nat.min (Nat.log2 u) 15

/-- A count that saturates at 32 bits. -/
def satInc (x : Word) : Word := if x = 0xFFFFFFFF then x else x + 1

/-- A sample counted. -/
def Monitor.take (m : Monitor) (v : Word) : Monitor :=
  { m with count := satInc m.count, min := if v.toNat < m.min.toNat then v else m.min, max := if m.max.toNat < v.toNat then v else m.max,
           bins := fset m.bins (m.bin v) 0 (satInc (fget m.bins (m.bin v) 0)) }

/-- A sample of a cycle. -/
def Monitor.note (m : Monitor) (now : Nat) (v : Word) : Monitor :=
  { m.take v with recent := if m.stamp = now then m.recent ++ [v] else [v], stamp := now }

/-- What CLR does: COUNT, MIN, MAX and the bins at their reset values, and the samples of the same cycle counted after it. -/
def Monitor.cleared (m : Monitor) (now : Nat) : Monitor :=
  (if m.stamp = now then m.recent else []).foldl Monitor.take { m with count := 0, min := 0xFFFFFFFF, max := 0, bins := [] }

/-- The cycle, for samples: the cycles that have passed for every core and of the fabric. -/
def State.monNow (s : State) : Nat := s.clk + s.sys.fab

/-- A monitor listens to an event of a unit. -/
def Monitor.hears (m : Monitor) (ev src : Nat) : Bool := m.en && !m.frz && m.event.toNat == ev && m.src.toNat == src

/-- A sample of an event at a unit, seen by every monitor that listens. -/
def sample (s : State) (ev src : Nat) (v : Word) : State :=
  if s.sys.mons.isEmpty then s
  else { s with sys := { s.sys with mons := s.sys.mons.map (fun x => (x.1, if x.2.hears ev src then x.2.note s.monNow v else x.2)) } }

/-- A sample whose value is a time the model does not keep: a free value. -/
def sampleFree (s : State) (ev src : Nat) : State :=
  if s.sys.mons.any (fun x => x.2.hears ev src) then sample { s with fresh := s.fresh + 1 } ev src (Config.freeWord s.fresh) else s

end Sys2Proof.Machine
end

