-- ==== Sys2Proof/Machine/Records.lean ====
section
/-! DEFINITION. Contexts, fault codes (R26), fault records and their queue (R215 to R218, R427), and accesses to translated
memory that keep stash lines coherent (R179 to R186). -/
namespace Sys2Proof.Machine

/-! ### Accessors -/

/-- The group of a resident place. -/
def State.group (s : State) (place : Nat) : Group := fget s.groups place Group.empty
/-- A group replaced. -/
def State.setGroup (s : State) (place : Nat) (g : Group) : State := { s with groups := fput s.groups place g }
/-- A group changed, if it is resident. -/
def State.modGroup (s : State) (place : Nat) (f : Group → Group) : State :=
  match ffind s.groups place with
  | some g => s.setGroup place (f g)
  | none => s
/-- A serial number taken. -/
def State.draw (s : State) : Nat × State := (s.serial, { s with serial := s.serial + 1 })

/-- The context page that is loaded with an ASID. -/
def pageOfAsid (s : State) (asid : BitVec 12) : Option Nat :=
  (s.ctxs.find? (fun c => decide (2 ≤ c.2.state) && decide (c.2.state ≤ 4) && c.2.d.asid == asid)).map (fun c => c.1)

/-! ### Fault codes (R15, R26) -/

/-- A fault code of an engine class and a cause. -/
def codeOf (cls cause : Nat) : BitVec 16 := BitVec.ofNat 16 (cls * 4096 + cause)
/-- The cause of a code. -/
def causeOf (c : BitVec 16) : Nat := (bits c 0 12).toNat

def cZeroWord : Nat := 0x001
def cIllegalOpcode : Nat := 0x002
def cIllegalForm : Nat := 0x003
def cMisaligned : Nat := 0x004
def cPriv : Nat := 0x005
def cRegRange : Nat := 0x006
def cStall : Nat := 0x007
def cConvergence : Nat := 0x008
def cCtlOverflow : Nat := 0x009
def cAbsent : Nat := 0x010
def cProt : Nat := 0x011
def cAlign : Nat := 0x012
def cOutMismatch : Nat := 0x020
def cOutOverflow : Nat := 0x021
def cQueueOverflow : Nat := 0x030
def cRecursion : Nat := 0x031
def cBarBusy : Nat := 0x040
def cBarTimeout : Nat := 0x041
def cUnreachable : Nat := 0x050
def cCancelled : Nat := 0x051
def cEngine : Nat := 0x0F0

/-- Access kinds of R216. -/
def kFetch : Nat := 0x00
def kRead : Nat := 0x01
def kWrite : Nat := 0x02
def kAtomic : Nat := 0x03
def kFill : Nat := 0x04
def kWriteBack : Nat := 0x05
def kSpill : Nat := 0x06
def kCtlFill : Nat := 0x07
def kEngRead : Nat := 0x08
def kEngWrite : Nat := 0x09
def kHint : Nat := 0x0A
def kNone : Nat := 0x0F

/-- The engine class of an opcode (R15, R62). -/
def classOf (op : BitVec 8) : Nat :=
  let n := op.toNat
  if n < 0x30 then 0 else if n < 0x90 || n = 0xFF then 1 else if n < 0xA8 then 2 else if n < 0xB0 then 3 else if n < 0xB8 then 4
  else if n < 0xC0 then 5 else if n < 0xC8 then 6 else if n < 0xD8 then 7 else if n < 0xE0 then 8 else if n < 0xEC then 9
  else if n < 0xF0 then 0xA else 0

/-! ### Fault records (R216, R217) -/

/-- A record with every field zero but KIND 0x0F, PARTS 1 and PART 1. -/
def FRec.blank : FRec :=
  { seq := 0, code := 0, kind := kNone, flags := 0, node := 0, team := 0, core := 0, gslot := 0, group := 0, pc := 0, va := 0,
    mask := 0, parts := 1, part := 1, d0 := 0, d1 := 0, d2 := 0, d3 := 0 }

/-- FLAGS bits of R216. -/
def flTerminal : BitVec 8 := 0x01
def flLast : BitVec 8 := 0x02
def flCfill : BitVec 8 := 0x04
def flFwd : BitVec 8 := 0x08
def flHint : BitVec 8 := 0x10
def flHot : BitVec 8 := 0x20

/-- The 64 bytes of a record (R216). -/
def frecBytes (s : State) (d : Desc) (r : FRec) : List Byte :=
  leBytes 4 r.seq.toNat ++ leBytes 4 (r.code.toNat * 65536 + r.kind * 256 + r.flags.toNat) ++
  leBytes 4 (d.ctxid.toNat * 65536 + d.asid.toNat) ++ leBytes 4 (s.sys.pkg.toNat * 65536 + r.node) ++ leBytes 4 r.team.toNat ++
  leBytes 4 (r.core * 2 ^ 25 + r.gslot * 2 ^ 19 + r.group * 2 ^ 14) ++ leBytes 8 r.pc.toNat ++ leBytes 8 r.va.toNat ++
  leBytes 4 r.mask.toNat ++ leBytes 4 (r.parts * 256 + r.part) ++ leBytes 4 r.d0.toNat ++ leBytes 4 r.d1.toNat ++
  leBytes 4 r.d2.toNat ++ leBytes 4 r.d3.toNat

/-- A stash line can give its dirty bytes up: its write-back would not be refused (R183). -/
def lineYields (s : State) (h : Nat × Nat × Nat) : Bool :=
  match ffind s.teams h.1 with
  | none => true
  | some t => match (ffind t.windows h.2.1).bind (fun w => (ffind w.lines h.2.2).map (fun l => (w, l))) with
    | none => true
    | some (w, l) => !l.owned || l.dirty == 0 || match translate s (s.ctx t.page).d (w.gbase + BitVec.ofNat 64 (256 * h.2.2)).toNat .w with
      | .ok _ _ _ _ => true
      | _ => false

/-- Every stash line that holds a line of a range can. -/
def yields (s : State) (key n : Nat) : Bool :=
  n = 0 || !anyWindow s || (rangeFrom (key / 256) ((key + n - 1) / 256 - key / 256 + 1)).all (fun ln => (holders s (256 * ln)).all (lineYields s))

/-- The Owned stash lines that hold a byte of a range. -/
def ownedIn (s : State) (key n : Nat) : List (Nat × Nat × Nat) :=
  s.teams.flatMap (fun t => t.2.windows.flatMap (fun w => w.2.lines.flatMap (fun l =>
    if l.2.owned && l.2.key % 256 == 0 && decide (key < l.2.key + 256) && decide (l.2.key < key + n) then [(t.1, w.1, l.1)] else [])))

/-- An Owned line that can give its dirty bytes up does so, and becomes Shared. -/
def shareLine (s : State) (h : Nat × Nat × Nat) : State :=
  match ffind s.teams h.1 with
  | none => s
  | some t => match (ffind t.windows h.2.1).bind (fun w => (ffind w.lines h.2.2).map (fun l => (w, l))) with
    | none => s
    | some (w, l) =>
      if !lineYields s h || s.gone l.key || s.gone (l.key + 255) then s
      else setLineOf (mergeDirty s (localKey t.core (t.base + w.loff + 256 * h.2.2)) l.key l.dirty) h.1 h.2.1 h.2.2
        (some { l with owned := false, dirty := 0 })

/-- A read of bytes at .sys by the map unit, Skesunal or the system controller: every Owned stash line that holds some of them is written back and
becomes Shared (R179), but for one whose write-back would be refused: its dirty bytes are read, and it stays Owned (log 126). -/
def State.sysShare (s : State) (key n : Nat) : State := (ownedIn s key n).foldl shareLine s

/-- Whether a context's record queue is full: RD is read as an acquire at .sys (R217). -/
def frqFull (s : State) (page : Nat) : Bool :=
  let c := s.ctx page
  (c.wr - BitVec.ofNat 32 (s.sysVal (c.d.frqbase.toNat + 4) 4)).toNat == c.d.frqsize

/-- A record can be written to the queue now: there is space, and no stash line that holds the queue's lines is refused its write-back (R183,
R217). -/
def frqReady (s : State) (page : Nat) : Bool :=
  let c := s.ctx page
  !frqFull s page && yields s c.d.frqbase.toNat 8 && yields s (c.d.frqbase.toNat + 64 + 64 * (c.wr.toNat % max c.d.frqsize 1)) 64

/-- The queue's header read and found without room for a record: an Owned stash line that holds it becomes Shared (R179, R217). Where there is room,
`writeRec` takes the line. -/
def frqLook (s : State) (page : Nat) : State := s.sysShare (s.ctx page).d.frqbase.toNat 8

/-- A record written to the queue, and then WR, at .sys (R217). -/
def writeRec (s : State) (page : Nat) (r : FRec) : State :=
  let c := s.ctx page
  let s := s.sysPut (c.d.frqbase.toNat + 64 + 64 * (c.wr.toNat % max c.d.frqsize 1)) (frecBytes s c.d r)
  let s := s.sysPut c.d.frqbase.toNat (leBytes 4 (c.wr + 1).toNat)
  s.setCtx page { c with wr := c.wr + 1 }

/-- The next SEQ: 0 is skipped (R216). -/
def nextSeq (q : Word) : Word := if q + 1 = 0 then 1 else q + 1

/-- A record posted, or held until there is space; answers its SEQ (R216, R217). -/
def postRec (s : State) (page : Nat) (r : FRec) : Word × State :=
  let c := s.ctx page
  let r := { r with seq := c.seq }
  if !c.heldRecs.isEmpty || !frqReady s page then
    (c.seq, (frqLook s page).setCtx page { c with seq := nextSeq c.seq, heldRecs := c.heldRecs ++ [r] })
  else
    (c.seq, writeRec (s.setCtx page { c with seq := nextSeq c.seq }) page r)

/-- A counter of the queue header that saturates. -/
def bumpHeader (s : State) (page off : Nat) : State :=
  let k := (s.ctx page).d.frqbase.toNat + off
  let v := s.sysVal k 4
  s.sysPut k (leBytes 4 (if v = 0xFFFFFFFF then v else v + 1))

/-- The first held record posted when there is space (R217). -/
def postHeld (s : State) (page : Nat) : State :=
  match (s.ctx page).heldRecs with
  | [] => s
  | r :: l => if !frqReady s page then frqLook s page else writeRec (s.setCtx page { s.ctx page with heldRecs := l }) page r

/-- A hint record, after the held ones that there is space for, since records are posted in SEQ order: dropped and counted in HINTDROP
when the queue is full (R217). One that only a refused write-back of the queue's lines stops is held (R183, log 150). Its LAST is 0, on which the spec is
silent (log 138). -/
def postHint (s : State) (page : Nat) (r : FRec) : State :=
  let s := (s.ctx page).heldRecs.foldl (fun s _ => postHeld s page) s
  if frqFull s page then bumpHeader s page 0x0C
  else (postRec s page { r with kind := kHint, flags := r.flags ||| flHint, code := 0, mask := 0 }).2

/-- The stack of a device physical address: the interleave of R187, or stack 0 at stage 1 (R412). -/
def stackOf (s : State) (pa : Nat) : Nat := if s.sys.stage < 2 then 0 else (pa / 256 % 8) ^^^ (pa / 2 ^ 25 % 8)

/-- A read of device memory that may have to come from HBM: whether it does, and how long it takes, are free (R421, event 0x03). -/
def sampleHbm (s : State) (e : DWord) (pa : Nat) : State :=
  let st := stackOf s pa
  if pteLoc e = 0 && s.sys.mons.any (fun x => x.2.hears 0x03 st) then
    let s' := { s with fresh := s.fresh + 1 }
    if bit (Config.freeWord s.fresh) 0 then sampleFree s' 0x03 st else s'
  else s

/-- A performed access seen by the map unit (R223, R225, R226): a page that reaches the threshold of the hot-page tracker posts a
hint record, or counts in SKIPCNT when it is pinned. -/
def noteAcc (s : State) (d : Desc) (va : Nat) (e : DWord) (base units : Nat) (write : Bool) : State :=
  let (s, hot) := noteAccess (if write || deadNow s d va e then s else sampleHbm s e (ptePa e + (va - base * 65536))) d va e base units write
  if !hot then s
  else match pageOfAsid s d.asid with
    | none => s
    | some page =>
      if bit e ptePin then bumpHeader s page 0x08
      else postHint s page { FRec.blank with flags := flHot, va := BitVec.ofNat 64 (va / 65536 * 65536), d0 := 1 }

/-- A part that waits for an answer, by a new ticket: posted now, or left to the fill service when `fill` (R218, R221). -/
def postWaiting (s : State) (page : Nat) (r : FRec) (fill : Bool) (place : Option Nat) (op : Option Nat)
    (line : Option (Nat × Nat × Nat)) : Nat × State :=
  let (q, s) := if fill then (0, s) else postRec s page r
  let (t, s) := s.draw
  let c := s.ctx page
  (t, s.setCtx page { c with waiting := c.waiting ++
    [{ ticket := t, frec := { r with seq := q }, place := place, op := op, line := line }] })

/-- The fields of a record that name a group and its instruction. -/
def recOf (s : State) (place : Nat) (pc : DWord) : FRec :=
  let g := s.group place
  let t := s.team g.team
  { FRec.blank with node := t.node, team := BitVec.ofNat 32 t.t, core := g.core, gslot := g.gslot, group := g.idx, pc := pc }

/-- The context of a page ends with a terminal record, by the end of this step (R29, R427). The first cause stands. -/
def doom (s : State) (page : Nat) (r : FRec) : State :=
  let c := s.ctx page
  if c.doom.isSome || c.state == 0 || c.state == 6 then s else s.setCtx page { c with doom := some { r with flags := flTerminal ||| flLast, parts := 1, part := 1 } }

/-- A termination with no group to name. -/
def doomBare (s : State) (page : Nat) (code : BitVec 16) (va : DWord) : State := doom s page { FRec.blank with code := code, va := va }

/-! ### Stash lines (R178 to R183) -/

/-- Whether an absent page has a compressed-fill entry (R211, R221). -/
def isCfill (s : State) (d : Desc) (code : BitVec 16) (addr : DWord) : Bool :=
  causeOf code == cAbsent && match walk s d addr.toNat with
    | .invalid _ _ e => bit e pteCfill && !bit e ptePool
    | _ => false

/-- The global address of a line. -/
def lineVa (w : Window) (ln : Nat) : DWord := w.gbase + BitVec.ofNat 64 (256 * ln)

/-- Whether a write-back record of a line waits for its answer. -/
def linePending (s : State) (page : Nat) (at_ : Nat × Nat × Nat) : Bool := (s.ctx page).waiting.any (fun p => p.line == some at_)

/-- How a write-back goes. -/
inductive WbRes where
  | done (s : State)
  | refused (cause : Nat) (va : DWord)
  | malformed (va : DWord)
  | absentMem

/-- A line's dirty bytes written back and its mask cleared; the line keeps its state (R181). A failed permission check leaves the
line as it is (R183). -/
def tryWriteBack (s : State) (tid win ln : Nat) : WbRes :=
  match ffind s.teams tid with
  | none => .done s
  | some t => match ffind t.windows win with
    | none => .done s
    | some w => match ffind w.lines ln with
      | none => .done s
      | some l =>
        if !l.owned || l.dirty = 0 then .done s
        else
          let va := lineVa w ln
          let d := (s.ctx t.page).d
          match translate s d va.toNat .w with
          | .ok k e base units =>
            let s := noteAcc s d va.toNat e base units true
            let s := mergeDirty s (localKey t.core (t.base + w.loff + 256 * ln)) k l.dirty
            .done (setLineOf s tid win ln (some { l with dirty := 0, key := k }))
          | .malformed => .malformed va
          | .absentMem => .absentMem
          | .absentPage _ => .refused cAbsent va
          | .prot => .refused cProt va

/-- A write-back that no instruction waits for: a failed check posts one record, and the caller waits (R183). The record names the owning
team's NODE, TEAM and CORE; its GSLOT, GROUP, PC and MASK, which the spec leaves open, are 0 (log 115). That of a compressed-fill page goes to the fill
service (R221). -/
def writeBack (s : State) (tid win ln : Nat) : Bool × State :=
  match tryWriteBack s tid win ln with
  | .done s => (true, s)
  | .malformed va => (false, doomBare s (s.team tid).page (codeOf 3 cEngine) va)
  | .absentMem => (false, { s with absent := true })
  | .refused cause va =>
    let t := s.team tid
    if linePending s t.page (tid, win, ln) then (false, s)
    else
      let fill := isCfill s (s.ctx t.page).d (codeOf 2 cause) va
      let r := { FRec.blank with node := t.node, team := BitVec.ofNat 32 t.t, core := t.core, code := codeOf 2 cause,
                                 kind := kWriteBack, va := va, flags := flLast ||| (if fill then flCfill else 0) }
      (false, (postWaiting s t.page r fill none none (some (tid, win, ln))).2)

/-- A remote request for one line (R179): an Owned line is written back and becomes Shared, or Invalid for a write; a Shared line
becomes Invalid for a write. -/
def remoteLine (s : State) (write : Bool) (tid win ln : Nat) : Bool × State :=
  match ((ffind s.teams tid).bind (fun t => ffind t.windows win)).bind (fun w => ffind w.lines ln) with
  | none => (true, s)
  | some l =>
    if l.owned then
      let (ok, s) := writeBack s tid win ln
      if !ok then (false, s) else (true, setLineOf s tid win ln (if write then none else some { l with owned := false, dirty := 0 }))
    else (true, if write then setLineOf s tid win ln none else s)

/-- Every stash line that holds a global line answers a request from elsewhere (R179, R186); `skip` is the requesting stash line.
False when a write-back cannot be done yet: the request waits (R183). -/
def snoop (s : State) (gkey : Nat) (write : Bool) (skip : Option (Nat × Nat × Nat)) : Bool × State :=
  ((holders s (gkey / 256 * 256)).filter (fun h => skip != some h)).foldl
    (fun a h => if a.1 then remoteLine a.2 write h.1 h.2.1 h.2.2 else a) (true, s)

/-! ### Physical and coherent accesses -/

/-- Every line of a range of keys answers a request from elsewhere. -/
def snoopRange (s : State) (key n : Nat) (write : Bool) : Bool × State :=
  if n = 0 || !anyWindow s then (true, s)
  else
    (rangeFrom (key / 256) ((key + n - 1) / 256 - key / 256 + 1)).foldl
      (fun a ln => if a.1 then snoop a.2 (256 * ln) write none else a) (true, s)

/-- The stash lines that hold the entries of some keys answer strong reads of them at .sys (R179, R212): false while one has to wait (R183). -/
def snoopEntries (s : State) (keys : List Nat) : Bool × State :=
  keys.foldl (fun a k => if a.1 then snoop a.2 k false none else a) (true, s)

/-- Those of the entries that the translation of an address reads. -/
def walkSnoop (s : State) (d : Desc) (va : Nat) (need : Need) : Bool × State :=
  if !anyWindow s then (true, s) else snoopEntries s (readEntries s d va need)

/-- The first write to a DEAD page clears DEAD in its entry (R223): a stash line of the entry gives way first, false while it has to wait (R183). -/
def reviveSnoop (s : State) (d : Desc) (va : Nat) (e : DWord) (write : Bool) : Bool × State :=
  if !write || !deadNow s d va e then (true, s)
  else match walk s d va with
    | .leaf _ k _ => snoop s k true none
    | _ => (true, s)

/-- A coherent read: none when the request waits. -/
def cohRead (s : State) (key n : Nat) : Option (List Byte) × State :=
  let (ok, s) := snoopRange s key n false
  (if ok then some (s.bytesAt key n) else none, s)

/-- A coherent write: false when the request waits. -/
def cohWrite (s : State) (key : Nat) (l : List Byte) : Bool × State :=
  let (ok, s) := snoopRange s key l.length true
  if ok then (true, s.setBytes key l) else (false, s)

/-! ### The dispatchers' own accesses (R426) -/

/-- The parts of a range by 64 KiB page: address and length. -/
def pageParts : Nat → Nat → Nat → List (Nat × Nat)
  | 0, _, _ => []
  | f + 1, va, n =>
    if n = 0 then []
    else
      let k := min n (65536 - va % 65536)
      (va, k) :: pageParts f (va + k) (n - k)

/-- The pages of a range are usable for a dispatcher's access (R426). -/
def usable (s : State) (d : Desc) (va : DWord) (n : Nat) (need : Need) : Bool :=
  inTranslated va n && (pageParts (n / 65536 + 2) va.toNat n).all (fun p => match translate s d p.1 need with
    | .ok _ _ _ _ => true
    | _ => false)

/-- How a dispatcher's access goes: done, a page that is unusable, or a wait for a stash line's write-back (R183). -/
inductive DispR (α : Type) where
  | ok (a : α) (s : State)
  | unusable
  | wait (s : State)

/-- A dispatcher's access after another. -/
def DispR.bind {α β : Type} (r : DispR α) (k : α → State → DispR β) : DispR β :=
  match r with
  | .ok a s => k a s
  | .unusable => .unusable
  | .wait s => .wait s

/-- An access to a peer package's memory leaves as a message (R380): of `n` bytes at a key, with the bytes that a write leaves there. -/
def toPeer (s : State) (e : DWord) (k n : Nat) (atomic : Bool) (data : Option (List Byte)) : State :=
  if pteLoc e = 2 then { s with out := s.out ++ [.peer (ptePeer e) atomic (BitVec.ofNat 64 (k - peerKey (ptePeer e) 0)) n data] } else s

/-- One part of a dispatcher's read within a page: the map unit sees it as an access of the context (R226, R426). -/
def dispPart (d : Desc) (va n : Nat) (s : State) : DispR (List Byte) :=
  match translate s d va .r with
  | .ok k e base units =>
    let t := noteAcc s d va e base units false
    .ok (leafBytes s d va e k n) (if deadNow s d va e then t else toPeer t e k n false none)
  | _ => .unusable

/-- The stash lines that a dispatcher's access concerns answer it first, all of them: false when one has to wait (R179, R183). -/
def dispSnoop (d : Desc) (write : Bool) (ps : List (Nat × Nat)) (s : State) : Bool × State :=
  let need : Need := if write then .w else .r
  ps.foldl (fun a p => if !a.1 then a else match walkSnoop a.2 d p.1 need with
    | (false, s) => (false, s)
    | (true, s) => match translate s d p.1 need with
      | .ok k _ _ _ => snoopRange s k p.2 write
      | _ => (true, s)) (true, s)

/-- A dispatcher's read (R426). -/
def dispRead (s : State) (d : Desc) (va : DWord) (n : Nat) : DispR (List Byte) :=
  if !usable s d va n .r then .unusable
  else
    let ps := pageParts (n / 65536 + 2) va.toNat n
    match dispSnoop d false ps s with
    | (false, s) => .wait s
    | (true, s) => ps.foldl (fun (r : DispR (List Byte)) p => r.bind (fun l s => (dispPart d p.1 p.2 s).bind (fun b s => .ok (l ++ b) s))) (.ok [] s)

/-- The stash lines that a dispatcher's write concerns give way first: false when one has to wait (R183). -/
def dispClear (s : State) (d : Desc) (va : DWord) (n : Nat) : Bool × State :=
  if !usable s d va n .w then (true, s) else dispSnoop d true (pageParts (n / 65536 + 2) va.toNat n) s

/-- A dispatcher's write; the state unchanged when a page is unusable (R426). A stash line that has not given way yet, at the end of a
context, yields its dirty bytes without waiting (log 126). -/
def dispWrite (s : State) (d : Desc) (va : DWord) (l : List Byte) : State :=
  if !usable s d va l.length .w then s
  else
    ((pageParts (l.length / 65536 + 2) va.toNat l.length).foldl (fun (acc : State × List Byte) p =>
      match translate acc.1 d p.1 .w with
      | .ok k e base units =>
        ((toPeer (noteAcc acc.1 d p.1 e base units true) e k p.2 false (some (acc.2.take p.2))).sysPut k (acc.2.take p.2), acc.2.drop p.2)
      | _ => acc) (s, l)).1

end Sys2Proof.Machine
end

