-- ==== Sys2Proof/Machine/Slots.lean ====
section
/-! DEFINITION. Waits and what ends them, and barrier slots: phases (R234), tokens (R235), arrivals (R238), invalidation (R239),
the conditions of WAITC and YIELDC (R124). -/
namespace Sys2Proof.Machine

/-! ### Waits ended -/

/-- What a satisfied wait does to its group: nothing, or a register or predicate write; `none` leaves the wait. -/
abbrev WakeFn := Nat → Group → Wait → Option (Group → Group)

/-- A fragment's wait under a wake function. -/
def wakeFrag (f : WakeFn) (place : Nat) (g : Group) (fr : Option Frag) : Option (Frag × (Group → Group)) :=
  match fr with
  | some x => match x.wait with
    | some w => (f place g w).map (fun u => ({ x with wait := none }, u))
    | none => none
  | none => none

/-- A group's waits under a wake function: those of its slots, and one set aside while a handler runs (R28). -/
def wakeGroup (f : WakeFn) (place : Nat) (g : Group) : Group :=
  let g := match wakeFrag f place g g.slot0 with
    | some (x, u) => u { g with slot0 := some x }
    | none => g
  let g := match wakeFrag f place g g.slot1 with
    | some (x, u) => u { g with slot1 := some x }
    | none => g
  match g.h.wait with
  | some w => match f place g w with
    | some u => u { g with h := { g.h with wait := none } }
    | none => g
  | none => g

/-- Every wait of the package under a wake function. -/
def wake (s : State) (f : WakeFn) : State := { s with groups := s.groups.map (fun p => (p.1, wakeGroup f p.1 p.2)) }

/-- A uniform register written (R105: s-registers hold 0 where nothing is listed). -/
def Group.setS (g : Group) (n : Nat) (v : Word) : Group := { g with s := fset g.s n 0 v }
/-- A uniform predicate written; a write to k3 is ignored (R59). -/
def Group.setK (g : Group) (n : Nat) (b : Bool) : Group := if n = 3 then g else { g with k := fset g.k n 0 (if b then 1 else 0) }
/-- A predicate written in some lanes; a write to p7 is ignored (R59). -/
def Group.setP (g : Group) (n : Nat) (lanes : Mask) (val : Mask) : Group :=
  if n = 7 then g else { g with p := fset g.p n 0 ((fget g.p n 0 &&& ~~~lanes) ||| (val &&& lanes)) }
/-- A lane of a vector register written. -/
def Group.setV (g : Group) (n lane : Nat) (v : Word) : Group := { g with v := fset g.v (32 * n + lane) 0 v }

/-! ### Slots -/

/-- A team's slot. -/
def Team.slot (t : Team) (n : Nat) : Slot := fget t.slots n Slot.free

/-- A named slot: Free with GEN 0 where its team is gone. -/
def slotAt (s : State) (r : SlotRef) : Slot := (s.team r.team).slot r.slot

/-- A slot replaced. -/
def setSlotAt (s : State) (r : SlotRef) (x : Slot) : State :=
  match ffind s.teams r.team with
  | some t => s.setTeam r.team { t with slots := fset t.slots r.slot Slot.free x }
  | none => s

/-- A token (R235). -/
def Slot.token (x : Slot) : Word := x.gen ++ x.phase

/-- A wait names a slot. -/
def Wait.slotOf : Wait → Option SlotRef
  | .bar r _ _ _ => some r
  | .cond (.chunk r _ _ _) => some r
  | _ => none

/-- One waiter of a slot, for NWAIT and the watchdog's report (R233, R251). -/
structure Waiter where
  place : Nat
  slot : Nat
  pc : DWord
  mask : Mask
  /-- WAITC or YIELDC -/
  soft : Bool
  /-- the cycle in which it began to wait (R271) -/
  began : Nat
  deriving DecidableEq, Repr

/-- A chunk-map condition is true: its bits are set, or the slot has another generation (R124, R239). -/
def Slot.chunkTrue (x : Slot) (gen : BitVec 16) (any : Bool) (m : BitVec 512) : Bool :=
  x.gen != gen || (if any then x.bits &&& m != 0 else x.bits &&& m == m)

/-- A yielded group still waits on a slot's state: its condition is on the slot and not true. -/
def YWait.waitsOn (y : YWait) (r : SlotRef) (x : Slot) : Bool :=
  match y.cond with
  | .chunk q gen any m => q == r && !x.chunkTrue gen any m
  | .counter _ _ => false

/-- The waiters of a slot in a group. -/
def waitersIn (place : Nat) (g : Group) (r : SlotRef) (x : Slot) : List Waiter :=
  let is := fun (w : Option Wait) => (w.bind Wait.slotOf) == some r
  let soft := fun (w : Option Wait) => match w with
    | some (.cond _) => true
    | _ => false
  let frag := fun (n : Nat) (f : Option Frag) => match f with
    | some f => if is f.wait then [({ place := place, slot := n, pc := f.pc - 12, mask := f.mask, soft := soft f.wait, began := f.waitAt } : Waiter)]
      else
        let here := g.h.slot == some n
        let of := fun (y : Option YWait) (m : Mask) (t : Nat) => match y with
          | some y => if y.slot == n && y.waitsOn r x then [({ place := place, slot := n, pc := y.from_, mask := m, soft := true, began := t } : Waiter)] else []
          | none => []
        of g.h.yw (if here then g.h.efrag else f.mask) (if here then g.h.waitAt else f.waitAt) ++ of g.yw f.mask f.waitAt
    | none => []
  let held := if is g.h.wait then
      [({ place := place, slot := g.h.slot.getD 0, pc := g.h.epc - 12, mask := g.h.efrag, soft := soft g.h.wait, began := g.h.waitAt } : Waiter)]
    else []
  let w0 := frag 0 g.slot0
  let w1 := frag 1 g.slot1
  if g.h.slot == some 1 then w0 ++ w1 ++ held else held ++ w0 ++ w1

/-- The waiters of a slot, by core, GSLOT and fragment slot. -/
def waiters (s : State) (r : SlotRef) : List Waiter := s.groups.flatMap (fun p => waitersIn p.1 p.2 r (slotAt s r))

/-- NWAIT (R233). -/
def nwait (s : State) (r : SlotRef) : Nat := (waiters s r).length

/-- Whether a condition holds for a group (R18, R124): a chunk-map condition of another generation is true. -/
def condTrue (s : State) (g : Group) : Cond → Bool
  | .counter cls n => decide (fget g.cnt cls 0 ≤ n)
  | .chunk r gen any m =>
    (slotAt s r).chunkTrue gen any m || (ffind s.teams r.team).all (fun t => t.ended)

/-- Every WAITC whose condition holds goes on (R124). -/
def wakeConds (s : State) : State :=
  wake s (fun _ g w => match w with
    | .cond c => if condTrue s g c then some (fun g => g) else none
    | _ => none)

/-- A BARWAIT's or BARARW's predicate: true or false in its lanes (R248). -/
def Group.setWaited (g : Group) (pd : Nat) (m : Mask) (ok : Bool) : Group := g.setP pd m (if ok then m else 0)

/-- The waits of a slot on which f decides: the core, and the cycle in which the wait was issued. -/
def barEnding (s : State) (r : SlotRef) (f : Word → Option Bool) : List (Nat × Nat) :=
  let hit := fun (w : Option Wait) => match w with
    | some (.bar q t _ _) => q == r && (f t).isSome
    | _ => false
  s.groups.flatMap (fun p =>
    ([p.2.slot0, p.2.slot1].filterMap (fun fr => fr.bind (fun (x : Frag) => if hit x.wait then some (p.2.core, x.waitAt) else none))) ++
    (if hit p.2.h.wait then [(p.2.core, p.2.h.waitAt)] else []))

/-- The waits of a slot that end, each with success or failure; their times are samples of monitor event 0x06 (R421). -/
def releaseBar (s : State) (r : SlotRef) (f : Word → Option Bool) : State :=
  let s := if s.sys.mons.isEmpty then s
    else (barEnding s r f).foldl (fun s x => sample s 0x06 x.1 (BitVec.ofNat 32 (s.clkOf x.1 - x.2))) s
  wake s (fun _ _ w => match w with
    | .bar q t pd m => if q == r then (f t).map (fun ok => fun g => g.setWaited pd m ok) else none
    | _ => none)

/-- Complete() (R234). -/
def slotComplete (s : State) (r : SlotRef) : State :=
  let x := slotAt s r
  if x.kind == 1 && x.arrived == x.expect && x.tx == 0 then
    let s := releaseBar s r (fun t => if t == x.token then some true else none)
    setSlotAt s r { x with phase := x.phase + 1, arrived := 0, arrmask := 0, age := 0 }
  else s

/-- GEN advanced as R239 does. -/
def Slot.nextGen (x : Slot) : Slot := { x with gen := x.gen + 1, pend := 0, age := 0 }

/-- Whether an outstanding operation carries the tag GEN + 1 of a slot (R239). -/
def genBusy (s : State) (r : SlotRef) : Bool :=
  let t := (slotAt s r).gen + 1
  s.ops.any (fun o => o.reg == some (r, t)) || s.arrivals.any (fun a => a.slot == r && a.tag == t)

/-- Every WAITC and YIELDC condition on a slot is made true (R239). -/
def releaseConds (s : State) (r : SlotRef) : State :=
  let on := fun (c : Cond) => match c with
    | .chunk q _ _ _ => q == r
    | .counter _ _ => false
  let s := wake s (fun _ _ w => match w with
    | .cond c => if on c then some (fun g => g) else none
    | _ => none)
  let free := fun (y : YWait) => if on y.cond then { y with cond := .counter 0 255 } else y
  { s with groups := s.groups.map (fun p => (p.1, { p.2 with yw := p.2.yw.map free, h := { p.2.h with yw := p.2.h.yw.map free } })) }

/-- The first part of Invalidate(): every waiter is released (R239). -/
def slotRelease (s : State) (r : SlotRef) : State := releaseConds (releaseBar s r (fun _ => some false)) r

/-- The end of an invalidation or initialisation, once no operation carries the next tag: GEN advances, and KIND, EXPECT and PART are set
(R239, R245, R249). A Free slot keeps its other fields. -/
def slotRenew (s : State) (r : SlotRef) (kind expect : Nat) (part : Word) : State :=
  let x := (slotAt s r).nextGen
  setSlotAt s r (if kind = 0 then { x with kind := 0 }
    else { x with kind := kind, expect := expect, part := part, phase := 0, arrived := 0, arrmask := 0, tx := 0, bits := 0 })

/-- An invalidation or initialisation of a slot waits for its next generation to become free (R239): events of the slot wait too. -/
def invBusy (s : State) (r : SlotRef) : Bool :=
  let is := fun (w : Option Wait) => match w with
    | some (.inval q _ _ _) => q == r
    | _ => false
  s.groups.any (fun p => is (p.2.slot0.bind (fun f => f.wait)) || is (p.2.slot1.bind (fun f => f.wait)) || is p.2.h.wait)

/-- An invalidation or initialisation of a context waits (R239, R252). -/
def invWaits (s : State) (page : Nat) : Bool :=
  let is := fun (w : Option Wait) => match w with
    | some (.inval _ _ _ _) => true
    | _ => false
  s.groups.any (fun p => p.2.page == page &&
    (is (p.2.slot0.bind (fun f => f.wait)) || is (p.2.slot1.bind (fun f => f.wait)) || is p.2.h.wait))

/-- The invalidations that wait and whose next generation has become free go on (R239). -/
def settleInv (s : State) : State :=
  let of := fun (w : Option Wait) => match w with
    | some (.inval r k e p) => if genBusy s r then [] else [(r, k, e, p)]
    | _ => []
  let l := s.groups.flatMap (fun p => of (p.2.slot0.bind (fun f => f.wait)) ++ of (p.2.slot1.bind (fun f => f.wait)) ++ of p.2.h.wait)
  l.foldl (fun s x => wake (slotRenew s x.1 x.2.1 x.2.2.1 x.2.2.2) (fun _ _ w => match w with
    | .inval q _ _ _ => if q == x.1 then some (fun g => g) else none
    | _ => none)) s

/-- A quadrant of a core has issued in this cycle: what comes before the instructions of a cycle comes in the next (R21, R240). -/
def coreIssued (s : State) (core : Nat) : Bool := (List.range 4).any (fun q => fget s.issued (4 * core + q) 0 == s.clkOf core + 1)

/-- An arrival may reach its slot in this cycle: before the cycle's instructions, in ascending class and issue order (R240). -/
def arriveNow (s : State) (a : Arrival) : Bool :=
  let core := (s.team a.slot.team).core
  let l := (slotAt s a.slot).latest
  !coreIssued s core && !(l.1 == s.clkOf core + 1 && (decide (a.cls < l.2.1) || (a.cls == l.2.1 && decide (a.op < l.2.2))))

/-- A fragment or group begins to wait on a slot: AGE is 0 when no other waits (R250). -/
def joinSlot (s : State) (r : SlotRef) : State := if nwait s r = 0 then setSlotAt s r { slotAt s r with age := 0 } else s

/-- An arrival of an operation at a slot (R238). One that underflows TX is an error that the operation has met (R427). -/
def slotArrive (s : State) (a : Arrival) : State :=
  let r := a.slot
  let n : Int := a.bytes
  let x := { slotAt s r with latest := (s.clkOf (s.team r.team).core + 1, a.cls, a.op) }
  if (ffind s.teams r.team).all (fun t => t.ended) || a.tag != x.gen || x.kind == 0 then s
  else
    let pend := if a.final then x.pend - 1 else x.pend
    if x.kind == 1 then
      if x.tx - n < -(2 ^ 39) then doom s (s.team r.team).page { a.frec with code := codeOf 4 cEngine, mask := allLanes }
      else slotComplete (setSlotAt s r { x with tx := x.tx - n, age := 0, pend := pend }) r
    else
      let bs := match a.bit with
        | some b => setBit x.bits b true
        | none => x.bits
      wakeConds (setSlotAt s r { x with bits := bs, age := 0, pend := pend })

/-- The slots of a team with which an operation is registered and still outstanding, under any generation (R232). -/
def registered (s : State) (tid : Nat) : List Nat :=
  dedup ((s.ops.filterMap (fun o => o.reg.bind (fun r => if r.1.team == tid then some r.1.slot else none))) ++
    s.arrivals.filterMap (fun a => if a.slot.team == tid then some a.slot.slot else none))

/-- The slots of a team that its core does not yet have back (R232). -/
def slotsHeld (s : State) (tid : Nat) (t : Team) : Nat := if t.ended then (registered s tid).length else t.nslots

/-- A team's slots invalidated as BARINV does, at the team's end: they belong to no team from then on, and every arrival is discarded (R232). -/
def freeSlots (s : State) (tid : Nat) : State :=
  (s.team tid).slots.foldl (fun s x =>
    let r : SlotRef := { team := tid, slot := x.1 }
    slotRenew (slotRelease s r) r 0 0 0) s

end Sys2Proof.Machine
end

