-- ==== Sys2Proof/Machine/Flags.lean ====
section
/-! DEFINITION. The sticky flags of FSTAT (R85), and every integer and floating-format computation's flag rule that names them. -/
namespace Sys2Proof.Machine

/-- Bits of FSTAT (R85). -/
abbrev Flags := BitVec 7

/-- NV. -/
def fNV : Flags := 0b0000001#7
/-- OF. -/
def fOF : Flags := 0b0000010#7
/-- UF. -/
def fUF : Flags := 0b0000100#7
/-- NX. -/
def fNX : Flags := 0b0001000#7
/-- DZ. -/
def fDZ : Flags := 0b0010000#7
/-- NS. -/
def fNS : Flags := 0b0100000#7
/-- ES. -/
def fES : Flags := 0b1000000#7

/-- A flag raised on a condition. -/
def flagIf (b : Bool) (f : Flags) : Flags := if b then f else 0

/-- The flags of several results together. -/
def orFlags (l : List Flags) : Flags := l.foldl (fun a b => a ||| b) 0

end Sys2Proof.Machine
end

