-- ==== Sys2Proof/Machine/Numbers.lean ====
section
/-! DEFINITION. Number formats and rounding (R73 to R103): exact values, their encodings, the rounding step of R86, NaN and
overflow rules, and the fixed-point bracketing of the special functions (R154 to R156). -/
namespace Sys2Proof.Machine

/-! ### Exact values -/

/-- An exact value: a NaN with its sign, its payload left-aligned in 80 bits (bit 79 the quiet bit) and whether it signals; an
infinity; or (−1)^s × m × 2^e. Zero is m = 0 with its sign. -/
inductive Num where
  | nan (s : Bool) (pay : Nat) (sig : Bool)
  | inf (s : Bool)
  | fin (s : Bool) (m : Nat) (e : Int)
  deriving DecidableEq, Repr

/-- The quiet bit of a left-aligned payload. -/
def quietBit : Nat := 2 ^ 79
/-- The canonical NaN (R75, R83). -/
def Num.cnan : Num := .nan false quietBit false
/-- Positive zero. -/
def Num.zero : Num := .fin false 0 0

/-- Whether a value is a NaN. -/
def Num.isNaN : Num → Bool
  | .nan _ _ _ => true
  | _ => false
/-- Whether a value is a signaling NaN. -/
def Num.isSig : Num → Bool
  | .nan _ _ g => g
  | _ => false
/-- Whether a value is an infinity. -/
def Num.isInf : Num → Bool
  | .inf _ => true
  | _ => false
/-- Whether a value is a zero. -/
def Num.isZero : Num → Bool
  | .fin _ m _ => m == 0
  | _ => false
/-- The sign of a value. -/
def Num.sign : Num → Bool
  | .nan s _ _ => s
  | .inf s => s
  | .fin s _ _ => s
/-- A NaN made quiet (R89); any other value unchanged. -/
def Num.quiet : Num → Num
  | .nan s p _ => .nan s (p ||| quietBit) false
  | x => x
/-- A value with its sign changed; a NaN unchanged. -/
def Num.neg : Num → Num
  | .nan s p g => .nan s p g
  | .inf s => .inf (!s)
  | .fin s m e => .fin (!s) m e

/-- The exact value of an integer: zero is +0 (R93). -/
def Num.ofInt (i : Int) : Num := .fin (decide (i < 0)) i.natAbs 0

/-! ### Formats (R75 to R83) -/

/-- A floating or narrow format. -/
inductive Fm where
  | f64 | f32 | f16 | bf16 | acc | e4m3 | e5m2 | e2m1 | e8m0
  deriving DecidableEq, Repr

/-- The format of a floating or narrow TYPE. -/
def fmOf : Ty → Fm
  | .f64 => .f64
  | .f16 => .f16
  | .bf16 => .bf16
  | .e4m3 => .e4m3
  | .e5m2 => .e5m2
  | .e2m1 => .e2m1
  | .e8m0 => .e8m0
  | _ => .f32

/-- P: significand bits counting the hidden one (R86). -/
def Fm.prec : Fm → Nat
  | .f64 => 53 | .f32 => 24 | .f16 => 11 | .bf16 => 8 | .acc => 81 | .e4m3 => 4 | .e5m2 => 3 | .e2m1 => 2 | .e8m0 => 1
/-- The width of the exponent field. -/
def Fm.ew : Fm → Nat
  | .f64 => 11 | .f32 => 8 | .f16 => 5 | .bf16 => 8 | .acc => 15 | .e4m3 => 4 | .e5m2 => 5 | .e2m1 => 2 | .e8m0 => 8
/-- Emin: the smallest normal exponent (R75, R78 to R83, R86). -/
def Fm.emin : Fm → Int
  | .f64 => -1022 | .f32 => -126 | .f16 => -14 | .bf16 => -126 | .acc => -16382 | .e4m3 => -6 | .e5m2 => -14 | .e2m1 => 0 | .e8m0 => -127
/-- The largest finite magnitude as significand × 2^exponent. -/
def Fm.maxM (f : Fm) : Nat :=
  match f with
  | .e4m3 => 14
  | .e8m0 => 1
  | f => 2 ^ f.prec - 1
/-- The exponent of the largest finite magnitude's last significand bit. -/
def Fm.maxQ : Fm → Int
  | .f64 => 971 | .f32 => 104 | .f16 => 5 | .bf16 => 120 | .acc => 16303 | .e4m3 => 5 | .e5m2 => 13 | .e2m1 => 1 | .e8m0 => 127
/-- The width of an encoding. -/
def Fm.width : Fm → Nat
  | .f64 => 64 | .f32 => 32 | .f16 => 16 | .bf16 => 16 | .acc => 96 | .e4m3 => 8 | .e5m2 => 8 | .e2m1 => 4 | .e8m0 => 8
/-- Whether a format has IEEE infinities and NaN payloads. -/
def Fm.ieee : Fm → Bool
  | .f64 | .f32 | .f16 | .bf16 | .acc => true
  | _ => false

/-- An encoding with its sign bit put on. -/
def Fm.signed (f : Fm) (s : Bool) (c : Nat) : Nat := c + (if s then 2 ^ (f.width - 1) else 0)

/-- The largest finite encoding of a sign. -/
def Fm.maxCode (f : Fm) (s : Bool) : Nat :=
  match f with
  | .e4m3 => f.signed s 0x7E
  | .e8m0 => 0xFE
  | .e2m1 => f.signed s 7
  | f => f.signed s ((2 ^ f.ew - 1) * 2 ^ (f.prec - 1) - 1)
/-- The infinity of a sign, of a format that has one. -/
def Fm.infCode (f : Fm) (s : Bool) : Nat := f.signed s ((2 ^ f.ew - 1) * 2 ^ (f.prec - 1))

/-- The exact value of an encoding, and whether it is an escape code (R78 to R82). An escape code reads as +0 under ESCZ and as the
canonical NaN otherwise. -/
def Fm.value (f : Fm) (escz : Bool) (c : Nat) : Num × Flags :=
  let fb := f.prec - 1
  let esc : Num × Flags := (if escz then .zero else .cnan, fES)
  let s := c / 2 ^ (f.width - 1) % 2 == 1
  let ex := c / 2 ^ fb % 2 ^ f.ew
  let fr := c % 2 ^ fb
  let finite : Num := if ex = 0 then .fin s fr (f.emin - fb) else .fin s (2 ^ fb + fr) ((ex : Int) - 1 + f.emin - fb)
  match f with
  | .e8m0 => if c = 0xFF then (.cnan, 0) else (.fin false 1 ((c : Int) - 127), 0)
  | .e4m3 => if c = 0x7F then esc else if c = 0xFF then (.cnan, 0) else (finite, 0)
  | .e5m2 => if c = 0x7F then esc else if ex = 31 then (if fr = 0 then (.inf s, 0) else (.cnan, 0)) else (finite, 0)
  | .e2m1 => if c = 8 then esc else (finite, 0)
  | f => if ex = 2 ^ f.ew - 1 then
      (if fr = 0 then .inf s else .nan s (fr * 2 ^ (80 - fb)) (decide (fr < 2 ^ (fb - 1))), 0)
    else (finite, 0)

/-! ### Rounding (R86 to R91) -/

/-- A rounding mode: those of R42, .sr with its 16 random bits, and the choice of a faithful function (R156). -/
inductive Mode where
  | rn | rz | rp | rm | ra | sr (rnd : BitVec 16) | pick (up : Bool)
  deriving DecidableEq, Repr

/-- The mode of an RND code; `st` gives .sr its random bits (R42, R95). -/
def modeOf (rnd : BitVec 3) (r : BitVec 16) : Mode :=
  match rnd.toNat with
  | 1 => .rz
  | 2 => .rp
  | 3 => .rm
  | 4 => .ra
  | 5 => .sr r
  | _ => .rn

/-- NaNOut (R90). -/
def nanOut (f : Fm) (s : Bool) (pay : Nat) : Nat × Flags :=
  match f with
  | .e4m3 => (0xFF, 0)
  | .e5m2 => (0x7E, 0)
  | .e8m0 => (0xFF, 0)
  | .e2m1 => (0, fNS)
  | f => (f.signed s ((2 ^ f.ew - 1) * 2 ^ (f.prec - 1) + (pay ||| quietBit) / 2 ^ (80 - (f.prec - 1))), 0)

/-- InfOut (R91). -/
def infOut (f : Fm) (s : Bool) (sat : Bool) : Nat × Flags :=
  match f with
  | .e8m0 => if s then (0xFF, fNV) else (0xFE, fOF)
  | .e2m1 => (f.maxCode s, fOF)
  | .e4m3 => if sat then (f.maxCode s, fOF) else (0xFF, fNV)
  | f => if sat then (f.maxCode s, fOF) else (f.infCode s, 0)

/-- OverflowOut (R91). -/
def overflowOut (f : Fm) (s : Bool) (mode : Mode) (sat : Bool) : Nat × Flags :=
  let big := match f with
    | .e4m3 => 0xFF
    | f => f.infCode s
  let keep := match f, mode with
    | .e2m1, _ | .e8m0, _ => true
    | _, .rz => true
    | _, .rp => s
    | _, .rm => !s
    | _, _ => false
  (if sat || keep then f.maxCode s else big, fOF ||| fNX)

/-- What a rounding drops: its top 16 bits, and whether it is zero, below, at or above one half. -/
structure Rest where
  zero : Bool
  half : Ordering
  top : Nat
  deriving DecidableEq, Repr

/-- The quotient of m by 2^k and the dropped part. A shift that leaves nothing of m does not form 2^k. -/
def dropBits (m k : Nat) : Nat × Rest :=
  if k = 0 then (m, ⟨true, .lt, 0⟩)
  else if m.log2 + 20 < k then (0, ⟨m == 0, .lt, 0⟩)
  else
    let r := m % 2 ^ k
    (m / 2 ^ k, ⟨r == 0, compare (2 * r) (2 ^ k), r * 2 ^ 16 / 2 ^ k⟩)

/-- Whether a rounding goes away from zero (R86). -/
def goesUp (mode : Mode) (s : Bool) (lo : Nat) (r : Rest) : Bool :=
  !r.zero && match mode with
    | .rn => r.half == .gt || (r.half == .eq && lo % 2 == 1)
    | .ra => r.half != .lt
    | .rz => false
    | .rp => !s
    | .rm => s
    | .sr x => decide (x.toNat ≤ r.top)
    | .pick up => up

/-- Round of R86 of a value into a format, with the flags it raises. A NaN operand's NV is the caller's (R89). UF follows R86 and R85 also
where R93's example row names only NX: 0.75 to E2M1 (DEDUCED, log 35). -/
def roundTo (f : Fm) (mode : Mode) (sat : Bool) (x : Num) : Nat × Flags :=
  match x with
  | .nan s p _ => nanOut f s p
  | .inf s => infOut f s sat
  | .fin s m e =>
    if f = .e8m0 && s && m != 0 then (0xFF, fNV)
    else if m = 0 then
      match f with
      | .e8m0 => (0, fUF ||| fNX)
      | .e2m1 => (0, 0)
      | f => (f.signed s 0, 0)
    else
      let top : Int := (m.log2 : Int) + e
      let ex := max top f.emin
      let q := ex - f.prec + 1
      let (lo, r) := if q ≤ e then (m * 2 ^ (e - q).toNat, Rest.mk true .lt 0) else dropBits m (q - e).toNat
      let u := if goesUp mode s lo r then lo + 1 else lo
      let fl := flagIf (!r.zero) fNX ||| flagIf (decide (top < f.emin) && !r.zero) fUF
      if f.maxQ < q || (q = f.maxQ && f.maxM < u) then overflowOut f s mode sat
      else
        let c := (ex - f.emin).toNat * 2 ^ (f.prec - 1) + u
        match f with
        | .e8m0 => (c - 1, fl)
        | .e2m1 => (if u = 0 then 0 else f.signed s c, fl)
        | f => (f.signed s c, fl)

/-- A finite value rounded to an integral magnitude, and whether it changed. -/
def roundInt (mode : Mode) (s : Bool) (m : Nat) (e : Int) : Nat × Bool :=
  if 0 ≤ e then (m * 2 ^ e.toNat, false)
  else
    let (lo, r) := dropBits m (-e).toNat
    (if goesUp mode s lo r then lo + 1 else lo, !r.zero)

/-! ### Exact arithmetic -/

/-- The first NaN of the operands, made quiet (R89). -/
def firstNaN : List Num → Option Num
  | [] => none
  | .nan s p _ :: _ => some (Num.quiet (.nan s p false))
  | _ :: l => firstNaN l

/-- NV for a signaling operand (R89). -/
def sigFlags (l : List Num) : Flags := flagIf (l.any Num.isSig) fNV

/-- The exact sum of two finite values; an exact zero sum of opposite signs is −0 under .rm only (R88). -/
def addFin (mode : Mode) (s1 : Bool) (m1 : Nat) (e1 : Int) (s2 : Bool) (m2 : Nat) (e2 : Int) : Num :=
  if m1 = 0 && m2 = 0 then .fin (if s1 == s2 then s1 else mode == .rm) 0 0
  else if m1 = 0 then .fin s2 m2 e2
  else if m2 = 0 then .fin s1 m1 e1
  else
    let e := min e1 e2
    let a : Int := ((m1 * 2 ^ (e1 - e).toNat : Nat) : Int)
    let b : Int := ((m2 * 2 ^ (e2 - e).toNat : Nat) : Int)
    let t := (if s1 then -a else a) + (if s2 then -b else b)
    if t = 0 then .fin (mode == .rm) 0 0 else .fin (decide (t < 0)) t.natAbs e

/-- The exact sum of two values that are no NaN, with NV for ∞ − ∞. -/
def addNum (mode : Mode) (a b : Num) : Num × Flags :=
  match a, b with
  | .inf s, .inf t => if s == t then (.inf s, 0) else (.cnan, fNV)
  | .inf s, _ => (.inf s, 0)
  | _, .inf t => (.inf t, 0)
  | .fin s m e, .fin t n k => (addFin mode s m e t n k, 0)
  | _, _ => (.cnan, 0)

/-- The exact product of two values that are no NaN, with NV for 0 × ∞. -/
def mulNum (a b : Num) : Num × Flags :=
  let s := a.sign != b.sign
  match a, b with
  | .fin _ m e, .fin _ n k => (.fin s (m * n) (e + k), 0)
  | .inf _, .inf _ => (.inf s, 0)
  | .inf _, .fin _ m _ => if m = 0 then (.cnan, fNV) else (.inf s, 0)
  | .fin _ m _, .inf _ => if m = 0 then (.cnan, fNV) else (.inf s, 0)
  | _, _ => (.cnan, 0)

/-- a + b rounded into a format (R149). -/
def fAdd (f : Fm) (mode : Mode) (sat : Bool) (a b : Num) : Nat × Flags :=
  let (x, fl) := match firstNaN [a, b] with
    | some n => (n, sigFlags [a, b])
    | none => addNum mode a b
  let (c, gl) := roundTo f mode sat x
  (c, fl ||| gl)

/-- a − b rounded into a format. -/
def fSub (f : Fm) (mode : Mode) (sat : Bool) (a b : Num) : Nat × Flags := fAdd f mode sat a b.neg

/-- a × b rounded into a format. -/
def fMul (f : Fm) (mode : Mode) (sat : Bool) (a b : Num) : Nat × Flags :=
  let (x, fl) := match firstNaN [a, b] with
    | some n => (n, sigFlags [a, b])
    | none => mulNum a b
  let (c, gl) := roundTo f mode sat x
  (c, fl ||| gl)

/-- a × b + c rounded once; NV for 0 × ∞ even beside a quiet NaN c (R149). -/
def fFma (f : Fm) (mode : Mode) (sat : Bool) (a b c : Num) : Nat × Flags :=
  let zi := (a.isZero && b.isInf) || (a.isInf && b.isZero)
  let (x, fl) := match firstNaN [a, b, c] with
    | some n => (n, sigFlags [a, b, c] ||| flagIf zi fNV)
    | none =>
      let (p, fp) := mulNum a b
      if p.isNaN then (p, fp) else addNum mode p c
  let (r, gl) := roundTo f mode sat x
  (r, fl ||| gl)

/-- a × 2^b rounded into a format. -/
def fScale (f : Fm) (mode : Mode) (sat : Bool) (a : Num) (b : Int) : Nat × Flags :=
  let (x, fl) : Num × Flags := match a with
    | .fin s m e => (.fin s m (if m = 0 then e else e + b), 0)
    | x => (x.quiet, sigFlags [a])
  let (c, gl) := roundTo f mode sat x
  (c, fl ||| gl)

/-! ### Comparison (R150, R151) -/

/-- The signed value of a finite value at an exponent not above its own. -/
def finAt (s : Bool) (m : Nat) (e : Int) (q : Int) : Int :=
  let a : Int := ((m * 2 ^ (e - q).toNat : Nat) : Int)
  if s then -a else a

/-- The order of two values that are no NaN; −0 equals +0. -/
def cmpNum (a b : Num) : Ordering :=
  match a, b with
  | .inf s, .inf t => compare (natOf (!s)) (natOf (!t))
  | .inf s, _ => if s then .lt else .gt
  | _, .inf t => if t then .gt else .lt
  | .fin s m e, .fin t n k => compare (finAt s m e (min e k)) (finAt t n k (min e k))
  | _, _ => .eq

/-- minimumNumber or maximumNumber of two values (R150): −0 below +0. -/
def minMaxNum (max : Bool) (a b : Num) : Num × Flags :=
  let fl := sigFlags [a, b]
  if a.isNaN && b.isNaN then ((firstNaN [a, b]).getD .cnan, fl)
  else if a.isNaN then (b, fl)
  else if b.isNaN then (a, fl)
  else
    let lt := match cmpNum a b with
      | .lt => true
      | .gt => false
      | .eq => a.sign && !b.sign
    (if lt != max then a else b, fl)

/-- FCMP's condition and NV (R151). -/
def fCompare (cond : Nat) (a b : Num) : Bool × Flags :=
  let nan := a.isNaN || b.isNaN
  let o := cmpNum a b
  let r := match cond with
    | 0 => !nan && o == .eq
    | 1 => nan || o != .eq
    | 2 => !nan && o == .lt
    | 3 => !nan && o != .gt
    | 4 => !nan && o == .gt
    | 5 => !nan && o != .lt
    | 6 => !nan
    | _ => nan
  (r, sigFlags [a, b] ||| flagIf (nan && 2 ≤ cond && cond ≤ 5) fNV)

/-- FRND: the integral value of the same type, the sign kept, never NX (R152). -/
def fRound (f : Fm) (mode : Mode) (a : Num) : Nat × Flags :=
  match a with
  | .fin s m e => ((roundTo f mode false (.fin s (roundInt mode s m e).1 0)).1, 0)
  | x => ((roundTo f mode false x.quiet).1, sigFlags [a])

/-- FCLASS (R153). -/
def fClass (f : Fm) (a : Num) : Nat :=
  match a with
  | .nan _ _ g => if g then 2 ^ 8 else 2 ^ 9
  | .inf s => if s then 2 ^ 0 else 2 ^ 7
  | .fin s m e =>
    if m = 0 then (if s then 2 ^ 3 else 2 ^ 4)
    else
      let sub := (m.log2 : Int) + e < f.emin
      if s then (if sub then 2 ^ 2 else 2 ^ 1) else (if sub then 2 ^ 5 else 2 ^ 6)

/-! ### Square roots and reciprocals, correctly rounded (R156) -/

/-- The integer square root, bit by bit from bit n − 1 down. -/
def isqrtFrom : Nat → Nat → Nat → Nat
  | 0, _, r => r
  | n + 1, x, r => isqrtFrom n x (if (r + 2 ^ n) * (r + 2 ^ n) ≤ x then r + 2 ^ n else r)

/-- The integer square root of a number below 2^256. -/
def isqrt (x : Nat) : Nat := isqrtFrom 128 x 0

/-- A value below or at v × 2^e, with one more bit set when the true value lies strictly between v and v + 1. -/
def sticky (v : Nat) (exact : Bool) (e : Int) : Num := .fin false (2 * v + natOf (!exact)) (e - 1)

/-- The square root of m × 2^e, m at most 2^64, to 60 bits and more with a sticky bit. -/
def sqrtNum (m : Nat) (e : Int) : Num :=
  let k : Int := if e % 2 = 0 then 120 else 121
  let x := m * 2 ^ k.toNat
  let r := isqrt x
  sticky r (r * r == x) ((e - k) / 2)

/-- The reciprocal of m × 2^e with a sticky bit. -/
def rcpNum (m : Nat) (e : Int) : Num :=
  let x := 2 ^ 160
  sticky (x / m) (x % m == 0) (-160 - e)

/-- The reciprocal square root of m × 2^e with a sticky bit. -/
def rsqNum (m : Nat) (e : Int) : Num :=
  let (m, e) := if e % 2 = 0 then (m, e) else (2 * m, e - 1)
  let r := isqrt (2 ^ 250 / m)
  sticky r (r * r * m == 2 ^ 250) (-125 - e / 2)

/-! ### Faithful functions: fixed-point values with 640 fraction bits (R156) -/

/-- Fraction bits of the fixed-point values. -/
def fxK : Nat := 640
/-- One. -/
def fxOne : Nat := 2 ^ fxK
/-- The product of two fixed-point values. -/
def fxMul (a b : Nat) : Nat := a * b / fxOne

/-- The sum of x^(2i+1) / (2i+1) from a term on: `n` terms with signs alternating when `alt`. -/
def fxOdd (alt : Bool) : Nat → Nat → Nat → Nat → Int
  | 0, _, _, _ => 0
  | n + 1, i, t, sq => ((t / (2 * i + 1) : Nat) : Int) + (if alt then -1 else 1) * fxOdd alt n (i + 1) (fxMul t sq) sq

/-- atanh of a fixed-point value of at most one third. -/
def fxAtanh (x : Nat) : Nat := (fxOdd false 210 0 x (fxMul x x)).toNat
/-- atan of 1/n. -/
def fxAtanInv (n : Nat) : Int := fxOdd true 150 0 (fxOne / n) (fxOne / (n * n))
/-- π. -/
def fxPi : Nat := (16 * fxAtanInv 5 - 4 * fxAtanInv 239).toNat
/-- ln 2. -/
def fxLn2 : Nat := 2 * fxAtanh (fxOne / 3)

/-- The exponential series from a term on. -/
def fxExpFrom : Nat → Nat → Nat → Nat → Nat
  | 0, _, _, _ => 0
  | n + 1, i, t, x => t + fxExpFrom n (i + 1) (fxMul t x / (i + 1)) x
/-- e^x for x below one. -/
def fxExp (x : Nat) : Nat := fxExpFrom 140 0 fxOne x

/-- The series of sine (from x) or cosine (from 1) from a term of degree d on. -/
def fxTrigFrom : Nat → Nat → Nat → Nat → Int
  | 0, _, _, _ => 0
  | n + 1, d, t, sq => (t : Int) - fxTrigFrom n (d + 2) (fxMul t sq / ((d + 1) * (d + 2))) sq
/-- sin of a fixed-point value. -/
def fxSin (x : Nat) : Int := fxTrigFrom 90 1 x (fxMul x x)
/-- cos of a fixed-point value. -/
def fxCos (x : Nat) : Int := fxTrigFrom 90 0 fxOne (fxMul x x)

/-- m × 2^e as a fixed-point number, rounded down. -/
def fxOf (m : Nat) (e : Int) : Nat :=
  let k := e + fxK
  if 0 ≤ k then m * 2 ^ k.toNat else m / 2 ^ (-k).toNat

/-- A fixed-point value times 2^n that is known to be no dyadic rational, as an exact value with a sticky bit. -/
def fxNum (s : Bool) (v : Nat) (n : Int) : Num := .fin s (2 * v + 1) (n - fxK - 1)

/-- 2^x of x = ±m × 2^e. -/
def exp2Num (s : Bool) (m : Nat) (e : Int) : Num :=
  if 0 ≤ e || m % 2 ^ (-e).toNat == 0 then
    let n : Int := ((if 0 ≤ e then m * 2 ^ e.toNat else m / 2 ^ (-e).toNat : Nat) : Int)
    .fin false 1 (if s then -n else n)
  else
    let x : Int := (fxOf m e : Int)
    let x := if s then -x else x
    let n := x / (fxOne : Int)
    fxNum false (fxExp (fxMul (x % (fxOne : Int)).toNat fxLn2)) n

/-- log2 of m × 2^e, m not zero. -/
def log2Num (m : Nat) (e : Int) : Num :=
  let t := m.log2
  let n : Int := (t : Int) + e
  if m = 2 ^ t then Num.ofInt n
  else
    let y := fxOf m (-(t : Int))
    let l := 2 * fxAtanh ((y - fxOne) * fxOne / (y + fxOne))
    let v := n * (fxOne : Int) + ((l * fxOne / fxLn2 : Nat) : Int)
    fxNum (decide (v < 0)) v.natAbs 0

/-- sin(π x) of x = ±m × 2^e (R154, R156): exact at integers and at integers plus one half. `half` adds one half to x, for cos. -/
def sinPiNum (half : Bool) (s : Bool) (m : Nat) (e : Int) : Num :=
  if 1 ≤ e then (if half then .fin false 1 0 else .fin s 0 0)
  else
    let k := (-e).toNat + 1
    let u := 2 ^ k
    -- x modulo 2 in units of 2^-k, by x or −x for cos, with one half added
    let x := (2 * m) % (2 * u)
    let x := if half then (x + u / 2) % (2 * u) else x
    let neg := (if half then false else s) != decide (u ≤ x)
    let r := x % u
    if r = 0 then (if half then .fin false 0 0 else .fin s 0 0)
    else if 2 * r = u then .fin neg 1 0
    else
      let r := if u < 2 * r then u - r else r
      let v := if 4 * r ≤ u then fxSin (fxMul (fxOf r (-(k : Int))) fxPi) else fxCos (fxMul (fxOf (u - 2 * r) (-(k : Int) - 1)) fxPi)
      fxNum neg v.toNat 0

/-- tanh of x = ±m × 2^e with m not zero: ±1 from 9 on, held apart from 1 by a last bit so that NX is raised (R156). -/
def tanhNum (s : Bool) (m : Nat) (e : Int) : Num :=
  if 9 * fxOne ≤ fxOf m e then .fin s 1 0
  else
    let y := fxOf m (e + 1) * fxOne / fxLn2
    let p := fxExp (fxMul (y % fxOne) fxLn2) * 2 ^ (y / fxOne)
    fxNum s ((p - fxOne) * fxOne / (p + fxOne)) 0

/-- The special functions of R154. -/
inductive Special where
  | rcp | rsq | sqrt | ex2 | lg2 | sin | cos | tanh
  deriving DecidableEq, Repr

/-- The opcode of a special function. -/
def Special.op : Special → Nat
  | .rcp => 0x58 | .rsq => 0x59 | .sqrt => 0x5A | .ex2 => 0x5B | .lg2 => 0x5C | .sin => 0x5D | .cos => 0x5E | .tanh => 0x5F

/-- A special function of an operand of a format (R155, R156). `code` is the operand's encoding, which fixes the faithful choice. -/
def specialFn (k : Special) (f : Fm) (ty : Nat) (mode : Mode) (sat : Bool) (code : Nat) : Nat × Flags :=
  let a := (f.value false code).1
  let pick : Mode := .pick (Config.faithful k.op ty code)
  let out (md : Mode) (x : Num) (fl : Flags) : Nat × Flags :=
    let (c, gl) := roundTo f md sat x
    (c, fl ||| gl)
  let invalid := out .rn .cnan fNV
  match a with
  | .nan _ _ g => out .rn a.quiet (flagIf g fNV)
  | .inf s =>
    match k with
    | .rcp => out .rn (.fin s 0 0) 0
    | .rsq => if s then invalid else out .rn .zero 0
    | .sqrt | .lg2 => if s then invalid else out .rn (.inf false) 0
    | .ex2 => if s then out .rn .zero 0 else out .rn (.inf false) 0
    | .sin | .cos => invalid
    | .tanh => out .rn (.fin s 1 0) 0
  | .fin s m e =>
    if m = 0 then
      match k with
      | .rcp => out .rn (.inf s) fDZ
      | .rsq => out .rn (.inf s) fDZ
      | .sqrt | .sin | .tanh => out .rn a 0
      | .ex2 | .cos => out .rn (.fin false 1 0) 0
      | .lg2 => out .rn (.inf true) fDZ
    else
      match k with
      | .rcp => out .rn (match rcpNum m e with
          | .fin _ n q => .fin s n q
          | x => x) 0
      | .rsq => if s then invalid else out .rn (rsqNum m e) 0
      | .sqrt => if s then invalid else out mode (sqrtNum m e) 0
      | .ex2 => out pick (exp2Num s m e) 0
      | .lg2 => if s then invalid else out pick (log2Num m e) 0
      | .sin => out pick (sinPiNum false s m e) 0
      | .cos => out pick (sinPiNum true s m e) 0
      | .tanh =>
        let x := tanhNum s m e
        out pick x (flagIf (x == .fin s 1 0) fNX)

/-! ### Integers (R73, R144) -/

/-- The width of an integer TYPE. -/
def tyBits : Ty → Nat
  | .i64 | .n64 | .f64 => 64
  | .i16 | .n16 | .f16 | .bf16 => 16
  | .i8 | .n8 | .e4m3 | .e5m2 | .e8m0 => 8
  | .e2m1 => 4
  | _ => 32

/-- Whether an integer TYPE is signed. -/
def tySigned : Ty → Bool
  | .i32 | .i64 | .i16 | .i8 => true
  | _ => false

/-- The value an integer TYPE reads from its register or pair (R73). -/
def intVal (t : Ty) (x : DWord) : Int :=
  let n := tyBits t
  let v := x.toNat % 2 ^ n
  if tySigned t && 2 ^ (n - 1) ≤ v then (v : Int) - 2 ^ n else v

/-- The range of an integer TYPE. -/
def intRange (t : Ty) : Int × Int :=
  let n := tyBits t
  if tySigned t then (-(2 ^ (n - 1)), 2 ^ (n - 1) - 1) else (0, 2 ^ n - 1)

/-- A value modulo 2^N, extended to 64 bits of which the destination keeps the low 32 or all (R73). -/
def intWrap (t : Ty) (i : Int) : DWord := BitVec.ofInt 64 (intVal t (BitVec.ofInt 64 i))

/-- SaturateTo for integers (R103). -/
def intClamp (t : Ty) (i : Int) : Int :=
  let (lo, hi) := intRange t
  if i < lo then lo else if hi < i then hi else i

/-- An exact integer result reduced to its TYPE (R73): OF where a clamp changed it, and NX, which R85 gives a clamped result (DEDUCED,
log 128). -/
def intOut (t : Ty) (sat : Bool) (i : Int) : DWord × Flags :=
  if sat then (intWrap t (intClamp t i), flagIf (intClamp t i != i) (fOF ||| fNX)) else (intWrap t i, 0)

/-! ### Conversions (R92, R93, R158) -/

/-- Whether a TYPE is an integer. -/
def tyInt : Ty → Bool
  | .i32 | .n32 | .i64 | .n64 | .i16 | .n16 | .i8 | .n8 => true
  | _ => false

/-- The largest finite magnitude of a TYPE, as significand and exponent. -/
def tyMax (t : Ty) : Nat × Int :=
  if tyInt t then (if tySigned t then 2 ^ (tyBits t - 1) else 2 ^ tyBits t - 1, 0) else ((fmOf t).maxM, (fmOf t).maxQ)

/-- Whether a conversion narrows (R158). -/
def narrows (dst src : Ty) : Bool :=
  !tyInt dst && cmpNum (.fin false (tyMax dst).1 (tyMax dst).2) (.fin false (tyMax src).1 (tyMax src).2) == .lt

/-- A floating value converted to an integer TYPE (R93). -/
def toInt (t : Ty) (mode : Mode) (x : Num) : DWord × Flags :=
  let (lo, hi) := intRange t
  match x with
  | .nan _ _ _ => (0, fNV)
  | .inf s => (intWrap t (if s then lo else hi), fNV)
  | .fin s m e =>
    if 70 < (m.log2 : Int) + e && m != 0 then (intWrap t (if s then lo else hi), fNV)
    else
      let (u, ch) := roundInt mode s m e
      let i : Int := if s then -(u : Int) else u
      if i < lo then (intWrap t lo, fNV) else if hi < i then (intWrap t hi, fNV) else (intWrap t i, flagIf ch fNX)

/-- One conversion of R158 from a source operand. `satn` and `escz` are FMT's fields. -/
def convert (dst src : Ty) (mode : Mode) (sat satn escz : Bool) (x : DWord) : DWord × Flags :=
  let sat := sat || (satn && narrows dst src)
  if tyInt src then
    if tyInt dst then intOut dst sat (intVal src x)
    else
      let (c, fl) := roundTo (fmOf dst) mode sat (Num.ofInt (intVal src x))
      (BitVec.ofNat 64 c, fl)
  else
    let code := x.toNat % 2 ^ tyBits src
    let (v, es) := (fmOf src).value escz code
    let nv := sigFlags [v]
    if tyInt dst then
      let (r, fl) := toInt dst mode v
      (r, fl ||| es)
    else if dst = src && !v.isNaN && es = 0 then (BitVec.ofNat 64 code, 0)
    else
      let (c, fl) := roundTo (fmOf dst) mode sat v.quiet
      (BitVec.ofNat 64 c, fl ||| es ||| nv)

/-! ### ACC96 and Round64 (R83, R97) -/

/-- The value of an ACC96 encoding. -/
def accVal (a : Acc) : Num := (Fm.acc.value false a.toNat).1

/-- RoundACC (R97): any NaN becomes canonical unless `keep` names one to keep. -/
def accRound (x : Num) : Acc :=
  match x with
  | .nan _ _ _ => BitVec.ofNat 96 (nanOut .acc false quietBit).1
  | x => BitVec.ofNat 96 (roundTo .acc .rn false x).1

/-- Round64 (R97): a 64-bit significand with nearest-even. R99: the exponent range is never left. -/
def round64 (x : Num) : Num :=
  match x with
  | .fin s m e =>
    if m = 0 then x
    else
      let k := m.log2 + 1 - 64
      let (lo, r) := dropBits m k
      .fin s (if goesUp .rn s lo r then lo + 1 else lo) (e + k)
  | x => x

/-- A term sum under R98: NaN from any NaN or from ∞ − ∞. -/
def addExact (a b : Num) : Num := if a.isNaN || b.isNaN then .cnan else (addNum .rn a b).1
/-- A product under R98: NaN from any NaN or from 0 × ∞. -/
def mulExact (a b : Num) : Num := if a.isNaN || b.isNaN then .cnan else (mulNum a b).1

/-- Tree of R101 over a list of at most 2^n terms whose length is a power of two: neighbours first. -/
def treeFold {α : Type} (add : α → α → α) : Nat → List α → Option α
  | 0, l => l.head?
  | n + 1, l =>
    match l with
    | [x] => some x
    | l => treeFold add n ((pairUp l).map (fun p => add p.1 p.2))

/-! ### Stochastic rounding (R94 to R96) -/

/-- One step of a lane's SEED (R95). -/
def seedStep (st : Word) : Word :=
  let st := st ^^^ (st <<< 13)
  let st := st ^^^ (st >>> 17)
  st ^^^ (st <<< 5)

/-- The random bits of element j (R95). -/
def seedRnd (st : Word) (j : Nat) : BitVec 16 := (rotr st (8 * j)).setWidth 16

/-- The SEED state of a lane at group start (R94). -/
def seedInit (seedbase : Word) (lane : Nat) : Word :=
  let st := seedbase ^^^ (BitVec.ofNat 32 lane * 0x9E3779B9#32)
  if st = 0 then 1 else st

/-- SEEDBASE (R94). -/
def seedBaseOf (lseed t g : Word) : Word := lseed ^^^ (t * 0x85EBCA6B#32) ^^^ (g * 0xC2B2AE35#32)

end Sys2Proof.Machine
end

