-- ==== Sys2Proof/Machine/Tiles.lean ====
section
/-! DEFINITION. Where a tile descriptor's and a quantiser descriptor's data lie (R298, R319, R329, R333, R341). -/
namespace Sys2Proof.Machine

/-- Bytes of a line of 128 elements of an element type (R298). -/
def lineBytes (t : Ty) : Nat := 16 * tyBits t

/-- An address a number of bytes above another. -/
def plus (a : DWord) (n : Nat) : DWord := a + BitVec.ofNat 64 n

/-- Where the elements of (line l, segment s) begin. -/
def TileDesc.elemAddr (d : TileDesc) (l s : Nat) : DWord := plus d.elem (l * d.pitch + s * lineBytes d.fmt)
/-- Where the 32 micro-scales of (line l, segment s) begin. -/
def TileDesc.microAddr (d : TileDesc) (l s : Nat) : DWord := plus (d.elem + sx d.moff) (4096 * s + 32 * l)
/-- The macro-scale of (line l, segment s): of a line for A, of the segment for B. -/
def TileDesc.macroAddr (d : TileDesc) (sideB : Bool) (l s : Nat) : DWord :=
  plus (d.elem + sx d.xoff) (if sideB then 4 * s else 512 * s + 4 * l)
/-- Entry 0 of the outlier list of (line l, segment s): of a line for A, of the segment for B. -/
def TileDesc.listAddr (d : TileDesc) (sideB : Bool) (l s : Nat) : DWord :=
  plus (d.elem + sx d.ooff) (if sideB then 8 * d.ocap * s else 8 * d.ocap * (128 * s + l))

/-- Bytes of an element that ACCST stores (R319). -/
def accSize (ty : Ty) (wide pad : Bool) : Nat := if wide then (if pad then 16 else 12) else tyBits ty / 8

/-! ### The quantiser's ranges (R329, R333, R341) -/

/-- The units of a quantiser operation (R329). -/
def QDesc.units (d : QDesc) : Nat := if d.sideB then 1 else d.lines
/-- The unit of a line. -/
def QDesc.unitOf (d : QDesc) (l : Nat) : Nat := if d.sideB then 0 else l
/-- Bytes of a source element. -/
def QDesc.ses (d : QDesc) : Nat := if d.bf16 then 2 else 4

/-- A range that a quantiser operation uses: its INPUT code (R344), its unit, whether it is written, local or generic, its address and
bytes. -/
structure QRange where
  input : Nat
  unit : Nat
  write : Bool
  loc : Bool
  addr : DWord
  n : Nat
  deriving DecidableEq, Repr

/-- Unit u's histogram block, clip record and status word. -/
def QDesc.block (d : QDesc) (u : Nat) : DWord := BitVec.ofNat 64 (d.hoff + 576 * u)
def QDesc.clip (d : QDesc) (u : Nat) : DWord := BitVec.ofNat 64 (d.coff + 8 * u)
def QDesc.status (d : QDesc) (u : Nat) : DWord := BitVec.ofNat 64 (d.foff + 4 * u)
/-- Source line l. -/
def QDesc.line (d : QDesc) (l : Nat) : DWord := plus d.src (l * d.spitch)

/-- The ranges of a quantiser operation in the order of their INPUT codes (R341, R344). -/
def qRanges (q : QuantOp) : List QRange :=
  let d := q.d
  let t := q.td
  let c := q.code
  let lines := fun (on : Bool) (f : Nat → QRange) => if on then (List.range d.lines).map f else []
  let units := fun (on : Bool) (f : Nat → QRange) => if on then (List.range d.units).map f else []
  let cap := if c = 0xDA then t.ocap else t.ocount
  lines (c == 0xD8 || c == 0xDA) (fun l => ⟨0, d.unitOf l, false, false, d.line l, 128 * d.ses⟩) ++
  units ((c == 0xD8 && q.acc) || c == 0xD9) (fun u => ⟨1, u, false, true, d.block u, 576⟩) ++
  units (c == 0xD8 || c == 0xDC) (fun u => ⟨1, u, true, true, d.block u, 576⟩) ++
  units (c == 0xD9 || c == 0xDA) (fun u => ⟨2, u, c == 0xD9, true, d.clip u, 8⟩) ++
  lines (c == 0xDA || c == 0xDB) (fun l => ⟨3, d.unitOf l, c == 0xDA, false, t.elemAddr l d.seg, lineBytes t.fmt⟩) ++
  lines (c == 0xDA) (fun l => ⟨4, d.unitOf l, true, false, t.microAddr l d.seg, 32⟩) ++
  units (c == 0xDA) (fun u => ⟨5, u, true, false, t.macroAddr d.sideB u d.seg, 4⟩) ++
  units ((c == 0xDA || c == 0xDB) && cap != 0) (fun u => ⟨6, u, c == 0xDA, false, t.listAddr d.sideB u d.seg, 8 * cap⟩) ++
  units (c == 0xDA || c == 0xDB || c == 0xDC) (fun u => ⟨7, u, true, true, d.status u, 4⟩)

end Sys2Proof.Machine
end

