-- ==== Sys2Proof/Machine/Active.lean ====
section
/-! DEFINITION. Which accepted operations an engine may be working on (R252, R286, R305, R342), and where the elements of a direct operation
lie (R275, R276). -/
namespace Sys2Proof.Machine

/-- A context's operations may move: also while it halts, if an invalidation has to complete before the save (R252). -/
def opRuns (s : State) (o : Op) : Bool := (s.ctx o.page).state == 2 || ((s.ctx o.page).state == 3 && invWaits s o.page)

/-! ### Elements (R275 to R277) -/

/-- The class of an element. -/
inductive ECls where
  | none
  | oob
  | misaligned (ea : DWord)
  | access (ea : DWord)
  deriving DecidableEq, Repr

/-- Resolve (R275). -/
def resolve (sent split : Bool) (base bound : DWord) (stride : Word) (es : Nat) (idx : Word) : ECls :=
  if sent && idx == 0xFFFFFFFF then .none
  else if bound.toNat ≤ idx.toNat then .oob
  else
    let ea := base + zx idx * zx stride
    if !split && !aligned ea.toNat es then .misaligned ea else .access ea

/-- The bytes of an element that lie below its first line boundary, all of them when it crosses none (R276). -/
def lowerLen (ea : DWord) (es : Nat) : Nat := min es (256 - ea.toNat % 256)

/-- ES of an operation. -/
def DirectOp.es (d : DirectOp) : Nat := sizeBytes d.size
/-- A lane's class: NONE for a lane that has been given up. -/
def DirectOp.cls (d : DirectOp) (l : Nat) : ECls :=
  match ffind d.idx l with
  | some i => resolve d.sent d.split d.base d.bound d.stride d.es i
  | none => .none
/-- An older entry of the same stream has lanes to store (R286). -/
def olderEntry (s : State) (o : Op) (d : DirectOp) : Bool :=
  match d.entry with
  | none => false
  | some (snum, n) => s.ops.any (fun p => p.team == o.team && !p.todo.isEmpty && match p.kind with
    | .direct q => match q.entry with
      | some (m, k) => m == snum && decide (k < n)
      | none => false
    | _ => false)

/-! ### The matrix engine's order (R305) -/

/-- The tile that an operation names. -/
def tileNamed (tile : Nat) : MatKind → Option Nat
  | .mld _ _ => none
  | _ => some tile
/-- An operation writes its tile. -/
def MatKind.writesTile : MatKind → Bool
  | .mzero => true
  | .mma _ _ _ _ _ _ _ _ _ _ => true
  | .accwr _ _ _ _ _ => true
  | _ => false
/-- The metadata registers an operation reads, by its pattern, and the one it writes. -/
def MatKind.metaReads : MatKind → List Nat
  | .mma _ _ _ _ _ sparse pat ma mb _ => if sparse then (if bit pat 0 then [ma] else []) ++ (if bit pat 1 then [mb] else []) else []
  | _ => []
def MatKind.metaWrites : MatKind → List Nat
  | .mld r _ => [r]
  | _ => []

/-- Two operations of a team conflict (R305). -/
def conflicts (t1 : Nat) (a : MatKind) (t2 : Nat) (b : MatKind) : Bool :=
  (tileNamed t1 a == tileNamed t2 b && (tileNamed t1 a).isSome && (a.writesTile || b.writesTile)) ||
  a.metaWrites.any (fun r => (b.metaReads ++ b.metaWrites).contains r) || b.metaWrites.any (fun r => a.metaReads.contains r)

/-- The matrix operation that an operation is. -/
def Op.mat (o : Op) : Option (Nat × MatKind) :=
  match o.kind with
  | .matrix t m => some (t, m)
  | _ => none

/-- No earlier conflicting operation of the team is unfinished (R305). -/
def matReady (s : State) (o : Op) (t : Nat) (m : MatKind) : Bool :=
  !s.ops.any (fun p => p.team == o.team && decide (p.id < o.id) && !p.todo.isEmpty && match p.mat with
    | some (u, k) => conflicts u k t m
    | none => false)

/-! ### The quantiser's order (R342) -/

/-- The quantiser may act on an operation: earlier ones of its team are finished, earlier ones of its core
finished or stopped, or of a context that does not run. -/
def quantReady (s : State) (o : Op) : Bool :=
  !s.ops.any (fun p => p.core == o.core && decide (p.id < o.id) && !p.todo.isEmpty && (p.team == o.team || (p.stop.isNone && opRuns s p)) && match p.kind with
    | .quant _ => true
    | _ => false)

/-- An engine may be working on an operation: it has work left, has not stopped, and its turn has come (R286, R305, R342). -/
def engineWorks (s : State) (o : Op) : Bool :=
  opRuns s o && o.stop.isNone && !o.todo.isEmpty && match o.kind with
    | .matrix t m => matReady s o t m
    | .quant _ => quantReady s o
    | .direct d => !olderEntry s o d
    | _ => true

end Sys2Proof.Machine
end

