-- ==== Sys2Proof/Machine/Launch.lean ====
section
/-! DEFINITION. What many instructions and events do to launches, teams and envelopes: sending (R384 to R386), completion records
(R352, R403), cancels and launch faults (R366, R367, R401, R402), the end of groups, teams and contexts (R29, R106, R416). -/
namespace Sys2Proof.Machine

/-- What wakes the package from an idle state has come (R420). -/
def wakeUp (s : State) : State := if 3 ≤ s.sys.pstate then { s with sys := { s.sys with wake := true } } else s

/-! ### Envelopes (R384 to R386, R404) -/

/-- The package's own number. -/
def State.pkg (s : State) : Nat := s.sys.pkg.toNat

/-- An envelope with zero fields. -/
def Envelope.blank : Envelope :=
  { etype := 0, sub := 0, rtype := 0, podctx := 0, tag := 0, lseq := 0, home := 0, depth := 0, node := 0, arg0 := 0, arg1 := 0,
    arg2 := 0, payload := [] }

/-- The 32-byte header (R384). -/
def envHeader (e : Envelope) : List Byte :=
  leBytes 4 (e.etype.toNat * 2 ^ 28 + e.sub.toNat * 2 ^ 20 + e.rtype.toNat * 2 ^ 16 + e.podctx.toNat) ++ leBytes 4 e.tag.toNat ++
  leBytes 4 e.lseq.toNat ++ leBytes 4 (e.home.toNat * 2 ^ 22 + e.depth.toNat * 2 ^ 17 + e.node.toNat) ++ leBytes 4 e.arg0.toNat ++
  leBytes 4 e.arg1.toNat ++ leBytes 8 e.arg2.toNat

/-- The length of an envelope with a payload of n bytes (R384). -/
def wireLen (n : Nat) : Nat := (32 + n + 63) / 64 * 64

/-- The bytes of an envelope, as the one UALink write holds them (R384, R385). -/
def envBytes (e : Envelope) : List Byte :=
  envHeader e ++ e.payload ++ List.replicate (wireLen e.payload.length - (32 + e.payload.length)) 0

/-- The fields that a 32-byte header holds (R384). -/
def headerIn (b : List Byte) : Envelope :=
  let w := wordAt b 0
  let h := wordAt b 0x0C
  { etype := bits w 28 4, sub := bits w 20 8, rtype := bits w 16 4, podctx := bits w 0 16, tag := wordAt b 4, lseq := wordAt b 8,
    home := bits h 22 10, depth := bits h 17 5, node := bits h 0 12, arg0 := wordAt b 0x10, arg1 := wordAt b 0x14, arg2 := dwordAt b 0x18,
    payload := [] }

/-- Where a sender writes its envelopes in a receiver's address space: the ingress window, at 256 × its package number (R385, R417). -/
def ingressAddr (src : Nat) : DWord := BitVec.ofNat 64 (0x00FF000000000000 + 256 * src)

/-- The event an envelope is to its receiver (R384, R404). -/
def eventOf (src : Nat) (e : Envelope) : Option Instr :=
  match e.etype.toNat, e.sub.toNat with
  | 1, _ => some (.recordEnvelope src e)
  | 2, _ => some (.acknowledgement src e)
  | 3, 0 => some (.creditRequest src e)
  | 3, 1 => some (.creditGrant src e)
  | 4, 0x01 => some (.launch src e)
  | 4, 0x02 => some (.start src e)
  | 4, 0x03 => some (.started src e)
  | 4, 0x04 => some (.deal src e)
  | 4, 0x05 => some (.rdone src e)
  | 4, 0x06 => some (.fault src e)
  | 4, 0x07 => some (.cancel src e)
  | 4, 0x08 => some (.wave src e)
  | 4, 0x09 => some (.reply src e)
  | 4, 0x0A => some (.final src e)
  | 4, 0x0B => some (.pbarv src e)
  | 4, 0x0C => some (.pbres src e)
  | 4, 0x0D => some (.pbrel src e)
  | 4, 0x0E => some (.query src e)
  | 4, 0x0F => some (.answer src e)
  | _, _ => none

/-- The sender's side of a stream (R386). -/
def txOf (s : State) (dst : Nat) (podctx : BitVec 16) : Tx :=
  (s.link.tx.find? (fun t => t.dst == dst && t.podctx == podctx)).getD
    { dst := dst, podctx := podctx, next := 0, kept := [], backlog := [], unreach := false }

/-- A stream's sending side replaced. -/
def setTx (s : State) (t : Tx) : State :=
  { s with link := { s.link with tx := t :: s.link.tx.filter (fun u => !(u.dst == t.dst && u.podctx == t.podctx)) } }

/-- A tagged envelope transmitted: numbered, retained until acknowledged (R386). -/
def transmit (s : State) (dst lid : Nat) (e : Envelope) : State :=
  let t := txOf s dst e.podctx
  let e := { e with tag := BitVec.ofNat 32 (s.pkg * 2 ^ 22 + t.next.toNat) }
  let s := setTx s { t with next := t.next + 1, kept := t.kept ++ [{ seq := t.next, e := e, tries := 0, timer := s.sys.fab, lid := lid }] }
  { s with out := s.out ++ [.envelope dst e] }

/-- A tagged envelope of a launch and operation goes out, or waits behind 256 unacknowledged ones and those that wait already (R386): whether it
was transmitted. -/
def sendTagged (s : State) (dst lid op : Nat) (e : Envelope) : Bool × State :=
  let t := txOf s dst e.podctx
  if 256 ≤ t.kept.length || !t.backlog.isEmpty then (false, setTx s { t with backlog := t.backlog ++ [(e, lid, op)] })
  else (true, transmit s dst lid e)

/-- An envelope sent: to this package at once as an event it owes itself; to another over the stream (R386). -/
def sendEnv (s : State) (dst lid : Nat) (e : Envelope) : State :=
  if dst = s.pkg then
    match eventOf s.pkg e with
    | some i => { s with owed := s.owed ++ [i] }
    | none => s
  else (sendTagged s dst lid 0 e).2

/-- A control envelope of a launch (R404). -/
def control (s : State) (page : Nat) (sub : Nat) (lseq : Word) (home : Nat) : Envelope :=
  { Envelope.blank with etype := 4, sub := BitVec.ofNat 8 sub, podctx := (s.ctx page).d.podctx, lseq := lseq, home := BitVec.ofNat 10 home }

/-! ### Launches -/

/-- A live launch. -/
def launchOf (s : State) (lid : Nat) : Option Launch := s.launches.find? (fun l => l.lid == lid)
/-- A launch changed. -/
def modLaunch (s : State) (lid : Nat) (f : Launch → Launch) : State :=
  { s with launches := mapIf (fun l => l.lid == lid) f s.launches }
/-- A live launch of a context by LSEQ and home package. -/
def launchBy (s : State) (page : Nat) (lseq : Word) (home : Nat) : Option Launch :=
  s.launches.find? (fun l => l.page == page && l.lseq == lseq && l.home == home)

/-- The node of a graph. -/
def Graph.node (g : Graph) (n : Nat) : Node :=
  (g.nodes[n]?).getD { entry := 0, kind := 0, pod := false, itype := 0, energy := 0, recur := 0, reserve := 0, cluh := 0, cluw := 0,
                       slots := 0, tiles := 0, loc := 0, roles := [], qcap := 0, succ := [] }
/-- The bytes of a record type. -/
def Graph.typeBytes (g : Graph) (t : Nat) : Nat := g.types.getD t 16

/-- Whether a launch completes by counting waves (R400). -/
def byWaves (l : Launch) : Bool := l.r.pod || l.sent != 0

/-- The wave root of a launch (R400): the pod root for pod scope, else its home. -/
def waveRootOf (s : State) (l : Launch) : Nat := if l.r.pod then s.link.root.getD s.pkg else l.home

/-- A launch's status word (R352). -/
def statusWord (code reason : Nat) (fcode : BitVec 16) : Word := BitVec.ofNat 32 (fcode.toNat * 65536 + reason * 16 + code)

/-- A number that saturates at 32 bits. -/
def sat32 (n : Nat) : Nat := min n 0xFFFFFFFF

/-- Bytes 0x00 to 0x23 of a completion record (R352). -/
def cplHead (l : Launch) (status : Word) : List Byte :=
  leBytes 4 status.toNat ++ leBytes 4 l.lseq.toNat ++ leBytes 4 l.r.tag.toNat ++ leBytes 4 (sat32 l.fcount) ++ leBytes 4 l.nteams ++
  leBytes 4 l.nrecs ++ leBytes 4 l.dropped ++ leBytes 4 l.spillmax ++ leBytes 4 (l.fnode * 65536 + l.fpkg)

/-- Bytes 0x24 to 0x3F of a pod-scope completion record (R403). -/
def cplPod (pseq : Word) (root nr ndealt ndone nfpkg : Nat) : List Byte :=
  leBytes 4 pseq.toNat ++ leBytes 4 root ++ leBytes 4 nr ++ leBytes 4 ndealt ++ leBytes 4 ndone ++ leBytes 4 nfpkg ++ leBytes 4 0

/-- A bitmap of 1,024 bits. -/
def bitmap (l : List Nat) : List Byte := leBytes 128 ((dedup l).foldl (fun a i => a + 2 ^ i) 0)

/-- The 448-byte pod report (R403). -/
def podReport (rlen : Nat) (dealt done fpkgs : List Nat) : List Byte :=
  leBytes 8 rlen ++ leBytes 56 0 ++ bitmap dealt ++ bitmap done ++ bitmap fpkgs

/-- The 64 bytes of a launch record (R350). -/
def lrecBytes (r : LRec) : List Byte :=
  leBytes 8 r.graph.toNat ++ leBytes 8 r.recs.toNat ++ leBytes 4 r.nrec.toNat ++ leBytes 4 (if r.pod then 2 ^ 31 else 0) ++
  leBytes 4 r.spill.toNat ++ leBytes 4 r.lseed.toNat ++ leBytes 8 r.spillbase.toNat ++ leBytes 8 r.cpl.toNat ++ leBytes 4 r.tag.toNat ++
  leBytes 12 0

/-- A launch record's fields, whatever its reserved bits. -/
def lrecOf (b : List Byte) : LRec :=
  { graph := dwordAt b 0, recs := dwordAt b 8, nrec := wordAt b 0x10, pod := bit (wordAt b 0x14) 31, spill := wordAt b 0x18,
    lseed := wordAt b 0x1C, spillbase := dwordAt b 0x20, cpl := dwordAt b 0x28, tag := wordAt b 0x30 }

/-! ### Teams and groups ending (R106, R358) -/

/-- The groups of a team, with their places. -/
def groupsOf (s : State) (tid : Nat) : List (Nat × Group) := s.groups.filter (fun p => p.2.team == tid)

/-- The windows without what needs no write-back any more. -/
def refusedLines (ws : FMap Window) : FMap Window :=
  (ws.map (fun w => (w.1, { w.2 with lines := w.2.lines.filter (fun l => l.2.owned && l.2.dirty != 0) }))).filter (fun w => !w.2.lines.isEmpty)

/-- A team's Owned lines written back, every line made Invalid, its windows gone (R182, R200). With `keep`, a line whose write-back is refused stays
Owned with its window until the driver has answered (R183); without, at the end of a context, it is lost (R29). -/
def flushTeam (keep : Bool) (s : State) (tid : Nat) : State :=
  let lns := ((s.team tid).windows.flatMap (fun w => w.2.lines.map (fun l => (w.1, l.1))))
  let s := lns.foldl (fun s x => (writeBack s tid x.1 x.2).2) s
  match ffind s.teams tid with
  | some t => s.setTeam tid { t with windows := if keep then refusedLines t.windows else [] }
  | none => s

/-- A core's local range was last used by a context (R175). -/
def noteUse (s : State) (t : Team) : State :=
  if t.size = 0 then s
  else
    let lo := localKey t.core t.base
    { s with locUse := (lo, lo + t.size, t.page) :: s.locUse.filter (fun u => !(decide (lo ≤ u.1) && decide (u.2.1 ≤ lo + t.size))) }

/-- A team that has left its core. While an operation is still registered with one of its slots, the slots stay (R232), and while a stash line
waits for its write-back, its local memory (R183). -/
def removeTeam (s : State) (tid : Nat) : State :=
  match ffind s.teams tid with
  | some t =>
    let ws := refusedLines t.windows
    let s := if ws.isEmpty then noteUse s t else s
    if ws.isEmpty && (registered s tid).isEmpty then { s with teams := fdel s.teams tid }
    else s.setTeam tid { t with size := if ws.isEmpty then 0 else t.size, windows := ws, tiles := [], ntiles := 0, charge := 0, metan := [],
                                pools := [], streams := [], clu := none, ended := true }
  | none => s

/-- Teams of which only registered slots or refused stash lines were left leave once those operations and lines are gone (R183, R232). -/
def sweepTeams (s : State) : State :=
  ((s.teams.filter (fun t => t.2.ended && (groupsOf s t.1).isEmpty)).map (fun t => t.1)).foldl removeTeam s

/-- A range of a pod-scope grid whose teams have all ended is reported to the pod root (R398). -/
def checkRange (s : State) (lid : Nat) (r : Option Nat) : State :=
  match launchOf s lid, r with
  | some l, some r =>
    let open_ := l.grids.any (fun g => g.range == some r) || s.formed.any (fun f => f.lid == lid && f.range == some r) ||
      s.teams.any (fun t => t.2.lid == lid && t.2.range == some r && !t.2.ended)
    if open_ || l.cancel == 2 then s
    else sendEnv s (s.link.root.getD s.pkg) lid
      { control s l.page 0x05 l.lseq l.home with arg0 := l.pseq.getD 0, arg1 := BitVec.ofNat 32 r }
  | _, _ => s

/-- A stream stopped: a gather stream's entries are discarded (R288). -/
def Stream.stopped (x : Stream) : Stream := { x with state := 3, entries := [], back := [] }

/-- A team whose groups have all ended has run to its end; its tiles are returned when
no matrix operation of its groups is still counted (R295), and it leaves its core when no place of its is held (R106). -/
def checkTeam (s : State) (tid : Nat) : State :=
  match ffind s.teams tid with
  | none => s
  | some t =>
    let gs := groupsOf s tid
    if gs.any (fun p => !p.2.ended) then s
    else
      let s := if t.ended then s else
        let s := freeSlots (flushTeam true s tid) tid
        let s := s.setTeam tid { s.team tid with ended := true, pools := [], streams := (s.team tid).streams.map (fun x => (x.1, x.2.stopped)) }
        let s := modLaunch s t.lid (fun l => { l with nteams := l.nteams + 1 })
        checkRange s t.lid t.range
      let s := if gs.any (fun p => fget p.2.cnt 3 0 != 0) then s else s.setTeam tid { s.team tid with tiles := [], ntiles := 0 }
      if gs.isEmpty then removeTeam s tid else s

/-- A group whose EXITED is full ends: slots, control stack and registers are freed at once, its place once its counters are zero
(R106). -/
def checkGroup (s : State) (place : Nat) : State :=
  match ffind s.groups place with
  | none => s
  | some g =>
    if !g.ended && g.exited != allLanes then s
    else
      let g' := if g.ended then g else
        { g with ended := true, slot0 := none, slot1 := none, sp := 0, chip := [], fidx := [], v := [], s := [], p := [], k := [], allot := 0,
                 pend := [], pfl := [], owed := [], yw := none, park := none }
      let s := s.setGroup place g'
      let s := if g'.cnt.isEmpty then { s with groups := fdel s.groups place } else s
      checkTeam s g.team

/-- The chunks of a copy of a length (R258). -/
def chunksOf (len : Nat) : Nat := ceilDiv len 512

/-- The length of a copy. -/
def CopyOp.len (c : CopyOp) : Nat := c.rows * c.rowBytes
/-- Its chunks. -/
def CopyOp.chunks (c : CopyOp) : Nat := chunksOf c.len
/-- The bytes of chunk i. -/
def CopyOp.chunkLen (c : CopyOp) (i : Nat) : Nat := min 512 (c.len - 512 * i)

/-- The parts of stream bytes from n on that lie in one row: row, column, length. -/
def rowParts (rowBytes : Nat) : Nat → Nat → Nat → List (Nat × Nat × Nat)
  | 0, _, _ => []
  | f + 1, n, len =>
    if len = 0 then []
    else
      let col := n % rowBytes
      let k := min len (rowBytes - col)
      (n / rowBytes, col, k) :: rowParts rowBytes f (n + k) (len - k)

/-- The parts of chunk i. -/
def CopyOp.parts (c : CopyOp) (i : Nat) : List (Nat × Nat × Nat) := rowParts c.rowBytes 512 (512 * i) (c.chunkLen i)

/-- The destinations of a discarded operation that become undefined, as (local, address, bytes): those still to be written when `whole`, after a
hard cancel (R367); otherwise, after a termination, what an engine was writing: of a copy the chunks that have been read, and of an operation
that an engine works on (`works`), of an ACCST the row, of a scatter the elements in bounds, of the quantiser its outputs (R29). -/
def opDests (whole works : Bool) (o : Op) : List (Bool × DWord × Nat) :=
  match o.kind with
  | .copy c =>
    if whole then (List.range c.rows).map (fun i => (c.dstLocal, c.dst + BitVec.ofNat 64 (i * c.dpitch), c.rowBytes))
    else c.held.flatMap (fun h => (c.parts h.1).map (fun p => (c.dstLocal, c.dst + BitVec.ofNat 64 (p.1 * c.dpitch + p.2.1), p.2.2)))
  | .direct d =>
    if d.gather || !(whole || works) then []
    else (lanes (d.active &&& ~~~d.done)).filterMap (fun l => match d.cls l with
      | .access ea => if !whole && d.faulted.any (fun f => f.1 == l) then none
          else
            let k := if bit d.lower l then lowerLen ea d.es else 0
            some (false, plus ea k, d.es - k)
      | _ => none)
  | .matrix _ (.accst base _ nrows pitch ty _ _ wide pad _ _ rows) =>
    (rangeFrom rows (if whole then nrows - rows else if works then min 1 (nrows - rows) else 0)).map
      (fun i => (false, plus base (i * pitch), 128 * accSize ty wide pad))
  | .quant q => if whole || works then ((qRanges q).filter (fun x => x.write)).map (fun x => (x.loc, x.addr, x.n)) else []
  | _ => []

/-- What a discarded operation may have been writing becomes undefined (R29, R367). -/
def spoil (whole : Bool) (s : State) (o : Op) : State :=
  let t := s.team o.team
  (opDests whole (engineWorks s o) o).foldl (fun s x =>
    if x.2.2 = 0 then s
    else if x.1 then
      let lo := localKey t.core (t.base + x.2.1.toNat)
      if x.2.1.toNat + x.2.2 ≤ t.size then s.undefRange lo (lo + x.2.2) else s
    else
      (pageParts (x.2.2 / 65536 + 2) x.2.1.toNat x.2.2).foldl (fun s p =>
        match translate s (s.ctx o.page).d p.1 .w with
        | .ok k _ _ _ => s.undefRange k (k + p.2)
        | _ => s) s) s

/-- The operations that f accepts are discarded. -/
def discardOps (s : State) (whole : Bool) (f : Op → Bool) : State :=
  let s := (s.ops.filter f).foldl (spoil whole) s
  { s with ops := s.ops.filter (fun o => !f o) }

/-- Every group and team that f accepts ends at once, with its operations and prefetches (R29, R367). -/
def killTeams (s : State) (whole : Bool) (f : Nat → Team → Bool) : State :=
  let ids := (s.teams.filter (fun t => f t.1 t.2)).map (fun t => t.1)
  let s := ids.foldl (flushTeam whole) s
  let s := discardOps s whole (fun o => ids.contains o.team)
  let s := { s with groups := s.groups.filter (fun g => !ids.contains g.2.team),
                    arrivals := s.arrivals.filter (fun a => !ids.contains a.slot.team) }
  sweepTeams (ids.foldl removeTeam s)

/-! ### Completion (R352, R364, R403) -/

/-- GWAITs on a launch of a context receive its status (R376). -/
def wakeGwait (s : State) (page : Nat) (lseq : Word) (status : Word) : State :=
  wake s (fun _ g w => match w with
    | .gwait q sd => if g.page == page && q == lseq then some (fun g => g.setS sd status) else none
    | _ => none)

/-- The live launches of the package (R351): not a rejected one, nor those of a terminated context, of which only counts are kept. -/
def liveLaunches (s : State) : Nat := (s.launches.filter (fun l => (s.ctx l.page).state != 6 && l.code != 4)).length

/-- A running context's ring holds a record that is not consumed. -/
def ringWaits (c : Ctx) : Bool := c.state == 2 && c.qhead != c.qtail

/-- The rings that waited while 4,096 launches were live resume in ascending page number once one completes (R415): those not resumed yet. -/
def noteStall (s : State) : State :=
  if liveLaunches s < 4096 then s
  else { s with sys := { s.sys with stalled := (s.ctxs.filter (fun c => ringWaits c.2)).map (fun c => c.1) } }

/-- A launch of another home has ended here: a credit request that comes late opens no new part of it (R390). -/
def noteEnded (s : State) (page : Nat) (lseq : Word) (home : Nat) : State :=
  if home = s.pkg || s.link.ended.contains (page, lseq, home) then s
  else { s with link := { s.link with ended := (page, lseq, home) :: s.link.ended } }

/-- A launch leaves the table; at its home its status joins the context's last 4,096 and its GWAITs end (R352, R376). `report` is
what PODFLT reads, `map` the faulting packages. -/
def closeLaunch (s : State) (lid : Nat) (status : Word) (report map : List Nat) : State :=
  match launchOf s lid with
  | none => s
  | some l =>
    let s := noteStall s
    let s := { s with launches := s.launches.filter (fun x => x.lid != lid),
                      formed := s.formed.filter (fun f => f.lid != lid) }
    if l.home != s.pkg then noteEnded s l.page l.lseq l.home
    else
      let c := s.ctx l.page
      wakeGwait (s.setCtx l.page { c with closed := ((l.lseq, status, report, map) :: c.closed).take 4096 }) l.page l.lseq status

/-- Part n of the final report (R404). -/
def finalPart (s : State) (page : Nat) (lseq : Word) (home n : Nat) (b : List Byte) : Envelope :=
  { control s page 0x0A lseq home with arg0 := BitVec.ofNat 32 n, payload := (b ++ List.replicate 128 0).take 128 }

/-- The packages that hold a part of a launch without pod scope are told that it has ended, so that its credits lapse (R390). -/
def endElsewhere (s : State) (l : Launch) : State :=
  if l.r.pod then s
  else
    let to_ := if l.sent != 0 then (s.ctx l.page).members.filter (fun p => p != s.pkg) else dedup l.lent
    to_.foldl (fun s p => sendEnv s p 0 (finalPart s l.page l.lseq l.home 0 [])) s

/-- The bytes that a launch's completion writes: CPL's 64, and 448 more for pod scope (R352, R403). -/
def cplSize (l : Launch) : Nat := if l.r.pod then 512 else 64

/-- The stash lines that a completion record concerns have given way: false while one has to wait (R183, R352). -/
def cplClear (s : State) (l : Launch) : Bool × State :=
  if l.r.cpl = 0 then (true, s) else dispClear s (s.ctx l.page).d l.r.cpl (cplSize l)

/-- A launch completes by this package's own values: the completion record, then the status (R352, R426). One of pod scope that ends
here, because its home rejects it, terminates or loses the pod root, reports what this package knows (R403, R416). The packages with a part of it end that. -/
def finishLaunch (s : State) (lid : Nat) : State :=
  match launchOf s lid with
  | none => s
  | some l =>
    let st := statusWord (if l.code = 0 then 1 else l.code) l.reason l.fcode
    let d := (s.ctx l.page).d
    let root := s.link.roots.find? (fun r => r.page == l.page && r.lseq == l.lseq && r.home == l.home)
    let dealt := (root.map (fun r => r.dealt)).getD []
    let done := (root.map (fun r => r.done)).getD []
    let fp := if l.fcount = 0 then [] else [l.fpkg]
    let s := if l.r.cpl = 0 then s else
      let s := if l.r.pod then dispWrite s d (l.r.cpl + 64) (podReport l.rlen dealt done fp) else s
      dispWrite s d l.r.cpl (cplHead l st ++
        (if l.r.pod then cplPod (l.pseq.getD 0) l.podroot l.nr dealt.length done.length fp.length else leBytes 28 0))
    closeLaunch (endElsewhere s l) lid st [l.fcode.toNat, l.fpkg, l.fnode, sat32 l.fcount, natOf (l.fcount != 0)] (if l.fcount = 0 then [] else [l.fpkg])

/-! ### Cancels (R365 to R367, R402) -/

/-- Waiting reservations of a launch are all granted: EMITs that wait for them go on. -/
def wakeEmits (s : State) (rids : List Nat) : State :=
  { s with groups := s.groups.map (fun p =>
      let f (fr : Option Frag) : Option Frag := fr.map (fun x => match x.wait with
        | some (.emit l) =>
          let l := l.filter (fun r => !rids.contains r)
          { x with wait := if l.isEmpty then none else some (.emit l) }
        | _ => x)
      let hw := match p.2.h.wait with
        | some (.emit l) =>
          let l := l.filter (fun r => !rids.contains r)
          if l.isEmpty then none else some (.emit l)
        | w => w
      (p.1, { p.2 with slot0 := f p.2.slot0, slot1 := f p.2.slot1, h := { p.2.h with wait := hw } })) }

/-- PODBAR waiters of a launch end with failure (R402, R405). -/
def failPodbars (s : State) (lid : Nat) : State :=
  wake s (fun _ _ w => match w with
    | .podbar l _ _ pd lanes => if l == lid then some (fun g => g.setP pd lanes 0) else none
    | .podtok _ l _ arv dst lanes =>
      if l == lid then some (fun g => if arv then g.setS dst 0x80000000 else g.setP dst lanes 0) else none
    | _ => none)

/-- The queue part of a cancel: pending and waiting records, and initial records not yet entered, are discarded and counted in
DROPPED; teams formed and not yet dispatched give their records up as pending ones (R366). -/
def dropRecords (s : State) (lid : Nat) (hard : Bool) : State :=
  match launchOf s lid with
  | none => s
  | some l =>
    let real := l.q.filter (fun r => r.empty.isNone)
    let fm := s.formed.filter (fun f => f.lid == lid && (l.g.node f.node).kind != 2)
    let nf := (fm.map (fun f => (f.seeds.map (fun x => x.recs.length)).sum)).sum
    let n := real.length + l.rq.length + nf + (l.r.nrec.toNat - l.init)
    let rids := (l.q.map (fun r => r.rid)) ++ l.rq.map (fun r => r.rid)
    let s := modLaunch s lid (fun l => { l with q := [], rq := [], grids := if hard then [] else l.grids, init := l.r.nrec.toNat,
                                                dropped := l.dropped + n, spilluse := 0, credits := [], asked := [] })
    let s := { s with formed := s.formed.filter (fun f => f.lid != lid || (!hard && (l.g.node f.node).kind == 2)) }
    wakeEmits s rids

/-- An operation changed. -/
def modOp (s : State) (id : Nat) (f : Op → Op) : State := { s with ops := mapIf (fun o => o.id == id) f s.ops }

/-- Envelopes that waited behind 256 unacknowledged ones are transmitted: at most `fuel` (R386). -/
def drainBacklog : Nat → Nat → BitVec 16 → State → State
  | 0, _, _, s => s
  | f + 1, dst, podctx, s =>
    let t := txOf s dst podctx
    match t.backlog with
    | [] => s
    | (e, lid, op) :: l =>
      if 256 ≤ t.kept.length then s
      else
        let s := transmit (setTx s { t with backlog := l }) dst lid e
        let s := if op = 0 then s else modOp s op (fun o => match o.kind with
          | .link w => { o with kind := .link (w ++ [(dst, t.next)]) }
          | _ => o)
        drainBacklog f dst podctx s

/-- Every stream's backlog moves on as far as it can (R386). -/
def drainAllTx (s : State) : State := s.link.tx.foldl (fun s t => drainBacklog (t.backlog.length + 1) t.dst t.podctx s) s

/-- The records of a launch that are retained or wait to be transmitted are dropped, and what waited behind them moves on (R386, R402). -/
def dropRetained (s : State) (lid : Nat) : State :=
  drainAllTx { s with
    link := { s.link with tx := s.link.tx.map (fun t =>
      { t with kept := t.kept.filter (fun r => !(r.lid == lid && r.e.etype == 1)),
               backlog := t.backlog.filter (fun b => !(b.2.1 == lid && b.1.etype == 1)) }) },
    ops := s.ops.map (fun o => match o.kind with
      | .link _ => if (s.team o.team).lid == lid then { o with kind := .link [] } else o
      | _ => o) }

/-- Link operations all of whose records have been acknowledged or dropped, and that wait for no credit, are complete (R391). -/
def settleLinks (s : State) : State :=
  { s with ops := s.ops.map (fun o => match o.kind with
      | .link [] =>
        if s.launches.any (fun l => l.rq.any (fun r => r.op == o.id)) || s.link.tx.any (fun t => t.backlog.any (fun b => b.2.2 == o.id)) then o
        else { o with todo := [], ripe := o.ripe ++ o.todo }
      | _ => o) }

/-- Every envelope of the wave root's stream up to the latest has been taken, so that no DEAL or CANCEL is on its way before a WAVE that has
come (R399). -/
def streamWhole (s : State) (l : Launch) : Bool :=
  waveRootOf s l == s.pkg || !s.link.rx.any (fun r => r.src == waveRootOf s l && r.podctx == (s.ctx l.page).d.podctx && r.win != 0)

/-- The package has no more work of a launch (R364, R399): no record pending or waiting, no team formed, running or to come, nothing
retained, no child of its own that lives, no DEAL or CANCEL missing. -/
def quiescent (s : State) (l : Launch) : Bool :=
  l.phase == 1 && streamWhole s l && l.q.all (fun r => r.empty.isSome) && l.rq.isEmpty && l.grids.isEmpty &&
  (l.r.nrec.toNat ≤ l.init || l.home != s.pkg || l.r.pod) &&
  !s.formed.any (fun f => f.lid == l.lid) && !s.teams.any (fun t => t.2.lid == l.lid && !t.2.ended) &&
  !s.launches.any (fun x => x.parent == some l.lid) &&
  !s.link.tx.any (fun t => t.kept.any (fun r => r.lid == l.lid && r.e.etype == 1) ||
    t.backlog.any (fun b => b.2.1 == l.lid && b.1.etype == 1))

/-- A launch that this package alone runs has met the conditions of completion (R364, R375). -/
def metEnd (s : State) (l : Launch) : Bool := l.home == s.pkg && !byWaves l && quiescent s l

/-- A cancel of one launch on this package (R366, R367): none of one that is complete (R375). FCODE stays the package's first Launch fault, when there
is one (R401). That of a launch of pod scope which has not started here is held (R396). -/
def cancelOne (s : State) (lid : Nat) (hard : Bool) : State :=
  match launchOf s lid with
  | none => s
  | some l =>
    if 2 ≤ l.cancel || (1 ≤ l.cancel && !hard) || metEnd s l then s
    else if l.phase == 0 && l.r.pod then modLaunch s lid (fun l => { l with held := max l.held (if hard then 2 else 1) })
    else
      let s := failPodbars (dropRecords s lid hard) lid
      let s := modLaunch s lid (fun l =>
        { l with cancel := if hard then 2 else 1, code := if hard then 3 else 2,
                 fcode := if l.fcount != 0 then l.fcode else 0x9051 })
      let s := if hard then killTeams s true (fun _ t => t.lid == lid) else s
      let s := settleLinks (if hard then dropRetained s lid else s)
      if l.phase != 0 then s else finishLaunch s lid

/-- The live descendants of a launch, itself first: `fuel` levels (R365). -/
def descendants (s : State) : Nat → List Nat → List Nat
  | 0, _ => []
  | f + 1, ids =>
    if ids.isEmpty then []
    else ids ++ descendants s f ((s.launches.filter (fun l => match l.parent with
      | some p => ids.contains p
      | none => false)).map (fun l => l.lid))

/-- A cancel of a launch and of its live children (R365): a pod-scope launch goes through the pod root (R402). -/
def cancelLaunch (s : State) (lid : Nat) (hard : Bool) : State :=
  (descendants s 33 [lid]).foldl (fun s i =>
    match launchOf s i with
    | none => s
    | some l =>
      if l.r.pod then
        sendEnv s (s.link.root.getD s.pkg) i { control s l.page 0x07 l.lseq l.home with arg0 := if hard then 1 else 0 }
      else if l.sent != 0 || !l.lent.isEmpty then
        -- every member is told by the wave root, this package
        (((s.ctx l.page).members.filter (fun p => p != s.pkg)).foldl (fun s p =>
          sendEnv s p i { control s l.page 0x07 l.lseq l.home with arg0 := if hard then 1 else 0 }) (cancelOne s i hard))
      else cancelOne s i hard) s

/-- A fault of disposition Launch (R27, R401): counted, the first one kept, and sent to the wave root, whose first fault starts a
hard cancel. -/
def launchFault (s : State) (lid : Nat) (code : BitVec 16) (node : Nat) : State :=
  match launchOf s lid with
  | none => s
  | some l =>
    let s := modLaunch s lid (fun l =>
      if l.fcount = 0 then { l with fcount := 1, fcode := code, fnode := node, fpkg := s.pkg } else { l with fcount := l.fcount + 1 })
    if byWaves l || l.home != s.pkg then
      sendEnv s (waveRootOf s l) lid { control s l.page 0x06 l.lseq l.home with arg0 := code.setWidth 32, node := BitVec.ofNat 12 node }
    else cancelLaunch s lid true

/-! ### The end of a context (R29, R416, R427) -/

/-- A launch of a terminating context ends (R416). Of one with another home the package keeps only the counts and its first Launch fault, for its replies
to the waves (R400, R401), until FINAL or UNLOAD. -/
def abortLaunch (s : State) (fcode : BitVec 16) (lid : Nat) : State :=
  match launchOf s lid with
  | none => s
  | some l =>
    let s := dropRecords s lid true
    let s := dropRetained (modLaunch s lid (fun l =>
      { l with code := 3, fcode := if l.home != s.pkg && l.fcount != 0 then l.fcode else fcode, cancel := 2, phase := 1 })) lid
    let s := if l.r.pod then
        sendEnv s (s.link.root.getD s.pkg) lid { control s l.page 0x07 l.lseq l.home with arg0 := 1 }
      else s
    if l.home = s.pkg then finishLaunch s lid else modLaunch s lid (fun l => { l with g := { root := 0, types := [], nodes := [] } })

/-- A context ends: its groups, operations and launches, then the terminal record, then STATE 6 (R29, R416, R427). -/
def endContext (s : State) (page : Nat) (r : FRec) : State :=
  let s := s.setCtx page { s.ctx page with doom := none }
  let s := killTeams s false (fun _ t => t.page == page)
  let s := discardOps s false (fun o => o.page == page)
  let s := { s with pfx := s.pfx.filter (fun p => p.page != page) }
  let s := (s.launches.filter (fun l => l.page == page)).foldl (fun s l => abortLaunch s r.code l.lid) s
  let c := s.ctx page
  let s := match c.block with
    | some b => s.sysPut c.d.wddiag.toNat (leBytes 4 c.seq.toNat ++ b)
    | none => s
  let s := (postRec s page r).2
  s.setCtx page { s.ctx page with state := 6, waiting := [], doom := none, block := none }

/-- Every termination this step decided. -/
def settleDoom (s : State) : State :=
  s.ctxs.foldl (fun s c => match c.2.doom with
    | some r => endContext s c.1 r
    | none => s) s

/-- The end of a step: terminations are carried out, and an access to absent device memory stops the machine. -/
def finish (s : State) : Host.Outcome State Fault Refusal :=
  let s := if s.ctxs.any (fun c => c.2.doom.isSome) then settleDoom s else s
  if s.absent then .fault .absentDeviceMemory else .next s

end Sys2Proof.Machine
end

