-- ==== Sys2Proof/Machine/Ops.lean ====
section
/-! DEFINITION. The named operations over groups: registers as R50 reads them, pending writes, the operand buffer (R55), taking a
fault in each of its dispositions (R27, R129, R215), returning from one (R131), and the shared way every instruction issues (R65). -/
namespace Sys2Proof.Machine

/-! ### Fragments -/

/-- The fragment of a slot. -/
def Group.frag (g : Group) (slot : Nat) : Option Frag := if slot = 0 then g.slot0 else g.slot1
/-- A slot's fragment replaced. -/
def Group.setFrag (g : Group) (slot : Nat) (f : Option Frag) : Group := if slot = 0 then { g with slot0 := f } else { g with slot1 := f }
/-- A slot's fragment changed. -/
def Group.modFrag (g : Group) (slot : Nat) (u : Frag → Frag) : Group := g.setFrag slot ((g.frag slot).map u)

/-- A fragment may issue: no wait, no park, no yield-wait, not held by a handler, its context running (R127, R129). A yield-wait that a handler
interrupted is set aside with the handler's registers. -/
def mayIssue (s : State) (g : Group) (f : Frag) : Bool :=
  !g.ended && g.park.isNone && g.yw.isNone && f.wait.isNone && (g.h.slot.isNone || f.sup) && (s.ctx g.page).state == 2

/-! ### Registers (R50, R53) -/

/-- A value with a group's pending writes over it, in issue order: those of the reading slot only once the issue distance covers
their latency, those of the other slot always (R50, R53). -/
def overlay (pend : List PWrite) (slot : Nat) (r : RegName) (lane : Nat) (committed : Word) : Word :=
  pend.foldl (fun v w =>
    if w.reg == r && (w.slot != slot || w.lat ≤ w.dist) then (ffind w.vals lane).getD v else v) committed

/-- A lane of a v-register as a slot reads it. -/
def Group.rv (g : Group) (slot n lane : Nat) : Word := overlay g.pend slot (.v n) lane (fget g.v (32 * n + lane) 0)
/-- An s-register. -/
def Group.rs (g : Group) (slot n : Nat) : Word := overlay g.pend slot (.s n) 0 (fget g.s n 0)
/-- A lane of a predicate; p7 is true (R46). -/
def Group.rp (g : Group) (slot n lane : Nat) : Bool :=
  n == 7 || overlay g.pend slot (.p n) lane (if bit (fget g.p n 0) lane then 1 else 0) != 0
/-- A uniform predicate; k3 is true. -/
def Group.rk (g : Group) (slot n : Nat) : Bool := n == 3 || overlay g.pend slot (.k n) 0 (fget g.k n 0) != 0
/-- A predicate of every lane. -/
def Group.rpm (g : Group) (slot n : Nat) : Mask := maskOf (fun l => g.rp slot n l)
/-- A 64-bit operand of a lane: the low half in the even register (R59). -/
def Group.rv64 (g : Group) (slot n lane : Nat) : DWord := cat (g.rv slot (n + 1) lane) (g.rv slot n lane)
/-- A 64-bit uniform operand. -/
def Group.rs64 (g : Group) (slot n : Nat) : DWord := cat (g.rs slot (n + 1)) (g.rs slot n)

/-- A lane of a register written for good. -/
def Group.commit (g : Group) (r : RegName) (lane : Nat) (v : Word) : Group :=
  match r with
  | .v n => g.setV n lane v
  | .s n => g.setS n v
  | .p n => g.setP n (setBit 0 lane true) (if v = 0 then 0 else allLanes)
  | .k n => g.setK n (v != 0)

/-- Every lane of a pending write committed. -/
def Group.commitW (g : Group) (w : PWrite) : Group := w.vals.foldl (fun g x => g.commit w.reg x.1 x.2) g

/-- The pending writes that f does not accept, without the lanes that a younger accepted write to the register has: an older write
that completes later is discarded (R50). -/
def outlasting (f : PWrite → Bool) : List PWrite → List PWrite
  | [] => []
  | w :: l =>
    if f w then outlasting f l
    else { w with vals := w.vals.filter (fun x => !l.any (fun d => f d && d.reg == w.reg && d.vals.any (fun y => y.1 == x.1))) } ::
      outlasting f l

/-- Pending writes that f accepts are committed, in issue order, and dropped. -/
def Group.drain (g : Group) (f : PWrite → Bool) : Group :=
  let g' := (g.pend.filter f).foldl Group.commitW g
  { g' with pend := outlasting f g.pend }

/-- The flags of several pending updates. -/
def pendFlags (l : List PFlag) : Flags := l.foldl (fun a x => a ||| x.flags) 0

/-- The flag updates that f accepts are made (R85). -/
def Group.mergeFlags (g : Group) (f : PFlag → Bool) : Group :=
  { g with fstat := g.fstat ||| pendFlags (g.pfl.filter f), pfl := g.pfl.filter (fun x => !f x) }

/-- The flag updates of a slot's instructions are made: what a read of FSTAT by its fragment waits for (R85). -/
def Group.settleFlags (g : Group) (slot : Nat) : Group := g.mergeFlags (fun x => x.slot == slot)

/-- All pending fixed-latency writes are completed, and the flag updates that come with them (R51, R85; log 25). -/
def Group.drainAll (g : Group) : Group := { (g.pend.foldl Group.commitW g).mergeFlags (fun _ => true) with pend := [] }

/-- A drain point of the whole group: its writes completed, its operand buffers empty (R51, R55; log 25). -/
def Group.drainPoint (g : Group) : Group :=
  let g := g.drainAll
  let off := fun (f : Option Frag) => f.map (fun (x : Frag) => { x with buf := none })
  { g with slot0 := off g.slot0, slot1 := off g.slot1 }

/-- Writes whose latency the distance covers are committed, where no older pending write to the register remains. -/
def settlePend (g : Group) : List PWrite → List PWrite → Group
  | kept, [] => { g with pend := kept }
  | kept, w :: l =>
    if w.lat ≤ w.dist && kept.all (fun k => k.reg != w.reg) then settlePend (g.commitW w) kept l else settlePend g (kept ++ [w]) l

/-- The issue distance of a slot's pending writes grows by an instruction's 1 + ST (R50); flags come with their instruction's result (R85). -/
def Group.travel (g : Group) (slot d : Nat) : Group :=
  let g := { g with pfl := g.pfl.map (fun x => if x.slot == slot then { x with dist := x.dist + d } else x) }
  (settlePend g [] (g.pend.map (fun w => if w.slot == slot then { w with dist := w.dist + d } else w))).mergeFlags (fun x => decide (x.lat ≤ x.dist))

/-- A lane's older pending writes to a register are discarded: a younger write has taken its place (R50). -/
def Group.forget (g : Group) (r : RegName) (lanes : List Nat) : Group :=
  { g with pend := g.pend.map (fun w => if w.reg == r then { w with vals := w.vals.filter (fun x => !lanes.contains x.1) } else w) }

/-- A variable-latency write that has arrived: written now, older pending writes of its lanes discarded. -/
def Group.arrive (g : Group) (r : RegName) (vals : List (Nat × Word)) : Group :=
  vals.foldl (fun g x => g.commit r x.1 x.2) (g.forget r (vals.map (fun x => x.1)))

/-- A slot's pending writes to a register are completed in some lanes: a later write of those lanes has no fixed latency. -/
def Group.ripen (g : Group) (slot : Nat) (r : RegName) (m : Mask) : Group :=
  let mine := fun (w : PWrite) => w.slot == slot && w.reg == r
  let g' := (g.pend.filter mine).foldl (fun g w => (w.vals.filter (fun x => bit m x.1)).foldl (fun g x => g.commit r x.1 x.2) g) g
  { g' with pend := g.pend.map (fun w => if mine w then { w with vals := w.vals.filter (fun x => !bit m x.1) } else w) }

/-- A register write of an instruction: pending with its latency, or at once when the latency is variable (0) (R49).
Writes to p7 and k3 are ignored (R59). -/
def Group.write (g : Group) (slot : Nat) (r : RegName) (vals : List (Nat × Word)) (lat : Nat) : Group :=
  if vals.isEmpty || r == .p 7 || r == .k 3 then g
  else if lat = 0 then g.arrive r vals
  else { g with pend := g.pend ++ [{ slot := slot, reg := r, vals := vals, lat := lat, dist := 0 }] }

/-- The latency of an instruction's result: that of its first destination. -/
def latOf (dst : List (RegName × Nat)) : Nat := (dst.head?.map (fun x => x.2)).getD 0

/-- FSTAT gathers the flags of an instruction when its result is written: pending with its latency, or at once when that is variable (0) (R85). -/
def Group.flags (g : Group) (slot lat : Nat) (f : Flags) : Group :=
  if lat = 0 then { g with fstat := g.fstat ||| f } else { g with pfl := g.pfl ++ [{ slot := slot, flags := f, lat := lat, dist := 0 }] }

/-! ### Outstanding engine writes (R49, R280) -/

/-- Registers an operation has still to write (R280, R307): an ACCRD's until it has written them, those of an AGATH until it retires;
without those of which a younger write has taken every lane. -/
def opWrites (o : Op) : List RegName :=
  match o.kind with
  | .matrix _ (.accrd vd _ _ _ ty _ _ wide) => if o.todo.isEmpty then [] else (rangeFrom vd (accRegs ty wide)).map .v
  | .direct d =>
    if !d.gather then []
    else
      (((rangeFrom d.vd (sizeRegs d.size)).filter (fun n => d.active &&& ~~~(fget d.vskip n 0) != 0)).map .v) ++
      (if d.okp = 7 || d.active &&& ~~~d.oskip = 0 then [] else [.p d.okp])
  | _ => []

/-- Those that a read must wait for: not an AGATH's while it is stopped at a fault (R49, R280). -/
def opRegs (o : Op) : List RegName :=
  match o.kind with
  | .direct _ => if o.stop.isSome then [] else opWrites o
  | _ => opWrites o

/-- Registers of a group that engine operations have still to write. -/
def pendingRegs (s : State) (place : Nat) : List RegName := (s.ops.filter (fun o => o.place == place)).flatMap opWrites

/-- Those of them that a read must wait for. -/
def busyRegs (s : State) (place : Nat) : List RegName := (s.ops.filter (fun o => o.place == place)).flatMap opRegs

/-- Registers that a waiting instruction writes when its wait ends (R49). -/
def waitRegs (s : State) (g : Group) : Wait → List RegName
  | .gwait _ sd => [.s sd]
  | .podqry _ sd => [.s sd]
  | .podtok _ _ _ arv dst _ => [if arv then .s dst else .p dst]
  | .bar _ _ pd _ => [.p pd]
  | .podbar _ _ _ pd _ => [.p pd]
  | .appop snum _ vd okp fltp _ _ =>
    (rangeFrom vd (sizeRegs (((ffind (s.team g.team).streams snum).map (fun x => x.size)).getD 4))).map .v ++ [.p okp, .p fltp]
  | _ => []

/-- Uniform registers are shared by both fragments (R53). -/
def RegName.uniform : RegName → Bool
  | .s _ => true
  | .k _ => true
  | _ => false

/-- Registers that waiting instructions of the other fragment have still to write, and in a handler the wait that it interrupted. -/
def waitWrites (s : State) (g : Group) (slot : Nat) : List RegName × List RegName :=
  let of := fun (w : Option Wait) => ((w.map (waitRegs s g)).getD []).filter (fun r => r != .p 7)
  (of ((g.frag (1 - slot)).bind (fun f => f.wait)), of g.h.wait)

/-- Those for which every read of a slot waits: the other fragment's of uniform registers (R53), and the interrupted wait's. -/
def waitBusy (s : State) (g : Group) (slot : Nat) : List RegName :=
  (waitWrites s g slot).1.filter RegName.uniform ++ (waitWrites s g slot).2

/-! ### Faults -/

/-- A fault without an access. -/
def FaultInfo.plain (code : BitVec 16) (mask : Mask) : FaultInfo :=
  { code := code, mask := mask, addr := 0, kind := kNone, first := false, det := [] }

/-- The four dispositions of R27. -/
inductive Disp where
  | handler | park | launch | terminate
  deriving DecidableEq, Repr

/-- The HNDEN bit of a cause (R113). -/
def hndBit (cause : Nat) : Option Nat :=
  if 1 ≤ cause && cause ≤ 9 then some cause
  else if cause = cAlign then some 10
  else if cause = cOutMismatch then some 11
  else if cause = cOutOverflow then some 12
  else if cause = cRecursion then some 13
  else if cause = cBarBusy then some 14
  else if 0x800 ≤ cause then some 15
  else none

/-- The disposition of a fault in a context (R27). -/
def dispOf (d : Desc) (code : BitVec 16) (first : Bool) : Disp :=
  let c := causeOf code
  match hndBit c with
  | some b => if bit d.hnden b then .handler else .terminate
  | none =>
    if c = cAbsent then (if first then .handler else .park)
    else if c = cProt then .park
    else if c = cQueueOverflow || c = cUnreachable then .launch
    else .terminate

/-- The page that tells parts apart (R215): the mapped page; where no leaf maps it, in local memory and outside the translated region the 64 KiB
block of the address (DESIGN CHOICE, log 153). -/
def pageKey (s : State) (d : Desc) (addr : DWord) : Nat × Nat :=
  match walk s d addr.toNat with
  | .leaf lv _ _ => if inTranslated addr 1 then (lv, addr.toNat / 2 ^ levelShift lv) else (0, addr.toNat / 65536)
  | _ => (0, addr.toNat / 65536)

/-- Faults of one cause in one page joined: the address is that of the lowest lane (R215, R216). -/
def joinParts (s : State) (d : Desc) (fs : List FaultInfo) : List FaultInfo :=
  let low (f : FaultInfo) : Nat := ffs f.mask
  let fs := sortBy (fun a b => decide (low a ≤ low b)) fs
  fs.foldl (fun acc f =>
    if acc.any (fun a => a.code == f.code && pageKey s d a.addr == pageKey s d f.addr) then
      mapIf (fun a => a.code == f.code && pageKey s d a.addr == pageKey s d f.addr) (fun a => { a with mask := a.mask ||| f.mask }) acc
    else acc ++ [f]) []

/-- The records of a parked group's parts, by ticket (R215). -/
def postParts (s : State) (page place : Nat) (pc : DWord) (op : Option Nat) (parts : List FaultInfo) : List Nat × State :=
  let d := (s.ctx page).d
  let n := parts.length
  ((List.range n).zip parts).foldl (fun (acc : List Nat × State) x =>
    let f := x.2
    let fill := isCfill s d f.code f.addr
    let r : FRec := { recOf acc.2 place pc with
               code := f.code, kind := f.kind, va := f.addr, mask := f.mask, parts := n, part := x.1 + 1,
               flags := (if x.1 + 1 = n then flLast else 0) ||| (if fill then flCfill else 0),
               d0 := f.det.getD 0 0, d1 := f.det.getD 1 0, d2 := f.det.getD 2 0, d3 := f.det.getD 3 0 }
    let (t, s) := postWaiting acc.2 page r fill (some place) op none
    (acc.1 ++ [t], s)) ([], s)

/-- A group's context ends by a fault of its own (R427). -/
def doomGroup (s : State) (place : Nat) (pc : DWord) (f : FaultInfo) : State :=
  doom s (s.group place).page { recOf s place pc with code := f.code, kind := f.kind, mask := f.mask, va := f.addr }

/-- The lanes of several faults. -/
def lanesOf (fs : List FaultInfo) : Mask := fs.foldl (fun m f => m ||| f.mask) 0

/-- The cycle counter of the core of a group. -/
def nowAt (s : State) (place : Nat) : Nat := s.clkOf (s.group place).core

/-! ### Where an asynchronous fault is delivered (R28, R289, R323) -/

/-- The slot whose fragment holds the lowest of some lanes (R289). -/
def slotHolding (g : Group) (m : Mask) : Option Nat :=
  [0, 1].find? (fun n => match g.frag n with
    | some f => m != 0 && bit f.mask (ffs m)
    | none => false)

/-- A collective operation: its faults go to all 32 lanes (R24, R28). -/
def Op.collective (o : Op) : Bool :=
  match o.kind with
  | .direct _ => false
  | _ => true

/-- The disposition of a fault of an accepted operation: a lane that has exited takes Park, unless the fault ends the context by itself (R289). -/
def asyncDisp (d : Desc) (live : Mask) (f : FaultInfo) : Disp :=
  if f.mask != 0 && f.mask &&& live = 0 && causeOf f.code != cEngine then .park else dispOf d f.code f.first

/-- The lanes of an operation's faults that the handler gets: for a collective operation all 32. -/
def handlerLanes (d : Desc) (live : Mask) (o : Op) (st : Stop) (code : BitVec 16) : Mask :=
  if o.collective then allLanes
  else lanesOf (st.faults.filter (fun x => asyncDisp d live x == .handler && x.code == code)) &&& live

/-- The slot in which a handler for an operation's fault runs: that of the fragment with the lowest faulting lane; for a collective
operation that with the lowest live lane, whatever fragment that is (log 125). -/
def handlerSlot (g : Group) (o : Op) (m : Mask) : Option Nat :=
  if o.collective then slotHolding g (((g.frag 0).map (fun f => f.mask)).getD 0 ||| ((g.frag 1).map (fun f => f.mask)).getD 0)
  else slotHolding g m

/-- Whether a group is at a boundary at which an asynchronous fault can be delivered; a context that is halting delivers it first (R33). -/
def atBoundary (s : State) (g : Group) : Bool :=
  !g.ended && g.park.isNone && g.h.slot.isNone && ((s.ctx g.page).state == 2 || (s.ctx g.page).state == 3)

/-- To which fragments a stopped operation's fault can be delivered now: the whole group's (`some none`), one slot's, or none yet. -/
def deliverTo (s : State) (o : Op) (st : Stop) : Option (Option Nat) :=
  let g := s.group o.place
  let d := (s.ctx o.page).d
  let live := ~~~g.exited
  if st.sent || !atBoundary s g then none
  else if st.faults.any (fun f => asyncDisp d live f == .terminate || asyncDisp d live f == .launch) then some none
  else match st.faults.find? (fun f => asyncDisp d live f == .handler) with
    | none => some none
    | some f => match handlerSlot g o (handlerLanes d live o st f.code) with
      | none => none
      | some slot => match g.frag slot with
        | none => none
        | some x => if x.only.isSome then none else some (if o.collective then none else some slot)

/-- The stream of a team. -/
def streamAt (s : State) (tid snum : Nat) : Option Stream := ffind (s.team tid).streams snum

/-- The faults that hold an entry, with the DONE mask and the unfinished positions as they are now (R291). -/
def SEntry.heldFaults (e : SEntry) : List FaultInfo :=
  e.held.map (fun h => { h.2.1 with det := [h.2.1.det.getD 0 0, e.del, ~~~e.del, h.2.1.det.getD 3 0] })

/-- An APPOP of a slot that waits for a held entry (R290): the slot, the wait and what holds the entry. -/
def heldPopIn (s : State) (g : Group) (slot : Nat) : Option (Nat × Nat × Nat × Mask × List FaultInfo) :=
  match (g.frag slot).bind (fun f => f.wait) with
  | some (.appop snum entry _ _ _ m _) => (streamAt s g.team snum).bind (fun x =>
      if x.state != 2 then none
      else (x.entries.find? (fun e => e.n == entry && !e.held.isEmpty)).map (fun e => (slot, snum, entry, m, e.heldFaults)))
  | _ => none

/-- An APPOP of a group that waits for a held entry, whose fault can reach it now: at a boundary, or in the running handler (R130, R290). -/
def heldPop (s : State) (g : Group) : Option (Nat × Nat × Nat × Mask × List FaultInfo) :=
  if atBoundary s g then firstSome (heldPopIn s g) [0, 1]
  else if g.ended || g.park.isSome || !((s.ctx g.page).state == 2 || (s.ctx g.page).state == 3) then none
  else g.h.slot.bind (heldPopIn s g)

/-- The lowest class of the asynchronous faults that wait at a fragment's next boundary: those of accepted operations, and that of a stream, of class
6, whose APPOP waits in the group (R28, R30, R290). -/
def asyncDue (s : State) (place slot : Nat) : Option Nat :=
  minBy id (s.ops.filterMap (fun o => match o.stop with
    | some st => if o.place == place && (match deliverTo s o st with
        | some t => t.all (fun n => n == slot)
        | none => false) then some (classOf o.op) else none
    | none => none) ++ (if (heldPop s (s.group place)).isSome then [6] else []))

/-! ### Issues and faults of instructions -/

/-- What an instruction knows of its issue: the fragment, its PC and the next one's, its lanes before and after the guard and
the replay limit, its mode, FMT and opcode. -/
structure Iss where
  place : Nat
  slot : Nat
  pc : DWord
  npc : DWord
  op : BitVec 8
  st : Nat
  fmt : BitVec 2
  mask : Mask
  /-- lanes of the guard -/
  full : Mask
  /-- lanes of the guard within the replay limit: the active lanes -/
  act : Mask
  sup : Bool
  deriving DecidableEq, Repr

/-- TAKING AN EXCEPTION (R129): the handler registers written, and the fragment sent to HNDBASE in supervisor mode with the
delivered lanes. `rest` are the other faulting lanes, `epc` and `replay` as R129 chooses them; `ready` is the first cycle in which the
handler may issue (R48). -/
def enterHandler (s : State) (place slot : Nat) (f : FaultInfo) (rest : Mask) (epc enpc : DWord) (replay : Bool) (ready : Nat) : State :=
  s.modGroup place (fun g =>
    let g := g.drainPoint
    match g.frag slot with
    | none => g
    | some x =>
      { g with h := { ecause := f.code, epc := epc, enpc := enpc, eaddr := f.addr, emask := f.mask, efrag := x.mask, erest := rest,
                      replay := replay, ersp := x.rsp, efmt := x.fmt, kind := f.kind, slot := some slot, wait := x.wait, waitAt := x.waitAt,
                      op := none, stream := none, entry := 0, yw := g.yw },
               yw := none }.setFrag slot
        (some { x with mask := f.mask, pc := (s.ctx g.page).d.hndbase, fmt := 0, sup := true, ready := max x.ready ready, buf := none,
                       only := none, wait := none, since := none, stalled := none }))

/-- RAISING FAULTS at an instruction (R27, R129, R130, R196, R215): any fault in supervisor mode, or of disposition Terminate,
ends the context; a Launch fault stops the group; lanes with the Handler disposition enter the handler first; the others park.
`undone` are active lanes that met no fault and have no effect either. The instruction has issued in this cycle (R104, R127). -/
def raiseFor (s : State) (c : Iss) (fs : List FaultInfo) (undone : Mask) : State :=
  let now := nowAt s c.place
  let s := s.modGroup c.place (fun g => g.modFrag c.slot (fun f => { f with last := now }))
  let g := s.group c.place
  let d := (s.ctx g.page).d
  let fs := sortBy (fun a b => decide (ffs a.mask ≤ ffs b.mask)) fs
  let disp (f : FaultInfo) : Disp := if c.sup then .terminate else dispOf d f.code f.first
  match fs.find? (fun f => disp f == .terminate) with
  | some f =>
    doomGroup s c.place c.pc { f with mask := lanesOf (fs.filter (fun x => x.code == f.code)) }
  | none =>
    match fs.find? (fun f => disp f == .launch) with
    | some f =>
      let s := s.modGroup c.place (fun g =>
        { g with park := some { tickets := [], dead := true, slot := c.slot, only := none, op := none, stream := none, svret := false } })
      launchFault s (s.team g.team).lid f.code (s.team g.team).node
    | none =>
      match fs.find? (fun f => disp f == .handler) with
      | some f =>
        let f := { f with mask := lanesOf (fs.filter (fun x => disp x == .handler && x.code == f.code)) }
        let all := lanesOf fs ||| undone
        let trap := decide (0x800 ≤ causeOf f.code)
        let done := c.full &&& ~~~all != 0
        enterHandler s c.place c.slot f ((if done then all else lanesOf fs) &&& ~~~f.mask) (if trap then c.npc else c.pc) c.npc
          (!trap && done) (nowAt s c.place + 1 + c.st)
      | none =>
        let (ts, s) := postParts s g.page c.place c.pc none (joinParts s d fs)
        let all := lanesOf fs ||| undone
        s.modGroup c.place (fun g =>
          { g.drainPoint.modFrag c.slot (fun x => { x with since := none, stalled := none }) with
            park := some { tickets := ts, dead := false, slot := c.slot, only := if all == c.full then none else some all, op := none,
                           stream := none, svret := false } })

/-- Faults of an instruction that has completed in its other active lanes. -/
def raise (s : State) (c : Iss) (fs : List FaultInfo) : State := raiseFor s c fs 0

/-- Faults in some lanes of an instruction that has then no effect in any lane (R121, R196, R279). -/
def raiseUndone (s : State) (c : Iss) (fs : List FaultInfo) : State := raiseFor s c fs (c.act &&& ~~~lanesOf fs)

/-- RETURNING FROM AN EXCEPTION (R131): the fragment gets back the lanes, FMT and mode of the interrupted one, and goes on at EPC;
under REPLAY the instruction there runs for the lanes served and left unfinished only. A yield-wait that the handler interrupted goes on;
of the fragment that yielded, its continuation is EPC (R28). -/
def leaveHandler (s : State) (place slot : Nat) : State :=
  s.modGroup place (fun g =>
    let h := g.h
    { g with h := { h with slot := none, wait := none, op := none, stream := none, kind := kNone, yw := none },
             yw := h.yw.map (fun (y : YWait) => if y.slot == slot then { y with pc := h.epc } else y) }.modFrag slot (fun x =>
      { x with mask := h.efrag, pc := h.epc, fmt := h.efmt, sup := false, wait := h.wait, waitAt := h.waitAt, buf := none, since := none, stalled := none,
               only := if h.replay then some ((h.emask ||| h.erest) &&& h.efrag) else none }))

/-! ### Issue (R47 to R55, R65) -/

/-- What an instruction's own effect answers. -/
inductive Eff where
  /-- the fragment goes on at the next instruction -/
  | go (s : State)
  /-- the effect has placed the fragments itself -/
  | own (s : State)
  /-- a resource is missing: the instruction has not issued and is tried again (R20); `s` differs from the state
  before only in what the map unit has done meanwhile -/
  | hold (s : State)
  /-- the same, for an operation slot (1), a stream context (2) of the core, or a counter of class k (16 + k) -/
  | holdFor (why : Nat) (s : State)
  /-- faults, beside the effect in the lanes that completed -/
  | trap (s : State) (fs : List FaultInfo)
  /-- faults in some lanes, and no effect in any -/
  | undone (s : State) (fs : List FaultInfo)
  /-- the same, with a fault PC of their own (R121) -/
  | undoneAt (pc : DWord) (s : State) (fs : List FaultInfo)
  /-- nothing issues: a fault of an accepted operation is delivered first (R28, R30) -/
  | stay (s : State)
  deriving Repr

/-- A v-register a field names lies within the allotment (R60). -/
def rangeOk (g : Group) (sh : Shape) : Bool :=
  (sh.src ++ sh.dst.map (fun x => x.1)).all (fun r => match r with
    | .v n => decide (n < g.allot)
    | _ => true)

/-- The team a slot field names (R244): the issuing team, or the team at a cluster position. A position whose team has ended, or has not been
dispatched, names none, for a slot and for the cluster window of R173 (DESIGN CHOICE, log 151). -/
def slotTeam (s : State) (tid : Nat) (cl : Bool) (cpos : Nat) : Option Nat :=
  if !cl then (if cpos = 0 then some tid else none)
  else
    let t := s.team tid
    match t.clu with
    | none => none
    | some c =>
      if t.cluh * t.cluw ≤ cpos then none
      else (s.teams.find? (fun u => !u.2.ended && u.2.clu == some c && u.2.row * u.2.cluw + u.2.col == cpos)).map (fun u => u.1)

/-- The slot a field names, when it lies within the grant (R231, R244). -/
def slotRef (s : State) (tid : Nat) (x : Nat × Bool × Nat) : Option SlotRef :=
  match slotTeam s tid x.2.1 x.2.2 with
  | some t => if x.1 < (s.team t).nslots then some { team := t, slot := x.1 } else none
  | none => none

/-- Reads of a PAIR per bank, registers served from the operand buffer left out (R58). -/
def pairBanks (f : Frag) (sh : Shape) : Bool :=
  let vs := dedup (sh.src.filterMap (fun r => match r with
    | .v n => if f.buf == some n then none else some n
    | _ => none))
  (List.range 4).all (fun b => decide ((vs.filter (fun n => n % 4 == b)).length ≤ 2))

/-- The slot field of an instruction names no slot of its team or cluster (R244). -/
def slotFault (s : State) (g : Group) (sh : Shape) : Bool :=
  match sh.slot with
  | some x => (slotRef s g.team x).isNone
  | none => false

/-- Step 5 of R65: the words, the grants, the operand buffer. -/
def formFault (s : State) (g : Group) (f : Frag) (sh : Shape) : Bool :=
  !sh.ok || sh.tiles.any (fun t => decide ((s.team g.team).ntiles ≤ t)) || slotFault s g sh || (sh.pair && !pairBanks f sh)

/-- The lanes against which a check at issue raises its fault: the fragment's (R65, R257); for the slot of a barrier instruction or a
wait the active ones, if any (R124, R244). -/
def issueMask (s : State) (g : Group) (c : Iss) (sh : Shape) : Mask :=
  if (classOf c.op == 0 || classOf c.op == 4) && sh.ok && slotFault s g sh && c.act != 0 then c.act else c.mask

/-- STALL_UNDERSIZED (R52). -/
def stallFault (s : State) (g : Group) (slot : Nat) (sh : Shape) : Bool :=
  (s.ctx g.page).d.stallchk && !sh.drain && g.pend.any (fun w => w.slot == slot && sh.src.contains w.reg && decide (w.dist < w.lat))

/-- The lanes of a guard (R46, R47): none for never, and for a uniform guard that reads false. -/
def guardMask (g : Group) (slot : Nat) (gd : BitVec 4) (uni : Bool) : Mask :=
  let neg := bit gd 3
  let n := (bits gd 0 3).toNat
  if n = 7 then (if neg then 0 else allLanes)
  else if uni then (if g.rk slot n != neg then allLanes else 0)
  else if neg then ~~~ g.rpm slot n else g.rpm slot n

/-- The operand buffer after an instruction (R55). -/
def bufAfter (g : Group) (busy : List RegName) (slot : Nat) (f : Frag) (sh : Shape) : Option Nat :=
  let held : Option Nat := if sh.holdSel = 0 then f.buf else
    match (sh.hold[sh.holdSel.toNat - 1]?).join with
    | some n =>
      if g.pend.any (fun w => w.slot == slot && w.reg == .v n && decide (w.dist < w.lat)) || busy.contains (.v n) then none else some n
    | none => f.buf
  if sh.drain then none
  else match held with
    | some n => if sh.dst.any (fun x => x.1 == .v n) then none else some n
    | none => none

/-- The class of a fault raised at issue by the sequencer's checks: that of the opcode (R62), and the sequencer's for its own. -/
def issueCode (op : BitVec 8) (cause : Nat) : BitVec 16 := codeOf (classOf op) cause

/-- The first fault of steps 5 to 9 of R65. -/
def issueFault (s : State) (g : Group) (f : Frag) (c : Iss) (sh : Shape) : Option Nat :=
  if formFault s g f sh then some cIllegalForm
  else if sh.priv && !f.sup then some cPriv
  else if !rangeOk g sh then some cRegRange
  else if stallFault s g c.slot sh then some cStall
  else if sh.coll && c.act != 0 && c.act != allLanes then some cConvergence
  else none

/-- Younger writes to registers of the AGATHs accepted before serial number `old` take their lanes (R280). -/
def supersede (s : State) (old place : Nat) (wv : List RegName) (act : Mask) : State :=
  if s.ops.isEmpty || wv.isEmpty || act = 0 then s
  else { s with ops := s.ops.map (fun o =>
    if o.place != place || old ≤ o.id then o
    else match o.kind with
      | .direct d =>
        if !d.gather then o
        else { o with kind := .direct { d with
          vskip := ((rangeFrom d.vd (sizeRegs d.size)).filter (fun n => wv.contains (.v n))).foldl
            (fun m n => fput m n (fget m n 0 ||| act)) d.vskip,
          oskip := if d.okp != 7 && wv.contains (.p d.okp) then d.oskip ||| act else d.oskip } }
      | _ => o) }

/-- A fragment waits for the entry of an APPOP: it has written nothing yet. -/
def popWaits (s : State) (place slot : Nat) : Bool :=
  match ((s.group place).frag slot).bind (fun f => f.wait) with
  | some (.appop _ _ _ _ _ _ _) => true
  | _ => false

/-- An effect's writes take their lanes from older AGATHs: none where the effect has not been made, and those of an APPOP that waits only when it
is served (R280, R285). -/
def Eff.takes (old place slot : Nat) (sh : Shape) (act : Mask) : Eff → Eff
  | .go s => .go (if popWaits s place slot then s else supersede s old place (sh.dst.map (fun x => x.1)) act)
  | .own s => .own (supersede s old place (sh.dst.map (fun x => x.1)) act)
  | .trap s fs => .trap (supersede s old place (sh.dst.map (fun x => x.1)) (act &&& ~~~lanesOf fs)) fs
  | e => e

/-- The faults of an effect. -/
def Eff.faults : Eff → List FaultInfo
  | .trap _ fs => fs
  | .undone _ fs => fs
  | .undoneAt _ _ fs => fs
  | _ => []

/-- With a fault of class k waiting at the boundary, an instruction only raises a fault of a lower class (R30). -/
def Eff.gate (due : Option Nat) (s0 : State) (e : Eff) : Eff :=
  match due with
  | none => e
  | some k => if e.faults.any (fun f => decide (f.code.toNat / 4096 < k)) then e else .stay s0

/-- The fragment after an instruction: PC, issue cycle, stall count, operand buffer (R48, R55). -/
def Frag.after (f : Frag) (clk : Nat) (c : Iss) (buf : Option Nat) : Frag :=
  { f with pc := c.npc, last := clk, waitAt := clk, ready := clk + 1 + c.st, buf := buf, only := none, since := none, stalled := none }

/-- The fragment moves on: distances grow, and the fragment's own fields advance. Its wait is the effect's. A register given back is no longer held
(R55, R126). -/
def advance (s : State) (c : Iss) (buf : Option Nat) : State :=
  s.modGroup c.place (fun g => (g.travel c.slot (1 + c.st)).modFrag c.slot (fun f =>
    f.after (nowAt s c.place) c (buf.filter (fun n => decide (n < g.allot)))))

/-- The fixed-latency writes of an instruction that no lane makes: they are pending all the same (R52: guards do not matter). -/
def pendNone (s : State) (place slot : Nat) (sh : Shape) : State :=
  let ws := (sh.dst.filter (fun x => x.2 != 0 && x.1 != .p 7 && x.1 != .k 3)).map
    (fun x => ({ slot := slot, reg := x.1, vals := [], lat := x.2, dist := 0 } : PWrite))
  if ws.isEmpty then s else s.modGroup place (fun g => { g with pend := g.pend ++ ws })

/-- A quadrant may issue in this cycle: neither it nor a later quadrant of its core has; the quadrants of a core issue in ascending order
(R10, R240, R285, R305). -/
def mayIssueNow (s : State) (core quad : Nat) : Bool :=
  (List.range 4).all (fun q => decide (q < quad) || fget s.issued (4 * core + q) 0 != s.clkOf core + 1)

/-- The quadrant has issued in this cycle (R10). -/
def markIssued (s : State) (g : Group) : State := { s with issued := fput s.issued (4 * g.core + g.quad) (s.clkOf g.core + 1) }

/-- An instruction of opcodes 0x02 to 0x0E is a drain point: it completes the pending writes before it reads, and the group's operand buffers are
empty (R51, R55; log 25). -/
def drainFor (s : State) (c : Nat × Nat) (sh : Shape) : State :=
  if sh.drain then s.modGroup c.1 Group.drainPoint else s

/-- The lanes outside its fragment's mask that a cross-lane instruction reads, by the registers it reads there (R163). -/
def outerReads (g : Group) (slot : Nat) (f : Frag) (sh : Shape) : List RegName × Mask :=
  match sh.cross with
  | none => ([], 0)
  | some (.lane regs n) => (regs, setBit 0 n true &&& ~~~f.mask)
  | some (.shfl regs mode idx imm) =>
    let full := f.mask &&& guardMask g slot sh.guard sh.uni
    let act := match f.only with
      | some m => full &&& m
      | none => full
    let src := fun (l : Nat) => shflSrc mode l (match idx with
      | some r => g.rv slot r l
      | none => imm).toNat
    (regs, maskOfList ((lanes act).filterMap src) &&& ~~~f.mask)

/-- Writes of the other fragment's waiting instruction for which a cross-lane read waits: those of the fragment that owns a lane read outside the
mask (R53, R163). -/
def crossBusy (s : State) (g : Group) (slot : Nat) (sh : Shape) : List RegName :=
  match g.frag slot, g.frag (1 - slot) with
  | some f, some o => if (outerReads g slot f sh).2 &&& o.mask = 0 then []
    else (waitWrites s g slot).1.filter (outerReads g slot f sh).1.contains
  | _, _ => []

/-- Registers an instruction must wait for: its sources, and destinations that an ACCRD has still to write (R49, R53, R127). -/
def blocked (s : State) (place slot : Nat) (sh : Shape) : Bool :=
  let busy := busyRegs s place ++ waitBusy s (s.group place) slot ++ crossBusy s (s.group place) slot sh
  !busy.isEmpty && (sh.src.any busy.contains ||
    sh.dst.any (fun x => (s.ops.filter (fun o => o.place == place)).any (fun o => match o.kind with
      | .matrix _ _ => (opRegs o).contains x.1
      | _ => false)))

/-- The registers a record of a type takes in the graph of a group's launch (R370). -/
def recRegs (s : State) (g : Group) (ty : Nat) : Nat :=
  match launchOf s (s.team g.team).lid with
  | some l => l.g.typeBytes ty / 4
  | none => 0

/-- The registers an input record of a group's node takes (R372). -/
def inRegs (s : State) (g : Group) : Nat :=
  match launchOf s (s.team g.team).lid with
  | some l => l.g.typeBytes (l.g.node (s.team g.team).node).itype / 4
  | none => 0

/-- A resource whose want is the stall of R20: an operation slot (1) or a counter (16 + k). -/
def slotWant (why : Nat) : Bool := why == 1 || decide (16 ≤ why)

/-- Since when an instruction has been stalled, and for what, when it now finds a resource missing: the stall of R20 is one, whichever of its two
resources is wanting. -/
def stallSince (now why : Nat) : Option (Nat × Nat) → Nat × Nat
  | some (t, w) => if w == why || (slotWant w && slotWant why) then (t, why) else (now, why)
  | none => (now, why)

/-- The fragment stalls at its instruction, from this cycle if it did not before, and tries again in the next (R20). -/
def heldBack (s : State) (c : Iss) (why : Nat) : State :=
  s.modGroup c.place (fun g => g.modFrag c.slot (fun f =>
    { f with stalled := some (stallSince (nowAt s c.place) why f.stalled), ready := nowAt s c.place + 1, since := none }))

/-- What the issuing instruction of a fragment knows (R46 to R48): `g` is the group after the drain of R51. -/
def issOf (sh : Shape) (op len st place slot : Nat) (g : Group) (f : Frag) : Iss :=
  let full := f.mask &&& guardMask g slot sh.guard sh.uni
  { place := place, slot := slot, pc := f.pc, npc := f.pc + BitVec.ofNat 64 (4 * len), op := BitVec.ofNat 8 op, st := st, fmt := f.fmt,
    mask := f.mask, full := full,
    act := match f.only with
      | some m => full &&& m
      | none => full, sup := f.sup }

/-- The guard is never, or a uniform guard that reads false: the instruction has no effect at all (R46, R47). -/
def neverRuns (g : Group) (slot : Nat) (sh : Shape) : Bool :=
  guardMask g slot sh.guard sh.uni == 0 && (sh.uni || bits sh.guard 0 3 == 7)

/-- The end of an issue: what the effect answers, the fragment's advance, and the quadrant marked. -/
def settleEff (c : Iss) (buf : Option Nat) (g : Group) : Eff → Host.Outcome State Fault Refusal
  | .go s => finish (markIssued (advance s c buf) g)
  | .own s => finish (markIssued s g)
  | .hold s => finish (heldBack s c 0)
  | .holdFor why s => finish (heldBack s c why)
  | .trap s fs => finish (markIssued (raise s c fs) g)
  | .undone s fs => finish (markIssued (raiseUndone s c fs) g)
  | .undoneAt pc s fs => finish (markIssued (raiseUndone s { c with pc := pc } fs) g)
  | .stay s => finish s

/-- ISSUING AN INSTRUCTION of a shape, an opcode, a length in words and a stall count (R46 to R55, R65): the checks in their order,
the guard, the effect, and the fragment's advance. An instruction with no active lane has no effect but still issues. -/
def issueWith (sh : Shape) (op len st : Nat) (always : Bool) (body : Iss → State → Eff) (s0 : State) :
    Host.Outcome State Fault Refusal :=
  let place := s0.cur.1
  let slot := s0.cur.2
  match ffind s0.groups place with
  | none => finish s0
  | some g0 => match g0.frag slot with
    | none => finish s0
    | some f =>
      if !mayIssue s0 g0 f || blocked s0 place slot sh then finish s0
      else
        let s := drainFor s0 s0.cur sh
        let g := s.group place
        let c := issOf sh op len st place slot g f
        settleEff c (bufAfter g (pendingRegs s place ++ (waitWrites s g slot).1 ++ (waitWrites s g slot).2) slot f sh) g
          (Eff.gate (asyncDue s0 place slot) s0 (match issueFault s0 g0 f c sh with
            | some cause => .trap s0 [.plain (issueCode c.op cause) (issueMask s0 g0 c sh)]
            | none =>
              if neverRuns g slot sh || (c.act == 0 && !always) then .go (pendNone s place slot sh)
              else (body c s).takes s0.serial place slot sh c.act))

/-- Issuing an instruction that has no effect without an active lane. -/
def issue (sh : Shape) (op len : Nat) (st : BitVec 4) (body : Iss → State → Eff) (s : State) : Host.Outcome State Fault Refusal :=
  issueWith sh op len st.toNat false body s

/-- Issuing an instruction whose effect does not depend on an active lane. -/
def issueAlways (sh : Shape) (op len : Nat) (st : BitVec 4) (body : Iss → State → Eff) (s : State) : Host.Outcome State Fault Refusal :=
  issueWith sh op len st.toNat true body s

/-- The issuing group changed by an effect that goes on. -/
def goGroup (s : State) (c : Iss) (f : Group → Group) : Eff := .go (s.modGroup c.place f)

/-- An event's end: the state after it. -/
def event (s : State) : Host.Outcome State Fault Refusal := finish s

end Sys2Proof.Machine
end

