-- ==== Sys2Proof/Machine/Operands.lean ====
section
/-! DEFINITION. Every operand form of the arithmetic instructions (R43 to R45, R136, R142, R143): how a source is read and a
destination written, and the shared per-lane and uniform effects. -/
namespace Sys2Proof.Machine

/-! ### Reading and writing -/

/-- A source operand of `w` registers as a lane of a slot reads it; an immediate is already expanded. -/
def srcLane (g : Group) (slot lane w : Nat) : Src → DWord
  | .v n => if w = 2 then g.rv64 slot n lane else zx (g.rv slot n lane)
  | .s n => if w = 2 then g.rs64 slot n else zx (g.rs slot n)
  | .imm x => x

/-- Values written to a destination of one register, or of a pair with the low half in the first (R59). -/
def Group.put (g : Group) (slot : Nat) (dst : List (RegName × Nat)) (vals : List (Nat × DWord)) : Group :=
  match dst with
  | [] => g
  | [d] => g.write slot d.1 (vals.map (fun x => (x.1, lo32 x.2))) d.2
  | d :: e :: _ =>
    (g.write slot d.1 (vals.map (fun x => (x.1, lo32 x.2))) d.2).write slot e.1 (vals.map (fun x => (x.1, hi32 x.2))) e.2

/-- The v-register destinations of a shape. -/
def Shape.vdst (sh : Shape) : List (RegName × Nat) := sh.dst.filter (fun d => match d.1 with
  | .v _ => true
  | _ => false)
/-- The predicate destinations of a shape. -/
def Shape.pdst (sh : Shape) : List (RegName × Nat) := sh.dst.filter (fun d => match d.1 with
  | .p _ => true
  | _ => false)

/-- 0 or 1 as a value to write to a predicate. -/
def truth (b : Bool) : DWord := if b then 1 else 0

/-- The sources of a uniform arithmetic instruction: field B, then field C or what replaces it (R136, R137). -/
def sSrcs (p : Alu) (h : Hd) (x : WAlu) (lit : Option (BitVec 60)) : List Src :=
  let i : Src := .imm (immVal p.k x.imm20 lit)
  let sub := x.imm || lit.isSome
  (List.range p.n).map (fun j => if sub && j + 1 == p.n then i else .s (if j = 0 then h.b.toNat else h.c.toNat))

/-- Sources with their widths in registers. -/
def vArgs (p : Alu) (h : Hd) (x : WAlu) (lit : Option (BitVec 60)) : List (Src × Nat) := (vSrcs p h x lit).zip p.ws
/-- Uniform sources with their widths in registers. -/
def sArgs (p : Alu) (h : Hd) (x : WAlu) (lit : Option (BitVec 60)) : List (Src × Nat) := (sSrcs p h x lit).zip p.ws

/-- imm9 of a one-word form (R43). -/
def imm9 (f : F1) : Src := .imm (sx f.b)
/-- The sources of mould I1: the destination, then imm9 (R45). -/
def i1 (uni : Bool) (f : F1) : List (Src × Nat) := [(if uni then .s f.a.toNat else .v f.a.toNat, 1), (imm9 f, 1)]
/-- The source of mould U1. -/
def u1 (uni : Bool) (f : F1) : List (Src × Nat) := [(if uni then .s f.b.toNat else .v f.b.toNat, 1)]
/-- The source of mould M1. -/
def m1 (f : F1) : List (Src × Nat) := [(imm9 f, 1)]

/-! ### Effects -/

/-- What an arithmetic instruction computes in a lane: from the lane's SEED state and its operands, the result and the flags. -/
abbrev LaneFn := Word → List DWord → DWord × Flags

/-- A function of one operand. -/
def fn1 (f : DWord → DWord × Flags) : LaneFn := fun _ l => f (l.getD 0 0)
/-- A function of two operands. -/
def fn2 (f : DWord → DWord → DWord × Flags) : LaneFn := fun _ l => f (l.getD 0 0) (l.getD 1 0)
/-- A function of three operands. -/
def fn3 (f : DWord → DWord → DWord → DWord × Flags) : LaneFn := fun _ l => f (l.getD 0 0) (l.getD 1 0) (l.getD 2 0)

/-- SEED advanced once in each active lane (R95). -/
def Group.advanceSeeds (g : Group) (act : Mask) : Group :=
  { g with seed := (lanes act).foldl (fun m l => fset m l 0 (seedStep (fget m l 0))) g.seed }

/-- The shape shared by every per-lane arithmetic instruction (R143): operands read, results written, flags gathered. -/
def vecGroup (dst : List (RegName × Nat)) (args : List (Src × Nat)) (sr : Bool) (f : LaneFn) (slot : Nat) (act : Mask) (g : Group) : Group :=
  let g' := if sr then g.advanceSeeds act else g
  let rs := (lanes act).map (fun l => (l, f (fget g'.seed l 0) (args.map (fun a => srcLane g slot l a.2 a.1))))
  (g'.put slot dst (rs.map (fun r => (r.1, r.2.1)))).flags slot (latOf dst) (orFlags (rs.map (fun r => r.2.2)))

/-- A vector arithmetic instruction (R143). -/
def vec (sh : Shape) (op len : Nat) (st : BitVec 4) (args : List (Src × Nat)) (sr : Bool) (f : LaneFn) (s : State) :
    Host.Outcome State Fault Refusal :=
  issue sh op len st (fun c s => goGroup s c (vecGroup sh.dst args sr f c.slot c.act)) s

/-- The shape shared by the uniform arithmetic instructions (R136, R137). -/
def uniGroup (dst : List (RegName × Nat)) (args : List (Src × Nat)) (f : LaneFn) (slot : Nat) (g : Group) : Group :=
  let r := f 0 (args.map (fun a => srcLane g slot 0 a.2 a.1))
  (g.put slot dst [(0, r.1)]).flags slot (latOf dst) r.2

/-- A uniform arithmetic instruction. -/
def uni (sh : Shape) (op len : Nat) (st : BitVec 4) (args : List (Src × Nat)) (f : LaneFn) (s : State) :
    Host.Outcome State Fault Refusal :=
  issue sh op len st (fun c s => goGroup s c (uniGroup sh.dst args f c.slot)) s

/-! ### Integer operations (R73, R136, R144 to R148) -/

/-- The two-operand integer operations. -/
inductive IntOp where
  | add | sub | mul | mulh | and | or | xor | shl | shr | sra | min | max
  deriving DecidableEq, Repr

/-- A value modulo 2^N of a TYPE as a natural number. -/
def natVal (t : Ty) (x : DWord) : Nat := x.toNat % 2 ^ tyBits t

/-- A shift count: b modulo N. -/
def shiftBy (t : Ty) (b : DWord) : Nat := b.toNat % tyBits t

/-- An arithmetic right shift of an N-bit value. -/
def sraVal (t : Ty) (a : DWord) (n : Nat) : Int :=
  let v := natVal t a
  let i : Int := if 2 ^ (tyBits t - 1) ≤ v then (v : Int) - 2 ^ tyBits t else v
  i / 2 ^ n

/-- An integer operation of a TYPE (R136, R144). -/
def intOp (o : IntOp) (t : Ty) (sat : Bool) (a b : DWord) : DWord × Flags :=
  match o with
  | .add => intOut t sat (intVal t a + intVal t b)
  | .sub => intOut t sat (intVal t a - intVal t b)
  | .mul => intOut t sat (intVal t a * intVal t b)
  | .mulh => (intWrap t (intVal t a * intVal t b / 2 ^ tyBits t), 0)
  | .and => (intWrap t (intVal t (a &&& b)), 0)
  | .or => (intWrap t (intVal t (a ||| b)), 0)
  | .xor => (intWrap t (intVal t (a ^^^ b)), 0)
  | .shl => (intWrap t ((natVal t a * 2 ^ shiftBy t b : Nat) : Int), 0)
  | .shr => (intWrap t ((natVal t a / 2 ^ shiftBy t b : Nat) : Int), 0)
  | .sra => (intWrap t (sraVal t a (shiftBy t b)), 0)
  | .min => (intWrap t (if intVal t b < intVal t a then intVal t b else intVal t a), 0)
  | .max => (intWrap t (if intVal t a < intVal t b then intVal t b else intVal t a), 0)

/-- a × b + c (R144). -/
def intMad (t : Ty) (sat : Bool) (a b c : DWord) : DWord × Flags := intOut t sat (intVal t a * intVal t b + intVal t c)

/-- The conditions of SCMP and ICMP (R137, R145). -/
def intCmp (cond : Nat) (t : Ty) (a b : DWord) : Bool :=
  let x := intVal t a
  let y := intVal t b
  match cond with
  | 0 => x == y
  | 1 => x != y
  | 2 => decide (x < y)
  | 3 => decide (x ≤ y)
  | 4 => decide (y < x)
  | _ => decide (y ≤ x)

/-- The number of set bits of an N-bit value. -/
def popVal (t : Ty) (a : DWord) : DWord := BitVec.ofNat 64 (popc (BitVec.ofNat (tyBits t) a.toNat))
/-- The number of zero bits above the highest set bit of an N-bit value. -/
def clzVal (t : Ty) (a : DWord) : DWord := BitVec.ofNat 64 (clz (BitVec.ofNat (tyBits t) a.toNat))
/-- The index of the lowest set bit of an N-bit value, or N. -/
def ffsVal (t : Ty) (a : DWord) : DWord := BitVec.ofNat 64 (ffs (BitVec.ofNat (tyBits t) a.toNat))
/-- An N-bit value reversed. -/
def brevVal (t : Ty) (a : DWord) : DWord := BitVec.ofNat 64 (brev (BitVec.ofNat (tyBits t) a.toNat)).toNat

/-- The position and length of a bit field (R147). -/
def fieldOf (t : Ty) (b : DWord) : Nat × Nat :=
  let pos := min (bits b 0 8).toNat (tyBits t)
  (pos, min (bits b 8 8).toNat (tyBits t - pos))

/-- BFE (R147). -/
def bfeVal (t : Ty) (a b : DWord) : DWord :=
  let (pos, len) := fieldOf t b
  if len = 0 then 0
  else
    let v := natVal t a / 2 ^ pos % 2 ^ len
    intWrap t (if tySigned t && 2 ^ (len - 1) ≤ v then (v : Int) - 2 ^ len else v)

/-- BFI (R147). -/
def bfiVal (t : Ty) (a b c : DWord) : DWord :=
  let (pos, len) := fieldOf t b
  let m : DWord := BitVec.ofNat 64 ((2 ^ len - 1) * 2 ^ pos)
  (c &&& ~~~m) ||| (BitVec.ofNat 64 (a.toNat % 2 ^ len * 2 ^ pos))

/-- A bitwise function of three values by a truth table (R146). -/
def lop3Val (t : BitVec 8) (a b c : DWord) : DWord := bitsOf 64 (fun i => lutBit t (bit a i) (bit b i) (bit c i))

/-! ### Floating operations (R149 to R157) -/

/-- The encoding that an operand of a floating TYPE holds. -/
def fltCode (t : Ty) (x : DWord) : Nat := x.toNat % 2 ^ tyBits t
/-- The value of an operand of a floating TYPE. -/
def fltVal (t : Ty) (x : DWord) : Num := ((fmOf t).value false (fltCode t x)).1

/-- An encoding and flags as a result. -/
def fltOut (r : Nat × Flags) : DWord × Flags := (BitVec.ofNat 64 r.1, r.2)

/-- The two-operand floating operations that round. -/
inductive FltOp where
  | add | sub | mul
  deriving DecidableEq, Repr

/-- A rounding floating operation; `r` are the 16 random bits of .sr. -/
def fltOp (o : FltOp) (t : Ty) (rnd : BitVec 3) (r : BitVec 16) (sat : Bool) (a b : DWord) : DWord × Flags :=
  let x := fltVal t a
  let y := fltVal t b
  fltOut (match o with
    | .add => fAdd (fmOf t) (modeOf rnd r) sat x y
    | .sub => fSub (fmOf t) (modeOf rnd r) sat x y
    | .mul => fMul (fmOf t) (modeOf rnd r) sat x y)

/-- a × b + c. -/
def fltFma (t : Ty) (rnd : BitVec 3) (r : BitVec 16) (sat : Bool) (a b c : DWord) : DWord × Flags :=
  fltOut (fFma (fmOf t) (modeOf rnd r) sat (fltVal t a) (fltVal t b) (fltVal t c))

/-- The encoding of a value that needs no rounding. -/
def exactCode (t : Ty) (x : Num) : Nat := (roundTo (fmOf t) .rn false x).1

/-- FMIN or FMAX (R150). -/
def fltMinMax (max : Bool) (t : Ty) (a b : DWord) : DWord × Flags :=
  let r := minMaxNum max (fltVal t a) (fltVal t b)
  fltOut (exactCode t r.1, r.2)

/-- The types of .sr: a rounding instruction with that mode advances SEED (R162). -/
def isSr (rnd : BitVec 3) : Bool := rnd == 5

/-- Element j of a packed half operand as a value to compute with. -/
def elem16 (x : DWord) (j : Nat) : DWord := zx (bits x (16 * j) 16)

/-- A packed operation: both elements, their flags together (R157). -/
def packed (f : Nat → DWord × Flags) : DWord × Flags :=
  let a := f 0
  let b := f 1
  (zx (lo32 b.1 <<< 16 ||| (lo32 a.1 &&& 0xFFFF)), a.2 ||| b.2)

end Sys2Proof.Machine
end

