-- ==== Sys2Proof/Machine/Control.lean ====
section
/-! DEFINITION. The control stack (R109 to R112, R117) and the control instructions (R115 to R123, R132, R134). -/
namespace Sys2Proof.Machine

/-! ### Entries in memory -/

/-- KIND's two bits (R109). -/
def EKind.code : EKind → Nat
  | .div => 0
  | .frag => 1
  | .call => 2
  | .callx => 3

/-- KIND of two bits. -/
def EKind.ofCode (n : Nat) : EKind := if n = 0 then .div else if n = 1 then .frag else if n = 2 then .call else .callx

/-- The 32 bytes of an entry (R109). -/
def entryBytes (e : Entry) : List Byte :=
  leBytes 8 (e.pc.toNat / 4 * 4 + e.kind.code) ++ leBytes 4 e.mask.toNat ++ leBytes 4 e.aux.toNat ++
  leBytes 4 (e.link.toNat * 65536 + e.vreg.toNat * 128 + natOf e.sup * 8 + natOf e.live * 4 + e.fmt.toNat) ++ leBytes 12 0

/-- The entry in 32 bytes; none when it breaks R109 (R112). -/
def entryOf (l : List Byte) : Option Entry :=
  let p := dwordAt l 0
  let w := wordAt l 16
  let e : Entry := { kind := EKind.ofCode (bits p 0 2).toNat, pc := p &&& ~~~3, mask := wordAt l 8, aux := wordAt l 12,
                     link := bits w 16 16, vreg := bits w 7 9, sup := bit w 3, live := bit w 2, fmt := bits w 0 2 }
  let used := e.kind == .div || e.kind == .callx
  if bits w 4 3 != 0 || leVal (l.drop 20) != 0 || bit e.vreg 0 || (e.vreg != 0 && e.kind != .callx) || (e.aux != 0 && !used) then none
  else some e

/-- Why a control-stack access cannot be made. -/
inductive CsErr where
  | fault (f : FaultInfo)
  /-- a stash line of entry i, to be read or written, waits for its write-back (R183) -/
  | wait (i : Nat) (write : Bool)
  | absent

/-- The address of entry i of a group (R111). -/
def csAddr (d : Desc) (g : Group) (i : Nat) : DWord := d.csbase + BitVec.ofNat 64 (32 * (d.csentries * (64 * g.core + g.gslot) + i))

/-- Where an entry lies: the context's descriptor, the address, the memory key, and the leaf with its page. -/
structure CsPlace where
  d : Desc
  va : Nat
  key : Nat
  leaf : DWord
  base : Nat
  units : Nat

/-- The access to an entry's place that the map unit sees (R226); one to a peer's memory leaves as a message (R380), a read of a DEAD page does not
(R223). -/
def CsPlace.note (p : CsPlace) (s : State) (data : Option (List Byte)) : State :=
  let t := noteAcc s p.d p.va p.leaf p.base p.units data.isSome
  if data.isNone && deadNow s p.d p.va p.leaf then t else toPeer t p.leaf p.key 32 false data

/-- Where entry i lies, checked for reading and writing; a fault is of class 0x0 and never a first touch (R111). Both checks are one, which
a page without W fails: KIND is then that of the access which makes the check, a read's 0x07 in `csReadAt` (log 133). A read that meets an
uncorrectable error is an ENGINE_ERROR (R422). -/
def csKey (s : State) (place i kind : Nat) (m : Mask) : Except CsErr CsPlace :=
  let g := s.group place
  let d := (s.ctx g.page).d
  let a := csAddr d g i
  let flt (code : BitVec 16) : Except CsErr CsPlace :=
    .error (.fault { code := code, mask := m, addr := a, kind := kind, first := false, det := [] })
  if !inTranslated a 32 then flt (codeOf 0 cProt)
  else match translate s d a.toNat .w with
    | .ok k e base units =>
      if kind == kCtlFill && !deadNow s d a.toNat e && s.badAt k 32 then flt (codeOf 0 cEngine)
      else .ok { d := d, va := a.toNat, key := k, leaf := e, base := base, units := units }
    | .absentPage _ => flt (codeOf 0 cAbsent)
    | .prot => flt (codeOf 0 cProt)
    | .malformed => flt (codeOf 3 cEngine)
    | .absentMem => .error .absent

/-- The stash lines that hold entry i, or the entries of its walk, answer its read or write: false while one has to wait (R179, R183). -/
def csSnoop (s : State) (place i : Nat) (write : Bool) : Bool × State :=
  let g := s.group place
  let d := (s.ctx g.page).d
  let a := csAddr d g i
  if !inTranslated a 32 then (true, s)
  else match walkSnoop s d a.toNat .w with
    | (false, s) => (false, s)
    | (true, s) => match translate s d a.toNat .w with
      | .ok k e _ _ => match reviveSnoop s d a.toNat e write with
        | (false, s) => (false, s)
        | (true, s) => snoopRange s k 32 write
      | _ => (true, s)

/-- Entry i read from memory, and its key. -/
def csReadAt (s : State) (place i : Nat) (m : Mask) : Except CsErr (Nat × Entry × State) :=
  match csSnoop s place i false with
  | (false, _) => .error (.wait i false)
  | (true, s) => match csKey s place i kCtlFill m with
    | .error e => .error e
    | .ok p => match entryOf (leafBytes s p.d p.va p.leaf p.key 32) with
      | some e => .ok (p.key, e, p.note s none)
      | none => .error (.fault (.plain (codeOf 0 cEngine) m))

/-- Entry i read in place. -/
def csRead (s : State) (place i : Nat) (m : Mask) : Except CsErr (Entry × State) := (csReadAt s place i m).map (fun x => x.2)

/-- Entry i read from memory for good: its place then holds unspecified contents (R112). -/
def csTake (s : State) (place i : Nat) (m : Mask) : Except CsErr (Entry × State) :=
  (csReadAt s place i m).map (fun x => (x.2.1, x.2.2.undefRange x.1 (x.1 + 32)))

/-- Entry i written to memory. -/
def csWrite (s : State) (place i : Nat) (e : Entry) (m : Mask) : Except CsErr State :=
  match csSnoop s place i true with
  | (false, _) => .error (.wait i true)
  | (true, s) => (csKey s place i kSpill m).map (fun p => (p.note s (some (entryBytes e))).setBytes p.key (entryBytes e))

/-- The index of the lowest entry on chip. -/
def Group.chipBase (g : Group) : Nat := g.sp - g.chip.length

/-- Entry i: on chip, or in place in memory (R111). An index at or above SP, which only a written stack area can make an RSP or a LINK name
and for which the spec gives no effect, is read in place too (log 120). -/
def csGet (s : State) (place i : Nat) (m : Mask) : Except CsErr (Entry × State) :=
  let g := s.group place
  match if g.chipBase ≤ i then g.chip[i - g.chipBase]? else none with
  | some e => .ok (e, s)
  | none => csRead s place i m

/-- Entry i replaced: on chip, or in place in memory. -/
def csPut (s : State) (place i : Nat) (e : Entry) (m : Mask) : Except CsErr State :=
  let g := s.group place
  if g.chipBase ≤ i && i < g.sp then .ok (s.modGroup place (fun g => { g with chip := g.chip.set (i - g.chipBase) e }))
  else csWrite s place i e m

/-- What the group knows of entry i, by its contents: a live FRAG entry, in its place among them, or none (R112, R117). -/
def Group.noteEntry (g : Group) (i : Nat) (e : Entry) : Group :=
  { g with fidx := g.fidx.filter (fun x => decide (i < x.1)) ++ (if e.kind == .frag && e.live then [(i, e.sup)] else []) ++
                   g.fidx.filter (fun x => decide (x.1 < i)) }

/-- A push: with six entries on chip the lowest goes to memory first (R110, R111). The caller has checked for overflow. -/
def csPush (s : State) (place : Nat) (e : Entry) (m : Mask) : Except CsErr (Nat × State) :=
  let g := s.group place
  let room : Except CsErr State :=
    if g.chip.length < 6 then .ok s
    else match g.chip with
      | [] => .ok s
      | lo :: l => match csWrite s place g.chipBase lo m with
        | .error e => .error e
        | .ok s => .ok (s.modGroup place (fun g => { g with chip := l }))
  match room with
  | .error e => .error e
  | .ok s => .ok (g.sp, s.modGroup place (fun g =>
      { g with chip := g.chip ++ [e], sp := g.sp + 1, fidx := if e.kind == .frag then (g.sp, e.sup) :: g.fidx else g.fidx }))

/-- Entries read back until six are on chip or none is left in memory (R111). What a filled entry is, its contents say (R112). -/
def csRefill (place : Nat) (m : Mask) : Nat → State → Except CsErr State
  | 0, s => .ok s
  | n + 1, s =>
    let g := s.group place
    if 6 ≤ g.chip.length || g.chipBase = 0 then .ok s
    else match csTake s place (g.chipBase - 1) m with
      | .error e => .error e
      | .ok (e, s) => csRefill place m n (s.modGroup place (fun g => { g.noteEntry (g.chipBase - 1) e with chip := e :: g.chip }))

/-- SP falls past every dead entry at the top (R110). -/
def csSettle (place : Nat) (m : Mask) : Nat → State → Except CsErr State
  | 0, s => .ok s
  | n + 1, s =>
    match csRefill place m 6 s with
    | .error e => .error e
    | .ok s =>
      match (s.group place).chip.getLast? with
      | some e =>
        if e.live then .ok s
        else csSettle place m n (s.modGroup place (fun g => { g with chip := g.chip.dropLast, sp := g.sp - 1 }))
      | none => .ok s

/-- Entry i freed (R110). -/
def csFree (s : State) (place i : Nat) (m : Mask) : Except CsErr State :=
  match csGet s place i m with
  | .error e => .error e
  | .ok (e, s) => match csPut s place i { e with live := false } m with
    | .error e => .error e
    | .ok s =>
      let s := s.modGroup place (fun g => { g with fidx := g.fidx.filter (fun x => x.1 != i), owed := fdel g.owed i })
      csSettle place m ((s.group place).sp + 1) s

/-! ### Fragments placed by an instruction -/

/-- NONE as an RSP (R104). -/
def noRsp : BitVec 16 := 0xFFFF

/-- A fragment that an instruction places in a slot: the instruction's cycle is its LASTISSUE, and it takes the issuing fragment's
CHLATCH (R108, R117). -/
def newFrag (s : State) (c : Iss) (chl : Word) (mask : Mask) (pc : DWord) (fmt : BitVec 2) (rsp : BitVec 16) (sup : Bool) : Frag :=
  { mask := mask, pc := pc, fmt := fmt, rsp := rsp, sup := sup, last := nowAt s c.place, chl := chl, ready := nowAt s c.place + 1 + c.st,
    buf := none, only := none, wait := none, since := none, stalled := none, waitAt := nowAt s c.place }

/-- A fragment placed in a slot of the group, or the slot freed. -/
def setSlot (s : State) (c : Iss) (slot : Nat) (f : Option Frag) : State := s.modGroup c.place (fun g => g.setFrag slot f)

/-- The fragment that an entry gives back: MASK less `mask`'s choice, PC, FMT, LINK and MODE of the entry. -/
def entryFrag (s : State) (c : Iss) (chl : Word) (mask : Mask) (e : Entry) : Frag := newFrag s c chl mask e.pc e.fmt e.link e.sup

/-- The index of the FRAG entry that a free slot takes: the highest that the group knows, in a handler only one made in supervisor mode (R117). -/
def loadable (g : Group) : Option Nat := (g.fidx.find? (fun x => g.h.slot.isNone || x.2)).map (fun x => x.1)

/-- The fragment pushed as FRAG entry i has issued this instruction, and its stall count goes on in the entry (R48). -/
def oweEntry (s : State) (c : Iss) (i : Nat) : State :=
  s.modGroup c.place (fun g => { g with owed := fput g.owed i (nowAt s c.place + 1 + c.st) })

/-- The entry that `loadable` names, as its contents are: one that is no such FRAG entry any more is passed over (R112, R117). -/
def findFrag (c : Iss) : Nat → State → Except CsErr (State × Option (Nat × Entry))
  | 0, s => .ok (s, none)
  | n + 1, s => match loadable (s.group c.place) with
    | none => .ok (s, none)
    | some i => match csGet s c.place i c.mask with
      | .error e => .error e
      | .ok (e, s) =>
        if e.kind == .frag && e.live && ((s.group c.place).h.slot.isNone || e.sup) then .ok (s, some (i, e))
        else findFrag c n (s.modGroup c.place (fun g => g.noteEntry i e))

/-- The entry that a free slot, or YIELD, takes now (R117, R123). -/
def takeFrag (s : State) (c : Iss) : Except CsErr (State × Option (Nat × Entry)) := findFrag c ((s.group c.place).fidx.length + 1) s

/-- R117: a free slot takes the highest live FRAG entry. The fragment may issue from the next cycle on, later while the stall count with which it was
pushed still runs (R48). -/
def fillSlot (s : State) (c : Iss) (chl : Word) (slot : Nat) : Except CsErr State :=
  match (s.group c.place).frag slot with
  | some _ => .ok s
  | none => match takeFrag s c with
    | .error e => .error e
    | .ok (s, none) => .ok s
    | .ok (s, some (i, e)) =>
      let owed := fget (s.group c.place).owed i 0
      csFree (setSlot s c slot (some { entryFrag s c chl e.mask e with ready := max (nowAt s c.place + 1) owed })) c.place i c.mask

/-- Both slots filled where R117 says so: slot 0 once more when the fill of slot 1 has brought a FRAG entry back from memory. -/
def fillSlots (s : State) (c : Iss) (chl : Word) : Except CsErr State :=
  match fillSlot s c chl 0 with
  | .error e => .error e
  | .ok s => match fillSlot s c chl 1 with
    | .error e => .error e
    | .ok s => fillSlot s c chl 0

/-- What a control instruction does when its stack accesses answer: the new state, or the fault with no effect (R111); while a stash line has to wait it
is held, and the line's write-back record is posted (R183). -/
def csEff (s0 : State) (place : Nat) (r : Except CsErr State) : Eff :=
  match r with
  | .ok s => .own s
  | .error (.fault f) => .trap s0 [f]
  | .error (.wait i write) => .hold (csSnoop s0 place i write).2
  | .error .absent => .own { s0 with absent := true }

/-- The issuing fragment. -/
def theFrag (s : State) (c : Iss) : Frag := ((s.group c.place).frag c.slot).getD (newFrag s c 0 c.mask c.pc c.fmt noRsp c.sup)

/-- The fragment after a control transfer. -/
def Frag.moved (f : Frag) (s : State) (c : Iss) (pc : DWord) : Frag := { f.after (nowAt s c.place) c none with pc := pc }

/-- A plain transfer of control. -/
def jump (s : State) (c : Iss) (pc : DWord) : Eff := .own (setSlot s c c.slot (some ((theFrag s c).moved s c pc)))

/-- A word offset from the instruction's first word. -/
def relTo {w : Nat} (c : Iss) (off : BitVec w) : DWord := c.pc + 4 * sx off

/-- CTLSTACK_OVERFLOW when `k` pushes do not fit (R110). -/
def pushRoom (s : State) (c : Iss) (k : Nat) : Bool :=
  let g := s.group c.place
  g.sp + k ≤ (s.ctx g.page).d.csentries

/-- CTLSTACK_OVERFLOW (R110). -/
def overflowEff (s : State) (c : Iss) : Eff := .trap s [.plain (codeOf 0 cCtlOverflow) c.mask]

/-- A new live entry of the issuing fragment. -/
def newEntry (c : Iss) (f : Frag) (k : EKind) (pc : DWord) (mask aux : Mask) (vreg : BitVec 9) : Entry :=
  { kind := k, pc := pc, mask := mask, aux := aux, link := f.rsp, vreg := vreg, sup := f.sup, live := true, fmt := c.fmt }

/-! ### NOP and branches -/

/-- NOP: nothing but its stall count (R64). -/
def execNop (h : Hd) (s : State) : Host.Outcome State Fault Refusal := issue (shNop h) 0x01 3 h.st (fun _ s => .go s) s
/-- NOP, one word. -/
def execNopZ1 (f : F1) (s : State) : Host.Outcome State Fault Refusal := issue (shNopZ1 f) 0x01 1 f.st (fun _ s => .go s) s

/-- The offset of mould J1 (R45). -/
def j1Off (f : F1) : BitVec 18 := f.b ++ f.a

/-- BRA (R134). -/
def execBra (h : Hd) (x : WOff) (s : State) : Host.Outcome State Fault Refusal :=
  issue (shBra h) 0x02 3 h.st (fun c s => jump s c (relTo c x.off)) s
/-- BRA, mould J1. -/
def execBraJ1 (f : F1) (s : State) : Host.Outcome State Fault Refusal :=
  issue shBraJ1 0x02 1 f.st (fun c s => jump s c (relTo c (j1Off f))) s
/-- BRX: a target with bits 1:0 not zero traps when it is reached, as R37 gives (R134). -/
def execBrx (h : Hd) (s : State) : Host.Outcome State Fault Refusal :=
  issue (shBrx h) 0x03 3 h.st (fun c s => jump s c ((s.group c.place).rs64 c.slot h.b.toNat)) s

/-- The lanes of the fragment that take a BRC (R115). -/
def brcTaken (g : Group) (c : Iss) (h : Hd) : Mask :=
  c.mask &&& (if bit h.mod 0 then ~~~ g.rpm c.slot h.b.toNat else g.rpm c.slot h.b.toNat)

/-- A split of the issuing fragment: DIV pushed, the taken lanes in the slot, the others in the free slot or a FRAG entry (R115). -/
def diverge (s : State) (c : Iss) (t n : Mask) (tgt rpc : DWord) : Except CsErr State :=
  let f := theFrag s c
  match csPush s c.place (newEntry c f .div rpc c.mask 0 0) c.mask with
  | .error e => .error e
  | .ok (e, s) =>
    let e16 := BitVec.ofNat 16 e
    let s := setSlot s c c.slot (some { f.moved s c tgt with mask := t, rsp := e16 })
    let other := 1 - c.slot
    match (s.group c.place).frag other with
    | none => .ok (setSlot s c other (some (newFrag s c f.chl n c.npc c.fmt e16 f.sup)))
    | some _ => match csPush s c.place { newEntry c f .frag c.npc n 0 0 with link := e16 } c.mask with
      | .error e => .error e
      | .ok (i, s) => .ok (oweEntry s c i)

/-- BRC (R115). -/
def execBrc (h : Hd) (x : WOff) (s : State) : Host.Outcome State Fault Refusal :=
  issue (shBrc h) 0x04 3 h.st (fun c s =>
    let g := s.group c.place
    let t := brcTaken g c h
    let n := c.mask &&& ~~~t
    if n = 0 then jump s c (relTo c x.off)
    else if t = 0 then jump s c c.npc
    else if !pushRoom s c (if (g.frag (1 - c.slot)).isNone then 1 else 2) then overflowEff s c
    else csEff s c.place (diverge s c t n (relTo c x.off) (relTo c (h.d ++ h.c)))) s

/-- Arrival at a reconvergence point (R116). -/
def joinAt (s : State) (c : Iss) (j : DWord) : Except CsErr State :=
  let f := theFrag s c
  let br : Except CsErr State := .ok (setSlot s c c.slot (some (f.moved s c j)))
  if f.rsp = noRsp then br
  else
    let i := f.rsp.toNat
    match csGet s c.place i c.mask with
    | .error e => .error e
    | .ok (e, s) =>
      if e.kind != .div || e.pc != j then .ok (setSlot s c c.slot (some (f.moved s c j)))
      else
        let aux := e.aux ||| c.mask
        match csPut s c.place i { e with aux := aux } c.mask with
        | .error e => .error e
        | .ok s =>
          let s := setSlot s c c.slot none
          if aux == e.mask &&& ~~~(s.group c.place).exited then
            match csFree (setSlot s c c.slot (some { entryFrag s c f.chl aux e with pc := j })) c.place i c.mask with
            | .error e => .error e
            | .ok s => fillSlots s c f.chl
          else fillSlots s c f.chl

/-- JOIN (R116, R117). -/
def execJoin (h : Hd) (x : WOff) (s : State) : Host.Outcome State Fault Refusal :=
  issue (shJoin h) 0x05 3 h.st (fun c s => csEff s c.place (joinAt s c (relTo c x.off))) s

/-! ### Calls -/

/-- A call: a CALL entry, and the target (R120). -/
def callTo (c : Iss) (s : State) (tgt : DWord) : Eff :=
  if !pushRoom s c 1 then overflowEff s c
  else
    let f := theFrag s c
    csEff s c.place (match csPush s c.place (newEntry c f .call c.npc c.mask 0 0) c.mask with
      | .error e => .error e
      | .ok (e, s) => .ok (setSlot s c c.slot (some { f.moved s c tgt with rsp := BitVec.ofNat 16 e })))

/-- CALL (R120). -/
def execCall (h : Hd) (x : WOff) (s : State) : Host.Outcome State Fault Refusal :=
  issue (shCall h) 0x06 3 h.st (fun c s => callTo c s (relTo c x.off)) s
/-- CALL, mould J1. -/
def execCallJ1 (f : F1) (s : State) : Host.Outcome State Fault Refusal :=
  issue shCallJ1 0x06 1 f.st (fun c s => callTo c s (relTo c (j1Off f))) s

/-- The least of the targets of some lanes. -/
def leastTarget (ls : List Nat) (t : Nat → DWord) : DWord :=
  ((minBy (fun x => x) (ls.map (fun l => (t l).toNat))).map (BitVec.ofNat 64)).getD 0

/-- StartBatch (R121): the pending lanes of the lowest target start in the issuing slot. -/
def startBatch (s : State) (c : Iss) (chl : Word) (i : Nat) (e : Entry) : Except CsErr State :=
  let g := s.group c.place
  let pend := e.aux &&& ~~~g.exited
  let t := fun l => g.rv64 c.slot e.vreg.toNat l
  let lo := leastTarget (lanes pend) t
  let b := maskOfList ((lanes pend).filter (fun l => t l == lo))
  match csPut s c.place i { e with aux := pend &&& ~~~b } c.mask with
  | .error e => .error e
  | .ok s => .ok (setSlot s c c.slot (some (newFrag s c chl b lo e.fmt (BitVec.ofNat 16 i) e.sup)))

/-- CALLX (R121). -/
def execCallx (h : Hd) (s : State) : Host.Outcome State Fault Refusal :=
  issue (shCallx h) 0x07 3 h.st (fun c s =>
    let g := s.group c.place
    let t := fun l => g.rv64 c.slot h.b.toNat l
    let bad := (lanes c.act).filter (fun l => bits (t l) 0 2 != 0)
    if !bad.isEmpty then
      .undoneAt (leastTarget bad t) s [.plain (codeOf 0 cMisaligned) (maskOfList bad)]
    else if !pushRoom s c 1 then overflowEff s c
    else
      let f := theFrag s c
      let e := newEntry c f .callx c.npc c.mask c.mask h.b
      csEff s c.place (match csPush s c.place e c.mask with
        | .error e => .error e
        | .ok (i, s) => startBatch s c f.chl i e)) s

/-- RET's effect (R122): the fragment takes MASK, PC, FMT and RSP of the entry, and keeps its mode. A FRAG entry that the free brings back from memory
fills a free slot (R112, R117). -/
def retEff (c : Iss) (s : State) : Eff :=
  let f := theFrag s c
  let bad : Eff := .trap s [.plain (codeOf 0 cConvergence) c.mask]
  if f.rsp = noRsp then bad
  else
    let i := f.rsp.toNat
    match csGet s c.place i c.mask with
    | .error e => csEff s c.place (.error e)
    | .ok (e, s1) =>
      let back : Except CsErr State :=
        match csFree (setSlot s1 c c.slot (some { entryFrag s1 c f.chl (e.mask &&& ~~~(s1.group c.place).exited) e with sup := f.sup })) c.place
          i c.mask with
        | .error e => .error e
        | .ok s => fillSlots s c f.chl
      match e.kind with
      | .div => bad
      | .frag => bad
      | .call => csEff s c.place back
      | .callx => csEff s c.place (if e.aux &&& ~~~(s1.group c.place).exited != 0 then startBatch s1 c f.chl i e else back)

/-- RET (R122). -/
def execRet (h : Hd) (s : State) : Host.Outcome State Fault Refusal := issue (shRet h) 0x08 3 h.st retEff s
/-- RET, one word. -/
def execRetZ1 (f : F1) (s : State) : Host.Outcome State Fault Refusal := issue (shRetZ1 f) 0x08 1 f.st retEff s

/-! ### EXIT -/

/-- The walk of an exited fragment's chain (R118), at most `fuel` entries. -/
def exitWalk (c : Iss) (chl : Word) : Nat → BitVec 16 → State → Except CsErr State
  | 0, _, s => .ok s
  | n + 1, r, s =>
    if r = noRsp then .ok s
    else
      let i := r.toNat
      match csGet s c.place i c.mask with
      | .error e => .error e
      | .ok (e, s) =>
        let ex := (s.group c.place).exited
        let live := e.mask &&& ~~~ex
        let resume : Except CsErr State := csFree (setSlot s c c.slot (some (entryFrag s c chl live e))) c.place i c.mask
        let on : Except CsErr State := match csFree s c.place i c.mask with
          | .error e => .error e
          | .ok s => exitWalk c chl n e.link s
        match e.kind with
        | .div => if live != 0 && e.aux == live then resume else if live != 0 then .ok s else on
        | .frag => on
        | .call => on
        | .callx => if e.aux &&& ~~~ex != 0 then startBatch s c chl i e else if live != 0 then resume else on

/-- EXIT's effect in the active lanes (R118, R130). -/
def exitEff (c : Iss) (s : State) : Eff :=
  if c.sup then .trap s [.plain (codeOf 0 cPriv) c.act]
  else
    let f := theFrag s c
    let s1 := s.modGroup c.place (fun g => { g with exited := g.exited ||| c.act })
    if c.mask &&& ~~~c.act != 0 then
      .own (setSlot s1 c c.slot (some { f.moved s c c.npc with mask := c.mask &&& ~~~c.act }))
    else
      csEff s c.place (match exitWalk c f.chl ((s.group c.place).sp + 1) f.rsp (setSlot s1 c c.slot none) with
        | .error e => .error e
        | .ok s => if (s.group c.place).exited == allLanes then .ok (checkGroup s c.place) else fillSlots s c f.chl)

/-- EXIT (R118). -/
def execExit (h : Hd) (s : State) : Host.Outcome State Fault Refusal := issue (shExit h) 0x09 3 h.st exitEff s
/-- EXIT, one word. -/
def execExitZ1 (f : F1) (s : State) : Host.Outcome State Fault Refusal := issue (shExitZ1 f) 0x09 1 f.st exitEff s

/-! ### YIELD and TRAP -/

/-- The exchange of the issuing fragment with the highest loadable FRAG entry (R123): none when there is no such entry, or no room for the
push. -/
def yieldSwap (s : State) (c : Iss) : Option (Except CsErr State) :=
  let f := theFrag s c
  match takeFrag s c with
  | .error e => some (.error e)
  | .ok (_, none) => none
  | .ok (s, some (i, e)) =>
    let owed := fget (s.group c.place).owed i 0
    match csFree s c.place i c.mask with
    | .error e => some (.error e)
    | .ok s =>
      if !pushRoom s c 1 then none
      else some (match csPush s c.place (newEntry c f .frag c.npc c.mask 0 0) c.mask with
        | .error e => .error e
        | .ok (j, s) =>
          let x := entryFrag s c f.chl e.mask e
          .ok (setSlot (oweEntry s c j) c c.slot (some { x with ready := max x.ready owed })))

/-- YIELD's effect: the exchange, or only the issue when it cannot be made or a translation of it would fault (R123). A filled entry that
breaks R109 ends the context as R112 gives (log 119). -/
def yieldEff (c : Iss) (s : State) : Eff :=
  match yieldSwap s c with
  | none => .go s
  | some (.ok s) => .own s
  | some (.error .absent) => .own { s with absent := true }
  | some (.error (.wait i write)) => .hold (csSnoop s c.place i write).2
  | some (.error (.fault f)) => if f.code = codeOf 0 cEngine then .trap s [f] else .go s

/-- YIELD (R123). -/
def execYield (h : Hd) (s : State) : Host.Outcome State Fault Refusal := issue (shYield h) 0x0A 3 h.st yieldEff s
/-- YIELD, one word. -/
def execYieldZ1 (f : F1) (s : State) : Host.Outcome State Fault Refusal := issue (shYieldZ1 f) 0x0A 1 f.st yieldEff s

/-- TRAP: its cause for the active lanes (R132). -/
def execTrap (h : Hd) (x : WTrap) (s : State) : Host.Outcome State Fault Refusal :=
  issue (shTrap h x) 0x0D 3 h.st (fun c s => .trap s [.plain (x.cause.setWidth 16) c.act]) s

/-! ### Traps of a first word -/

/-- A trap that the first word alone decides. -/
def wordTrap (cause len : Nat) (w : Word) (s : State) : Host.Outcome State Fault Refusal :=
  let g := s.group s.cur.1
  match g.frag s.cur.2 with
  | none => finish s
  | some f =>
    if !mayIssue s g f then finish s
    else
      let op : BitVec 8 := bits w 6 8
      let c : Iss := { place := s.cur.1, slot := s.cur.2, pc := f.pc, npc := f.pc + BitVec.ofNat 64 (4 * len), op := op, st := 0,
                       fmt := f.fmt, mask := f.mask, full := f.mask, act := f.mask, sup := f.sup }
      settleEff c none g (Eff.gate (asyncDue s s.cur.1 s.cur.2) s (.trap s [.plain (codeOf (classOf op) cause) f.mask]))

/-- ZERO_WORD (R64). -/
def execZeroWord (w : Word) (s : State) : Host.Outcome State Fault Refusal := wordTrap cZeroWord 1 w s
/-- ILLEGAL_OPCODE, of the class of the opcode's range (R62). -/
def execUnassignedOpcode (w : Word) (s : State) : Host.Outcome State Fault Refusal :=
  wordTrap cIllegalOpcode (if bits w 0 2 = 0 then 1 else if bits w 0 2 = 1 then 3 else 5) w s

end Sys2Proof.Machine
end

