-- ==== Sys2Proof/Machine/Space.lean ====
section
/-! DEFINITION. One access of an agent of a team to local memory, a stash window, or the generic address space: regions, stash fills
and upgrades, translation (R172 to R183, R196), each as one operation that answers the bytes, a fault or a wait. -/
namespace Sys2Proof.Machine

/-- How one access goes. `wait` carries what the map unit did meanwhile: a write-back record posted (R183). -/
inductive MemR (α : Type) where
  | ok (a : α) (s : State)
  | fault (f : FaultInfo)
  | wait (s : State)
  | absentMem

/-- An access fault of one cause; the lanes are filled in by the caller. -/
def accFault {α : Type} (cls cause kind : Nat) (addr : DWord) (first : Bool) : MemR α :=
  .fault { code := codeOf cls cause, mask := 0, addr := addr, kind := kind, first := first, det := [] }

/-- A translation that failed, as a fault of an engine class (R212, R427). -/
def xlFault {α : Type} (cls kind : Nat) (addr : DWord) : Xl → MemR α
  | .absentPage first => accFault cls cAbsent kind addr first
  | .prot => accFault cls cProt kind addr false
  | .malformed => accFault 3 cEngine kind addr false
  | .absentMem => .absentMem
  | .ok _ _ _ _ => .absentMem

/-! ### Stash lines as the team's own agents use them -/

/-- The live window that holds a team offset, and the line within it (R178). -/
def windowAt (t : Team) (off : Nat) : Option (Nat × Window × Nat) :=
  (t.windows.find? (fun w => decide (w.2.loff ≤ off) && decide (off < w.2.loff + w.2.size))).map
    (fun w => (w.1, w.2, (off - w.2.loff) / 256))

/-- The fill of an Invalid line (R180): translated with the permission of the window's mode, brought in coherently, Shared or Owned
after. Nothing happens to a line that is not Invalid. -/
def fillLine (s : State) (cls tid win ln : Nat) : MemR Unit :=
  match ffind s.teams tid with
  | none => .ok () s
  | some t => match ffind t.windows win with
    | none => .ok () s
    | some w =>
      if (ffind w.lines ln).isSome then .ok () s
      else
        let va := lineVa w ln
        let d := (s.ctx t.page).d
        match walkSnoop s d va.toNat (if w.rw then .w else .r) with
        | (false, s) => .wait s
        | (true, s) => match translate s d va.toNat (if w.rw then .w else .r) with
        | .ok k e base units =>
          if pteLoc e = 2 then accFault cls cProt kFill va false
          else if !deadNow s d va.toNat e && s.badAt k 256 then accFault cls cEngine kFill va false
          else match snoopRange s k 256 w.rw with
            | (false, s) => .wait s
            | (true, s) =>
              let s := sampleFree (noteAcc s d va.toNat e base units false) 0x02 t.core
              let s := s.setBytes (localKey t.core (t.base + w.loff + 256 * ln)) (leafBytes s d va.toNat e k 256)
              .ok () (setLineOf s tid win ln (some { owned := w.rw, dirty := 0, key := k }))
        | x => xlFault cls kFill va x

/-- Ownership of a Shared line of a read-write window before a write (R179). -/
def ownLine (s : State) (tid win ln : Nat) : MemR Unit :=
  match ((ffind s.teams tid).bind (fun t => ffind t.windows win)).bind (fun w => ffind w.lines ln) with
  | none => .ok () s
  | some l =>
    if l.owned then .ok () s
    else match snoop s l.key true (some (tid, win, ln)) with
      | (false, s) => .wait s
      | (true, s) => .ok () (setLineOf s tid win ln (some { l with owned := true, dirty := 0 }))

/-- The written bytes' mask bits of an Owned line (R179). -/
def markDirty (s : State) (tid win ln lo n : Nat) : State :=
  match ((ffind s.teams tid).bind (fun t => ffind t.windows win)).bind (fun w => ffind w.lines ln) with
  | none => s
  | some l => setLineOf s tid win ln (some { l with dirty := l.dirty ||| bitsOf 256 (fun i => decide (lo ≤ i) && decide (i < lo + n)) })

/-- The bytes of a queue place of a stream (R282). -/
def Stream.placeSize (x : Stream) : Nat := 32 * (if x.scatter then max (sizeBytes x.size) 4 + 4 else max (sizeBytes x.size) 4)

/-- The queue places of a stream that a range of team offsets touches. -/
def Stream.touched (x : Stream) (off n : Nat) : List Nat :=
  (List.range x.qdepth).filter (fun i =>
    decide (off < x.qoff + (i + 1) * x.placeSize) && decide (x.qoff + i * x.placeSize < off + n))

/-- Software has written a range of a team's memory: where it touches the queue area of a live stream the bytes stay undefined, and so do
the contents of the entries (R282). -/
def spoilQueues (s : State) (tid off n : Nat) : State :=
  let t := s.team tid
  if t.streams.all (fun x => (x.2.touched off n).isEmpty) then s
  else
    let s := s.setTeam tid { t with streams := t.streams.map (fun x => (x.1, { x.2 with spoilt := dedup (x.2.spoilt ++ x.2.touched off n) })) }
    s.undefRange (localKey t.core (t.base + off)) (localKey t.core (t.base + off) + n)

/-- An access of `n` bytes at a team offset, within one line (R173, R175, R196). `f` gives the new bytes of a write or an atomic from
the old ones; the answer is the old bytes. `addr` is the address a fault reports. -/
def locAccess (s : State) (cls kind tid off n : Nat) (addr : DWord) (f : Option (List Byte → List Byte)) : MemR (List Byte) :=
  let t := s.team tid
  if t.size < off + n then accFault cls cProt kind addr false
  else
    let k := localKey t.core (t.base + off)
    let go := fun (s : State) => match f with
      | none => s
      | some f => spoilQueues (s.setBytes k (f (s.bytesAt k n))) tid off n
    match windowAt t off with
    | none => .ok (s.bytesAt k n) (go s)
    | some (win, w, ln) =>
      match fillLine s cls tid win ln with
      | .fault x => .fault x
      | .wait s => .wait s
      | .absentMem => .absentMem
      | .ok _ s =>
        if f.isNone then .ok (s.bytesAt k n) s
        else if !w.rw then accFault cls cProt kind addr false
        else match ownLine s tid win ln with
          | .fault x => .fault x
          | .wait s => .wait s
          | .absentMem => .absentMem
          | .ok _ s => .ok (s.bytesAt k n) (markDirty (go s) tid win ln ((off - w.loff) % 256) n)

/-! ### The generic address space -/

/-- An access of `n` bytes in the translated region, within one page (R212, R214): first the walk, if one is needed, then
the access. A line of the team's own window that it reaches answers it as a
remote request (R179, log 136). A read of a DEAD page does not reach the frame (R223); another that meets an uncorrectable error is an
ENGINE_ERROR of its engine (R422). -/
def globAccess (s : State) (page cls kind n : Nat) (addr : DWord) (f : Option (List Byte → List Byte)) : MemR (List Byte) :=
  let d := (s.ctx page).d
  match walkSnoop s d addr.toNat (if f.isSome then .w else .r) with
  | (false, s) => .wait s
  | (true, s) => match translate s d addr.toNat (if f.isSome then .w else .r) with
  | .ok k e base units =>
    let dead := deadNow s d addr.toNat e
    if (f.isNone || kind == kAtomic) && !dead && s.badAt k n then accFault cls cEngine kind addr false
    else match reviveSnoop s d addr.toNat e f.isSome with
    | (false, s) => .wait s
    | (true, s) => match snoopRange s k n f.isSome with
    | (false, s) => .wait s
    | (true, s) =>
      let old := leafBytes s d addr.toNat e k n
      let s := noteAcc s d addr.toNat e base units f.isSome
      .ok old (match f with
        | none => if dead then s else toPeer s e k n false none
        | some f => (toPeer s e k n (kind == kAtomic) (some (f old))).setBytes k (f old))
  | x => xlFault cls kind addr x

/-- The team of a context that holds a byte range of a core's local memory (R174). -/
def teamAt (s : State) (page core off n : Nat) : Option Nat :=
  (s.teams.find? (fun t => t.2.page == page && t.2.core == core && decide (t.2.base ≤ off) &&
    decide (off + n ≤ t.2.base + t.2.size))).map (fun t => t.1)

/-- The team at a cluster position of a team's cluster (R173). -/
def clusterTeam (s : State) (tid pos : Nat) : Option Nat := if (s.team tid).clu.isNone then none else slotTeam s tid true pos

/-- An access of an agent of a team to a generic address (R172 to R174). -/
def genAccess (s : State) (page tid : Nat) (sup : Bool) (cls kind n : Nat) (addr : DWord) (f : Option (List Byte → List Byte)) :
    MemR (List Byte) :=
  let prot : MemR (List Byte) := accFault cls cProt kind addr false
  match regionOf addr with
  | .translated => if inTranslated addr n then globAccess s page cls kind n addr f else prot
  | .self off => locAccess s cls kind tid off n addr f
  | .cluster pos off => match clusterTeam s tid pos with
    | some u => locAccess s cls kind u off n addr f
    | none => prot
  | .aperture core off =>
    if !sup then prot
    else match teamAt s page core off n with
      | some u => locAccess s cls kind u (off - (s.team u).base) n addr f
      | none => prot
  | .reserved => prot

/-! ### The lanes of a memory instruction (R190, R196, R197) -/

/-- An accumulated run over lanes: the state, the values read by lane, the faults, and a wait that ends it. -/
structure LaneRun where
  s : State
  got : List (Nat × List Byte)
  faults : List FaultInfo
  wait : Option State
  absent : Bool

/-- One lane's access added to a run. -/
def LaneRun.add (r : LaneRun) (lane : Nat) (acc : State → MemR (List Byte)) : LaneRun :=
  if r.wait.isSome || r.absent then r
  else match acc r.s with
    | .ok b s => { r with s := s, got := r.got ++ [(lane, b)] }
    | .fault f => { r with faults := r.faults ++ [{ f with mask := maskOfList [lane] }] }
    | .wait s => { r with wait := some s }
    | .absentMem => { r with absent := true }

/-- Every lane's access in ascending lane index; completed lanes stay completed. -/
def runLanes (s : State) (ls : List Nat) (acc : Nat → State → MemR (List Byte)) : LaneRun :=
  ls.foldl (fun r l => r.add l (acc l)) { s := s, got := [], faults := [], wait := none, absent := false }

/-- What the map unit alone did for the access that has to wait: the access tried on the state before the instruction. -/
def waitState (s0 : State) (ls : List Nat) (acc : Nat → State → MemR (List Byte)) : State :=
  (firstSome (fun l => match acc l s0 with
    | .wait s => some s
    | _ => none) ls).getD s0

/-- ALIGN in the lanes whose address is not a multiple of the width: then no lane performs any access (R196). -/
def alignFaults (cls n kind : Nat) (ls : List Nat) (ea : Nat → DWord) : List FaultInfo :=
  (ls.filter (fun l => !aligned (ea l).toNat n)).map (fun l =>
    { code := codeOf cls cAlign, mask := maskOfList [l], addr := ea l, kind := kind, first := false, det := [] })

/-- A memory instruction over its active lanes: alignment, then each lane's access; `fin` writes what the completed lanes read. -/
def memLanes (c : Iss) (s : State) (cls n kind : Nat) (ea : Nat → DWord) (acc : Nat → State → MemR (List Byte))
    (fin : State → List (Nat × List Byte) → State) : Eff :=
  let ls := lanes c.act
  let bad := alignFaults cls n kind ls ea
  if !bad.isEmpty then .undone s bad
  else
    let r := runLanes s ls acc
    if r.wait.isSome then .hold (waitState s ls acc)
    else if r.absent then .own { s with absent := true }
    else
      let s' := fin r.s r.got
      if r.faults.isEmpty then .go s' else .trap s' r.faults

end Sys2Proof.Machine
end

