-- ==== Sys2Proof/Machine/Waits.lean ====
section
/-! DEFINITION. WAITC and YIELDC (R25, R124), and the resumption of a yielded group. -/
namespace Sys2Proof.Machine

/-- The 64-byte mask of a chunk-map test at a team offset, read at issue (R124, R248): `k` continues with its bits below EXPECT. -/
def withMask (c : Iss) (s : State) (cls : Nat) (off : Word) (x : Slot) (k : BitVec 512 → State → Eff) : Eff :=
  let a : DWord := zx off
  if !aligned off.toNat 64 then .trap s [{ FaultInfo.plain (codeOf cls cAlign) c.act with addr := a, kind := kRead }]
  else match locAccess s cls kRead (s.group c.place).team off.toNat 64 a none with
    | .ok b s => k (BitVec.ofNat 512 (leVal b % 2 ^ x.expect)) s
    | .fault f => .trap s [{ f with mask := c.act }]
    | .wait s => .hold s
    | .absentMem => .own { s with absent := true }

/-- The condition that a WAITC or YIELDC names (R124). -/
def withCond (x : WWait) (b : Nat) (c : Iss) (s : State) (k : Cond → State → Eff) : Eff :=
  let g := s.group c.place
  if x.kind = 0 then k (.counter x.cls.toNat x.thresh.toNat) s
  else match slotRef s g.team (x.slot.toNat, x.cl, x.cpos.toNat) with
    | none => .trap s [.plain (codeOf 0 cIllegalForm) c.act]
    | some r =>
      let sl := slotAt s r
      if invBusy s r then .hold s
      else if sl.kind != 2 then .trap s [.plain (codeOf 0 cIllegalForm) c.act]
      else withMask c s 0 (g.rs c.slot b) sl (fun m s => k (.chunk r sl.gen (x.kind == 2) m) s)

/-- A wait begins on a condition. -/
def joinCond (s : State) : Cond → State
  | .chunk r _ _ _ => joinSlot s r
  | .counter _ _ => s

/-- WAITC: the fragment goes on when its condition holds (R124). -/
def execWaitc (h : Hd) (x : WWait) (s : State) : Host.Outcome State Fault Refusal :=
  issue (shWaitc h x) 0x0C 3 h.st (fun c s => withCond x h.b.toNat c s (fun cd s =>
    if condTrue s (s.group c.place) cd then .go s
    else goGroup (joinCond s cd) c (fun g => g.modFrag c.slot (fun f => { f with wait := some (.cond cd) })))) s

/-- YIELDC: the group issues nothing until its condition holds (R25). -/
def execYieldc (h : Hd) (x : WWait) (s : State) : Host.Outcome State Fault Refusal :=
  issue (shYieldc h x) 0x0B 3 h.st (fun c s => withCond x h.b.toNat c s (fun cd s =>
    .own ((joinCond s cd).modGroup c.place (fun g =>
      { ((g.travel c.slot (1 + c.st)).modFrag c.slot (fun f => { f.after (nowAt s c.place) c none with pc := c.pc })) with
        yw := some { cond := cd, slot := c.slot, pc := relTo c (h.d ++ h.c), from_ := c.pc } })))) s

/-- YIELD_RESUME: a yielded group whose condition holds becomes eligible at its continuation PC; resumption is a drain (R25, R51). A wait that a
handler has interrupted goes on after the handler (R28). -/
def execYieldResume (place : Nat) (s : State) : Host.Outcome State Fault Refusal :=
  match ffind s.groups place with
  | none => event s
  | some g => match g.yw with
    | none => event s
    | some y =>
      if (s.ctx g.page).state != 2 || g.park.isSome || !condTrue s g y.cond then event s
      else
        event (s.modGroup place (fun g =>
          { g.drainPoint with yw := none }.modFrag y.slot (fun f => { f with pc := y.pc })))

end Sys2Proof.Machine
end

