-- ==== Sys2Proof/Machine/Barrier.lean ====
section
/-! DEFINITION. The barrier unit: its seven instructions (R242 to R249), engine arrivals from other cores (R238, R240), and the
watchdog (R250, R251). -/
namespace Sys2Proof.Machine

/-- A barrier instruction's slot (R244), and what it does with it: in the step of its issue also at a slot of another core (R240, DESIGN CHOICE, log
155). -/
def barEff (x : WSlot) (c : Iss) (s : State) (k : SlotRef → Slot → Eff) : Eff :=
  match slotRef s (s.group c.place).team (x.slot.toNat, x.cl, x.cpos.toNat) with
  | none => .trap s [.plain (codeOf 4 cIllegalForm) c.act]
  | some r => if invBusy s r then .hold s else k r (slotAt s r)

/-- A fault of a barrier instruction for its active lanes (R244). -/
def barTrap (s : State) (c : Iss) (cause : Nat) : Eff := .trap s [.plain (codeOf 4 cause) c.act]

/-- GEN advances and the slot becomes what `kind` says, at once or when its next generation becomes free (R239, R245, R249). -/
def renewEff (c : Iss) (s : State) (r : SlotRef) (kind expect : Nat) (part : Word) : Eff :=
  if genBusy s r then goGroup s c (fun g => g.modFrag c.slot (fun f => { f with wait := some (.inval r kind expect part) }))
  else .go (slotRenew s r kind expect part)

/-- BARINIT (R245). -/
def execBarinit (h : Hd) (x : WSlot) (s : State) : Host.Outcome State Fault Refusal :=
  issue (shBarinit h x) 0xB0 3 h.st (fun c s => barEff x c s (fun r sl =>
    let g := s.group c.place
    let map := bit h.mod 0
    let force := bit h.mod 1
    let v := (g.rs c.slot h.b.toNat).toNat
    let part : Word := if map then 0 else g.rs c.slot h.c.toNat
    let kind := if map then 2 else 1
    if v = 0 || (if map then 512 else 4095) < v then barTrap s c cIllegalForm
    else if !force && sl.kind == kind && sl.expect == v && (map || sl.part == part) then .go s
    else if !force && (nwait s r != 0 || sl.pend != 0) then barTrap s c cBarBusy
    else renewEff c (if force then slotRelease s r else s) r kind v part)) s

/-- BAREXP (R246). -/
def execBarexp (h : Hd) (x : WSlot) (s : State) : Host.Outcome State Fault Refusal :=
  issue (shBarexp h x) 0xB1 3 h.st (fun c s => barEff x c s (fun r sl =>
    let v := ((s.group c.place).rs c.slot h.b.toNat).toNat
    if sl.kind != 1 then barTrap s c cIllegalForm
    else if 2 ^ 39 ≤ sl.tx + v then barTrap s c cBarBusy
    else if v = 0 then .go s
    else .go (slotComplete (setSlotAt s r { sl with tx := sl.tx + v }) r))) s

/-- The arrival of a counting barrier instruction (R247): `k` gets the token after Complete(). -/
def arriveEff (c : Iss) (s : State) (r : SlotRef) (sl : Slot) (n : Nat) (k : Word → State → Eff) : Eff :=
  let g := s.group c.place
  if sl.kind != 1 || n = 0 || 4095 < n then barTrap s c cIllegalForm
  else if sl.expect < sl.arrived + n then barTrap s c cBarBusy
  else
    let m := if r.team = g.team then setBit sl.arrmask g.idx true else sl.arrmask
    k sl.token (slotComplete (setSlotAt s r { sl with arrived := sl.arrived + n, arrmask := m, age := 0 }) r)

/-- BARARV (R247). -/
def execBararv (h : Hd) (x : WSlot) (s : State) : Host.Outcome State Fault Refusal :=
  issue (shBararv h x) 0xB2 3 h.st (fun c s => barEff x c s (fun r sl =>
    let v := ((s.group c.place).rs c.slot h.b.toNat).toNat
    if bit h.mod 1 then
      if sl.kind != 2 || sl.expect ≤ v then barTrap s c cIllegalForm
      else .go (wakeConds (setSlotAt s r { sl with bits := setBit sl.bits v true, age := 0 }))
    else arriveEff c s r sl (if bit h.mod 0 then v else 1) (fun t s =>
      goGroup s c (fun g => g.put c.slot (shBararv h x).dst [(0, zx t)])))) s

/-- A wait on a token (R235): its result when it has ended. -/
def tokenEnds (sl : Slot) (t : Word) : Option Bool :=
  if bits t 16 16 != sl.gen then some false else if bits t 0 16 != sl.phase then some true else none

/-- A fragment waits on a token, or goes on at once with the wait's result in its active lanes (R248). -/
def waitToken (c : Iss) (s : State) (r : SlotRef) (t : Word) (pd : Nat) : Eff :=
  let s := if (tokenEnds (slotAt s r) t).isSome then sample s 0x06 (s.group c.place).core 0 else joinSlot s r
  goGroup s c (fun g =>
    let g := g.ripen c.slot (.p pd) c.act
    match tokenEnds (slotAt s r) t with
    | some ok => g.setWaited pd c.act ok
    | none => g.modFrag c.slot (fun f => { f with wait := some (.bar r t pd c.act) }))

/-- BARWAIT (R248). -/
def execBarwait (h : Hd) (x : WSlot) (s : State) : Host.Outcome State Fault Refusal :=
  issue (shBarwait h x) 0xB3 3 h.st (fun c s => barEff x c s (fun r sl =>
    let t := (s.group c.place).rs c.slot h.b.toNat
    if bits t 16 16 == sl.gen && sl.kind != 1 then barTrap s c cIllegalForm else waitToken c s r t h.a.toNat)) s

/-- BARARW (R247): an arrival, then a wait on its own token. -/
def execBararw (h : Hd) (x : WSlot) (s : State) : Host.Outcome State Fault Refusal :=
  issue (shBararw h x) 0xB4 3 h.st (fun c s => barEff x c s (fun r sl =>
    let v := ((s.group c.place).rs c.slot h.b.toNat).toNat
    arriveEff c s r sl (if bit h.mod 0 then v else 1) (fun t s => waitToken c s r t h.a.toNat))) s

/-- BARTEST (R248). -/
def execBartest (h : Hd) (x : WSlot) (s : State) : Host.Outcome State Fault Refusal :=
  issue (shBartest h x) 0xB5 3 h.st (fun c s => barEff x c s (fun r sl =>
    let t := (s.group c.place).rs c.slot h.b.toNat
    let put := fun (g : Group) (p : Nat) (b : Bool) => g.write c.slot (.p p) ((lanes c.act).map (fun l => (l, lo32 (truth b)))) 0
    if h.mod == 0 then
      let same := bits t 16 16 == sl.gen
      if same && sl.kind != 1 then barTrap s c cIllegalForm
      else goGroup s c (fun g => put (put g h.a.toNat (tokenEnds sl t == some true)) h.d.toNat (!same))
    else if sl.kind != 2 then barTrap s c cIllegalForm
    else withMask c s 4 t sl (fun m s =>
      let x := slotAt s r
      goGroup s c (fun g => put g h.a.toNat (if bit h.mod 0 then x.bits &&& m == m else x.bits &&& m != 0))))) s

/-- BARINV (R249). -/
def execBarinv (h : Hd) (x : WSlot) (s : State) : Host.Outcome State Fault Refusal :=
  issue (shBarinv h x) 0xB6 3 h.st (fun c s => barEff x c s (fun r _ =>
    renewEff c (slotRelease s r) r 0 0 0)) s

/-! ### Events -/

/-- The last arrival of an operation to come is its final one (R238, R259). -/
def passFinal (op : Nat) : List Arrival → List Arrival
  | [] => []
  | a :: l => if a.op == op then { a with final := true } :: l else a :: passFinal op l

/-- An arrival reaches its slot; while others of its operation are still on their way, none is final before the last of them (R238). -/
def landArrival (s : State) (a : Arrival) : State :=
  let more := s.arrivals.any (fun b => b.op == a.op)
  slotArrive (if a.final && more then { s with arrivals := passFinal a.op s.arrivals } else s) { a with final := a.final && !more }

/-- An arrival of an operation: in this cycle at a slot of the same core, if the cycle's order allows it, and later at one of another core
(R238, R240). -/
def postArrival (s : State) (o : Op) (r : SlotRef) (tag : BitVec 16) (b : Option Nat) (n : Nat) (final : Bool) : State :=
  let a : Arrival := { op := o.id, cls := classOf o.op, slot := r, tag := tag, bit := b, bytes := n, final := final,
                       frec := recOf s o.place o.pc }
  if (s.team r.team).core = o.core && arriveNow s a then landArrival s a else { s with arrivals := s.arrivals ++ [a] }

/-- ENGINE_ARRIVAL: an arrival on its way reaches its slot (R238, R240). -/
def execEngineArrival (n : Nat) (s : State) : Host.Outcome State Fault Refusal :=
  match s.arrivals[n]? with
  | some a =>
    if !arriveNow s a then event s
    else event (sweepTeams (settleInv (landArrival { s with arrivals := s.arrivals.eraseIdx n } a)))
  | none => event s

/-- A group of a context on a core is parked, in a handler or halted: AGE stands still (R250). -/
def ageStops (s : State) (page core : Nat) : Bool :=
  (s.ctx page).state != 2 ||
  s.groups.any (fun g => g.2.page == page && g.2.core == core && !g.2.ended && (g.2.park.isSome || g.2.h.slot.isSome))

/-- A slot's watchdog limit in cycles; 0 is none (R250). -/
def wdLimit (s : State) (t : Team) : Nat := (s.ctx t.page).d.wdcycles * 1024

/-- A slot whose AGE counts now. -/
def ageRuns (s : State) (tid : Nat) (t : Team) (n : Nat) : Bool :=
  nwait s { team := tid, slot := n } != 0 && !ageStops s t.page t.core

/-- The cycles that may pass for the cores that `on` accepts before a watchdog expires, at most n (R250). -/
def untilExpiry (s : State) (on : Nat → Bool) (n : Nat) : Nat :=
  s.teams.foldl (fun n t => t.2.slots.foldl (fun n x =>
    if on t.2.core && wdLimit s t.2 != 0 && ageRuns s t.1 t.2 x.1 then min n (wdLimit s t.2 - x.2.age.toNat) else n) n) n

/-- AGE of every slot of the cores that `on` accepts after n cycles (R250). -/
def ageSlots (s : State) (on : Nat → Bool) (n : Nat) : State :=
  { s with teams := s.teams.map (fun t => if !on t.2.core then t else (t.1, { t.2 with slots := t.2.slots.map (fun x =>
      (x.1, if nwait s { team := t.1, slot := x.1 } = 0 then { x.2 with age := 0 }
            else if ageStops s t.2.page t.2.core then x.2 else { x.2 with age := x.2.age + BitVec.ofNat 32 n })) })) }

/-- The expired slots of a context, by core and team slot number (R250). AGE is 32 bits and wraps: a limit of 2^32 cycles or more is never reached
(log 141). Of two slots of one core and number, in two teams, the one whose team stands first in the list comes first (DESIGN CHOICE, log 156). -/
def expired (s : State) (page : Nat) : List (Nat × Nat × Nat) :=
  sortBy (fun a b => decide (a.1 < b.1) || (a.1 == b.1 && decide (a.2.2 ≤ b.2.2)))
    (s.teams.flatMap (fun t => if t.2.page != page || wdLimit s t.2 = 0 then [] else
      (t.2.slots.filter (fun x => decide (wdLimit s t.2 ≤ x.2.age.toNat) && ageRuns s t.1 t.2 x.1)).map (fun x => (t.2.core, t.1, x.1))))

/-- ID, COUNTS and STATE of a slot (R251). -/
def wdWords (x : Slot) (num n : Nat) : Word × Word × Word :=
  (BitVec.ofNat 32 (x.gen.toNat * 65536 + x.kind * 1024 + num),
   BitVec.ofNat 32 ((if x.kind = 2 then popc x.bits else x.arrived) * 65536 + x.expect),
   BitVec.ofNat 32 (min n 255 * 65536 + x.phase.toNat))

/-- An entry of the diagnostic block (R251). -/
def wdEntry (s : State) (w : Waiter) : List Byte :=
  let g := s.group w.place
  leBytes 8 w.pc.toNat ++ leBytes 4 w.mask.toNat ++
  leBytes 4 (g.core * 65536 + natOf w.soft * 32768 + w.slot * 16384 + g.gslot * 256 + g.idx)

/-- The diagnostic block after its SEQ (R251). -/
def wdBlock (s : State) (r : SlotRef) (ws : List Waiter) : List Byte :=
  let x := slotAt s r
  let (id, counts, st) := wdWords x r.slot ws.length
  leBytes 4 id.toNat ++ leBytes 4 counts.toNat ++ leBytes 4 st.toNat ++
  leBytes 8 (BitVec.ofInt 64 x.tx).toNat ++ leBytes 4 x.part.toNat ++ leBytes 4 x.arrmask.toNat ++ leBytes 4 (min ws.length 64) ++
  leBytes 4 (s.team r.team).core ++ leBytes 24 0 ++ leBytes 64 (if x.kind = 1 then 0 else x.bits.toNat) ++ (ws.take 64).flatMap (wdEntry s)

/-- A quadrant of a core still has an instruction to issue in this cycle: it comes before a watchdog's expiry (R240). -/
def coreMayIssue (s : State) (core : Nat) : Bool :=
  s.groups.any (fun g => g.2.core == core && mayIssueNow s core g.2.quad &&
    [g.2.slot0, g.2.slot1].any (fun f => f.any (fun x => x.since.isSome && mayIssue s g.2 x)))

/-- BARRIER_WATCHDOG_EXPIRY: the slot and its waiters are captured, and the context ends (R251). -/
def execBarrierWatchdogExpiry (team slot : Nat) (s : State) : Host.Outcome State Fault Refusal :=
  let t := s.team team
  if (expired s t.page).head? != some (t.core, team, slot) || coreMayIssue s t.core then event s
  else
    let r : SlotRef := { team := team, slot := slot }
    let x := slotAt s r
    let ws := waiters s r
    let d := (s.ctx t.page).d
    let (id, counts, st) := wdWords x slot ws.length
    match ws.head? with
    | none => event s
    | some w =>
      let base := recOf s w.place w.pc
      let rec_ : FRec := { base with code := codeOf 4 cBarTimeout, mask := w.mask, d0 := id, d1 := counts,
                                     d2 := if x.kind = 2 then 0 else x.part &&& ~~~x.arrmask, d3 := st }
      let s' := doom s t.page rec_
      event (if d.wddiag = 0 then s' else s'.setCtx t.page { s'.ctx t.page with block := some (wdBlock s r ws) })

end Sys2Proof.Machine
end

