-- ==== Sys2Proof/Machine/Engine.lean ====
section
/-! DEFINITION. What the engines share: accesses to ranges by an asynchronous operation (R263), operation slots, counters and slot
registration (R16 to R20, R237), completion, and the stop and continuation of an operation at a fault (R28). -/
namespace Sys2Proof.Machine

/-- One access after another. -/
def MemR.bind {α β : Type} (r : MemR α) (k : α → State → MemR β) : MemR β :=
  match r with
  | .ok a s => k a s
  | .fault f => .fault f
  | .wait s => .wait s
  | .absentMem => .absentMem

/-- On whose behalf an engine makes an access, and the state before the attempt: the state to which a wait goes back. -/
structure Eng where
  s0 : State
  page : Nat
  tid : Nat
  cls : Nat

/-- One access of an engine within a line: at a team offset when `loc`, at a generic address otherwise. -/
def engOne (e : Eng) (loc : Bool) (kind n : Nat) (a : DWord) (f : Option (List Byte → List Byte)) (s : State) : MemR (List Byte) :=
  let go := fun (s : State) => if loc then locAccess s e.cls kind e.tid a.toNat n a f else genAccess s e.page e.tid false e.cls kind n a f
  match go s with
  | .wait _ => match go e.s0 with
    | .wait s' => .wait s'
    | _ => .wait e.s0
  | r => r

/-- The pieces of a range that lie within one line: offset and length. -/
def linePieces : Nat → Nat → Nat → List (Nat × Nat)
  | 0, _, _ => []
  | f + 1, a, n =>
    if n = 0 then []
    else
      let k := min n (256 - a % 256)
      (a, k) :: linePieces f (a + k) (n - k)

/-- The pieces of a range of n bytes from an address, by offset within the range. -/
def piecesOf (a : DWord) (n : Nat) : List (Nat × Nat) := (linePieces (n / 256 + 2) a.toNat n).map (fun p => (p.1 - a.toNat, p.2))

/-- A range read (R263). -/
def engRead (e : Eng) (loc : Bool) (kind : Nat) (a : DWord) (n : Nat) (s : State) : MemR (List Byte) :=
  (piecesOf a n).foldl (fun r p => r.bind (fun l s =>
    (engOne e loc kind p.2 (plus a p.1) none s).bind (fun b s => .ok (l ++ b) s))) (.ok [] s)

/-- A range written. -/
def engWrite (e : Eng) (loc : Bool) (kind : Nat) (a : DWord) (bs : List Byte) (s : State) : MemR Unit :=
  (piecesOf a bs.length).foldl (fun r p => r.bind (fun _ s =>
    (engOne e loc kind p.2 (plus a p.1) (some (fun _ => (bs.drop p.1).take p.2)) s).bind (fun _ s => .ok () s))) (.ok () s)

/-- Several ranges, each with its own access, in order. -/
def engAll {α β : Type} (f : α → State → MemR β) (l : List α) (s : State) : MemR (List β) :=
  l.foldl (fun r x => r.bind (fun acc s => (f x s).bind (fun b s => .ok (acc ++ [b]) s))) (.ok [] s)

/-- A range lies where an engine's access may go (R310, R341): in the translated region, or in one window of R172 within the named
team's allocation. -/
def rangeThere (s : State) (tid : Nat) (a : DWord) (n : Nat) : Bool :=
  n = 0 || match regionOf a with
    | .translated => inTranslated a n
    | .self off => decide (off + n ≤ (s.team tid).size)
    | .cluster pos off => match clusterTeam s tid pos with
      | some u => decide (off + n ≤ (s.team u).size)
      | none => false
    | _ => false

/-- A range of a team's offsets touches a live read-only window. -/
def hitsReadOnly (t : Team) (off n : Nat) : Bool :=
  t.windows.any (fun w => !w.2.rw && decide (off < w.2.loff + w.2.size) && decide (w.2.loff < off + n))

/-- A range of a team's offsets touches a live window. -/
def hitsWindow (t : Team) (off n : Nat) : Bool :=
  t.windows.any (fun w => decide (off < w.2.loff + w.2.size) && decide (w.2.loff < off + n))

/-! ### Acceptance (R16 to R20, R237) -/

/-- Since when a fragment has been stalled for a resource that it would take now. One that R20 has stalled at a full counter with room again is
stalled for an operation slot, since that stall began. -/
def stalledFor (g : Group) (why : Nat) (f : Frag) : Option Nat :=
  f.stalled.bind (fun x =>
    if x.2 == why || (why == 1 && decide (16 ≤ x.2) && decide (fget g.cnt (x.2 - 16) 0 < 255)) then some x.1 else none)

/-- A fragment of the core has been stalled longer for a resource than the issuing one, and may issue (R20, R274). -/
def longerStalled (s : State) (c : Iss) (why : Nat) : Bool :=
  let g := s.group c.place
  let mine := ((g.frag c.slot).bind (stalledFor g why)).getD (s.clkOf g.core)
  s.groups.any (fun p => p.2.core == g.core && [0, 1].any (fun sl =>
    (p.1, sl) != (c.place, c.slot) && match p.2.frag sl with
      | some f => mayIssue s p.2 f && match stalledFor p.2 why f with
        | some t => decide (t < mine) || (t == mine && decide (p.2.quad < g.quad))
        | none => false
      | none => false))

/-- What an issue that needs an operation slot and counts in some classes has to wait for: nothing, the counter of class k (16 + k), or a slot (1). -/
def slotRoom (s : State) (c : Iss) (classes : List Nat) : Option Nat :=
  let g := s.group c.place
  match classes.find? (fun k => decide (255 ≤ fget g.cnt k 0)) with
  | some k => some (16 + k)
  | none =>
    if 256 ≤ (s.ops.filter (fun o => o.core == g.core)).length || longerStalled s c 1 then some 1
    else none

/-- The registration of a command at a slot (R237): none when it fails, `some none` when the command names no slot. -/
def registerAt (s : State) (c : Iss) (rep : Bool) (x : Nat × Bool × Nat) (ok : Slot → Bool) : Option (Option (SlotRef × BitVec 16)) :=
  if !rep then some none
  else match slotRef s (s.group c.place).team x with
    | none => none
    | some r => if ok (slotAt s r) then some (some (r, (slotAt s r).gen)) else none

/-- The slot that a command names takes no event before an invalidation of it is complete (R239, R240). -/
def registerWaits (s : State) (c : Iss) (rep : Bool) (x : Nat × Bool × Nat) : Bool :=
  rep && match slotRef s (s.group c.place).team x with
    | some r => invBusy s r
    | none => false

/-- An operation accepted: counters, registration, its place in issue order (R17, R237). Answers its number. -/
def acceptOp (s : State) (c : Iss) (classes : List Nat) (reg : Option (SlotRef × BitVec 16)) (flags : Flags) (k : OpKind) : Nat × State :=
  let (id, s) := s.draw
  let g := s.group c.place
  let s := match reg with
    | some (r, _) => setSlotAt s r { slotAt s r with pend := (slotAt s r).pend + 1 }
    | none => s
  let s := s.modGroup c.place (fun g => { g with cnt := classes.foldl (fun m k => fset m k 0 (fget m k 0 + 1)) g.cnt })
  (id, { s with ops := s.ops ++ [{ id := id, place := c.place, page := g.page, team := g.team, core := g.core, pc := c.pc, op := c.op,
                                   fmt := c.fmt, reg := reg, todo := classes, ripe := [], stop := none, flags := flags, kind := k }] })

/-- Issue and acceptance together: the instruction stalls while there is no room (R20). -/
def acceptEff (s : State) (c : Iss) (classes : List Nat) (reg : Option (SlotRef × BitVec 16)) (flags : Flags) (k : OpKind) : Eff :=
  match slotRoom s c classes with
  | some why => .holdFor why s
  | none => .go (acceptOp s c classes reg flags k).2

/-! ### Progress -/

/-- An accepted operation. -/
def opById (s : State) (id : Nat) : Option Op := s.ops.find? (fun o => o.id == id)

/-- A class of an operation has completed: it may retire once older operations of its class have. -/
def opRipe (s : State) (id cls : Nat) : State :=
  modOp s id (fun o => if o.todo.contains cls then { o with todo := o.todo.filter (fun k => k != cls), ripe := o.ripe ++ [cls] } else o)

/-- The agent that an operation is (R198): its team's engine. -/
def Op.eng (o : Op) (s : State) (cls : Nat) : Eng := { s0 := s, page := o.page, tid := o.team, cls := cls }

/-- The operation's group has ended. -/
def opOrphan (s : State) (o : Op) : Bool :=
  match ffind s.groups o.place with
  | some g => g.ended
  | none => true

/-- The end of a context by a fault of an accepted operation (R427). -/
def doomOp (s : State) (o : Op) (f : FaultInfo) : State :=
  doom s o.page { recOf s o.place o.pc with
    code := f.code, kind := f.kind, mask := allLanes, va := f.addr,
    d0 := f.det.getD 0 0, d1 := f.det.getD 1 0, d2 := f.det.getD 2 0, d3 := f.det.getD 3 0 }

/-- An operation stops at its restart point with faults to deliver (R28). -/
def stopOp (s : State) (id : Nat) (fs : List FaultInfo) : State :=
  modOp s id (fun o => { o with stop := some { faults := fs, sent := false, tickets := [] } })

/-- A fault that ends the context whatever the handler, or one that stops the operation. -/
def faultOp (s : State) (o : Op) (f : FaultInfo) : State :=
  if causeOf f.code == cEngine then doomOp s o f else stopOp s o.id [f]

/-- A copy's unfinished chunks are handed to Skesunal's remainder service with one record (R266, R267). -/
def handOff (s : State) (o : Op) (f : FaultInfo) : State :=
  let fill := isCfill s (s.ctx o.page).d f.code f.addr
  let r : FRec := { recOf s o.place o.pc with
             code := f.code, kind := f.kind, va := f.addr, mask := allLanes, flags := flLast ||| (if fill then flCfill else 0),
             d0 := f.det.getD 0 0, d1 := f.det.getD 1 0, d2 := f.det.getD 2 0, d3 := f.det.getD 3 0 }
  let (t, s) := postWaiting s o.page r fill none (some o.id) none
  modOp s o.id (fun o => { o with stop := none, kind := match o.kind with
    | .copy c => .copy { c with rem := some (t, false) }
    | k => k })

/-- An operation continues from its restart point (R28, R289). -/
def resumeOp (s : State) (id : Nat) : State :=
  modOp s id (fun o => { o with stop := none, kind := match o.kind with
    | .direct d => .direct { d with faulted := [] }
    | k => k })

/-- An attempt's answer as an event's state: what `k` makes of it, a fault by `flt`, or a wait. -/
def attempt {α : Type} (s : State) (r : MemR α) (flt : FaultInfo → State) (k : α → State → State) : State :=
  match r with
  | .ok a s => k a s
  | .fault f => flt f
  | .wait s => s
  | .absentMem => { s with absent := true }

end Sys2Proof.Machine
end

