-- ==== Sys2Proof/WellFormed.lean ====
section
/-! DEFINITION. Which instructions are well formed: those whose words no rule refuses (step 5 of R65). The rules themselves
are in Machine/Form.lean. -/
namespace Sys2Proof

/-- An instruction that some words encode and that its words alone do not make ILLEGAL_FORM. -/
def WellFormed (i : Instr) : Bool := (Machine.rawOf i).isSome && Machine.formOk i

end Sys2Proof
end

