-- ==== Sys2Proof/Decode.lean ====
section
/-! DEFINITION. Decoding, total on any bytes, and the encoder that inverts it. A word that is no instruction is rejected by name;
the two traps that one word alone decides (ZERO_WORD and ILLEGAL_OPCODE) decode to their own rows. -/
namespace Sys2Proof

open Machine

/-- Why bytes decode to no instruction. -/
inductive DecodeError where
  /-- fewer bytes than the instruction has -/
  | short
  /-- a continuation word as first word: MISALIGNED_TARGET (R37) -/
  | misaligned
  /-- ILLEGAL_FORM (R37, R63, R65) -/
  | illegalForm
  deriving DecidableEq, Repr

/-- Words of an instruction by LEN (R36); none for a continuation word. -/
def lenOf (w : Word) : Option Nat :=
  match (bits w 0 2).toNat with
  | 0 => some 1
  | 1 => some 3
  | 2 => some 5
  | _ => none

/-- The opcode in a first word (R36). -/
def opOf (w : Word) : BitVec 8 := bits w 6 8

/-- The opcodes R61 assigns, 0x00 apart. -/
def assigned (op : BitVec 8) : Bool :=
  let n := op.toNat
  [(0x01, 0x29), (0x30, 0x46), (0x48, 0x51), (0x58, 0x62), (0x64, 0x6F), (0x90, 0x9F), (0xA8, 0xAC), (0xB0, 0xB6), (0xB8, 0xBC),
   (0xC0, 0xCF), (0xD8, 0xDC), (0xE0, 0xE6), (0xEC, 0xEE), (0xFF, 0xFF)].any (fun r => decide (r.1 ≤ n) && decide (n ≤ r.2))

/-- The fields of the words of an instruction of `n` words (R36, R39, R43). -/
def rawOfWords (n : Nat) (w0 w1 w2 w3 w4 : Word) : Raw :=
  let far := n != 1
  let five := n == 5
  { len := n, op := opOf w0, b := bits w0 23 9, a := bits w0 14 9, st := bits w0 2 4,
    mod := if far then bits w1 26 6 else 0, hold := if far then bits w1 24 2 else 0, guard := if far then bits w1 20 4 else 0,
    d := if far then bits w1 11 9 else 0, c := if far then bits w1 2 9 else 0, x := if far then bits w2 2 30 else 0,
    lit := if five then bits w4 2 30 ++ bits w3 2 30 else 0 }

/-- An instruction whose word 2 must be zero but for its continuation bits. -/
def noX (r : Raw) (i : Instr) : Option Instr := if r.x = 0 then some i else none

/-- An instruction with a word-2 layout: reserved bits must be zero (R3), which writing the layout back shows. -/
def withX {α : Type} (r : Raw) (toBits : α → BitVec 30) (ofBits : BitVec 30 → α) (mk : α → Instr) : Option Instr :=
  if toBits (ofBits r.x) = r.x then some (mk (ofBits r.x)) else none

/-- The one-word instruction of an opcode (R63). -/
noncomputable def ofRaw1 (r : Raw) : Option Instr :=
  match r.op.toNat with
  | 0x01 => some (.nopZ1 (f1Of r))
  | 0x02 => some (.braJ1 (f1Of r))
  | 0x06 => some (.callJ1 (f1Of r))
  | 0x08 => some (.retZ1 (f1Of r))
  | 0x09 => some (.exitZ1 (f1Of r))
  | 0x0A => some (.yieldZ1 (f1Of r))
  | 0x0E => some (.svret (f1Of r))
  | 0x10 => some (.saddI1 (f1Of r))
  | 0x11 => some (.ssubI1 (f1Of r))
  | 0x12 => some (.smulI1 (f1Of r))
  | 0x13 => some (.smulhI1 (f1Of r))
  | 0x14 => some (.sandI1 (f1Of r))
  | 0x15 => some (.sorI1 (f1Of r))
  | 0x16 => some (.sxorI1 (f1Of r))
  | 0x17 => some (.sshlI1 (f1Of r))
  | 0x18 => some (.sshrI1 (f1Of r))
  | 0x19 => some (.ssraI1 (f1Of r))
  | 0x1A => some (.sminI1 (f1Of r))
  | 0x1B => some (.smaxI1 (f1Of r))
  | 0x1E => some (.smovU1 (f1Of r))
  | 0x1F => some (.sldiM1 (f1Of r))
  | 0x21 => some (.sffsU1 (f1Of r))
  | 0x22 => some (.spopU1 (f1Of r))
  | 0x23 => some (.rsrU1 (f1Of r))
  | 0x24 => some (.wsrU1 (f1Of r))
  | 0x30 => some (.iaddI1 (f1Of r))
  | 0x31 => some (.isubI1 (f1Of r))
  | 0x32 => some (.imulI1 (f1Of r))
  | 0x33 => some (.imulhI1 (f1Of r))
  | 0x35 => some (.iabsU1 (f1Of r))
  | 0x36 => some (.inegU1 (f1Of r))
  | 0x37 => some (.iminI1 (f1Of r))
  | 0x38 => some (.imaxI1 (f1Of r))
  | 0x3B => some (.ishlI1 (f1Of r))
  | 0x3C => some (.ishrI1 (f1Of r))
  | 0x3D => some (.israI1 (f1Of r))
  | 0x3E => some (.iandI1 (f1Of r))
  | 0x3F => some (.iorI1 (f1Of r))
  | 0x40 => some (.ixorI1 (f1Of r))
  | 0x42 => some (.popcU1 (f1Of r))
  | 0x43 => some (.clzU1 (f1Of r))
  | 0x44 => some (.brevU1 (f1Of r))
  | 0x6E => some (.movU1 (f1Of r))
  | 0x6F => some (.moviM1 (f1Of r))
  | 0x9A => some (.fenceZ1 (f1Of r))
  | _ => none

/-- The three-word instruction of an opcode (R63). -/
noncomputable def ofRaw3 (r : Raw) : Option Instr :=
  match r.op.toNat with
  | 0x01 => noX r (.nop (hdOf r))
  | 0x02 => withX r wOffBits wOffOf (fun x => .bra (hdOf r) x)
  | 0x03 => noX r (.brx (hdOf r))
  | 0x04 => withX r wOffBits wOffOf (fun x => .brc (hdOf r) x)
  | 0x05 => withX r wOffBits wOffOf (fun x => .join (hdOf r) x)
  | 0x06 => withX r wOffBits wOffOf (fun x => .call (hdOf r) x)
  | 0x07 => noX r (.callx (hdOf r))
  | 0x08 => noX r (.ret (hdOf r))
  | 0x09 => noX r (.exit (hdOf r))
  | 0x0A => noX r (.yield (hdOf r))
  | 0x0B => withX r wWaitBits wWaitOf (fun x => .yieldc (hdOf r) x)
  | 0x0C => withX r wWaitBits wWaitOf (fun x => .waitc (hdOf r) x)
  | 0x0D => withX r wTrapBits wTrapOf (fun x => .trap (hdOf r) x)
  | 0x0F => withX r wLutBits wLutOf (fun x => .plop (hdOf r) x)
  | 0x10 => withX r wAluBits wAluOf (fun x => .sadd (hdOf r) x)
  | 0x11 => withX r wAluBits wAluOf (fun x => .ssub (hdOf r) x)
  | 0x12 => withX r wAluBits wAluOf (fun x => .smul (hdOf r) x)
  | 0x13 => withX r wAluBits wAluOf (fun x => .smulh (hdOf r) x)
  | 0x14 => withX r wAluBits wAluOf (fun x => .sand (hdOf r) x)
  | 0x15 => withX r wAluBits wAluOf (fun x => .sor (hdOf r) x)
  | 0x16 => withX r wAluBits wAluOf (fun x => .sxor (hdOf r) x)
  | 0x17 => withX r wAluBits wAluOf (fun x => .sshl (hdOf r) x)
  | 0x18 => withX r wAluBits wAluOf (fun x => .sshr (hdOf r) x)
  | 0x19 => withX r wAluBits wAluOf (fun x => .ssra (hdOf r) x)
  | 0x1A => withX r wAluBits wAluOf (fun x => .smin (hdOf r) x)
  | 0x1B => withX r wAluBits wAluOf (fun x => .smax (hdOf r) x)
  | 0x1C => withX r wAluBits wAluOf (fun x => .ssel (hdOf r) x)
  | 0x1D => withX r wAluBits wAluOf (fun x => .scmp (hdOf r) x)
  | 0x1E => withX r wAluBits wAluOf (fun x => .smov (hdOf r) x)
  | 0x1F => withX r wAluBits wAluOf (fun x => .sldi (hdOf r) x)
  | 0x20 => withX r wSldkBits wSldkOf (fun x => .sldk (hdOf r) x)
  | 0x21 => withX r wTyBits wTyOf (fun x => .sffs (hdOf r) x)
  | 0x22 => withX r wTyBits wTyOf (fun x => .spop (hdOf r) x)
  | 0x23 => noX r (.rsr (hdOf r))
  | 0x24 => noX r (.wsr (hdOf r))
  | 0x25 => withX r wNibBits wNibOf (fun x => .reggive (hdOf r) x)
  | 0x26 => withX r wNibBits wNibOf (fun x => .regclaim (hdOf r) x)
  | 0x27 => withX r wVtosBits wVtosOf (fun x => .vtos (hdOf r) x)
  | 0x28 => withX r wTyBits wTyOf (fun x => .stov (hdOf r) x)
  | 0x29 => withX r wLutBits wLutOf (fun x => .klop (hdOf r) x)
  | 0x30 => withX r wAluBits wAluOf (fun x => .iadd (hdOf r) x)
  | 0x31 => withX r wAluBits wAluOf (fun x => .isub (hdOf r) x)
  | 0x32 => withX r wAluBits wAluOf (fun x => .imul (hdOf r) x)
  | 0x33 => withX r wAluBits wAluOf (fun x => .imulh (hdOf r) x)
  | 0x34 => withX r wAluBits wAluOf (fun x => .imad (hdOf r) x)
  | 0x35 => withX r wAluBits wAluOf (fun x => .iabs (hdOf r) x)
  | 0x36 => withX r wAluBits wAluOf (fun x => .ineg (hdOf r) x)
  | 0x37 => withX r wAluBits wAluOf (fun x => .imin (hdOf r) x)
  | 0x38 => withX r wAluBits wAluOf (fun x => .imax (hdOf r) x)
  | 0x39 => withX r wAluBits wAluOf (fun x => .icmp (hdOf r) x)
  | 0x3A => withX r wAluBits wAluOf (fun x => .isel (hdOf r) x)
  | 0x3B => withX r wAluBits wAluOf (fun x => .ishl (hdOf r) x)
  | 0x3C => withX r wAluBits wAluOf (fun x => .ishr (hdOf r) x)
  | 0x3D => withX r wAluBits wAluOf (fun x => .isra (hdOf r) x)
  | 0x3E => withX r wAluBits wAluOf (fun x => .iand (hdOf r) x)
  | 0x3F => withX r wAluBits wAluOf (fun x => .ior (hdOf r) x)
  | 0x40 => withX r wAluBits wAluOf (fun x => .ixor (hdOf r) x)
  | 0x41 => withX r wLop3Bits wLop3Of (fun x => .lop3 (hdOf r) x)
  | 0x42 => withX r wAluBits wAluOf (fun x => .popc (hdOf r) x)
  | 0x43 => withX r wAluBits wAluOf (fun x => .clz (hdOf r) x)
  | 0x44 => withX r wAluBits wAluOf (fun x => .brev (hdOf r) x)
  | 0x45 => withX r wAluBits wAluOf (fun x => .bfe (hdOf r) x)
  | 0x46 => withX r wAluBits wAluOf (fun x => .bfi (hdOf r) x)
  | 0x48 => withX r wAluBits wAluOf (fun x => .fadd (hdOf r) x)
  | 0x49 => withX r wAluBits wAluOf (fun x => .fsub (hdOf r) x)
  | 0x4A => withX r wAluBits wAluOf (fun x => .fmul (hdOf r) x)
  | 0x4B => withX r wAluBits wAluOf (fun x => .ffma (hdOf r) x)
  | 0x4C => withX r wAluBits wAluOf (fun x => .fmin (hdOf r) x)
  | 0x4D => withX r wAluBits wAluOf (fun x => .fmax (hdOf r) x)
  | 0x4E => withX r wAluBits wAluOf (fun x => .fcmp (hdOf r) x)
  | 0x4F => withX r wAluBits wAluOf (fun x => .frnd (hdOf r) x)
  | 0x50 => withX r wAluBits wAluOf (fun x => .fclass (hdOf r) x)
  | 0x51 => withX r wAluBits wAluOf (fun x => .fscale (hdOf r) x)
  | 0x58 => withX r wAluBits wAluOf (fun x => .frcp (hdOf r) x)
  | 0x59 => withX r wAluBits wAluOf (fun x => .frsq (hdOf r) x)
  | 0x5A => withX r wAluBits wAluOf (fun x => .fsqrt (hdOf r) x)
  | 0x5B => withX r wAluBits wAluOf (fun x => .fex2 (hdOf r) x)
  | 0x5C => withX r wAluBits wAluOf (fun x => .flg2 (hdOf r) x)
  | 0x5D => withX r wAluBits wAluOf (fun x => .fsin (hdOf r) x)
  | 0x5E => withX r wAluBits wAluOf (fun x => .fcos (hdOf r) x)
  | 0x5F => withX r wAluBits wAluOf (fun x => .ftanh (hdOf r) x)
  | 0x60 => withX r wAluBits wAluOf (fun x => .hadd2 (hdOf r) x)
  | 0x61 => withX r wAluBits wAluOf (fun x => .hmul2 (hdOf r) x)
  | 0x62 => withX r wAluBits wAluOf (fun x => .hfma2 (hdOf r) x)
  | 0x64 => withX r wCvtBits wCvtOf (fun x => .cvt (hdOf r) x)
  | 0x65 => withX r wCvtBits wCvtOf (fun x => .cvtn (hdOf r) x)
  | 0x66 => withX r wCvtBits wCvtOf (fun x => .pack4 (hdOf r) x)
  | 0x67 => withX r wCvtBits wCvtOf (fun x => .unpk4 (hdOf r) x)
  | 0x68 => withX r wShflBits wShflOf (fun x => .shfl (hdOf r) x)
  | 0x69 => noX r (.ballot (hdOf r))
  | 0x6A => withX r wVoteBits wVoteOf (fun x => .vote (hdOf r) x)
  | 0x6B => withX r wAluBits wAluOf (fun x => .psum (hdOf r) x)
  | 0x6C => withX r wReduxBits wReduxOf (fun x => .redux (hdOf r) x)
  | 0x6D => withX r wTyBits wTyOf (fun x => .matchV (hdOf r) x)
  | 0x6E => withX r wAluBits wAluOf (fun x => .mov (hdOf r) x)
  | 0x6F => withX r wAluBits wAluOf (fun x => .movi (hdOf r) x)
  | 0x90 => withX r wMemBits wMemOf (fun x => .ld (hdOf r) x)
  | 0x91 => withX r wMemBits wMemOf (fun x => .st (hdOf r) x)
  | 0x92 => withX r wMemBits wMemOf (fun x => .ldl (hdOf r) x)
  | 0x93 => withX r wMemBits wMemOf (fun x => .stl (hdOf r) x)
  | 0x94 => withX r wMemBits wMemOf (fun x => .ldc (hdOf r) x)
  | 0x95 => withX r wMemBits wMemOf (fun x => .lda (hdOf r) x)
  | 0x96 => withX r wMemBits wMemOf (fun x => .strel (hdOf r) x)
  | 0x97 => withX r wAtomBits wAtomOf (fun x => .atom (hdOf r) x)
  | 0x98 => withX r wAtomBits wAtomOf (fun x => .atoml (hdOf r) x)
  | 0x99 => withX r wAtomBits wAtomOf (fun x => .red (hdOf r) x)
  | 0x9A => withX r wFenceBits wFenceOf (fun x => .fence (hdOf r) x)
  | 0x9B => withX r wMemBits wMemOf (fun x => .pref (hdOf r) x)
  | 0x9C => withX r wStashBits wStashOf (fun x => .stashmap (hdOf r) x)
  | 0x9D => withX r wStashBits wStashOf (fun x => .stashunmap (hdOf r) x)
  | 0x9E => withX r wStashBits wStashOf (fun x => .stashsync (hdOf r) x)
  | 0x9F => withX r wStashBits wStashOf (fun x => .stashinv (hdOf r) x)
  | 0xA8 => noX r (.discard (hdOf r))
  | 0xA9 => withX r wHintBits wHintOf (fun x => .pghint (hdOf r) x)
  | 0xAA => if bit r.mod 0 then noX r (.pgpoolPut (hdOf r)) else noX r (.pgpoolGet (hdOf r))
  | 0xAB => if bit r.mod 1 then noX r (.pgmapFwd (hdOf r)) else noX r (.pgmap (hdOf r))
  | 0xAC => noX r (.tlbinv (hdOf r))
  | 0xB0 => withX r wSlotBits wSlotOf (fun x => .barinit (hdOf r) x)
  | 0xB1 => withX r wSlotBits wSlotOf (fun x => .barexp (hdOf r) x)
  | 0xB2 => withX r wSlotBits wSlotOf (fun x => .bararv (hdOf r) x)
  | 0xB3 => withX r wSlotBits wSlotOf (fun x => .barwait (hdOf r) x)
  | 0xB4 => withX r wSlotBits wSlotOf (fun x => .bararw (hdOf r) x)
  | 0xB5 => withX r wSlotBits wSlotOf (fun x => .bartest (hdOf r) x)
  | 0xB6 => withX r wSlotBits wSlotOf (fun x => .barinv (hdOf r) x)
  | 0xB8 => withX r wCpyBits wCpyOf (fun x => .cpy (hdOf r) x)
  | 0xB9 => withX r wCpyBits wCpyOf (fun x => .cpy2d (hdOf r) x)
  | 0xBA => withX r wCpyBits wCpyOf (fun x => .cpys (hdOf r) x)
  | 0xBB => withX r wPfxBits wPfxOf (fun x => .pfx (hdOf r) x)
  | 0xBC => noX r (.pfxcancel (hdOf r))
  | 0xC0 => withX r wApBits wApOf (fun x => .apstart (hdOf r) x)
  | 0xC1 => withX r wApBits wApOf (fun x => .appop (hdOf r) x)
  | 0xC2 => withX r wApBits wApOf (fun x => .appush (hdOf r) x)
  | 0xC3 => withX r wApBits wApOf (fun x => .apstat (hdOf r) x)
  | 0xC4 => withX r wApBits wApOf (fun x => .apstop (hdOf r) x)
  | 0xC5 => withX r wAgBits wAgOf (fun x => .agath (hdOf r) x)
  | 0xC6 => withX r wAgBits wAgOf (fun x => .ascat (hdOf r) x)
  | 0xC7 => noX r (.apreplay (hdOf r))
  | 0xC8 => noX r (.mzero (hdOf r))
  | 0xC9 => withX r wMmaBits wMmaOf (fun x => .mma (hdOf r) x)
  | 0xCA => withX r wMmaBits wMmaOf (fun x => .mmas (hdOf r) x)
  | 0xCB => noX r (.mld (hdOf r))
  | 0xCC => withX r wAccBits wAccOf (fun x => .accrd (hdOf r) x)
  | 0xCD => withX r wAccBits wAccOf (fun x => .accwr (hdOf r) x)
  | 0xCE => withX r wAccstBits wAccstOf (fun x => .accst (hdOf r) x)
  | 0xCF => noX r (.mstat (hdOf r))
  | 0xD8 => withX r wQBits wQOf (fun x => .qhist (hdOf r) x)
  | 0xD9 => withX r wQBits wQOf (fun x => .qclip (hdOf r) x)
  | 0xDA => withX r wQBits wQOf (fun x => .qpack (hdOf r) x)
  | 0xDB => withX r wQBits wQOf (fun x => .qolst (hdOf r) x)
  | 0xDC => withX r wQBits wQOf (fun x => .qrst (hdOf r) x)
  | 0xE0 => withX r wEmitBits wEmitOf (fun x => .emit (hdOf r) x)
  | 0xE1 => withX r wEmitBits wEmitOf (fun x => .emitt (hdOf r) x)
  | 0xE2 => noX r (.recld (hdOf r))
  | 0xE3 => withX r wFlushBits wFlushOf (fun x => .flushq (hdOf r) x)
  | 0xE4 => noX r (.glaunch (hdOf r))
  | 0xE5 => noX r (.gcancel (hdOf r))
  | 0xE6 => noX r (.gwait (hdOf r))
  | 0xEC => withX r wNibBits wNibOf (fun x => .podbar (hdOf r) x)
  | 0xED => withX r wNibBits wNibOf (fun x => .podqry (hdOf r) x)
  | 0xEE => withX r wPodfltBits wPodfltOf (fun x => .podflt (hdOf r) x)
  | 0xFF => withX r wPairBits wPairOf (fun x => .pair (hdOf r) x)
  | _ => none

/-- The five-word instruction of an opcode (R63). -/
noncomputable def ofRaw5 (r : Raw) : Option Instr :=
  match r.op.toNat with
  | 0x10 => withX r wAluBits wAluOf (fun x => .sadd5w (hdOf r) x r.lit)
  | 0x11 => withX r wAluBits wAluOf (fun x => .ssub5w (hdOf r) x r.lit)
  | 0x12 => withX r wAluBits wAluOf (fun x => .smul5w (hdOf r) x r.lit)
  | 0x13 => withX r wAluBits wAluOf (fun x => .smulh5w (hdOf r) x r.lit)
  | 0x14 => withX r wAluBits wAluOf (fun x => .sand5w (hdOf r) x r.lit)
  | 0x15 => withX r wAluBits wAluOf (fun x => .sor5w (hdOf r) x r.lit)
  | 0x16 => withX r wAluBits wAluOf (fun x => .sxor5w (hdOf r) x r.lit)
  | 0x17 => withX r wAluBits wAluOf (fun x => .sshl5w (hdOf r) x r.lit)
  | 0x18 => withX r wAluBits wAluOf (fun x => .sshr5w (hdOf r) x r.lit)
  | 0x19 => withX r wAluBits wAluOf (fun x => .ssra5w (hdOf r) x r.lit)
  | 0x1A => withX r wAluBits wAluOf (fun x => .smin5w (hdOf r) x r.lit)
  | 0x1B => withX r wAluBits wAluOf (fun x => .smax5w (hdOf r) x r.lit)
  | 0x1C => withX r wAluBits wAluOf (fun x => .ssel5w (hdOf r) x r.lit)
  | 0x1D => withX r wAluBits wAluOf (fun x => .scmp5w (hdOf r) x r.lit)
  | 0x1F => withX r wAluBits wAluOf (fun x => .sldi5w (hdOf r) x r.lit)
  | 0x30 => withX r wAluBits wAluOf (fun x => .iadd5w (hdOf r) x r.lit)
  | 0x31 => withX r wAluBits wAluOf (fun x => .isub5w (hdOf r) x r.lit)
  | 0x32 => withX r wAluBits wAluOf (fun x => .imul5w (hdOf r) x r.lit)
  | 0x33 => withX r wAluBits wAluOf (fun x => .imulh5w (hdOf r) x r.lit)
  | 0x34 => withX r wAluBits wAluOf (fun x => .imad5w (hdOf r) x r.lit)
  | 0x37 => withX r wAluBits wAluOf (fun x => .imin5w (hdOf r) x r.lit)
  | 0x38 => withX r wAluBits wAluOf (fun x => .imax5w (hdOf r) x r.lit)
  | 0x39 => withX r wAluBits wAluOf (fun x => .icmp5w (hdOf r) x r.lit)
  | 0x3A => withX r wAluBits wAluOf (fun x => .isel5w (hdOf r) x r.lit)
  | 0x3B => withX r wAluBits wAluOf (fun x => .ishl5w (hdOf r) x r.lit)
  | 0x3C => withX r wAluBits wAluOf (fun x => .ishr5w (hdOf r) x r.lit)
  | 0x3D => withX r wAluBits wAluOf (fun x => .isra5w (hdOf r) x r.lit)
  | 0x3E => withX r wAluBits wAluOf (fun x => .iand5w (hdOf r) x r.lit)
  | 0x3F => withX r wAluBits wAluOf (fun x => .ior5w (hdOf r) x r.lit)
  | 0x40 => withX r wAluBits wAluOf (fun x => .ixor5w (hdOf r) x r.lit)
  | 0x41 => withX r wLop3Bits wLop3Of (fun x => .lop35w (hdOf r) x r.lit)
  | 0x45 => withX r wAluBits wAluOf (fun x => .bfe5w (hdOf r) x r.lit)
  | 0x46 => withX r wAluBits wAluOf (fun x => .bfi5w (hdOf r) x r.lit)
  | 0x48 => withX r wAluBits wAluOf (fun x => .fadd5w (hdOf r) x r.lit)
  | 0x49 => withX r wAluBits wAluOf (fun x => .fsub5w (hdOf r) x r.lit)
  | 0x4A => withX r wAluBits wAluOf (fun x => .fmul5w (hdOf r) x r.lit)
  | 0x4B => withX r wAluBits wAluOf (fun x => .ffma5w (hdOf r) x r.lit)
  | 0x4C => withX r wAluBits wAluOf (fun x => .fmin5w (hdOf r) x r.lit)
  | 0x4D => withX r wAluBits wAluOf (fun x => .fmax5w (hdOf r) x r.lit)
  | 0x4E => withX r wAluBits wAluOf (fun x => .fcmp5w (hdOf r) x r.lit)
  | 0x4F => withX r wAluBits wAluOf (fun x => .frnd5w (hdOf r) x r.lit)
  | 0x50 => withX r wAluBits wAluOf (fun x => .fclass5w (hdOf r) x r.lit)
  | 0x51 => withX r wAluBits wAluOf (fun x => .fscale5w (hdOf r) x r.lit)
  | 0x60 => withX r wAluBits wAluOf (fun x => .hadd25w (hdOf r) x r.lit)
  | 0x61 => withX r wAluBits wAluOf (fun x => .hmul25w (hdOf r) x r.lit)
  | 0x62 => withX r wAluBits wAluOf (fun x => .hfma25w (hdOf r) x r.lit)
  | 0x6F => withX r wAluBits wAluOf (fun x => .movi5w (hdOf r) x r.lit)
  | 0x90 => withX r wMemBits wMemOf (fun x => .ld5w (hdOf r) x r.lit)
  | 0x91 => withX r wMemBits wMemOf (fun x => .st5w (hdOf r) x r.lit)
  | 0x92 => withX r wMemBits wMemOf (fun x => .ldl5w (hdOf r) x r.lit)
  | 0x93 => withX r wMemBits wMemOf (fun x => .stl5w (hdOf r) x r.lit)
  | 0x94 => withX r wMemBits wMemOf (fun x => .ldc5w (hdOf r) x r.lit)
  | 0x95 => withX r wMemBits wMemOf (fun x => .lda5w (hdOf r) x r.lit)
  | 0x96 => withX r wMemBits wMemOf (fun x => .strel5w (hdOf r) x r.lit)
  | 0x97 => withX r wAtomBits wAtomOf (fun x => .atom5w (hdOf r) x r.lit)
  | 0x98 => withX r wAtomBits wAtomOf (fun x => .atoml5w (hdOf r) x r.lit)
  | 0x99 => withX r wAtomBits wAtomOf (fun x => .red5w (hdOf r) x r.lit)
  | 0x9B => withX r wMemBits wMemOf (fun x => .pref5w (hdOf r) x r.lit)
  | _ => none

/-- The instruction of an assigned opcode's fields, if its length and reserved bits are legal (R63, R3). -/
noncomputable def ofRaw (r : Raw) : Option Instr :=
  if r.len = 1 then ofRaw1 r else if r.len = 3 then ofRaw3 r else ofRaw5 r

/-- Bits 1:0 of words 1 to n − 1 are 0b11 (R37). -/
def contOk (n : Nat) (ws : List Word) : Bool := ((ws.take n).drop 1).all (fun w => bits w 0 2 == 3)

/-- The instruction that words begin with, in the order of R65: misaligned, zero word, unassigned opcode, form. -/
noncomputable def decodeWords (ws : List Word) : Except DecodeError Instr :=
  let w0 := ws.headD 0
  match lenOf w0 with
  | none => .error .misaligned
  | some n =>
    if opOf w0 = 0 then .ok (.zeroWord w0)
    else if ws.length < n then .error .short
    else if !assigned (opOf w0) then .ok (.unassignedOpcode w0)
    else if !contOk n ws then .error .illegalForm
    else match ofRaw (rawOfWords n (ws.getD 0 0) (ws.getD 1 0) (ws.getD 2 0) (ws.getD 3 0) (ws.getD 4 0)) with
      | none => .error .illegalForm
      | some i => if WellFormed i then .ok i else .error .illegalForm

/-- Words the fetch reads for a first word (R38, R64). -/
def fetchCount (w0 : Word) : Nat := if opOf w0 = 0 then 1 else (lenOf w0).getD 1

/-- The instruction that bytes begin with, and the bytes after it. -/
noncomputable def decode (l : List Byte) : Except DecodeError (Instr × List Byte) :=
  if l.length < 4 then .error .short
  else match decodeWords (wordsOf (l.take 20)) with
    | .ok i => .ok (i, l.drop (4 * fetchCount (wordAt l 0)))
    | .error e => .error e

/-- The words of an instruction (R36, R39, R40, R43); an event has none. -/
def encode (i : Instr) : List Word :=
  match i with
  | .zeroWord w => [w]
  | .unassignedOpcode w => w :: List.replicate (fetchCount w - 1) 3#32
  | i => match rawOf i with
    | some r => rawWords r
    | none => []

/-- The instruction of a table row's bits: little-endian words, the first at bit 0, zeros above `nbits`. -/
noncomputable def decodeTableWord (nbits w : Nat) : Option Instr :=
  let v := w % 2 ^ nbits
  match decodeWords ((List.range 5).map (fun i => BitVec.ofNat 32 (v / 2 ^ (32 * i)))) with
  | .ok i => some i
  | .error _ => none

end Sys2Proof
end

