-- ==== Sys2Proof/Machine/Fetch.lean ====
section
/-! DEFINITION. Fetching an instruction (R36 to R38, R64, R65) and choosing among the fragments that are ready (R127). -/
namespace Sys2Proof.Machine

/-- What fetching at a PC gives. -/
inductive Fetched where
  | instr (i : Instr)
  | fault (f : FaultInfo) (len : Nat)
  | absentMem

/-- A word of an instruction: fetched by translation with execute permission (R38, R212), with what an Owned stash line of its global line holds
(R182). Of a word that is rewritten while its launch runs, whose
old or new contents the spec allows, it is the present contents (log 116). -/
def fetchWord (s : State) (d : Desc) (f : Frag) (va : DWord) : Except Fetched Word :=
  let flt (code : BitVec 16) (first : Bool) : Except Fetched Word :=
    .error (.fault { code := code, mask := f.mask, addr := va, kind := kFetch, first := first, det := [] } 1)
  if !inTranslated va 4 then flt (codeOf 0 cProt) false
  else match translate s d va.toNat .x with
    | .ok k e _ _ =>
      if deadNow s d va.toNat e then .ok 0
      else if s.badAt k 4 then flt (codeOf 0 cEngine) false
      else .ok (BitVec.ofNat 32 (s.sysVal k 4))
    | .absentPage first => flt (codeOf 0 cAbsent) first
    | .prot => flt (codeOf 0 cProt) false
    | .malformed => flt (codeOf 3 cEngine) false
    | .absentMem => .error .absentMem

/-- The words after the first, up to `n` in all. -/
def fetchRest (s : State) (d : Desc) (f : Frag) : Nat → DWord → Except Fetched (List Word)
  | 0, _ => .ok []
  | n + 1, va =>
    match fetchWord s d f va with
    | .error e => .error e
    | .ok w => match fetchRest s d f n (va + 4) with
      | .error e => .error e
      | .ok l => .ok (w :: l)

/-- Steps 1 to 5 of R65 as far as the words alone decide them. -/
noncomputable def fetchAt (s : State) (d : Desc) (f : Frag) : Fetched :=
  let bad (cause len : Nat) : Fetched := .fault (.plain (codeOf 0 cause) f.mask) len
  if bits f.pc 0 2 != 0 then bad cMisaligned 1
  else match fetchWord s d f f.pc with
    | .error e => e
    | .ok w0 =>
      if lenOf w0 = none then bad cMisaligned 1
      else
        match fetchRest s d f (fetchCount w0 - 1) (f.pc + 4) with
        | .error e => e
        | .ok ws => match decodeWords (w0 :: ws) with
          | .ok i => .instr i
          | .error _ => .fault (.plain (codeOf (classOf (opOf w0)) cIllegalForm) f.mask) (fetchCount w0)

/-- The stash lines that hold an instruction's words, or the entries of their walks, give way to the fetch, an agent's read of the global lines (R179), and a read of a peer's
memory leaves as a message (R380): false while one has to wait (R183). -/
def snoopWords (d : Desc) (pc : DWord) (n : Nat) (s : State) : Bool × State :=
  (List.range n).foldl (fun a i =>
    let va := pc + BitVec.ofNat 64 (4 * i)
    if !a.1 || !inTranslated va 4 then a
    else match walkSnoop a.2 d va.toNat .x with
      | (false, s) => (false, s)
      | (true, s) => match translate s d va.toNat .x with
        | .ok k e _ _ => match snoopRange s k 4 false with
          | (true, s) => (true, if deadNow s d va.toNat e then s else toPeer s e k 4 false none)
          | r => r
        | _ => (true, s)) (true, s)

/-- The fetch of the current fragment makes its reads: those of the words that its first word counts. While a stash line has to wait, the fragment
stalls and tries again (R183). -/
def openFetch (s : State) : Bool × State :=
  let g := s.group s.cur.1
  match g.frag s.cur.2 with
  | none => (true, s)
  | some f =>
    if (!anyWindow s && s.sys.stage != 3) || bits f.pc 0 2 != 0 then (true, s)
    else
      let d := (s.ctx g.page).d
      let n := match fetchWord s d f f.pc with
        | .ok w => if lenOf w = none then 1 else fetchCount w
        | .error _ => 0
      match snoopWords d f.pc n s with
      | (true, s) => (true, s)
      | (false, s) => (false, s.modGroup s.cur.1 (fun g => g.modFrag s.cur.2 (fun f =>
          { f with stalled := some ((f.stalled.map (fun x => x.1)).getD (nowAt s s.cur.1), 0), ready := nowAt s s.cur.1 + 1, since := none })))

/-- Every page that holds a word of the instruction is kept in the package's translation caches (R208). -/
def keepFetched (s : State) (d : Desc) (pc : DWord) : State :=
  [pc, pc + 16].foldl (fun s va => match translate s d va.toNat .x with
    | .ok _ e base units => if inTranslated va 4 then s.keepTlb d.asid e base units else s
    | _ => s) s

/-- The fetch of the current fragment failed: the fault is raised (R65), unless a fault of an accepted operation of the same or a lower class is
delivered first (R30). -/
def fetchFault (s : State) (fi : FaultInfo) (len : Nat) : State :=
  let g := s.group s.cur.1
  match g.frag s.cur.2 with
  | none => s
  | some f =>
    let c : Iss := { place := s.cur.1, slot := s.cur.2, pc := f.pc, npc := f.pc + BitVec.ofNat 64 (4 * len), op := 0, st := 0,
                     fmt := f.fmt, mask := f.mask, full := f.mask, act := f.mask, sup := f.sup }
    if (asyncDue s s.cur.1 s.cur.2).all (fun k => decide (fi.code.toNat / 4096 < k)) then markIssued (raise s c [fi]) g else s

/-- The priority of a group's role (R125). -/
def prioOf (s : State) (g : Group) : Nat :=
  let t := s.team g.team
  match launchOf s t.lid with
  | some l => (((l.g.node t.node).roles[g.role]?).map (fun r => r.prio)).getD 0
  | none => 0

/-- Lexicographic order. -/
def lexLe : List Nat → List Nat → Bool
  | [], _ => true
  | _ :: _, [] => false
  | a :: l, b :: m => decide (a < b) || (a == b && lexLe l m)

/-- The order of issue (R127) as a key: the least goes first. -/
def issueKey (s : State) (g : Group) (slot : Nat) (f : Frag) : List Nat :=
  let old := match f.since with
    | some c => decide (c + 4096 ≤ s.clkOf g.core)
    | none => false
  if old then [0, f.since.getD 0, g.gslot, slot] else [1, 7 - prioOf s g, f.last, g.gslot, slot]

/-- The ready fragments of a quadrant. -/
def readyFrags (s : State) (core quad : Nat) : List (Nat × Nat × List Nat) :=
  s.groups.flatMap (fun x =>
    if x.2.core != core || x.2.quad != quad then []
    else [0, 1].flatMap (fun slot => match x.2.frag slot with
      | some f => if f.since.isSome then [(x.1, slot, issueKey s x.2 slot f)] else []
      | none => []))

/-- The fragment a quadrant issues (R127), if one is ready. -/
def pick (s : State) (core quad : Nat) : Option (Nat × Nat) :=
  ((sortBy (fun (a b : Nat × Nat × List Nat) => lexLe a.2.2 b.2.2) (readyFrags s core quad)).head?).map (fun x => (x.1, x.2.1))

end Sys2Proof.Machine
end

