-- ==== Sys2Proof/Machine/Async.lean ====
section
/-! DEFINITION. Asynchronous faults (R28 to R30, R289, R290, R323, R344), SVRET (R131), the driver's answers (R218) and the
retirement of operations (R18). -/
namespace Sys2Proof.Machine

/-! ### Delivery -/

/-- The words of the instruction at a PC, 1 when it cannot be fetched: for ENPC (R129). -/
def wordsAt (s : State) (g : Group) (f : Frag) (pc : DWord) : Nat :=
  match fetchWord s (s.ctx g.page).d f pc with
  | .ok w => fetchCount w
  | .error _ => 1

/-- A handler entered for a fault of an operation or stream: the PC is the instruction the group would issue next; a WAITC is made
again, any other wait goes on after SVRET, and the group that has yielded would issue next at its continuation PC (R28, R129, R289). -/
def enterAsync (s : State) (place slot : Nat) (f : FaultInfo) (op stream : Option Nat) (again : Bool) : State :=
  let g := s.group place
  match g.frag slot with
  | none => s
  | some x =>
    let redo := again || match x.wait with
      | some (.cond _) => true
      | _ => false
    let epc := if redo && x.wait.isSome then x.pc - 12 else match g.yw with
      | some y => if y.slot == slot then y.pc else x.pc
      | none => x.pc
    let s := enterHandler s place slot f 0 epc (epc + BitVec.ofNat 64 (4 * wordsAt s g x epc)) false (nowAt s place + 1)
    s.modGroup place (fun g => { g with h := { g.h with op := op, stream := stream, wait := if redo then none else g.h.wait } })

/-- A stream replaced. -/
def setStream (s : State) (tid snum : Nat) (x : Stream) : State :=
  match ffind s.teams tid with
  | some t => s.setTeam tid { t with streams := fput t.streams snum x }
  | none => s

/-- The number of the stream that an SNUM names now; 0 for none. -/
def streamSid (s : State) (tid snum : Nat) : Nat := ((streamAt s tid snum).map (fun x => x.sid)).getD 0

/-- The positions of an entry below NIDX. -/
def Stream.posMask (x : Stream) (n : Nat) : Mask := maskOf (fun p => decide (32 * n + p < x.nidx))

/-- A group parks for the parts of an operation's or a stream's fault (R215). A fragment that waits in WAITC makes its wait again (R289, R323). -/
def parkAsync (s : State) (place : Nat) (pc : DWord) (op stream : Option Nat) (fs : List FaultInfo) : State :=
  let g := s.group place
  let (ts, s) := postParts s g.page place pc op (joinParts s (s.ctx g.page).d fs)
  let again := fun (x : Frag) => match x.wait with
    | some (.cond _) => { x with wait := none, pc := x.pc - 12 }
    | _ => x
  let s := s.modGroup place (fun g =>
    { (g.drainPoint.modFrag 0 again).modFrag 1 again with
      park := some { tickets := ts, dead := false, slot := 0, only := none, op := op, stream := stream, svret := false,
                     sid := (stream.map (streamSid s g.team)).getD 0 } })
  match op with
  | some id => modOp s id (fun o => { o with stop := o.stop.map (fun x => { x with sent := true, tickets := ts }) })
  | none => s

/-- The faults of a stopped operation delivered to its group, which `deliverTo` says can be done now (R28, R289, R323). -/
def deliverOp (s : State) (o : Op) (st : Stop) : State :=
  let g := s.group o.place
  let d := (s.ctx o.page).d
  let live := ~~~g.exited
  let sent := modOp s o.id (fun o => { o with stop := some { st with sent := true } })
  match st.faults.find? (fun f => asyncDisp d live f == .terminate || asyncDisp d live f == .launch) with
  | some f => doomOp s o f
  | none => match st.faults.find? (fun f => asyncDisp d live f == .handler) with
    | none => parkAsync s o.place o.pc (some o.id) none st.faults
    | some f =>
      let m := handlerLanes d live o st f.code
      match handlerSlot g o m with
      | none => s
      | some slot =>
        let own := if o.collective then m else m &&& ((g.frag slot).map (fun x => x.mask)).getD 0
        let first := (st.faults.find? (fun y => asyncDisp d live y == .handler && y.code == f.code && bit y.mask (ffs m))).getD f
        enterAsync sent o.place slot { first with mask := own } (some o.id) none false

/-- The faults of a stopped operation whose group has ended (R266, R289, R323, R337): records only, or, of a collective operation, the end of the
context. -/
def deliverOrphan (s : State) (o : Op) (st : Stop) : State :=
  let d := (s.ctx o.page).d
  match st.faults.find? (fun f => !(causeOf f.code == cAbsent || causeOf f.code == cProt) && (o.collective || causeOf f.code == cEngine)) with
  | some f => doomOp s o f
  | none => match o.kind, st.faults with
    | .copy _, f :: _ => handOff s o f
    | _, _ =>
    let (ts, s) := postParts s o.page o.place o.pc (some o.id) (joinParts s d st.faults)
    modOp s o.id (fun o => { o with stop := some { st with sent := true, tickets := ts } })

/-- A stream's fault delivered as the fault of an APPOP, which will issue again (R290); in supervisor mode it ends the context (R130). -/
def deliverStream (s : State) (place : Nat) (x : Nat × Nat × Nat × Mask × List FaultInfo) : State :=
  let (slot, snum, entry, m, fs) := x
  let g := s.group place
  let d := (s.ctx g.page).d
  let pc := ((g.frag slot).map (fun f => f.pc - 12)).getD 0
  let st := streamAt s g.team snum
  let s := match st with
    | some st => setStream s g.team snum { st with back := st.back ++ [entry] }
    | none => s
  let undo := fun (s : State) => s.modGroup place (fun g => g.modFrag slot (fun f => { f with wait := none, pc := pc }))
  match fs.find? (fun f => g.h.slot.isSome || dispOf d f.code f.first == .terminate) with
  | some f => doomGroup s place pc { f with mask := if g.h.slot.isSome then m else f.mask }
  | none => match fs.find? (fun f => dispOf d f.code f.first == .handler) with
    | some f => (enterAsync s place slot { f with mask := m } none (some snum) true).modGroup place (fun g =>
        { g with h := { g.h with entry := entry, sid := (st.map (fun x => x.sid)).getD 0, pos := (st.map (fun x => x.posMask entry)).getD 0 } })
    | none => undo (parkAsync s place pc none (some snum) fs)

/-- The operation whose fault is to be delivered next to a group: of those that can be delivered now, the lowest class, then issue order (R30). -/
def nextStopped (s : State) (place : Nat) : Option (Op × Stop) :=
  ((sortBy (fun (a b : Op × Stop) => decide (classOf a.1.op < classOf b.1.op) || (classOf a.1.op == classOf b.1.op && decide (a.1.id ≤ b.1.id)))
    (s.ops.filterMap (fun o => match o.stop with
      | some st => if o.place == place && !st.sent && ((s.group place).ended || (deliverTo s o st).isSome) then some (o, st) else none
      | none => none))).head?)

/-- ASYNC_FAULT_DELIVERY: the fault of an accepted operation, or of a stream whose APPOP waits, reaches its group (R28, R30). -/
def execAsyncFaultDelivery (place : Nat) (s : State) : Host.Outcome State Fault Refusal :=
  match ffind s.groups place with
  | none => event s
  | some g => match nextStopped s place with
    | some (o, st) =>
      if g.ended then event (deliverOrphan s o st)
      else if !atBoundary s g && (heldPop s g).isNone then event s
      else match heldPop s g, decide (classOf o.op ≤ 6) with
        | some x, false => event (deliverStream s place x)
        | _, _ => event (deliverOp s o st)
    | none => match heldPop s g with
        | some x => event (deliverStream s place x)
        | none => event s

/-! ### SVRET (R131) and answers (R218) -/

/-- A stream retries its held entry (R290), if the SNUM still names it. -/
def resumeStream (s : State) (tid snum sid : Nat) : State :=
  match streamAt s tid snum with
  | some x =>
    if x.state != 2 || x.sid != sid then s
    else setStream s tid snum { x with state := 1, entries := x.entries.map (fun e => { e with held := [] }) }
  | none => s

/-- What a returning handler or an answered park lets go on: the operation or the stream (R28, R290). -/
def letGo (s : State) (tid : Nat) (op stream : Option Nat) (sid : Nat) : State :=
  let s := match op with
    | some id => resumeOp s id
    | none => s
  match stream with
  | some n => resumeStream s tid n sid
  | none => s

/-- SVRET's effect after its check: the fragment returns, the slots fill, the operation or stream continues (R131). `last` is the cycle in which
SVRET has issued. -/
def svretDo (s : State) (c : Iss) (last : Nat) : Except CsErr State :=
  let g := s.group c.place
  let f := theFrag s c
  let s := letGo s g.team g.h.op g.h.stream g.h.sid
  let s := leaveHandler s c.place c.slot
  let s := s.modGroup c.place (fun g => (g.travel c.slot (1 + c.st)).modFrag c.slot (fun f =>
    { f with last := last, ready := max f.ready (nowAt s c.place + 1 + c.st) }))
  fillSlots s c f.chl

/-- SVRET (R131, R220). -/
def execSvret (f : F1) (s : State) : Host.Outcome State Fault Refusal :=
  issue (shSvret f) 0x0E 1 f.st (fun c s =>
    let g := s.group c.place
    if (theFrag s c).rsp != g.h.ersp then .trap s [.plain (codeOf 0 cConvergence) c.mask]
    else if !g.fwd.isEmpty then
      .own (s.modGroup c.place (fun g => { g.modFrag c.slot (fun f => { f with last := nowAt s c.place, ready := nowAt s c.place + 1 + c.st }) with
        park := some { tickets := g.fwd, dead := false, slot := c.slot, only := none, op := none, stream := none, svret := true } }))
    else csEff s c.place (svretDo s c (nowAt s c.place))) s

/-- A parked group whose parts are all answered goes on (R131, R218, R220). -/
def unpark (s : State) (place : Nat) (p : Park) : State :=
  let s := s.modGroup place (fun g => { g with park := none })
  let g := s.group place
  if p.svret then
    match g.frag p.slot with
    | some f =>
      let c : Iss := { place := place, slot := p.slot, pc := f.pc, npc := f.pc + 4, op := 0x0E, st := 0, fmt := f.fmt, mask := f.mask,
                       full := f.mask, act := f.mask, sup := true }
      match svretDo s c f.last with
      | .ok s => s
      | .error _ => s
    | none => s
  else
    let s := letGo s g.team p.op p.stream p.sid
    if p.op.isSome || p.stream.isSome then s
    else s.modGroup place (fun g => g.modFrag p.slot (fun f => { f with only := p.only, ready := max f.ready (nowAt s place) }))

/-- What an answer of resume continues in a group (R218). -/
def answerGroup (s : State) (place ticket : Nat) : State :=
  let s := s.modGroup place (fun g => { g with fwd := g.fwd.filter (fun t => t != ticket) })
  match (s.group place).park with
  | none => s
  | some p =>
    if p.dead || !p.tickets.contains ticket then s
    else
      let p := { p with tickets := p.tickets.filter (fun t => t != ticket) }
      if p.tickets.isEmpty then unpark s place p else s.modGroup place (fun g => { g with park := some p })

/-- What an answer of resume continues in an operation whose group is not parked for it (R266, R323). -/
def answerOp (s : State) (id ticket : Nat) : State :=
  match opById s id with
  | none => s
  | some o => match o.kind with
    | .copy c => match c.rem with
      | some (t, _) => if t = ticket then modOp s id (fun o => { o with kind := .copy { c with rem := some (t, true) } }) else s
      | none => s
    | _ => match o.stop with
      | none => s
      | some st =>
        if !st.tickets.contains ticket then s
        else
          let ts := st.tickets.filter (fun t => t != ticket)
          if ts.isEmpty && (ffind s.groups o.place).all (fun g => g.ended) then resumeOp s id
          else modOp s id (fun o => { o with stop := some { st with tickets := ts } })

/-- The part answered with resume (R218): its group, operation or stash line continues. -/
def answerPart (s : State) (page : Nat) (p : Pending) : State :=
  let s := s.setCtx page { s.ctx page with waiting := (s.ctx page).waiting.filter (fun q => q.ticket != p.ticket) }
  let s := match p.op with
    | some id => answerOp s id p.ticket
    | none => s
  let s := match p.place with
    | some pl => answerGroup s pl p.ticket
    | none => s
  match p.line with
  | some (t, w, l) => sweepTeams (writeBack s t w l).2
  | none => s

/-- The unanswered record of a SEQ (R218): also one that is still held for lack of space (log 139). -/
def unanswered (s : State) (page : Nat) (seq : Word) : Option Pending :=
  if seq = 0 then none else (s.ctx page).waiting.find? (fun p => p.frec.seq == seq)

/-! ### Move claims (R224, R225) -/

/-- The leaf of a claim's page: its entry's key, the entry, the page's base in units. -/
def claimLeaf (s : State) (c : Claim) : Option (Nat × DWord × Nat) :=
  match pageOfAsid s c.asid with
  | none => none
  | some page => match walk s (s.ctx page).d (c.unit * 65536) with
    | .leaf lv k e => some (k, e, c.unit * 65536 / 2 ^ levelShift lv * 2 ^ levelShift lv / 65536)
    | _ => none

/-- Two claims are on one page. -/
def samePage (s : State) (a b : Claim) : Bool :=
  a.asid == b.asid && match claimLeaf s a, claimLeaf s b with
    | some x, some y => x.2.2 == y.2.2
    | _, _ => a.unit == b.unit

/-- The host is home to a claim's page (R210, R224). -/
def homeIsHost (s : State) (c : Claim) : Bool :=
  match claimLeaf s c with
  | some (_, e, _) => bit e pteHome
  | none => false

/-- A page has moved in a direction: a reversal counts, and the third one sets SHR and PIN in the leaf (R225). -/
def countMove (s : State) (asid : BitVec 12) (key : Nat) (e : DWord) (base : Nat) (toHost : Bool) : State :=
  let old := (s.moves.find? (fun m => m.asid == asid && m.page == base)).getD { page := base, asid := asid, toHost := none, revs := 0, lines := [] }
  let revs := (if 3 ≤ old.revs then 0 else old.revs) + natOf (old.toHost == some (!toHost))
  let new : Moves := { page := base, asid := asid, toHost := some toHost, revs := revs, lines := [] }
  let s := { s with moves := new :: s.moves.filter (fun m => !(m.asid == asid && m.page == base)) }
  if revs < 3 then s
  else
    let e' := setBit (setBit e pteShr true) ptePin true
    let s := s.sysPut key (leBytes 8 e'.toNat)
    { s with tlb := s.tlb.map (fun t => if t.asid == asid && t.base == base then { t with leaf := e' } else t) }

/-- A claim ends: a page that changed sides under it has moved (R225). -/
def endClaim (s : State) (c : Claim) : State :=
  let s' := { s with claims := s.claims.erase c }
  match claimLeaf s c, c.loc with
  | some (k, e, base), some was =>
    if pteLoc e = was || 1 < pteLoc e || 1 < was then s' else countMove s' c.asid k e base (pteLoc e == 1)
  | _, _ => s'

/-- The driver requests a claim from a posted and unanswered record of a context (R224). -/
def requestClaim (s : State) (page : Nat) (seq : Word) : State :=
  let asid := (s.ctx page).d.asid
  match unanswered s page seq with
  | none => s
  | some p =>
    if s.claims.any (fun c => !c.host && c.asid == asid && c.seq == seq) then s
    else { s with claims := s.claims ++
      [{ asid := asid, unit := p.frec.va.toNat / 65536, host := false, seq := seq, granted := false, loc := none }] }

/-- The driver's answer to a record ends the claim that it requested from the record (R224). -/
def endRecordClaims (s : State) (page : Nat) (seq : Word) : State :=
  (s.claims.filter (fun c => !c.host && c.asid == (s.ctx page).d.asid && c.seq == seq)).foldl endClaim s

/-- FRESP_RESUME (R218). A claim that the driver requested from the record has ended then (R224). -/
def execFrespResume (page : Nat) (seq : Word) (s : State) : Host.Outcome State Fault Refusal :=
  match unanswered s page seq with
  | some p => event (endRecordClaims (answerPart s page p) page seq)
  | none => event s

/-- FRESP_TERMINATE: the context ends with the answered record's code (R218, R427). -/
def execFrespTerminate (page : Nat) (seq : Word) (s : State) : Host.Outcome State Fault Refusal :=
  match unanswered s page seq with
  | some p => event (doom s page p.frec)
  | none => event s

/-- FAULT_RECORD_POST: a record held for lack of space, or for a stash line of the queue that cannot be written back (R183), is posted when there is
some (R217); that of a halted context, after its restore (R230). -/
def execFaultRecordPost (page : Nat) (s : State) : Host.Outcome State Fault Refusal :=
  let c := s.ctx page
  match c.heldRecs with
  | [] => event s
  | r :: l => if c.state = 0 || c.state = 4 then event s
    else if !frqReady s page then event (frqLook s page)
    else event (writeRec (s.setCtx page { c with heldRecs := l }) page r)

/-! ### Retirement (R18) -/

/-- An older operation of the same group has still to retire from a class. -/
def olderOpen (s : State) (o : Op) (cls : Nat) : Bool :=
  s.ops.any (fun p => p.place == o.place && decide (p.id < o.id) && (p.todo.contains cls || p.ripe.contains cls))

/-- OPERATION_RETIRE: a completed class retires in issue order; FSTAT takes a collective operation's flags; the operation slot frees
with the last class; waits on the counter that now hold go on (R18, R20, R85, R124). A retirement comes before the counter reads and waits of
its cycle: once a quadrant of the core has issued, it comes in the next cycle (R21). A copy retires from copy-read before it does
from copy-visible (R260). -/
def execOperationRetire (op : Nat) (cls : Nat) (s : State) : Host.Outcome State Fault Refusal :=
  match opById s op with
  | none => event s
  | some o =>
    if coreIssued s o.core || !o.ripe.contains cls || olderOpen s o cls || (cls == 1 && (o.todo.contains 0 || o.ripe.contains 0)) then event s
    else
      let s := s.modGroup o.place (fun g => { g with fstat := g.fstat ||| o.flags, cnt := fset g.cnt cls 0 (fget g.cnt cls 0 - 1) })
      let ripe := o.ripe.filter (fun k => k != cls)
      let s := if o.todo.isEmpty && ripe.isEmpty then { s with ops := s.ops.filter (fun p => p.id != op) }
        else modOp s op (fun o => { o with ripe := ripe })
      let s := settleInv (wakeConds s)
      event (sweepTeams (if (s.group o.place).ended then checkGroup s o.place else s))

end Sys2Proof.Machine
end

