-- ==== Sys2Proof/Machine/MapUnit.lean ====
section
/-! DEFINITION. The map unit's instructions: DISCARD (R222), PGHINT (R228), PGPOOL, PGMAP (R220), TLBINV (R229); the window of the
hot-page tracker (R226). -/
namespace Sys2Proof.Machine

/-! ### Ranges of pages -/

/-- The entries that a walk of every page of a range meets: address, bytes that the entry maps, the walk. -/
def pagesIn (s : State) (d : Desc) : Nat → Nat → Nat → List (Nat × Nat × Walk)
  | 0, _, _ => []
  | f + 1, va, stop =>
    if stop ≤ va then []
    else
      let w := walk s d va
      let span := match w with
        | .leaf lv _ _ => 2 ^ levelShift lv
        | .invalid lv _ _ => 2 ^ levelShift lv
        | _ => 65536
      let base := va / span * span
      (base, span, w) :: pagesIn s d f (base + span) stop

/-- The stash lines that hold an entry which those walks read answer them (R179): false while one has to wait (R183). -/
def pagesSnoop (s : State) (d : Desc) (ps : List (Nat × Nat × Walk)) : Bool × State :=
  if !anyWindow s then (true, s)
  else ps.foldl (fun a p => if a.1 then snoopEntries a.2 (walkKeys a.2 p.1 levels (d.ptroot.toNat % 2 ^ 52)) else a) (true, s)

/-- A range of 64 KiB units named by a pair and a count. -/
def rangeArgs (h : Hd) (c : Iss) (s : State) : DWord × Nat :=
  let g := s.group c.place
  (g.rs64 c.slot h.b.toNat, (g.rs c.slot h.c.toNat).toNat)

/-- A fault of a map-unit instruction for its active lanes. -/
def mapTrap (s : State) (c : Iss) (cause : Nat) (a : DWord) (kind : Nat) : Eff :=
  .trap s [{ FaultInfo.plain (codeOf 3 cause) c.act with addr := a, kind := kind }]

/-- Every stash line of a range of memory keys becomes Invalid without write-back (R222). -/
def dropLines (s : State) (lo hi : Nat) : State :=
  { s with teams := s.teams.map (fun t => (t.1, { t.2 with windows := t.2.windows.map (fun w =>
      (w.1, { w.2 with lines := w.2.lines.filter (fun l => decide (l.2.key < lo) || decide (hi ≤ l.2.key)) })) })) }

/-- The package's caches lose every leaf that was read from the entry at a key, of whatever address space and address (R222, R223). -/
def dropEntry (s : State) (key : Nat) : State :=
  { s with tlb := s.tlb.filter (fun t => match pageOfAsid s t.asid with
      | none => true
      | some page => match walk s (s.ctx page).d (t.base * 65536) with
        | .leaf _ k _ => k != key
        | _ => true) }

/-- A valid leaf marked dead, its cached lines and translations dropped (R222). -/
def killPage (s : State) (d : Desc) (base span key : Nat) (e : DWord) : State :=
  let lo := leafKey e 0
  let s := dropLines ((dropEntry s key).sysPut key (leBytes 8 (setBit e pteDead true).toNat)) lo (lo + span)
  s.dropTlb d.asid (some (base / 65536, span / 65536))

/-- DISCARD (R222). The record of a PAGE_PROT that its checks raise names KIND 0x0F, and as VA the base of the range when the range leaves the
translated region, else of the first page that lacks W or DISC; the spec gives neither (log 122). A page-table entry, read or written, whose stash
line cannot be written back makes the instruction wait (R183). -/
def execDiscard (h : Hd) (s : State) : Host.Outcome State Fault Refusal :=
  issue (shDiscard h) 0xA8 3 h.st (fun c s =>
    let (base, n) := rangeArgs h c s
    let d := (s.ctx (s.group c.place).page).d
    let stop := base.toNat + 65536 * n
    let ps := pagesIn s d (n + 1) base.toNat (min stop 0x00F0000000000000)
    if n = 0 then .go s
    else if !aligned base.toNat 65536 then mapTrap s c cAlign base kNone
    else match pagesSnoop s d ps with
    | (false, s) => .hold s
    | (true, s) =>
    if ps.any (fun p => match p.2.2 with
        | .leaf _ _ _ => decide (p.1 < base.toNat) || decide (stop < p.1 + p.2.1)
        | _ => false) then mapTrap s c cAlign base kNone
    else if 0x00F0000000000000 < stop then mapTrap s c cProt base kNone
    else match ps.find? (fun p => p.2.2 == .malformed || p.2.2 == .absent) with
      | some p => if p.2.2 == .malformed then mapTrap s c cEngine (BitVec.ofNat 64 p.1) kNone else .own { s with absent := true }
      | none =>
        match ps.find? (fun p => match p.2.2 with
            | .leaf _ _ e => !(bit e pteW && bit e pteDisc)
            | _ => false) with
        | some p => mapTrap s c cProt (BitVec.ofNat 64 p.1) kNone
        | none => match ps.foldl (fun (a : Bool × State) p => match p.2.2 with
            | .leaf _ k _ => if a.1 then snoopRange a.2 k 8 true else a
            | _ => a) (true, s) with
          | (false, s) => .hold s
          | (true, s) => .go (ps.foldl (fun s p => match p.2.2 with
            | .leaf _ k e => killPage s d p.1 p.2.1 k e
            | _ => s) s)) s

/-- The hint record of a range (R216, R228). -/
def hintRec (s : State) (place : Nat) (pc va : DWord) (n kind prio : Nat) : FRec :=
  { recOf s place pc with va := va, d0 := BitVec.ofNat 32 n, d1 := BitVec.ofNat 32 (kind * 8 + prio) }

/-- PGHINT (R228). -/
def execPghint (h : Hd) (x : WHint) (s : State) : Host.Outcome State Fault Refusal :=
  issue (shPghint h x) 0xA9 3 h.st (fun c s =>
    let (base, n) := rangeArgs h c s
    if n = 0 || !inTranslated base (65536 * n) then .go s
    else .go (postHint s (s.group c.place).page (hintRec s c.place c.pc base n x.kind.toNat x.prio.toNat))) s

/-! ### The page pool and page installation (R219, R220) -/

/-- The map unit's read of device memory at .sys: `k` gets the bytes, or the instruction waits. -/
def sysRead (s : State) (key n : Nat) (k : List Byte → State → Eff) : Eff :=
  if s.gone key then .own { s with absent := true }
  else match cohRead s key n with
    | (some l, s) => k l s
    | (none, s) => .hold s

/-- The map unit's write at .sys. -/
def sysWrite (s : State) (key : Nat) (l : List Byte) (k : State → Eff) : Eff :=
  match cohWrite s key l with
  | (true, s) => k s
  | (false, s) => .hold s

/-- The memory key of pool entry i (R219). -/
def poolKey (d : Desc) (i : Word) : Nat := d.poolhdr.toNat + 64 + 8 * (i.toNat % max d.poolsize 1)

/-- A frame address that the pool may hold (R219). -/
def frameOk (e : DWord) : Bool := bits e 52 12 == 0 && bits e 0 16 == 0

/-- A uniform predicate written by the map unit. -/
def Group.putK (g : Group) (slot n : Nat) (b : Bool) : Group := g.write slot (.k n) [(0, if b then 1 else 0)] 0
/-- A pair of s-registers written. -/
def Group.putS64 (g : Group) (slot n : Nat) (v : DWord) : Group := (g.write slot (.s n) [(0, lo32 v)] 0).write slot (.s (n + 1)) [(0, hi32 v)] 0

/-- PGPOOL.get (R220). -/
def execPgpoolGet (h : Hd) (s : State) : Host.Outcome State Fault Refusal :=
  issue (shPgpoolGet h) 0xAA 3 h.st (fun c s0 =>
    let d := (s0.ctx (s0.group c.place).page).d
    let none_ := fun (s : State) => goGroup s c (fun g => g.putK c.slot h.c.toNat false)
    if d.poolsize = 0 then none_ s0
    else sysRead s0 d.poolhdr.toNat 8 (fun l s =>
      let head := wordAt l 0
      if wordAt l 4 - head = 0 then none_ s
      else sysRead s (poolKey d head) 8 (fun e s =>
        let e := dwordAt e 0
        if !frameOk e then .trap s [.plain (codeOf 3 cEngine) c.act]
        else sysWrite s d.poolhdr.toNat (leBytes 4 (head + 1).toNat) (fun s =>
          goGroup s c (fun g => (g.putS64 c.slot h.a.toNat e).putK c.slot h.c.toNat true))))) s

/-- PGPOOL.put (R220). A value that R219 does not let the pool hold ends the context before it is put: R220 gives the instruction no check of its
own (log 121). -/
def execPgpoolPut (h : Hd) (s : State) : Host.Outcome State Fault Refusal :=
  issue (shPgpoolPut h) 0xAA 3 h.st (fun c s0 =>
    let d := (s0.ctx (s0.group c.place).page).d
    let e := (s0.group c.place).rs64 c.slot h.b.toNat
    let out := fun (s : State) (b : Bool) => goGroup s c (fun g => g.putK c.slot h.c.toNat b)
    if d.poolsize = 0 then out s0 false
    else sysRead s0 d.poolhdr.toNat 8 (fun l s =>
      let head := wordAt l 0
      if (wordAt l 4 - head).toNat = d.poolsize then out s false
      else if !frameOk e then .trap s [.plain (codeOf 3 cEngine) c.act]
      else sysWrite s (poolKey d (head - 1)) (leBytes 8 e.toNat) (fun s =>
        sysWrite s d.poolhdr.toNat (leBytes 4 (head - 1).toNat) (fun s => out s true)))) s

/-- PGMAP (R220): the status, and the entry written when the walk stops at an invalid level-0 entry. Bits 63:57 of the address play no part (DESIGN
CHOICE, log 154). -/
def execPgmap (h : Hd) (s : State) : Host.Outcome State Fault Refusal :=
  issue (shPgmap h) 0xAB 3 h.st (fun c s =>
    let g := s.group c.place
    let d := (s.ctx g.page).d
    let va := g.rs64 c.slot h.b.toNat
    let e := g.rs64 c.slot h.c.toNat
    let out := fun (s : State) (v : Word) => goGroup s c (fun g => g.write c.slot (.s h.a.toNat) [(0, v)] 0)
    if !bit e 0 || !bit e 1 || bits e 52 12 != 0 || bits e 9 7 != 0 then mapTrap s c cIllegalForm 0 kNone
    else match (if anyWindow s then snoopEntries s (walkKeys s va.toNat levels (d.ptroot.toNat % 2 ^ 52)) else (true, s)) with
      | (false, s) => .hold s
      | (true, s) => match walk s d va.toNat with
      | .leaf _ _ _ => out s 1
      | .malformed => mapTrap s c cEngine va kNone
      | .absent => .own { s with absent := true }
      | .invalid lv k _ =>
        if lv != 0 then out s 2
        else
          let frame := ptePa e
          match snoopRange s k 8 true with
          | (false, s) => .hold s
          | (true, s) =>
            if !bit h.mod 0 then out (s.setBytes k (leBytes 8 e.toNat)) 0
            else match snoopRange s frame 65536 true with
              | (false, s) => .hold s
              | (true, s) => out ((s.zeroRange frame (frame + 65536)).setBytes k (leBytes 8 e.toNat)) 0) s

/-- PGMAP.fwd: the handler's fault is posted as a record; the group will park at its SVRET (R220). -/
def execPgmapFwd (h : Hd) (s : State) : Host.Outcome State Fault Refusal :=
  issue (shPgmapFwd h) 0xAB 3 h.st (fun c s =>
    let g := s.group c.place
    let r : FRec := { recOf s c.place g.h.epc with code := g.h.ecause, kind := g.h.kind, va := g.h.eaddr, mask := g.h.emask,
                                                   flags := flFwd ||| flLast }
    let (t, s) := postWaiting s g.page r false (some c.place) none none
    goGroup s c (fun g => { g with fwd := g.fwd ++ [t] })) s

/-! ### Invalidation (R213, R229) -/

/-- The stash lines of a context whose global address lies in a range: team, window, line. -/
def linesIn (s : State) (page : Nat) (range : Option (Nat × Nat)) : List (Nat × Nat × Nat) :=
  s.teams.flatMap (fun t => if t.2.page != page then [] else
    t.2.windows.flatMap (fun w => (w.2.lines.filter (fun l =>
      let a := (lineVa w.2 l.1).toNat
      match range with
      | none => true
      | some (lo, n) => decide (lo ≤ a) && decide (a < lo + n))).map (fun l => (t.1, w.1, l.1))))

/-- A quantiser operation of a context has written and not retired (R343): its QUANT_OP_DONE writes all. -/
def quantWrites (s : State) (page : Nat) : Bool :=
  s.ops.any (fun o => o.page == page && !o.ripe.isEmpty && match o.kind with
    | .quant _ => true
    | _ => false)

/-- Translations of a range, or all, removed, those of the write-backs among them; stash lines of the range answer an ownership request (R229).
False while a write-back is refused, or a quantiser operation of the context is writing (R343). -/
def invalidate (s : State) (page : Nat) (range : Option (Nat × Nat)) : Bool × State :=
  let drop := fun (s : State) => s.dropTlb (s.ctx page).d.asid (range.map (fun r => (r.1 / 65536, r.2 / 65536)))
  let (ok, s) := (linesIn s page range).foldl (fun a l =>
    let (ok, s) := remoteLine a.2 true l.1 l.2.1 l.2.2
    (a.1 && ok, s)) (!quantWrites s page, drop s)
  (ok, drop s)

/-- TLBINV (R229): the fragment goes on when every line has been given up and no quantiser operation is writing (R343). -/
def execTlbinv (h : Hd) (s : State) : Host.Outcome State Fault Refusal :=
  issue (shTlbinv h) 0xAC 3 h.st (fun c s =>
    let g := s.group c.place
    let (base, n) := rangeArgs h c s
    if bit h.mod 0 && !aligned base.toNat 65536 then mapTrap s c cAlign base kNone
    else match invalidate s g.page (if bit h.mod 0 then some (base.toNat, 65536 * n) else none) with
      | (true, s) => .go s
      | (false, s) => .hold s) s

/-- HOT_WINDOW_EXPIRY: a window of 2^20 fabric cycles ends and the tracker counts anew (R226); an access of the next window finds it ended too. -/
def execHotWindowExpiry (s : State) : Host.Outcome State Fault Refusal :=
  event (hotWindow s)

end Sys2Proof.Machine
end

