-- ==== Sys2Proof/Machine/Copy.lean ====
section
/-! DEFINITION. The copy engine: CPY, CPY2D, CPYS and their checks (R254 to R257), chunks (R258 to R268), prefetches (R269 to R272), and
Skesunal's fill service, which uses the same decompression (R221). -/
namespace Sys2Proof.Machine

/-! ### Issue -/

/-- A trap of the copy engine against the issuing fragment's mask (R257). -/
def copyTrap (s : State) (c : Iss) (cause : Nat) : Eff := .trap s [.plain (codeOf 5 cause) c.mask]

/-- The operands of a copy as read at issue. -/
structure CopyArgs where
  src : DWord
  srcLocal : Bool
  dst : DWord
  dstLocal : Bool
  rows : Nat
  rowBytes : Nat
  spitch : Nat
  dpitch : Nat
  zws : Bool
  bound : Nat

/-- The bytes from the first to one past the last that rows reach. -/
def rowsSpan (rows rowBytes pitch : Nat) : Nat := (rows - 1) * pitch + rowBytes

/-- A side of a copy lies where R257 asks: in the translated region, or in the team's allocation. -/
def sideThere (t : Team) (loc : Bool) (a : DWord) (rows rowBytes pitch : Nat) : Bool :=
  if loc then decide (a.toNat + rowsSpan rows rowBytes pitch ≤ t.size) else inTranslated a (rowsSpan rows rowBytes pitch)

/-- The first check of R257 that fails. -/
def copyFault (t : Team) (a : CopyArgs) (reg : Bool) : Option Nat :=
  let len := a.rows * a.rowBytes
  let rows := List.range a.rows
  if len = 0 || 2 ^ 24 < len || (decide (1 < a.rows) && decide (a.dpitch < a.rowBytes)) || (a.zws && decide (a.bound < 8)) || !reg then
    some cIllegalForm
  else if a.zws && (!aligned a.src.toNat 8 || !aligned len 512) then some cAlign
  else if !sideThere t a.srcLocal a.src (if a.zws then 1 else a.rows) (if a.zws then a.bound else a.rowBytes) a.spitch ||
      !sideThere t a.dstLocal a.dst a.rows a.rowBytes a.dpitch ||
      (a.dstLocal && rows.any (fun r => hitsReadOnly t (a.dst.toNat + r * a.dpitch) a.rowBytes)) then some cProt
  else none

/-- A copy command: its checks, then acceptance in both copy classes (R257). -/
def copyEff (x : WCpy) (c : Iss) (s : State) (a : CopyArgs) : Eff :=
  let t := s.team (s.group c.place).team
  let n := chunksOf (a.rows * a.rowBytes)
  let reg := registerAt s c x.rep (x.slot.toNat, x.cl, x.cpos.toNat)
    (fun sl => (sl.kind == 1 && x.cbit == 0) || (sl.kind == 2 && decide (x.cbit.toNat + n ≤ sl.expect)))
  if registerWaits s c x.rep (x.slot.toNat, x.cl, x.cpos.toNat) then .hold s
  else match copyFault t a reg.isSome with
  | some cause => copyTrap s c cause
  | none => acceptEff s c [0, 1] (reg.getD none) 0 (.copy
      { src := a.src, srcLocal := a.srcLocal, dst := a.dst, dstLocal := a.dstLocal, rows := a.rows, rowBytes := a.rowBytes,
        spitch := a.spitch, dpitch := a.dpitch, zws := a.zws, bound := a.bound, scope := x.scope, rep := x.rep, cbit := x.cbit.toNat,
        finished := [], held := [], zoff := [0], late := [], rem := none })

/-- The destination field: a team offset when DL is 1, an address otherwise (R254). -/
def copyDst (h : Hd) (g : Group) (slot : Nat) : DWord := if bit h.mod 1 then zx (g.rs slot h.a.toNat) else g.rs64 slot h.a.toNat

/-- CPY (R254). -/
def execCpy (h : Hd) (x : WCpy) (s : State) : Host.Outcome State Fault Refusal :=
  issue (shCpy h x) 0xB8 3 h.st (fun c s =>
    let g := s.group c.place
    let zws := bit h.mod 0
    copyEff x c s { src := g.rs64 c.slot h.b.toNat, srcLocal := false, dst := copyDst h g c.slot, dstLocal := bit h.mod 1, rows := 1,
                    rowBytes := (g.rs c.slot h.c.toNat).toNat, spitch := 0, dpitch := 0, zws := zws,
                    bound := if zws then (g.rs c.slot h.d.toNat).toNat else 0 }) s

/-- CPY2D (R255). -/
def execCpy2d (h : Hd) (x : WCpy) (s : State) : Host.Outcome State Fault Refusal :=
  issue (shCpy2d h x) 0xB9 3 h.st (fun c s =>
    let g := s.group c.place
    let q := fun (i : Nat) => (g.rs c.slot (h.c.toNat + i)).toNat
    copyEff x c s { src := g.rs64 c.slot h.b.toNat, srcLocal := false, dst := copyDst h g c.slot, dstLocal := bit h.mod 1, rows := q 0,
                    rowBytes := q 1, spitch := q 2, dpitch := q 3, zws := false, bound := 0 }) s

/-- CPYS (R254): from local memory. -/
def execCpys (h : Hd) (x : WCpy) (s : State) : Host.Outcome State Fault Refusal :=
  issue (shCpys h x) 0xBA 3 h.st (fun c s =>
    let g := s.group c.place
    copyEff x c s { src := zx (g.rs c.slot h.b.toNat), srcLocal := true, dst := g.rs64 c.slot h.a.toNat, dstLocal := false, rows := 1,
                    rowBytes := (g.rs c.slot h.c.toNat).toNat, spitch := 0, dpitch := 0, zws := false, bound := 0 }) s

/-! ### Chunks (R258, R264, R265) -/

/-- How the first phase of a chunk goes: its bytes and, under .zws, where the next record starts; the side of a fault. -/
inductive ChunkRead where
  | ok (b : List Byte) (next : Option Nat) (s : State)
  | fault (f : FaultInfo) (dstSide : Bool)
  | tooFar
  | wait (s : State)
  | absentMem

/-- The words of a chunk from its mask and the words present (R264). -/
def expand (m : DWord) (present : List Byte) : List Byte :=
  ((List.range 64).foldl (fun (acc : List Byte × List Byte) i =>
    if bit m i then (acc.1 ++ acc.2.take 8, acc.2.drop 8) else (acc.1 ++ List.replicate 8 0, acc.2)) ([], present)).1

/-- The source of chunk i (R258, R264, R265). -/
def readSource (e : Eng) (c : CopyOp) (i : Nat) (s : State) : ChunkRead :=
  let out := fun (r : MemR (List Byte)) (next : List Byte → Option Nat) (g : List Byte → List Byte) => match r with
    | .ok b s => ChunkRead.ok (g b) (next b) s
    | .fault f => .fault f false
    | .wait s => .wait s
    | .absentMem => .absentMem
  if c.zws then
    let at_ := c.zoff.getD i 0
    if c.bound < at_ + 8 then .tooFar
    else match engRead e c.srcLocal kEngRead (plus c.src at_) 8 s with
      | .ok mb s =>
        let m := dwordAt mb 0
        let n := 8 * popc m
        if c.bound < at_ + 8 + n then .tooFar
        else out (engRead e c.srcLocal kEngRead (plus c.src (at_ + 8)) n s) (fun _ => some (at_ + 8 + n)) (expand m)
      | .fault f => .fault f false
      | .wait s => .wait s
      | .absentMem => .absentMem
  else
    out (engAll (fun (p : Nat × Nat × Nat) s => engRead e c.srcLocal kEngRead (plus c.src (p.1 * c.spitch + p.2.1)) p.2.2 s) (c.parts i) s
      |> fun r => r.bind (fun l s => .ok l.flatten s)) (fun _ => none) id

/-- Chunk i written. -/
def writeChunk (e : Eng) (c : CopyOp) (i : Nat) (b : List Byte) (s : State) : MemR Unit :=
  (engAll (fun (p : Nat × Nat × Nat) s =>
    engWrite e c.dstLocal kEngWrite (plus c.dst (p.1 * c.dpitch + p.2.1)) ((b.drop (p.1 * c.rowBytes + p.2.1 - 512 * i)).take p.2.2) s)
    (c.parts i) s).bind (fun _ s => .ok () s)

/-- The first phase of a chunk: every page of its source and destination translates, and its whole source is read (R258). -/
def readChunk (e : Eng) (c : CopyOp) (i : Nat) (s : State) : ChunkRead :=
  match readSource e c i s with
  | .ok b next s => match writeChunk e c i b s with
    | .ok _ _ => .ok b next s
    | .fault f => .fault f true
    | .wait s => .wait s
    | .absentMem => .absentMem
  | r => r

/-- A chunk has still to be read, and can be: under .zws its record's start is known. -/
def CopyOp.unread (c : CopyOp) (i : Nat) : Bool :=
  decide (i < c.chunks) && !c.finished.contains i && !c.held.any (fun h => h.1 == i) && (!c.zws || decide (i < c.zoff.length))

/-- The engine has read a chunk that it has not written yet; one that the remainder service has read is that service's (R266). -/
def CopyOp.engineHolds (c : CopyOp) (i : Nat) : Bool := c.held.any (fun h => h.1 == i) && !c.late.contains i

/-- Every chunk has been read. -/
def CopyOp.allRead (c : CopyOp) : Bool := c.finished.length + c.held.length == c.chunks

/-- DETAIL of a copy's record (R267). -/
def CopyOp.detail (c : CopyOp) (dstSide again : Bool) : List Word :=
  let lowest := ((List.range c.chunks).find? (fun i => !c.finished.contains i)).getD 0
  [BitVec.ofNat 32 lowest, BitVec.ofNat 32 c.chunks, BitVec.ofNat 32 (c.chunks - c.finished.length),
   BitVec.ofNat 32 (natOf dstSide + 2 * natOf c.zws + 4 * natOf again)]

/-- An operation's copy replaced. -/
def setCopy (s : State) (id : Nat) (c : CopyOp) : State := modOp s id (fun o => { o with kind := .copy c })

/-- A chunk's first phase done: its bytes are held; with the last one the copy completes copy-read (R260). -/
def chunkHeld (s : State) (id : Nat) (c : CopyOp) (i : Nat) (b : List Byte) (next : Option Nat) (again : Bool) : State :=
  let c := { c with held := c.held ++ [(i, b)], late := if again then c.late ++ [i] else c.late, zoff := match next with
    | some n => c.zoff ++ [n]
    | none => c.zoff }
  let s := setCopy s id c
  if c.allRead then opRipe s id 0 else s

/-- A chunk visible: its arrival, with `final` on the last one, which completes copy-visible (R259, R260). -/
def chunkDone (s : State) (o : Op) (c : CopyOp) (i : Nat) : State :=
  let c := { c with held := c.held.filter (fun h => h.1 != i), finished := c.finished ++ [i] }
  let s := setCopy s o.id c
  let last := c.finished.length == c.chunks
  let s := match o.reg with
    | some (r, tag) => postArrival s o r tag (if (slotAt s r).kind = 2 then some (c.cbit + i) else none) (c.chunkLen i) last
    | none => s
  if last then opRipe s o.id 1 else s

/-- What one move of a chunk meets: nothing more, or a fault with its side. -/
inductive ChunkMove where
  | done (s : State)
  | fault (f : FaultInfo)

/-- One move of chunk i: its first phase, or its write. `again` is the REMAINDER bit of a record (R267). A .zws record that would reach beyond the bound
has KIND 0x0F and VA source + bound (DESIGN CHOICE, log 157). -/
def moveChunk (s : State) (o : Op) (c : CopyOp) (i : Nat) (again : Bool) : ChunkMove :=
  let e := o.eng s 5
  let flt := fun (f : FaultInfo) (side : Bool) => ChunkMove.fault { f with mask := allLanes, det := c.detail side again }
  match c.held.find? (fun h => h.1 == i) with
  | some (_, b) => match writeChunk e c i b s with
    | .ok _ s => .done (sweepTeams (chunkDone s o c i))
    | .fault f => flt f true
    | .wait s => .done s
    | .absentMem => .done { s with absent := true }
  | none =>
    if !c.unread i then .done s
    else match readChunk e c i s with
      | .ok b next s => .done (chunkHeld s o.id c i b next again)
      | .fault f side => flt f side
      | .tooFar => .done (doomOp s o { FaultInfo.plain (codeOf 5 cEngine) allLanes with addr := plus c.src c.bound, det := c.detail false again })
      | .wait s => .done s
      | .absentMem => .done { s with absent := true }

/-- The copy that an operation is. -/
def copyOf (s : State) (id : Nat) : Option (Op × CopyOp) :=
  (opById s id).bind (fun o => match o.kind with
    | .copy c => some (o, c)
    | _ => none)

/-- COPY_CHUNK_DONE: a chunk is read, and then, by a second such event, becomes visible (R258, R259). A stopped or handed-over copy
only finishes the chunks that the engine has read. An uncorrectable error ends the context (R265). -/
def execCopyChunkDone (op : Nat) (chunk : Nat) (s : State) : Host.Outcome State Fault Refusal :=
  match copyOf s op with
  | none => event s
  | some (o, c) =>
    if !opRuns s o || ((o.stop.isSome || c.rem.isSome) && !c.engineHolds chunk) then event s
    else match moveChunk s o c chunk false with
      | .done s => event s
      | .fault f => event (if causeOf f.code == cEngine then doomOp s o f else s)

/-- COPY_FAULT: a chunk that meets a translation fault stops the copy before its first write (R266). -/
def execCopyFault (op : Nat) (chunk : Nat) (s : State) : Host.Outcome State Fault Refusal :=
  match copyOf s op with
  | none => event s
  | some (o, c) =>
    if !opRuns s o || o.stop.isSome || c.rem.isSome then event s
    else match moveChunk s o c chunk false with
      | .done _ => event s
      | .fault f =>
        if causeOf f.code == cEngine then event (doomOp s o f)
        else if f.first && !opOrphan s o then event (stopOp s op [f])
        else event (handOff s o f)

/-- The chunk that Skesunal moves next: it reads ahead in ascending order and writes the lowest unfinished chunk once every chunk is read; where the
next read can do nothing, or meets a fault or an error, the chunks before it are written first (R265, R266). -/
def remainderNext (s : State) (o : Op) (c : CopyOp) : Option Nat :=
  let low := (List.range c.chunks).find? (fun i => c.held.any (fun h => h.1 == i))
  match (List.range c.chunks).find? c.unread, low with
  | some i, some k => match readChunk (o.eng s 5) c i s with
    | .ok _ _ _ => some i
    | _ => some (if k < i then k else i)
  | some i, none => some i
  | none, l => l

/-- REMAINDER_CHUNK: after the driver's answer Skesunal reads the unread chunks and writes the unfinished ones, in ascending order; another fault
posts a further record (R266). -/
def execRemainderChunk (op : Nat) (s : State) : Host.Outcome State Fault Refusal :=
  match copyOf s op with
  | none => event s
  | some (o, c) =>
    if !opRuns s o || !(match c.rem with
        | some (_, ok) => ok
        | none => false) then event s
    else match remainderNext s o c with
      | none => event s
      | some i => match moveChunk s o c i true with
        | .done s => event s
        | .fault f => if causeOf f.code == cEngine then event (doomOp s o f) else event (handOff s o f)

/-! ### Prefetch (R269 to R272) -/

/-- An entry has left the queue by its needed-by slot (R271). -/
def pfxStale (s : State) (p : Pfx) : Bool :=
  match p.need with
  | some (r, gen, phase) =>
    let x := slotAt s r
    x.gen != gen || (ffind s.teams r.team).isNone || (x.kind == 1 && x.phase != phase)
  | none => false

/-- The queue without entries that have left it. -/
def prunePfx (s : State) : State := { s with pfx := s.pfx.filter (fun p => !pfxStale s p) }

/-- When the earliest present waiter of a slot began waiting; a handler in between does not count. -/
def firstWaiter (s : State) (r : SlotRef) : Option Nat :=
  minBy id ((waiters s r).map (fun w => w.began))

/-- The order in which entries are taken, before earlier issue (R271): a smaller key goes first. -/
def pfxKey (s : State) (p : Pfx) : List Nat :=
  (7 - p.prio) :: match p.need with
    | some (r, _, _) => match firstWaiter s r with
      | some t => [0, t]
      | none => [1, 0]
    | none => [2, 0]

/-- The entries of a core in the order of R271. -/
def pfxOrder (s : State) (core : Nat) : List Pfx :=
  sortBy (fun a b => lexLe (pfxKey s a) (pfxKey s b)) (s.pfx.filter (fun p => p.core == core))

/-- An entry queued, or put in place of the last one, of like entries the one issued last, or dropped (R271). -/
def queuePfx (s : State) (p : Pfx) : State :=
  let s := prunePfx s
  let q := pfxOrder s p.core
  if q.length < 64 then { s with pfx := s.pfx ++ [p] }
  else match q.getLast? with
    | some z => if lexLe (pfxKey s z) (pfxKey s p) then s else { s with pfx := (s.pfx.reverse.erase z).reverse ++ [p] }
    | none => s

/-- PFX (R269). -/
def execPfx (h : Hd) (x : WPfx) (s : State) : Host.Outcome State Fault Refusal :=
  issue (shPfx h x) 0xBB 3 h.st (fun c s =>
    let g := s.group c.place
    let base := g.rs64 c.slot h.b.toNat
    let len := (g.rs c.slot h.c.toNat).toNat
    if 2 ^ 24 < len then copyTrap s c cIllegalForm
    else if len = 0 || !inTranslated base len then .go s
    else
      let need := if !x.nb then none else (slotRef s g.team (x.slot.toNat, x.cl, x.cpos.toNat)).bind (fun r =>
        if (slotAt s r).kind = 0 then none else some (r, (slotAt s r).gen, (slotAt s r).phase))
      let lo := base.toNat / 65536
      let pages := (base.toNat + len - 1) / 65536 - lo + 1
      let hint := if x.pg then some (hintRec s c.place c.pc base pages 0 x.prio.toNat) else none
      .go (queuePfx s { core := g.core, page := g.page, base := base, len := len, next := 0,
                        tag := (g.rs c.slot h.d.toNat).setWidth 16, prio := x.prio.toNat, need := need, hint := hint })) s

/-- PFXCANCEL (R272). -/
def execPfxcancel (h : Hd) (s : State) : Host.Outcome State Fault Refusal :=
  issue (shPfxcancel h) 0xBC 3 h.st (fun c s =>
    let g := s.group c.place
    let tag : BitVec 16 := (g.rs c.slot h.b.toNat).setWidth 16
    .go { s with pfx := s.pfx.filter (fun p => !(p.core == g.core && p.page == g.page && (bit h.mod 0 || p.tag == tag))) }) s

/-- A copy of the core has a chunk to move: it takes the engine before a prefetch line (R270). -/
def copyBusy (s : State) (core : Nat) : Bool :=
  s.ops.any (fun o => o.core == core && !o.todo.isEmpty && opRuns s o && match o.kind with
    | .copy c => (o.stop.isNone && c.rem.isNone) || c.held.any (fun h => c.engineHolds h.1)
    | _ => false)

/-- A line of a prefetch is brought into L2, which no program can tell, or skipped (R270). -/
def pfxSkips (s : State) (d : Desc) (va : Nat) : Bool :=
  match walk s d va with
  | .leaf _ _ e => !(pteLoc e == 0 && bit e pteR)
  | _ => true

/-- A list with the first entry equal to p replaced: of two like entries the earlier advances (R271). -/
def replaceFirst (p p' : Pfx) : List Pfx → List Pfx
  | [] => []
  | q :: l => if q == p then p' :: l else q :: replaceFirst p p' l

/-- PREFETCH_LINE: the next line of the first entry; the first page skipped posts the entry's hint record (R270, R271). -/
def execPrefetchLine (core : Nat) (s : State) : Host.Outcome State Fault Refusal :=
  let s := prunePfx s
  if copyBusy s core then event s
  else match pfxOrder s core with
    | [] => event s
    | p :: _ =>
      let first := p.base.toNat / 256
      let count := (p.base.toNat + p.len - 1) / 256 - first + 1
      let skip := pfxSkips s (s.ctx p.page).d (256 * (first + p.next))
      let p' := { p with next := p.next + 1, hint := if skip then none else p.hint }
      let s := { s with pfx := if p.next + 1 < count then replaceFirst p p' s.pfx else s.pfx.erase p }
      event (match p.hint with
        | some r => if skip then postHint s p.page r else s
        | none => s)

/-! ### Skesunal's fill service (R221) -/

/-- The chunks of an image by their masks, within its length: none when it is too short. -/
def unpackImage (s : State) (image length : Nat) : Nat → Nat → Option (List Byte)
  | 0, _ => some []
  | n + 1, off =>
    if length < off + 8 then none
    else
      let m := dwordAt (viewBytes s (image + off) 8) 0
      let k := 8 * popc m
      if length < off + 8 + k then none
      else (unpackImage s image length n (off + 8 + k)).map (fun l => expand m (viewBytes s (image + off + 8) k) ++ l)

/-- A part whose record Skesunal posts for the driver, unanswered. -/
def leaveToDriver (s : State) (page : Nat) (p : Pending) : State :=
  let (q, s) := postRec s page p.frec
  let c := s.ctx page
  s.setCtx page { c with waiting := mapIf (fun x => x.ticket == p.ticket) (fun x => { x with frec := { x.frec with seq := q } }) c.waiting }

/-- The frame of the pool that a page of a size takes, and HEAD: none when the pool is empty or the frame does not fit. -/
def takeFrame (s : State) (d : Desc) (span : Nat) : Option (DWord × Word) :=
  let head : Word := BitVec.ofNat 32 (s.sysVal d.poolhdr.toNat 4)
  let e := s.sysDword (poolKey d head)
  if d.poolsize = 0 || BitVec.ofNat 32 (s.sysVal (d.poolhdr.toNat + 4) 4) - head = 0 || (frameOk e && !aligned e.toNat span) then none
  else some (e, head)

/-- The fill of a page: the image expanded into a frame, the leaf installed, the part answered, the record posted (R221). At level 3 or 4, where no
leaf is legal, the record is left to the driver (log 135). A frame address that R219 does not allow ends the context, as a PGPOOL that takes it does
(log 152). While a stash line of what is written has to wait, the part waits (R183). -/
def fillPage (s : State) (page : Nat) (p : Pending) (lv key : Nat) (desc : Nat) : State :=
  let d := (s.ctx page).d
  let span := 2 ^ levelShift lv
  let b := viewBytes s desc 64
  let s := (s.sysShare desc 64).sysShare (dwordAt b 0).toNat (wordAt b 8).toNat
  let attr := wordAt b 0x0C
  let reserved := attr &&& ~~~0x1C#32 != 0 || (b.drop 0x10).any (fun x => x != 0)
  match (if reserved || 3 ≤ lv then none else unpackImage s (dwordAt b 0).toNat (wordAt b 8).toNat (span / 512) 0) with
  | none => leaveToDriver s page p
  | some img => match takeFrame s d span with
    | none => leaveToDriver s page p
    | some (e, head) =>
      let taken := fun (s : State) => s.setBytes d.poolhdr.toNat (leBytes 4 (head + 1).toNat)
      match snoopRange (s.sysShare (poolKey d head) 8) d.poolhdr.toNat 8 true with
      | (false, s) => s
      | (true, s) =>
        if !frameOk e then doomBare (taken s) page (codeOf 3 cEngine) 0
        else match snoopRange s e.toNat span true with
          | (false, s) => s
          | (true, s) => match snoopRange s key 8 true with
            | (false, s) => s
            | (true, s) =>
              let leaf := e ||| zx attr ||| 3#64
              answerPart (postRec (((taken s).setBytes e.toNat img).setBytes key (leBytes 8 leaf.toNat)) page p.frec).2 page p

/-- CFILL_SERVICE: Skesunal fills the page of a part that waits for it, or leaves the record to the driver (R221). `seq` is the part's
ticket. An entry that is no longer a compressed-fill entry leaves it to the driver too (log 134). -/
def execCfillService (page : Nat) (seq : Word) (s : State) : Host.Outcome State Fault Refusal :=
  let c := s.ctx page
  match c.waiting.find? (fun p => p.ticket == seq.toNat && p.frec.seq == 0 && p.frec.flags &&& flCfill != 0) with
  | none => event s
  | some p => match walk s c.d p.frec.va.toNat with
    | .invalid lv k e =>
      let desc := (bits e 12 46).toNat * 64
      if !bit e pteCfill || bit e ptePool then event (leaveToDriver s page p)
      else if s.gone desc then event { s with absent := true }
      else event (fillPage s page p lv k desc)
    | .leaf _ _ _ => event (answerPart (postRec s page p.frec).2 page p)
    | _ => event (leaveToDriver s page p)

end Sys2Proof.Machine
end

