-- ==== Sys2Proof/Machine/LoadStore.lean ====
section
/-! DEFINITION. Loads, stores, atomics, fences and prefetches (R188 to R193, R196), and SLDK (R138). -/
namespace Sys2Proof.Machine

/-! ### Addresses and data -/

/-- The byte offset: OFF20, or the literal in the five-word form (R188). -/
def memOff (off : BitVec 20) : Option (BitVec 60) → DWord
  | none => sx off
  | some l => sx l

/-- The generic address of a lane (R190). -/
def genEa (g : Group) (slot : Nat) (b : BitVec 9) (ub : Bool) (off : DWord) (l : Nat) : DWord :=
  (if ub then g.rs64 slot b.toNat else g.rv64 slot b.toNat l) + off

/-- The team offset of a lane's local access, which wraps at 32 bits (R190). -/
def locEa (g : Group) (slot : Nat) (b : BitVec 9) (ub : Bool) (off : DWord) (l : Nat) : DWord :=
  zx ((if ub then g.rs slot b.toNat else g.rv slot b.toNat l) + lo32 off)

/-- Register j of what a load of a SIZE writes (R189). -/
def loadWord (size : Nat) (bs : List Byte) (j : Nat) : Word :=
  let v := leVal bs
  if size = 1 then lo32 (sx (BitVec.ofNat 8 v))
  else if size = 3 then lo32 (sx (BitVec.ofNat 16 v))
  else BitVec.ofNat 32 (v / 2 ^ (32 * j))

/-- A load's registers written in the lanes that completed. -/
def writeLoaded (c : Iss) (dst size : Nat) (s : State) (got : List (Nat × List Byte)) : State :=
  s.modGroup c.place (fun g => (List.range (sizeRegs size)).foldl
    (fun g j => g.write c.slot (.v (dst + j)) (got.map (fun x => (x.1, loadWord size x.2 j))) 0) g)

/-- The bytes a store of a SIZE takes from its data registers (R189). -/
def storeBytes (g : Group) (slot data size l : Nat) : List Byte :=
  (bytesOf ((List.range (sizeRegs size)).map (fun j => g.rv slot (data + j) l))).take (sizeBytes size)

/-- The access of a lane of a load-store instruction: local, generic, or generic and translated only (R190). -/
inductive Where where
  | loc | gen | const
  deriving DecidableEq, Repr

/-- The address of a lane. -/
def eaOf (w : Where) (g : Group) (slot : Nat) (b : BitVec 9) (ub : Bool) (off : DWord) (l : Nat) : DWord :=
  match w with
  | .loc => locEa g slot b ub off l
  | .gen => genEa g slot b ub off l
  | .const => genEa g slot b ub off l

/-- One access of the load-store engine. -/
def lsAccess (w : Where) (c : Iss) (kind n : Nat) (ea : DWord) (f : Option (List Byte → List Byte)) (s : State) : MemR (List Byte) :=
  let g := s.group c.place
  match w with
  | .loc => locAccess s (classOf c.op) kind g.team ea.toNat n ea f
  | .gen => genAccess s g.page g.team c.sup (classOf c.op) kind n ea f
  | .const => if regionOf ea = .translated then genAccess s g.page g.team c.sup (classOf c.op) kind n ea f
    else accFault (classOf c.op) cProt kind ea false

/-- A load (R190). Its latency is a sample of monitor event 0x01 (R421). -/
def loadEff (w : Where) (h : Hd) (x : WMem) (lit : Option (BitVec 60)) (c : Iss) (s : State) : Eff :=
  let g := s.group c.place
  let n := sizeBytes x.size.toNat
  let ea := eaOf w g c.slot h.b x.ub (memOff x.off lit)
  memLanes c s (classOf c.op) n kRead ea (fun l s => lsAccess w c kRead n (ea l) none s)
    (fun s got => sampleFree (writeLoaded c h.a.toNat x.size.toNat s got) 0x01 g.core)

/-- A store (R190). -/
def storeEff (w : Where) (h : Hd) (x : WMem) (lit : Option (BitVec 60)) (c : Iss) (s : State) : Eff :=
  let g := s.group c.place
  let n := sizeBytes x.size.toNat
  let ea := eaOf w g c.slot h.b x.ub (memOff x.off lit)
  memLanes c s (classOf c.op) n kWrite ea
    (fun l s => lsAccess w c kWrite n (ea l) (some (fun _ => storeBytes g c.slot h.c.toNat x.size.toNat l)) s) (fun s _ => s)

/-! ### The twelve loads and stores -/

/-- LD (R190). -/
def execLd (h : Hd) (x : WMem) (s : State) : Host.Outcome State Fault Refusal :=
  issue (shLd h x) 0x90 3 h.st (loadEff .gen h x none) s
/-- LD, five words. -/
def execLd5w (h : Hd) (x : WMem) (lit : BitVec 60) (s : State) : Host.Outcome State Fault Refusal :=
  issue (shLd5w h x) 0x90 5 h.st (loadEff .gen h x (some lit)) s
/-- ST (R190). -/
def execSt (h : Hd) (x : WMem) (s : State) : Host.Outcome State Fault Refusal :=
  issue (shSt h x) 0x91 3 h.st (storeEff .gen h x none) s
/-- ST, five words. -/
def execSt5w (h : Hd) (x : WMem) (lit : BitVec 60) (s : State) : Host.Outcome State Fault Refusal :=
  issue (shSt5w h x) 0x91 5 h.st (storeEff .gen h x (some lit)) s
/-- LDL (R190). -/
def execLdl (h : Hd) (x : WMem) (s : State) : Host.Outcome State Fault Refusal :=
  issue (shLdl h x) 0x92 3 h.st (loadEff .loc h x none) s
/-- LDL, five words. -/
def execLdl5w (h : Hd) (x : WMem) (lit : BitVec 60) (s : State) : Host.Outcome State Fault Refusal :=
  issue (shLdl5w h x) 0x92 5 h.st (loadEff .loc h x (some lit)) s
/-- STL (R190). -/
def execStl (h : Hd) (x : WMem) (s : State) : Host.Outcome State Fault Refusal :=
  issue (shStl h x) 0x93 3 h.st (storeEff .loc h x none) s
/-- STL, five words. -/
def execStl5w (h : Hd) (x : WMem) (lit : BitVec 60) (s : State) : Host.Outcome State Fault Refusal :=
  issue (shStl5w h x) 0x93 5 h.st (storeEff .loc h x (some lit)) s
/-- LDC (R190): PAGE_PROT outside the translated region. -/
def execLdc (h : Hd) (x : WMem) (s : State) : Host.Outcome State Fault Refusal :=
  issue (shLdc h x) 0x94 3 h.st (loadEff .const h x none) s
/-- LDC, five words. -/
def execLdc5w (h : Hd) (x : WMem) (lit : BitVec 60) (s : State) : Host.Outcome State Fault Refusal :=
  issue (shLdc5w h x) 0x94 5 h.st (loadEff .const h x (some lit)) s
/-- LDA: a load; its order is that of every access of this model (R190, R199). -/
def execLda (h : Hd) (x : WMem) (s : State) : Host.Outcome State Fault Refusal :=
  issue (shLda h x) 0x95 3 h.st (loadEff .gen h x none) s
/-- LDA, five words. -/
def execLda5w (h : Hd) (x : WMem) (lit : BitVec 60) (s : State) : Host.Outcome State Fault Refusal :=
  issue (shLda5w h x) 0x95 5 h.st (loadEff .gen h x (some lit)) s
/-- STREL (R190). -/
def execStrel (h : Hd) (x : WMem) (s : State) : Host.Outcome State Fault Refusal :=
  issue (shStrel h x) 0x96 3 h.st (storeEff .gen h x none) s
/-- STREL, five words. -/
def execStrel5w (h : Hd) (x : WMem) (lit : BitVec 60) (s : State) : Host.Outcome State Fault Refusal :=
  issue (shStrel5w h x) 0x96 5 h.st (storeEff .gen h x (some lit)) s

/-! ### Atomics (R191) -/

/-- The new value of an atomic. -/
def atomVal (op : Nat) (t : Ty) (old b c : DWord) : DWord :=
  match op with
  | 0 => if t = .f32 || t = .f64 then (fltOp .add t 0 0 false old b).1 else (intOp .add t false old b).1
  | 1 => (intOp .min t false old b).1
  | 2 => (intOp .max t false old b).1
  | 3 => (intOp .and t false old b).1
  | 4 => (intOp .or t false old b).1
  | 5 => (intOp .xor t false old b).1
  | 6 => b
  | _ => if natVal t old = natVal t b then c else old

/-- An atomic over its lanes in ascending order; the old values are written when it has a destination (R191). -/
def atomEff (w : Where) (h : Hd) (x : WAtom) (red : Bool) (lit : Option (BitVec 60)) (c : Iss) (s : State) : Eff :=
  let g := s.group c.place
  let n := tyBits x.ty / 8
  let ea := eaOf w g c.slot h.b x.ub (memOff x.off lit)
  let src := fun (r : BitVec 9) (l : Nat) => srcLane g c.slot l (tyRegs x.ty) (.v r.toNat)
  memLanes c s (classOf c.op) n kAtomic ea
    (fun l s => lsAccess w c kAtomic n (ea l)
      (some (fun old => leBytes n (atomVal (bits h.mod 0 3).toNat x.ty (BitVec.ofNat 64 (leVal old)) (src h.c l) (src h.d l)).toNat)) s)
    (if red then fun s _ => s else writeLoaded c h.a.toNat (if n = 8 then 5 else 4))

/-- ATOM. -/
def execAtom (h : Hd) (x : WAtom) (s : State) : Host.Outcome State Fault Refusal :=
  issue (shAtom h x) 0x97 3 h.st (atomEff .gen h x false none) s
/-- ATOM, five words. -/
def execAtom5w (h : Hd) (x : WAtom) (lit : BitVec 60) (s : State) : Host.Outcome State Fault Refusal :=
  issue (shAtom5w h x) 0x97 5 h.st (atomEff .gen h x false (some lit)) s
/-- ATOML: at a team offset. -/
def execAtoml (h : Hd) (x : WAtom) (s : State) : Host.Outcome State Fault Refusal :=
  issue (shAtoml h x) 0x98 3 h.st (atomEff .loc h x false none) s
/-- ATOML, five words. -/
def execAtoml5w (h : Hd) (x : WAtom) (lit : BitVec 60) (s : State) : Host.Outcome State Fault Refusal :=
  issue (shAtoml5w h x) 0x98 5 h.st (atomEff .loc h x false (some lit)) s
/-- RED: an atomic that returns nothing. -/
def execRed (h : Hd) (x : WAtom) (s : State) : Host.Outcome State Fault Refusal :=
  issue (shRed h x) 0x99 3 h.st (atomEff .gen h x true none) s
/-- RED, five words. -/
def execRed5w (h : Hd) (x : WAtom) (lit : BitVec 60) (s : State) : Host.Outcome State Fault Refusal :=
  issue (shRed5w h x) 0x99 5 h.st (atomEff .gen h x true (some lit)) s

/-! ### Fences, prefetches, SLDK -/

/-- FENCE: every access of this model is already ordered as it happens (R192, R199). -/
def execFence (h : Hd) (x : WFence) (s : State) : Host.Outcome State Fault Refusal :=
  issue (shFence h x) 0x9A 3 h.st (fun _ s => .go s) s
/-- FENCE, one word. -/
def execFenceZ1 (f : F1) (s : State) : Host.Outcome State Fault Refusal := issue (shFenceZ1 f) 0x9A 1 f.st (fun _ s => .go s) s
/-- PREF: moves a line toward a cache; no architectural state changes (R193). -/
def execPref (h : Hd) (x : WMem) (s : State) : Host.Outcome State Fault Refusal :=
  issue (shPref h x) 0x9B 3 h.st (fun _ s => .go s) s
/-- PREF, five words. -/
def execPref5w (h : Hd) (x : WMem) (_lit : BitVec 60) (s : State) : Host.Outcome State Fault Refusal :=
  issue (shPref5w h x) 0x9B 5 h.st (fun _ s => .go s) s

/-- SLDK: one uniform load; ALIGN, and any fault of the access, against the fragment's lanes (R138). Its latency is a sample of monitor event 0x01
(R421). -/
def execSldk (h : Hd) (x : WSldk) (s : State) : Host.Outcome State Fault Refusal :=
  issue (shSldk h x) 0x20 3 h.st (fun c s =>
    let g := s.group c.place
    let n := tyBits x.ty / 8
    let ea := g.rs64 c.slot h.b.toNat + sx x.off
    let flt := fun (f : FaultInfo) => Eff.trap s [{ f with mask := c.act }]
    if !aligned ea.toNat n then flt { FaultInfo.plain (codeOf 0 cAlign) c.act with addr := ea, kind := kRead }
    else match genAccess s g.page g.team c.sup 0 kRead n ea none with
      | .ok bs s => goGroup (sampleFree s 0x01 g.core) c (fun g => g.put c.slot (shSldk h x).dst [(0, BitVec.ofNat 64 (leVal bs))])
      | .fault f => flt f
      | .wait s => .hold s
      | .absentMem => .own { s with absent := true }) s

end Sys2Proof.Machine
end

