-- ==== Sys2Proof/Machine/Access.lean ====
section
/-! DEFINITION. The access processor: element addressing (R275 to R277), direct gathers and scatters (R278 to R281), streams (R282 to
R288), faults (R289 to R292). -/
namespace Sys2Proof.Machine

/-! ### Elements (R276) -/

/-- How an element's access goes: its bytes; or a fault, of the upper part or not, with the state and whether its lower part is now
stored. -/
inductive ElemR where
  | ok (b : List Byte) (s : State)
  | fault (f : FaultInfo) (upper stored : Bool) (s : State)
  | wait (s : State)
  | absentMem

/-- The access of an element (R276): `data` is stored in the bytes that `skip` does not name, or nothing is stored when it is none. -/
def elemAccess (e : Eng) (ea : DWord) (es : Nat) (data : Option (List Byte)) (skip : Nat → Bool) (lowerDone : Bool) (s : State) : ElemR :=
  let one := fun (off n : Nat) (s : State) =>
    engOne e false (if data.isSome then kEngWrite else kEngRead) n (plus ea off)
      (data.map (fun d => fun old => (old.zip (List.range n)).map (fun x => if skip (off + x.2) then x.1 else d.getD (off + x.2) 0))) s
  let k := lowerLen ea es
  match (if lowerDone then .ok [] s else one 0 k s) with
  | .fault f => .fault f false false s
  | .wait s => .wait s
  | .absentMem => .absentMem
  | .ok b s =>
    if k = es then .ok b s
    else match one k (es - k) s with
      | .ok b' s => .ok (b ++ b') s
      | .fault f => .fault f true data.isSome s
      | .wait s => .wait s
      | .absentMem => .absentMem

/-! ### Direct operations -/

/-- A fault of the access processor for the active lanes. -/
def accTrap (s : State) (c : Iss) (cause : Nat) : Eff := .trap s [.plain (codeOf 6 cause) c.act]

/-- Every active lane is finished. -/
def DirectOp.full (d : DirectOp) : Bool := d.active &&& ~~~d.done == 0

/-- The data of a store's lanes. -/
def laneData (g : Group) (slot reg size : Nat) (m : Mask) : List (Nat × BitVec 128) :=
  (lanes m).map (fun l => (l, BitVec.ofNat 128 (leVal (storeBytes g slot reg size l))))

/-- The operation of an AGATH or ASCAT as read at issue. -/
def directOf (h : Hd) (x : WAg) (gather : Bool) (g : Group) (c : Iss) : DirectOp :=
  let q := fun (i : Nat) => g.rs c.slot (h.d.toNat + i)
  { gather := gather, size := x.size.toNat, base := g.rs64 c.slot h.b.toNat, bound := cat (q 1) (q 0), stride := q 2, fill := q 3,
    sent := x.sent, split := x.split, scope := x.scope, okp := if gather then x.okp.toNat else 7, vd := h.a.toNat, active := c.act,
    idx := (lanes c.act).map (fun l => (l, g.rv c.slot h.c.toNat l)),
    data := if gather then [] else laneData g c.slot h.a.toNat x.size.toNat c.act,
    done := 0, lower := 0, faulted := [], vskip := [], oskip := 0, entry := none }

/-- The lanes of class MISALIGNED, each as a fault (R279). -/
def misLanes (d : DirectOp) : List FaultInfo :=
  (lanes d.active).filterMap (fun l => match d.cls l with
    | .misaligned ea => some { code := codeOf 6 cAlign, mask := maskOfList [l], addr := ea, kind := if d.gather then kEngRead else kEngWrite,
                               first := false, det := [] }
    | _ => none)

/-- AGATH and ASCAT: the checks of R279, then acceptance. -/
def directEff (h : Hd) (x : WAg) (gather : Bool) (c : Iss) (s : State) : Eff :=
  if registerWaits s c x.rep (x.slot.toNat, x.cl, x.cpos.toNat) then .hold s
  else match registerAt s c x.rep (x.slot.toNat, x.cl, x.cpos.toNat) (fun sl => sl.kind == 1) with
  | none => accTrap s c cIllegalForm
  | some reg =>
    let d := directOf h x gather (s.group c.place) c
    let bad := misLanes d
    if !bad.isEmpty then .undone s bad else acceptEff s c [2] reg 0 (.direct d)

/-- AGATH (R279). -/
def execAgath (h : Hd) (x : WAg) (s : State) : Host.Outcome State Fault Refusal :=
  issue (shAgath h x) 0xC5 3 h.st (directEff h x true) s
/-- ASCAT (R279). -/
def execAscat (h : Hd) (x : WAg) (s : State) : Host.Outcome State Fault Refusal :=
  issue (shAscat h x) 0xC6 3 h.st (directEff h x false) s

/-- The registers of one lane of a gather written, unless a younger write has taken them or the group has ended (R280). -/
def writeElem (s : State) (o : Op) (d : DirectOp) (l : Nat) (ws : List Word) (ok : Bool) : State :=
  s.modGroup o.place (fun g =>
    if g.ended then g
    else
      let g := ((List.range ws.length).zip ws).foldl (fun g w =>
        if bit (fget d.vskip (d.vd + w.1) 0) l then g else g.arrive (.v (d.vd + w.1)) [(l, w.2)]) g
      if d.okp = 7 || bit d.oskip l then g else g.arrive (.p d.okp) [(l, if ok then 1 else 0)])

/-- A direct operation's state replaced. -/
def setDirect (s : State) (id : Nat) (d : DirectOp) : State := modOp s id (fun o => { o with kind := .direct d })

/-- A direct operation with every lane finished: the arrival at its slot, and completion (R280, R286). -/
def directDone (s : State) (o : Op) (d : DirectOp) : State :=
  let s := match o.reg with
    | some (r, tag) => postArrival s o r tag none (d.es * popc d.active) true
    | none => s
  opRipe s o.id 2

/-- A lane finished; with the last one the operation completes. -/
def laneDone (s : State) (o : Op) (d : DirectOp) (l : Nat) : State :=
  let d := { d with done := setBit d.done l true }
  let s := setDirect s o.id d
  if d.full then directDone s o d else s

/-- The fill value in each register of a lane (R277). -/
def fillWords (size : Nat) (fill : Word) : List Word := List.replicate (sizeRegs size) fill

/-- The words of an element read from memory (R189). -/
def elemWords (size : Nat) (b : List Byte) : List Word := (List.range (sizeRegs size)).map (loadWord size b)

/-- The memory key of a byte that an agent of a team reaches by a generic address: of the frame, of the global line behind a window, or of
local memory (R172, R182). -/
def byteKey (s : State) (page tid : Nat) (a : DWord) : Option Nat :=
  let glob := fun (a : DWord) => match translate s (s.ctx page).d a.toNat .w with
    | .ok k _ _ _ => some k
    | _ => none
  let loc := fun (tid off : Nat) =>
    let t := s.team tid
    match windowAt t off with
    | some (_, w, ln) => glob (lineVa w ln + BitVec.ofNat 64 ((off - w.loff) % 256))
    | none => some (localKey t.core (t.base + off))
  match regionOf a with
  | .translated => glob a
  | .self off => loc tid off
  | .cluster pos off => (clusterTeam s tid pos).bind (fun u => loc u off)
  | _ => none

/-- Two generic addresses reach one byte. -/
def sameByte (s : State) (o : Op) (a b : DWord) : Bool :=
  a == b || match byteKey s o.page o.team a, byteKey s o.page o.team b with
    | some x, some y => x == y
    | _, _ => false

/-- A byte that a higher lane of the same scatter has stored (R177, R281). -/
def storedAbove (s : State) (o : Op) (d : DirectOp) (l : Nat) (a : DWord) : Bool :=
  (lanes d.active).any (fun k => decide (l < k) && match d.cls k with
    | .access ea =>
      (List.range (if bit d.done k then d.es else if bit d.lower k then lowerLen ea d.es else 0)).any (fun i => sameByte s o (plus ea i) a)
    | _ => false)

/-- A queue place without the mark of a software write: what is there is written anew. -/
def Stream.renew (x : Stream) (n : Nat) : Stream := { x with spoilt := x.spoilt.filter (fun i => i != n % max x.qdepth 1) }

/-- Software has written into queue entry n (R282). -/
def Stream.isSpoilt (x : Stream) (n : Nat) : Bool := x.spoilt.contains (n % max x.qdepth 1)

/-- A pushed entry whose queue bytes software has written holds undefined data and indices (R282). -/
def refreshEntry (s : State) (o : Op) (d : DirectOp) : DirectOp × State :=
  match d.entry with
  | none => (d, s)
  | some (snum, n) => match streamAt s o.team snum with
    | none => (d, s)
    | some x =>
      if !x.isSpoilt n then (d, s)
      else
        let f := s.fresh
        ({ d with idx := d.idx.map (fun p => if bit d.done p.1 then p else (p.1, Config.freeWord (f + 1 + p.1))),
                  data := d.data.map (fun p => if bit d.done p.1 then p else
                    (p.1, bitsOf 128 (fun i => bit (Config.freeWord (f + 33 + 4 * p.1 + i / 32)) (i % 32)))) },
         setStream { s with fresh := f + 161 } o.team snum (x.renew n))

/-- The direct operation that an operation is. -/
def directAt (s : State) (id : Nat) : Option (Op × DirectOp) :=
  (opById s id).bind (fun o => match o.kind with
    | .direct d => some (o, d)
    | _ => none)

/-- A lane's fault kept until every lane is finished or faulted; an error that ends the context does so at once. -/
def laneFault (s : State) (o : Op) (d : DirectOp) (l : Nat) (f : FaultInfo) (upper : Bool) : State :=
  let side := natOf (!d.gather) + 2 * natOf upper + 16 * (d.entry.map (fun e => e.1)).getD 0
  let f := { f with mask := maskOfList [l], det := [(ffind d.idx l).getD 0, d.done, d.active &&& ~~~d.done, BitVec.ofNat 32 side] }
  if causeOf f.code == cEngine then doomOp s o f else setDirect s o.id { d with faulted := d.faulted ++ [(l, f)] }

/-- One lane of a direct operation attempted (R279). -/
def laneMove (s : State) (o : Op) (d : DirectOp) (l : Nat) : State :=
  let es := d.es
  let store := if d.gather then none else some (leBytes es ((ffind d.data l).getD 0).toNat)
  let miss := fun (s : State) => laneDone (if d.gather then writeElem s o d l (fillWords d.size d.fill) false else s) o d l
  match d.cls l with
  | .none => miss s
  | .oob => miss s
  | .misaligned ea => laneFault s o d l { FaultInfo.plain (codeOf 6 cAlign) 0 with addr := ea, kind := if d.gather then kEngRead else kEngWrite } false
  | .access ea =>
    match elemAccess (o.eng s 6) ea es store (fun i => storedAbove s o d l (plus ea i)) (bit d.lower l) s with
    | .ok b s => laneDone (if d.gather then writeElem s o d l (elemWords d.size b) true else s) o d l
    | .fault f upper stored s => laneFault s o (if stored then { d with lower := setBit d.lower l true } else d) l f upper
    | .wait s => s
    | .absentMem => { s with absent := true }

/-- ACCESS_ELEMENT_DONE: one lane that is neither finished nor faulted is delivered, stored, marked out of bounds, or faults; an
operation whose lanes a handler has finished completes (R279, R289, R292). -/
def execAccessElementDone (op : Nat) (lane : Nat) (s : State) : Host.Outcome State Fault Refusal :=
  match directAt s op with
  | none => event s
  | some (o, d) =>
    if !opRuns s o || o.stop.isSome || o.todo.isEmpty || olderEntry s o d then event s
    else if d.full then event (sweepTeams (directDone s o d))
    else if !bit d.active lane || bit d.done lane || d.faulted.any (fun f => f.1 == lane) then event s
    else
      let (d, s) := refreshEntry s o d
      event (sweepTeams (laneMove s o d lane))

/-- ACCESS_OPERATION_STOP: every active lane is finished or faulted, and some lane is faulted; the faults, in lane order, wait for delivery
(R289). -/
def execAccessOperationStop (op : Nat) (s : State) : Host.Outcome State Fault Refusal :=
  match directAt s op with
  | none => event s
  | some (o, d) =>
    let fl := maskOfList (d.faulted.map (fun f => f.1))
    let left := d.active &&& ~~~d.done
    if !opRuns s o || o.stop.isSome || d.faulted.isEmpty || left &&& ~~~fl != 0 then event s
    else event (stopOp s op ((sortBy (fun a b => decide (a.1 ≤ b.1)) d.faulted).map (fun f =>
      { f.2 with det := [f.2.det.getD 0 0, d.done, left, f.2.det.getD 3 0] })))

/-! ### Streams: instructions (R282 to R288) -/

/-- The entries of a gather stream. -/
def Stream.total (x : Stream) : Nat := ceilDiv x.nidx 32

/-- The stream that 64 bytes describe (R282). -/
def streamOf (b : List Byte) : Stream :=
  let w := wordAt b 0x28
  { scatter := bit w 31, base := dwordAt b 0, bound := dwordAt b 8, idx := dwordAt b 0x10, nidx := (wordAt b 0x18).toNat,
    stride := wordAt b 0x1C, fill := wordAt b 0x20, qoff := (wordAt b 0x24).toNat, scope := bits w 28 3, size := (bits w 24 4).toNat,
    qdepth := (bits w 20 4).toNat, sent := bit w 19, split := bit w 18, fpol := bit w 17, state := 1, entries := [], next := 0, taken := 0,
    back := [], spoilt := [] }

/-- A descriptor's fields lie in their ranges and its reserved bits are zero (R282). -/
def streamOk (b : List Byte) (x : Stream) : Bool :=
  bits (wordAt b 0x28) 0 17 == 0 && (b.drop 0x2C).all (fun y => y == 0) && x.scope.toNat ≤ 5 && x.size ≤ 6 &&
  decide (2 ≤ x.qdepth) && aligned x.qoff 256 &&
  (if x.scatter then x.idx == 0 && x.nidx == 0 && !x.fpol && x.size != 1 && x.size != 3
   else aligned x.idx.toNat 4 && decide (1 ≤ x.nidx) && decide (x.nidx ≤ 2 ^ 24))

/-- The bytes of a stream's queue area. -/
def Stream.area (x : Stream) : Nat := x.qdepth * x.placeSize

/-- Stream contexts of a core in use (R274). -/
def contextsUsed (s : State) (core : Nat) : Nat :=
  s.teams.foldl (fun n t => if t.2.core = core then n + t.2.streams.length else n) 0

/-- APSTART (R284). Its ALIGN and its PAGE_PROT of the queue area name no address and no access (log 142). -/
def execApstart (h : Hd) (x : WAp) (s : State) : Host.Outcome State Fault Refusal :=
  issue (shApstart h x) 0xC0 3 h.st (fun c s0 =>
    let g := s0.group c.place
    let t := s0.team g.team
    let off := (g.rs c.slot h.b.toNat).toNat
    let snum := x.snum.toNat
    if !aligned off 64 then accTrap s0 c cAlign
    else match locAccess s0 6 kEngRead g.team off 64 (BitVec.ofNat 64 off) none with
      | .fault f => .trap s0 [{ f with mask := c.act }]
      | .wait s => .hold s
      | .absentMem => .own { s0 with absent := true }
      | .ok b s =>
        let st := streamOf b
        if t.size < st.qoff + st.area || hitsWindow t st.qoff st.area then accTrap s0 c cProt
        else
          let live := match ffind t.streams snum with
            | some y => y.state != 3
            | none => false
          if live || !streamOk b st then accTrap s0 c cIllegalForm
          else if (ffind t.streams snum).isSome then .hold s0
          else if 8 ≤ contextsUsed s0 g.core || longerStalled s0 c 2 then .holdFor 2 s0
          else
            let lo := localKey t.core (t.base + st.qoff)
            let (sid, s) := (s.undefRange lo (lo + st.area)).draw
            .go (s.setTeam g.team { s.team g.team with streams := fput (s.team g.team).streams snum { st with sid := sid } })) s

/-- A live stream of a kind and SIZE (R285, R286). -/
def liveStream (s : State) (c : Iss) (x : WAp) (scatter : Bool) : Option Stream :=
  match streamAt s (s.group c.place).team x.snum.toNat with
  | some y => if y.state != 3 && y.scatter == scatter && y.size == x.size.toNat then some y else none
  | none => none

/-- An entry is ready (R284). -/
def SEntry.ready (e : SEntry) : Bool := e.del == allLanes && e.held.isEmpty

/-- What an APPOP writes in its lanes (R285): the words of each position, ok and fault bits. `f` is the free value's number when the
queue bytes were written by software. -/
def popWrite (x : Stream) (e : SEntry) (vd okp fltp : Nat) (m : Mask) (f : Option Nat) (g : Group) : Group :=
  let word := fun (l j : Nat) => match f with
    | some n => Config.freeWord (n + 4 * l + j)
    | none => if bit e.ok l then loadWord x.size (leBytes (sizeBytes x.size) ((ffind e.data l).getD 0).toNat) j else x.fill
  let g := (List.range (sizeRegs x.size)).foldl (fun g j => g.arrive (.v (vd + j)) ((lanes m).map (fun l => (l, word l j)))) g
  let put := fun (g : Group) (p : Nat) (b : Mask) =>
    if p = 7 then g else g.arrive (.p p) ((lanes m).map (fun l => (l, if bit b l then 1 else 0)))
  put (put g okp e.ok) fltp e.flt

/-- A ready entry consumed: the stream without it, its queue bytes' state looked at, and what it writes. -/
def consume (s : State) (tid snum : Nat) (x : Stream) (e : SEntry) : Option Nat × State :=
  let bad := x.isSpoilt e.n
  let f := s.fresh
  (if bad then some (f + 1) else none,
   setStream { s with fresh := if bad then f + 129 else f } tid snum
     { x.renew e.n with entries := x.entries.filter (fun y => y.n != e.n) })

/-- The entry that an APPOP takes: the oldest untaken one; none after the last (R285, R290). -/
def takeEntry (x : Stream) : Option (Nat × Stream) :=
  match minBy id x.back with
  | some n => some (n, { x with back := x.back.erase n })
  | none => if x.taken < x.total then some (x.taken, { x with taken := x.taken + 1 }) else none

/-- APPOP (R285). -/
def execAppop (h : Hd) (x : WAp) (s : State) : Host.Outcome State Fault Refusal :=
  issue (shAppop h x) 0xC1 3 h.st (fun c s =>
    let tid := (s.group c.place).team
    match liveStream s c x false with
    | none => accTrap s c cIllegalForm
    | some st =>
      let vd := h.a.toNat
      let blank : SEntry := { n := 0, data := [], ok := 0, flt := 0, del := allLanes, held := [] }
      match takeEntry st with
      | none => goGroup s c (popWrite st blank vd h.c.toNat h.d.toNat c.act none)
      | some (n, st) => match st.entries.find? (fun e => e.n == n && e.ready) with
        | some e =>
          let (f, s) := consume s tid x.snum.toNat st e
          goGroup s c (popWrite st e vd h.c.toNat h.d.toNat c.act f)
        | none =>
          goGroup (setStream s tid x.snum.toNat st) c (fun g => g.modFrag c.slot (fun f =>
            { f with wait := some (.appop x.snum.toNat n vd h.c.toNat h.d.toNat c.act s.serial) }))) s

/-- The entries of a scatter stream that have not retired (R286). -/
def pushed (s : State) (tid snum : Nat) : Nat :=
  (s.ops.filter (fun o => o.team == tid && match o.kind with
    | .direct d => (d.entry.map (fun e => e.1)) == some snum
    | _ => false)).length

/-- APPUSH (R286). -/
def execAppush (h : Hd) (x : WAp) (s : State) : Host.Outcome State Fault Refusal :=
  issue (shAppush h x) 0xC2 3 h.st (fun c s =>
    let g := s.group c.place
    match liveStream s c x true with
    | none => accTrap s c cIllegalForm
    | some st =>
      if st.qdepth ≤ pushed s g.team x.snum.toNat then .hold s
      else
        let d : DirectOp :=
          { gather := false, size := st.size, base := st.base, bound := st.bound, stride := st.stride, fill := st.fill, sent := st.sent,
            split := st.split, scope := st.scope, okp := 7, vd := h.a.toNat, active := c.act,
            idx := (lanes c.act).map (fun l => (l, g.rv c.slot h.c.toNat l)), data := laneData g c.slot h.a.toNat st.size c.act, done := 0,
            lower := 0, faulted := [], vskip := [], oskip := 0, entry := some (x.snum.toNat, st.taken) }
        match acceptEff s c [2] none 0 (.direct d) with
        | .go s => .go (setStream s g.team x.snum.toNat { st.renew st.taken with taken := st.taken + 1 })
        | e => e) s

/-- The status word of a stream (R287). A scatter stream keeps STATE 0b01 while a pushed entry is stopped at a fault (log 143). -/
def streamStatus (s : State) (tid snum : Nat) : Word :=
  match streamAt s tid snum with
  | none => 0
  | some x =>
    let count := if x.scatter then x.qdepth - pushed s tid snum else (x.entries.filter (fun e => e.ready)).length
    BitVec.ofNat 32 (x.state * 2 ^ 30 + natOf x.scatter * 2 ^ 29 + natOf (!x.scatter && decide (x.total ≤ x.next) && x.entries.all (fun e => e.del == allLanes)) * 2 ^ 28 +
      min count 15 * 2 ^ 24 + (x.taken - x.back.length) % 2 ^ 24)

/-- APSTAT (R287). -/
def execApstat (h : Hd) (x : WAp) (s : State) : Host.Outcome State Fault Refusal :=
  issue (shApstat h x) 0xC3 3 h.st (fun c s =>
    goGroup s c (fun g => g.write c.slot (.s h.a.toNat) [(0, streamStatus s g.team x.snum.toNat)] 0)) s

/-- APPOPs of a team that wait on a stream issue again (R288). -/
def recallPops (s : State) (tid snum : Nat) : State :=
  let mine := fun (w : Option Wait) => match w with
    | some (.appop n _ _ _ _ _ _) => n == snum
    | _ => false
  { s with groups := s.groups.map (fun p =>
      if p.2.team != tid then p
      else
        let f := fun (x : Option Frag) => x.map (fun x => if mine x.wait then { x with wait := none, pc := x.pc - 12 } else x)
        let h := if mine p.2.h.wait then { p.2.h with wait := none, epc := p.2.h.epc - 12 } else p.2.h
        (p.1, { p.2 with slot0 := f p.2.slot0, slot1 := f p.2.slot1, h := h })) }

/-- APSTOP (R288). -/
def execApstop (h : Hd) (x : WAp) (s : State) : Host.Outcome State Fault Refusal :=
  issue (shApstop h x) 0xC4 3 h.st (fun c s =>
    let tid := (s.group c.place).team
    match streamAt s tid x.snum.toNat with
    | none => .go s
    | some y => .go (recallPops (setStream s tid x.snum.toNat y.stopped) tid x.snum.toNat)) s

/-! ### Streams: events -/

/-- A run over an entry's positions. -/
structure EntryRun where
  s : State
  e : SEntry
  wait : Option State
  absent : Bool

/-- A position delivered. -/
def SEntry.deliver (e : SEntry) (p : Nat) (v : Option (List Byte)) (flt : Bool) : SEntry :=
  { e with data := match v with
             | some b => fput e.data p (BitVec.ofNat 128 (leVal b))
             | none => e.data,
           ok := setBit e.ok p v.isSome, flt := setBit e.flt p flt, del := setBit e.del p true }

/-- Position p of an entry attempted (R284, R290). -/
def positionMove (e : Eng) (x : Stream) (p : Nat) (r : EntryRun) : EntryRun :=
  if r.wait.isSome || r.absent || bit r.e.del p then r
  else
    let pos := 32 * r.e.n + p
    let es := sizeBytes x.size
    let hold := fun (s : State) (f : FaultInfo) (index upper : Bool) =>
      let det := [BitVec.ofNat 32 pos, 0, 0, BitVec.ofNat 32 (2 * natOf upper + 4 + 8 * natOf index)]
      { r with s := s, e := { r.e with held := r.e.held ++ [(p, { f with mask := maskOfList [p], det := det }, index)] } }
    if x.nidx ≤ pos then { r with e := r.e.deliver p none false }
    else match engOne e false kEngRead 4 (plus x.idx (4 * pos)) none r.s with
      | .wait s => { r with wait := some s }
      | .absentMem => { r with absent := true }
      | .fault f => hold r.s f true false
      | .ok b s => match resolve x.sent x.split x.base x.bound x.stride es (wordAt b 0) with
        | .none => { r with s := s, e := r.e.deliver p none false }
        | .oob => { r with s := s, e := r.e.deliver p none false }
        | .misaligned ea => hold s { FaultInfo.plain (codeOf 6 cAlign) 0 with addr := ea, kind := kEngRead } false false
        | .access ea => match elemAccess e ea es none (fun _ => false) false s with
          | .ok b s => { r with s := s, e := r.e.deliver p (some b) false }
          | .wait s => { r with wait := some s }
          | .absentMem => { r with absent := true }
          | .fault f upper _ s =>
            if x.fpol && (causeOf f.code == cAbsent || causeOf f.code == cProt) then { r with s := s, e := r.e.deliver p none true }
            else hold s f false upper

/-- The entry a gather stream works on: one left unfinished, or the next when it lies no more than QDEPTH entries beyond the last one popped;
an entry whose APPOP is to issue again has not been popped (R284, R290). -/
def entryToFill (x : Stream) : Option (SEntry × Bool) :=
  match x.entries.find? (fun e => e.del != allLanes) with
  | some e => some (e, false)
  | none =>
    if x.next < x.total && x.next < (minBy id x.back).getD x.taken + x.qdepth then
      some ({ n := x.next, data := [], ok := 0, flt := 0, del := 0, held := [] }, true)
    else none

/-- A gather stream that may work, the entry it works on, and what its positions come to. -/
def streamRun (s : State) (team snum : Nat) : Option (Stream × Bool × EntryRun) :=
  match streamAt s team snum with
  | none => none
  | some x =>
    let page := (s.team team).page
    if x.scatter || x.state != 1 || (s.ctx page).state != 2 then none
    else (entryToFill x).map (fun (e, new) =>
      let eng : Eng := { s0 := s, page := page, tid := team, cls := 6 }
      (x, new, (List.range 32).foldl (fun r p => positionMove eng x p r)
        { s := s, e := { e with held := [] }, wait := none, absent := false }))

/-- An entry put back into its stream. -/
def putEntry (x : Stream) (new : Bool) (e : SEntry) : Stream :=
  { if new then x.renew e.n else x with
      entries := if new then x.entries ++ [e] else mapIf (fun y => y.n == e.n) (fun _ => e) x.entries,
      next := if new then x.next + 1 else x.next }

/-- What the APPOPs of a team that wait for an entry take from older AGATHs when they are served (R280): place, number, registers, lanes. -/
def popTakes (s : State) (team snum n : Nat) : List (Nat × Nat × List RegName × Mask) :=
  s.groups.flatMap (fun p =>
    if p.2.team != team then []
    else [p.2.slot0.bind (fun f => f.wait), p.2.slot1.bind (fun f => f.wait), p.2.h.wait].filterMap (fun w => match w with
      | some (.appop m k vd okp fltp l order) =>
        if m == snum && k == n then some (p.1, order, waitRegs s p.2 (.appop m k vd okp fltp l order), l) else none
      | _ => none))

/-- The APPOP that waits for a ready entry gets it (R285), and its write takes its lanes from older AGATHs (R280). -/
def servePop (s : State) (team snum : Nat) (n : Nat) : State :=
  match streamAt s team snum with
  | none => s
  | some x => match x.entries.find? (fun e => e.n == n && e.ready) with
    | none => s
    | some e =>
      let takes := popTakes s team snum n
      if takes.isEmpty then s
      else
        let (f, s) := consume (takes.foldl (fun s t => supersede s t.2.1 t.1 t.2.2.1 t.2.2.2) s) team snum x e
        wake s (fun _ g w => match w with
          | .appop m k vd okp fltp l _ => if g.team == team && m == snum && k == n then some (popWrite x e vd okp fltp l f) else none
          | _ => none)

/-- STREAM_ENTRY_READY: the positions of the next entry are all delivered or filled, and an APPOP that waits for it goes on (R284). -/
def execStreamEntryReady (team : Nat) (snum : Nat) (s : State) : Host.Outcome State Fault Refusal :=
  match streamRun s team snum with
  | none => event s
  | some (x, new, r) =>
    if r.absent then event { s with absent := true }
    else match r.wait with
      | some s => event s
      | none =>
        if !r.e.held.isEmpty then event s
        else event (servePop (setStream r.s team snum (putEntry x new r.e)) team snum r.e.n)

/-- STREAM_FAULT_HOLD: a fault in the index array or in an element holds the entry; its delivered positions stay so (R290). A malformed table entry or
an uncorrectable error is such a fault, and ends the context as the fault of the APPOP that waits (R427, log 69). -/
def execStreamFaultHold (team : Nat) (snum : Nat) (s : State) : Host.Outcome State Fault Refusal :=
  match streamRun s team snum with
  | none => event s
  | some (x, new, r) =>
    if r.absent || r.wait.isSome || r.e.held.isEmpty then event s
    else
      let word3 := fun (w : Word) => w ||| BitVec.ofNat 32 (16 * snum)
      let e := { r.e with held := r.e.held.map (fun h =>
        (h.1, { h.2.1 with det := [h.2.1.det.getD 0 0, r.e.del, ~~~r.e.del, word3 (h.2.1.det.getD 3 0)] }, h.2.2)) }
      event (setStream r.s team snum { putEntry x new e with state := 2 })

/-- STREAM_CONTEXT_FREE: a stopped stream with no entry left frees its context (R288). -/
def execStreamContextFree (team : Nat) (snum : Nat) (s : State) : Host.Outcome State Fault Refusal :=
  match ffind s.teams team with
  | none => event s
  | some t => match ffind t.streams snum with
    | some x => if x.state = 3 && pushed s team snum = 0 then event (s.setTeam team { t with streams := fdel t.streams snum }) else event s
    | none => event s

/-! ### APREPLAY (R292) -/

/-- Unfinished lanes of a stopped operation given up. -/
def giveUp (s : State) (o : Op) (d : DirectOp) (m : Mask) : State :=
  let ls := lanes (m &&& d.active &&& ~~~d.done)
  let s := if d.gather then ls.foldl (fun s l => writeElem s o d l (fillWords d.size d.fill) false) s else s
  setDirect s o.id { d with done := d.done ||| maskOfList ls, idx := d.idx.filter (fun x => !ls.contains x.1),
                            faulted := d.faulted.filter (fun f => !ls.contains f.1) }

/-- Unfinished positions of a held entry given up. -/
def giveUpPos (x : Stream) (e : SEntry) (m : Mask) : Stream :=
  let ps := lanes (m &&& ~~~e.del)
  let e' := ps.foldl (fun e p => e.deliver p none true) { e with held := e.held.filter (fun h => !ps.contains h.1) }
  { x with entries := mapIf (fun y => y.n == e.n) (fun _ => e') x.entries }

/-- APREPLAY (R292). An entry that it makes ready goes to the APPOP that waits for it (R285). A held entry that has meanwhile been popped or dropped has no unfinished position (log 144). -/
def execApreplay (h : Hd) (s : State) : Host.Outcome State Fault Refusal :=
  issue (shApreplay h) 0xC7 3 h.st (fun c s =>
    let g := s.group c.place
    let give := if bit h.mod 0 then g.rs c.slot h.b.toNat else 0
    let out := fun (s : State) (a b : Mask) => goGroup s c (fun g =>
      (g.write c.slot (.s h.a.toNat) [(0, a)] 0).write c.slot (.s (h.a.toNat + 1)) [(0, b)] 0)
    if g.h.slot.isNone then accTrap s c cIllegalForm
    else match g.h.op.bind (directAt s), g.h.stream with
      | some (o, d), _ => out (giveUp s o d give) d.done d.active
      | none, some snum => match (streamAt s g.team snum).bind (fun x => if x.sid != g.h.sid then none else
            (x.entries.find? (fun e => e.n == g.h.entry)).map (fun e => (x, e))) with
        | some (x, e) => out (servePop (setStream s g.team snum (giveUpPos x e give)) g.team snum e.n) e.del g.h.pos
        | none => out s allLanes g.h.pos
      | none, none => accTrap s c cIllegalForm) s

end Sys2Proof.Machine
end

