-- ==== Sys2Proof/Machine/Sched.lean ====
section
/-! DEFINITION. The graph scheduler: graph checks (R346 to R349), launches (R350, R351), queue segments (R353), formation and
admission (R355 to R361), overflow (R363) and completion (R364). -/
namespace Sys2Proof.Machine

/-! ### Graphs in memory (R346, R347, R349) -/

/-- A header as read: NNODES, ROOT, record sizes; none when it breaks R346. -/
def headerOf (b : List Byte) : Option (Nat × Nat × List Nat) :=
  let w := fun (o : Nat) => (wordAt b o).toNat
  let nn := w 0
  let root := w 4
  let nt := w 8
  let size := fun (i : Nat) => w (0x10 + 4 * i)
  if nn = 0 || 4096 < nn || nn ≤ root || nt = 0 || 16 < nt || w 0x0C != 0 ||
     (List.range 16).any (fun i => decide ((if i < nt then 3 else 0) < size i)) || (b.drop 0x50).any (fun x => x != 0) then none
  else some (nn, root, (List.range nt).map (fun i => 16 * 2 ^ size i))

/-- A role of a node descriptor (R347). -/
def roleOf (b : List Byte) (r : Nat) : Role :=
  let w := wordAt b (0x10 + 4 * r)
  { ng := (bits w 10 6).toNat, regs := 32 * ((bits w 6 4).toNat + 1), prio := (bits w 3 3).toNat }

/-- A node descriptor (R347). -/
def nodeOf (b : List Byte) : Node :=
  let w8 := wordAt b 8
  let wc := wordAt b 0x0C
  { entry := dwordAt b 0, kind := (bits w8 30 2).toNat, pod := bit w8 29, itype := (bits w8 20 4).toNat,
    energy := (bits w8 17 3).toNat, recur := (bits w8 12 5).toNat, reserve := (bits w8 8 4).toNat, cluh := (bits w8 4 4).toNat,
    cluw := (bits w8 0 4).toNat, slots := (bits wc 21 11).toNat, tiles := (bits wc 16 5).toNat, loc := (bits wc 0 14).toNat,
    roles := ((List.range 4).map (roleOf b)).takeWhile (fun r => r.ng != 0), qcap := (wordAt b 0x20).toNat,
    succ := (List.range (min (wordAt b 0x24).toNat 16)).map (fun m => (bits (wordAt b (0x40 + 2 * m)) 0 16).toNat) }

/-- The groups of a node's team. -/
def Node.groups (n : Node) : Nat := (n.roles.map (fun r => r.ng)).sum
/-- Whether a node forms clusters. -/
def Node.cluster (n : Node) : Bool := n.cluh != 0 || n.cluw != 0
/-- Teams per cluster; 1 without one. -/
def Node.k (n : Node) : Nat := if n.cluster then n.cluh * n.cluw else 1

/-- Row 0x3 of R349 for one node: R347, and the record size of a grid node (R356). -/
def nodeOk (types : List Nat) (nn : Nat) (b : List Byte) : Bool :=
  let n := nodeOf b
  let w8 := wordAt b 8
  let rw := fun (r : Nat) => wordAt b (0x10 + 4 * r)
  let ns := (wordAt b 0x24).toNat
  let succ := fun (m : Nat) => (bits (wordAt b (0x40 + 2 * m)) 0 16).toNat
  bits (dwordAt b 0) 0 2 == 0 && n.kind != 3 && bits w8 24 5 == 0 && (!n.pod || n.kind == 2) && n.itype < types.length && n.reserve ≤ 8 &&
  bits (wordAt b 0x0C) 14 2 == 0 && n.slots ≤ 1024 && n.tiles ≤ 21 && n.loc ≤ 8192 &&
  (List.range 4).all (fun r => bits (rw r) 16 16 == 0 && bits (rw r) 0 3 == 0 && (roleOf b r).ng ≤ 32 &&
    (r < n.roles.length || (roleOf b r).ng == 0)) && !n.roles.isEmpty && n.groups ≤ 32 &&
  ns ≤ 16 && (List.range 16).all (fun m => if m < ns then succ m < nn else succ m == 0) &&
  ((b.drop 0x28).take 0x18).all (fun x => x == 0) && (b.drop 0x60).all (fun x => x == 0) &&
  (n.kind != 2 || 32 ≤ types.getD n.itype 0)

/-- A cluster shape of R13 on a node that may have one (R349, row 0x4). -/
def Node.shapeOk (n : Node) : Bool :=
  !n.cluster || (n.kind != 0 && n.cluh != 0 && n.cluw != 0 && n.cluh ≤ 4 && n.cluw ≤ 8 && n.cluh * n.cluw ≤ 12)

/-- W of R359. -/
def energyW (cls : Nat) : Nat := [1, 2, 3, 4, 6, 8, 12, 16].getD cls 16

/-- A team's charge (R359). -/
def Node.charge (n : Node) : Nat := energyW n.energy * n.groups

/-- A record's size at a node. -/
def Graph.size (g : Graph) (n : Nat) : Nat := g.typeBytes (g.node n).itype
/-- A node's queue records per die in graph SRAM: QCAP, or 1 KiB of whole records (R353). -/
def Graph.cap (g : Graph) (n : Nat) : Nat := if (g.node n).qcap = 0 then 1024 / g.size n else (g.node n).qcap
/-- The bytes of graph SRAM that a launch takes on every die (R353). -/
def Graph.shares (g : Graph) : Nat := ((List.range g.nodes.length).map (fun n => g.cap n * g.size n)).sum

/-! ### What a core holds, and what fits beside it (R9, R10, R358, R359) -/

/-- What is resident on a core: free places, groups and registers by quadrant, local ranges, barrier slots, tiles, charges. -/
structure CoreUse where
  places : Nat
  quads : List Nat
  regs : List Nat
  ranges : List (Nat × Nat)
  slots : Nat
  tiles : Nat
  charge : Nat
  deriving DecidableEq, Repr

/-- An empty core. -/
def CoreUse.empty : CoreUse := { places := 64, quads := [0, 0, 0, 0], regs := [0, 0, 0, 0], ranges := [], slots := 0, tiles := 0, charge := 0 }

/-- What is resident on a core. Blocks in a team's pool still belong to the team (R126). -/
def coreUse (s : State) (core : Nat) : CoreUse :=
  let gs := s.groups.filter (fun g => g.2.core == core)
  let ts := s.teams.filter (fun t => t.2.core == core)
  { places := 64 - gs.length,
    quads := (List.range 4).map (fun q => (gs.filter (fun g => g.2.quad == q)).length),
    regs := (List.range 4).map (fun q => ((gs.filter (fun g => g.2.quad == q)).map (fun g => g.2.allot)).sum +
      (ts.map (fun t => 32 * fget t.2.pools q 0)).sum),
    ranges := sortBy (fun a b => decide (a.1 ≤ b.1)) ((ts.filter (fun t => t.2.size != 0)).map (fun t => (t.2.base, t.2.base + t.2.size))),
    slots := (ts.map (fun t => slotsHeld s t.1 t.2)).sum, tiles := (ts.map (fun t => t.2.ntiles)).sum,
    charge := (ts.map (fun t => t.2.charge)).sum }

/-- The lowest offset, a multiple of 512, at which a range fits beside others in ascending order. -/
def firstFit (size : Nat) : List (Nat × Nat) → Nat → Option Nat
  | [], p => if p + size ≤ 2 ^ 21 then some p else none
  | (b, e) :: l, p => if p + size ≤ b then some p else firstFit size l (max p ((e + 511) / 512 * 512))

/-- The quadrants of a team's groups in ascending group index: round-robin from the quadrant with the fewest groups, the lowest on a
tie (R10). -/
def quadsFor (u : CoreUse) (n : Nat) : List Nat :=
  let q0 := (minBy (fun q => u.quads.getD q 0) [0, 1, 2, 3]).getD 0
  (List.range n).map (fun i => (q0 + i) % 4)

/-- The register allotments of a node's groups, in group order. -/
def Node.allots (n : Node) : List Nat := n.roles.flatMap (fun r => List.replicate r.ng r.regs)

/-- A team of a node beside what a core holds (R358, R359): what the core then holds, the quadrants, the local base. -/
def fitTeam (budget : Nat) (u : CoreUse) (n : Node) : Option (CoreUse × List Nat × Nat) :=
  let ng := n.groups
  let qs := quadsFor u ng
  let ga := qs.zip n.allots
  let regs := (List.range 4).map (fun q => u.regs.getD q 0 + ((ga.filter (fun x => x.1 == q)).map (fun x => x.2)).sum)
  let size := 256 * n.loc
  if u.places < ng || 1024 < u.slots + n.slots || 21 < u.tiles + n.tiles || budget < u.charge + n.charge ||
     regs.any (fun r => decide (2048 < r)) then none
  else match (if size = 0 then some 0 else firstFit size u.ranges 0) with
    | none => none
    | some base => some
      ({ places := u.places - ng, quads := (List.range 4).map (fun q => u.quads.getD q 0 + (qs.filter (fun x => x == q)).length),
         regs := regs, ranges := if size = 0 then u.ranges else sortBy (fun a b => decide (a.1 ≤ b.1)) ((base, base + size) :: u.ranges),
         slots := u.slots + n.slots, tiles := u.tiles + n.tiles, charge := u.charge + n.charge }, qs, base)

/-- Several teams of one node, one after another. -/
def fitMany (budget : Nat) (n : Node) : Nat → CoreUse → Option CoreUse
  | 0, u => some u
  | k + 1, u => match fitTeam budget u n with
    | some (u, _, _) => fitMany budget n k u
    | none => none

/-! ### The checks of R349 and R395 -/

/-- A launch record's own checks: row 0x1, first part (R349, R350). -/
def lrecOk (b : List Byte) : Bool :=
  let r := lrecOf b
  aligned r.graph.toNat 256 && r.nrec.toNat != 0 && r.nrec.toNat ≤ 2 ^ 20 && bits (wordAt b 0x14) 0 31 == 0 &&
  (b.drop 0x34).all (fun x => x == 0) && (r.spill == 0 || aligned r.spillbase.toNat 4096) && aligned r.cpl.toNat 64

/-- The graph that a header and its nodes' descriptors give. -/
def graphOf (root : Nat) (types : List Nat) (ds : List (List Byte)) : Graph := { root := root, types := types, nodes := ds.map nodeOf }

/-- A graph in memory: its header and its nodes' descriptors, or the reason for which it cannot be had (R349, R426). -/
def readGraph (s : State) (d : Desc) (va : DWord) : DispR (Sum (Nat × List Nat × List (List Byte)) Nat) :=
  match dispRead s d va 256 with
  | .wait s => .wait s
  | .unusable => .ok (.inr 2) s
  | .ok hb s => match headerOf hb with
    | none => .ok (.inr 2) s
    | some (nn, root, types) => match dispRead s d (va + 256) (128 * nn) with
      | .wait s => .wait s
      | .unusable => .ok (.inr 3) s
      | .ok nb s => .ok (.inl (root, types, (List.range nn).map (fun i => (nb.drop (128 * i)).take 128))) s

/-- The rows 0x3 to 0x8 of R349 and R395, and the second part of row 0x1, for a graph as read. -/
def judgeLaunch (s : State) (d : Desc) (r : LRec) (root : Nat) (types : List Nat) (ds : List (List Byte)) : Sum Graph Nat :=
  let g := graphOf root types ds
  let rn := g.node root
  if ds.any (fun x => !nodeOk types ds.length x) then .inr 3
  else if g.nodes.any (fun n => !n.shapeOk) then .inr 4
  else if g.nodes.any (fun n => (fitTeam 512 CoreUse.empty n).isNone) then .inr 5
  else if 2 ^ 23 < g.shares then .inr 6
  else if (r.pod && !rn.pod) || (rn.kind == 2 && r.nrec != 1) || (rn.pod && !r.pod) then .inr 7
  else if !aligned r.recs.toNat (g.size root) || !usable s d r.recs (r.nrec.toNat * g.size root) .r then .inr 1
  else if r.pod && (d.podtab == 0 || !aligned r.cpl.toNat 512) then .inr 8
  else .inl g

/-- The graph of a launch, or the reason for which it is rejected (R349, R395, R426). -/
def checkLaunch (s : State) (page : Nat) (b : List Byte) : DispR (Sum Graph Nat) :=
  let d := (s.ctx page).d
  if !lrecOk b then .ok (.inr 1) s
  else (readGraph s d (lrecOf b).graph).bind (fun x s => match x with
    | .inr why => .ok (.inr why) s
    | .inl (root, types, ds) => .ok (judgeLaunch s d (lrecOf b) root types ds) s)

/-! ### Segments and reservations (R353) -/

/-- Records of a formed team: a grid's team has taken its record already. -/
def Formed.count (f : Formed) (l : Launch) : Nat :=
  if (l.g.node f.node).kind = 2 then 0 else (f.seeds.map (fun x => x.recs.length)).sum

/-- The records in graph SRAM of a segment, with those of formed teams and those that credits hold. -/
def segUse (s : State) (l : Launch) (node die : Nat) : Nat :=
  (l.q.filter (fun r => r.granted && !r.spilled && r.node == node && r.die == die)).length +
  ((s.formed.filter (fun f => f.lid == l.lid && f.node == node && f.seg == die)).map (fun f => f.count l - f.spilled)).sum

/-- Pending records of a segment, oldest first (R353, R389). -/
def Launch.pending (l : Launch) (node die : Nat) : List QRec :=
  sortBy (fun a b => decide (a.place ≤ b.place)) (l.q.filter (fun r => r.granted && r.empty.isNone && r.node == node && r.die == die))

/-- Waiting reservations of a segment, in arrival order. -/
def Launch.waits (l : Launch) (node die : Nat) : List QRec := l.q.filter (fun r => !r.granted && r.node == node && r.die == die)

/-- The usable 4 KiB pages of a spill area, by 64 KiB block, until they hold `need` bytes (R426): address and bytes. -/
def spillKeys (s : State) (d : Desc) : Nat → Nat → Nat → Nat → Option (List (Nat × Nat))
  | 0, _, _, need => if need = 0 then some [] else none
  | f + 1, va, left, need =>
    if need = 0 then some []
    else if left = 0 then none
    else
      let k := min left (16 - va / 4096 % 16)
      let rest := fun (n : Nat) => spillKeys s d f (va + 4096 * k) (left - k) n
      match (if usable s d (BitVec.ofNat 64 va) (4096 * k) .r then translate s d va .w else .prot) with
      | .ok _ _ _ _ => (rest (need - 4096 * k)).map (fun l => (va, min (4096 * k) need) :: l)
      | _ => rest need

/-- The spill pages that hold a launch's records once `need` bytes are spilled; none when the budget does not reach. -/
def spillRoom (s : State) (l : Launch) (need : Nat) : Option (List (Nat × Nat)) :=
  if 4096 * l.r.spill.toNat < need then none
  else spillKeys s (s.ctx l.page).d (l.r.spill.toNat / 16 + 2) l.r.spillbase.toNat l.r.spill.toNat need

/-- Pieces of a range from its byte `n` on. -/
def dropBytes : Nat → List (Nat × Nat) → List (Nat × Nat)
  | _, [] => []
  | n, (va, k) :: l => if n < k then (va + n, k - n) :: l else dropBytes (n - k) l

/-- The dispatcher reads or writes bytes `lo` up to `hi` of a launch's spilled records, through the map unit (R426): counted, and answered by the
stash lines there (R179). The bytes that records hold become undefined to software (log 145). -/
def spillAccess (s : State) (l : Launch) (write : Bool) (lo hi : Nat) : State :=
  let d := (s.ctx l.page).d
  (dropBytes lo ((spillRoom s l hi).getD [])).foldl (fun s p => match translate s d p.1 (if write then .w else .r) with
    | .ok k e base units =>
      let t := (snoopRange (noteAcc s d p.1 e base units write) k p.2 write).2
      let s := if !write && deadNow s d p.1 e then t else toPeer t e k p.2 false (if write then some (s.bytesAt k p.2) else none)
      if write then s.undefRange k (k + p.2) else s
    | _ => s) s

/-- The spilled records that a team or grid takes are read and leave the spill area (R353, R426). -/
def unspill (s : State) (lid n : Nat) : State :=
  match launchOf s lid with
  | none => s
  | some l => modLaunch (if n = 0 then s else spillAccess s l false 0 n) lid (fun l => { l with spilluse := l.spilluse - n, ovf := 0 })

/-- Where the next record of a segment would stand: in SRAM (false), in the spill area (true), or nowhere yet (R353). -/
def roomIn (s : State) (l : Launch) (node die : Nat) : Option Bool :=
  if segUse s l node die < l.g.cap node then some false
  else if (spillRoom s l (l.spilluse + l.g.size node)).isSome then some true else none

/-- A reservation granted: its place in the queue, its time, its space, where a spilled record is written (R426);
the segment's occupancy is sampled (R421). -/
def grantRec (s : State) (lid rid : Nat) (spill : Bool) : State :=
  let (o, s) := s.draw
  match launchOf s lid with
  | none => s
  | some l =>
    match l.q.find? (fun r => r.rid == rid) with
    | none => s
    | some r =>
      let use := if spill then l.spilluse + l.g.size r.node else l.spilluse
      let s := if spill then spillAccess s l true l.spilluse use else s
      let occ := (l.q.filter (fun q => q.granted && q.node == r.node && q.die == r.die)).length +
        ((s.formed.filter (fun f => f.lid == lid && f.node == r.node && f.seg == r.die)).map (fun f => f.count l)).sum + 1
      let s := sample s 0x04 r.die (BitVec.ofNat 32 occ)
      modLaunch s lid (fun l => { l with spilluse := use, spillmax := max l.spillmax (ceilDiv use 4096),
                                         q := mapIf (fun q => q.rid == rid) (fun q =>
                                           { q with granted := true, spilled := spill, order := o, place := o }) l.q })

/-- A reservation in a segment (R353): granted at once, or waiting when `wait`, or made not at all. Answers whether it was granted,
its number, and the state. A cancelled launch discards the record (R366). -/
def reserve (s : State) (lid node die : Nat) (data : List Word) (depth : Nat) (empty : Option Nat) (wait : Bool) : Bool × Nat × State :=
  match launchOf s lid with
  | none => (true, 0, s)
  | some l =>
    if l.cancel != 0 then (true, 0, if empty.isSome then s else modLaunch s lid (fun l => { l with dropped := l.dropped + 1 }))
    else
      let room := if !(l.waits node die).isEmpty || (node == l.g.root && die == 0 && l.init < l.r.nrec.toNat) then none
        else roomIn s l node die
      if room.isNone && !wait then (false, 0, s)
      else
        let (rid, s) := s.draw
        let r : QRec := { rid := rid, node := node, die := die, data := data, depth := depth, granted := false, spilled := false,
                          flush := false, empty := empty, place := 0, order := 0 }
        let s := modLaunch s lid (fun l => { l with q := l.q ++ [r] })
        match room with
        | some sp => (true, rid, grantRec s lid rid sp)
        | none => (false, rid, s)

/-- The code of a launch that a dispatcher's read ends (R426). -/
def readCause (s : State) (d : Desc) (va : DWord) : BitVec 16 :=
  match translate s d va.toNat .r with
  | .absentPage _ => codeOf 9 cAbsent
  | _ => codeOf 9 cProt

/-- A hard cancel because a record of the launch cannot be read (R426). -/
def cancelUnread (s : State) (lid : Nat) (va : DWord) : State :=
  match launchOf s lid with
  | none => s
  | some l =>
    let code := readCause s (s.ctx l.page).d va
    let s := modLaunch s lid (fun l => { l with fcode := code })
    modLaunch (cancelLaunch s lid true) lid (fun l => { l with fcode := code })

/-- Initial records enter die 0's segment of the root's queue, as far as space allows (R351): at most `fuel` of them. One whose read waits
(R183) is tried again later. -/
def enterInit : Nat → Nat → State → State
  | 0, _, s => s
  | f + 1, lid, s =>
    match launchOf s lid with
    | none => s
    | some l =>
      if l.phase != 1 || l.cancel != 0 || l.r.nrec.toNat ≤ l.init then s
      else match roomIn s l l.g.root 0 with
        | none => s
        | some sp =>
          let n := l.g.size l.g.root
          let va := l.r.recs + BitVec.ofNat 64 (l.init * n)
          match dispRead s (s.ctx l.page).d va n with
          | .unusable => cancelUnread s lid va
          | .wait s => s
          | .ok b s =>
            let (rid, s) := s.draw
            let r : QRec := { rid := rid, node := l.g.root, die := 0, data := wordsOf b, depth := 0, granted := false, spilled := false,
                              flush := false, empty := none, place := 0, order := 0 }
            let s := modLaunch s lid (fun l => { l with init := l.init + 1, q := l.q ++ [r] })
            enterInit f lid (grantRec s lid rid sp)

/-- Space of a launch's queues has become free: initial records that wait go in first. -/
def afterSpace (s : State) (lid : Nat) : State := enterInit (2 ^ 20) lid s

/-! ### Launches (R350, R351, R395) -/

/-- The launch that a completion record of a rejected launch describes. -/
def Launch.blank (lid page : Nat) (lseq : Word) (home : Nat) (r : LRec) : Launch :=
  { lid := lid, page := page, lseq := lseq, home := home, r := r, g := { root := 0, types := [], nodes := [] }, parent := none, level := 0,
    phase := 0, cancel := 0, held := 0, code := 0, reason := 0, fcode := 0, fcount := 0, fnode := 0, fpkg := 0, nteams := 0, nrecs := 0,
    dropped := 0, spillmax := 0, spilluse := 0, init := 0, q := [], rq := [], grids := [], nextT := [], ovf := 0, sent := 0, recv := 0,
    credits := [], asked := [], lent := [], pseq := none, podroot := 0, nt := 0, nr := 0, rlen := 0, grid := [], bars := [], wave := none, final := [],
    totals := [], fpkgs := [], status := none }

/-- The next LSEQ of a context (R351). -/
def takeLseq (s : State) (page : Nat) : Word × State :=
  let c := s.ctx page
  (c.nextLseq, s.setCtx page { c with nextLseq := nextSeq c.nextLseq })

/-- A launch record that has been checked: an LSEQ, and the launch, or its completion as REJECTED (R349, R351, R395). A launch of pod scope
goes to the pod root. Answers the LSEQ. -/
def enterLaunch (s : State) (page : Nat) (r : LRec) (parent : Option Launch) (x : Sum Graph Nat) : Word × State :=
  let (q, s) := takeLseq s page
  let (lid, s) := s.draw
  let l0 := { Launch.blank lid page q s.pkg r with
              parent := parent.map (fun (p : Launch) => p.lid), level := (parent.map (fun (p : Launch) => p.level + 1)).getD 0,
              podroot := s.link.root.getD 0 }
  match x with
  | .inr why => (q, finishLaunch { s with launches := s.launches ++ [{ l0 with code := 4, reason := why }] } lid)
  | .inl g =>
    let s := { s with launches := s.launches ++ [{ l0 with g := g }] }
    (q, if !r.pod then s else sendEnv s (s.link.root.getD s.pkg) lid { control s page 0x01 q s.pkg with payload := lrecBytes r })

/-- A launch record accepted: checked, and entered. A record that could not be read is rejected without a completion record (R426). Answers
no LSEQ, and enters nothing, while a read, or the write of a rejected launch's completion record, waits for a stash line (R183). -/
def acceptLaunch (s : State) (page : Nat) (rec_ : Option (List Byte)) (parent : Option Launch) : Option Word × State :=
  let r := lrecOf (rec_.getD [])
  match rec_ with
  | none => let (q, s) := enterLaunch s page { r with cpl := 0, tag := 0 } parent (.inr 1)
            (some q, s)
  | some b => match checkLaunch s page b with
    | .wait s => (none, s)
    | .unusable => (none, s)
    | .ok x s => match (if x.isRight then cplClear s (Launch.blank 0 page 0 s.pkg r) else (true, s)) with
      | (false, s) => (none, s)
      | (true, s) => let (q, s) := enterLaunch s page r parent x
                     (some q, s)

/-- The dimensions of a grid record: its number of teams, unless it breaks R356. -/
def gridTeams (data : List Word) : Option Nat :=
  let w := fun (i : Nat) => (data.getD i 0).toNat
  let ok := fun (v : Nat) => decide (1 ≤ v) && decide (v ≤ 65535)
  if ok (w 0) && ok (w 1) && ok (w 2) && w 3 == 0 && w 0 * w 1 * w 2 ≤ 2 ^ 32 then some (w 0 * w 1 * w 2) else none

/-- RLEN and NR of a grid (R397). -/
def gridRanges (nt k : Nat) : Nat × Nat :=
  let rlen := k * ceilDiv (ceilDiv nt k) 1024
  (rlen, if rlen = 0 then 0 else ceilDiv nt rlen)

/-- Every die can hold the queue shares of a launch beside those of the launches that have started (R351). -/
def sharesFit (s : State) (g : Graph) : Bool :=
  ((s.launches.filter (fun x => x.phase == 1)).map (fun x => x.g.shares)).sum + g.shares ≤ 2 ^ 23

/-- Whether a launch may start now (R351, R396): accepted, in a running context, after every earlier launch of its series, with room for
its shares on every die. -/
def mayStart (s : State) (l : Launch) : Bool :=
  l.phase == 0 && l.cancel == 0 && (s.ctx l.page).state == 2 && 1 ≤ s.sys.stage && (!l.r.pod || l.pseq.isSome) &&
  ((s.launches.takeWhile (fun x => x.lid != l.lid)).all (fun x =>
    !(x.phase == 0 && x.page == l.page && x.home == l.home && l.home == s.pkg))) &&
  (match l.pseq with
   | none => true
   | some p => s.launches.all (fun x => match x.pseq with
     | some q => x.phase != 0 || p.toNat ≤ q.toNat
     | none => true)) &&
  sharesFit s l.g

/-- A launch starts: the root's initial records enter its queue (R351). The grid record of a launch of pod scope, read with its START,
is taken at once, and counts once, at the home (R403); a cancel that came before the start is applied (R396). -/
def startLaunch (s : State) (l : Launch) : State :=
  let s := modLaunch s l.lid (fun l => { l with phase := 1 })
  if !l.r.pod then afterSpace s l.lid
  else
    let own := l.home == s.pkg
    let s := { s with link := { s.link with started := match l.pseq with
               | some p => if s.link.started.toNat < p.toNat then p else s.link.started
               | none => s.link.started } }
    let s := modLaunch s l.lid (fun l => { l with init := 1, nrecs := if own && l.nt != 0 then 1 else 0, dropped := if own && l.nt == 0 then 1 else 0 })
    if l.held = 0 then s else cancelOne s l.lid (l.held == 2)

/-- LAUNCH_START: the launch of an LSEQ of a context starts (R351, R396). -/
def execLaunchStart (page : Nat) (lseq : Word) (s : State) : Host.Outcome State Fault Refusal :=
  match s.launches.find? (fun l => l.page == page && l.lseq == lseq && mayStart s l) with
  | some l => event (startLaunch s l)
  | none => event s

/-! ### Formation (R355 to R357) -/

/-- A node has a running team, one formed, or a grid with teams to come. -/
def nodeRuns (s : State) (l : Launch) (node : Nat) : Bool :=
  s.teams.any (fun t => t.2.lid == l.lid && t.2.node == node && !t.2.ended) ||
  s.formed.any (fun f => f.lid == l.lid && f.node == node) || l.grids.any (fun j => j.node == node)

/-- A node has a record pending or waiting on the package. -/
def nodePends (l : Launch) (node : Nat) : Bool :=
  l.q.any (fun r => r.node == node && r.empty.isNone) || (node == l.g.root && l.init < l.r.nrec.toNat)

/-- The predecessors of a node: those that list it, and itself; of the root only itself (R357). -/
def Graph.preds (g : Graph) (node : Nat) : List Nat :=
  if node = g.root then [node]
  else node :: (List.range g.nodes.length).filter (fun p => p != node && (g.node p).succ.contains node)

/-- Every predecessor is idle (R357). -/
def predsIdle (s : State) (l : Launch) (node : Nat) : Bool :=
  (l.g.preds node).all (fun p => !nodeRuns s l p && (p == node || !nodePends l p))

/-- The records a segment would now give to a team or cluster of its node; 0 when no condition of R357 holds. -/
def formCount (s : State) (l : Launch) (node seg : Nat) : Nat :=
  let n := l.g.node node
  let p := l.pending node seg
  if n.kind = 2 then min p.length 1
  else if n.kind = 1 then min p.length n.k
  else
    let c := 32 * ((n.roles.head?.map (fun r => r.ng)).getD 1)
    if c ≤ p.length then c
    else if !(l.waits node seg).isEmpty || predsIdle s l node then p.length
    else (p.takeWhile (fun r => r.flush)).length

/-- The seeds of a team-record cluster, or of one team: team i takes record i, and reads zeros without one (R356). -/
def seedsOf (n : Node) (rs : List QRec) : List Seed :=
  let depth := rs.foldl (fun d r => max d r.depth) 0
  if n.kind = 0 then [{ t := 0, depth := depth, recs := ((List.range rs.length).zip rs).map (fun x => (x.1, x.2.data)) }]
  else (List.range n.k).map (fun i => match rs[i]? with
    | some r => { t := 0, depth := r.depth, recs := [(0, r.data)] }
    | none => { t := 0, depth := 0, recs := [] })

/-- The dies in service (R412). -/
def dieServes (s : State) (die : Nat) : Bool := decide (die < 4) && (2 ≤ s.sys.stage || (s.sys.stage == 1 && die == 0))

/-! ### Admission (R358 to R361) -/

/-- A reservation keeps consumers out (R360): what must still fit on a core after a team of `node`. -/
def reservedFits (s : State) (l : Launch) (node core : Nat) (u : CoreUse) : Bool :=
  ((List.range l.g.nodes.length).foldl (fun (u : Option CoreUse) p =>
    let n := l.g.node p
    if p = node || n.succ.isEmpty || n.reserve = 0 ||
       ((l.pending p (core / 32)).isEmpty && !s.formed.any (fun f => f.lid == l.lid && f.node == p && f.seg == core / 32)) then u
    else
      let here := (s.teams.filter (fun t => t.2.lid == l.lid && t.2.node == p && t.2.core == core && !t.2.ended)).length
      u.bind (fitMany s.sys.budget n (n.reserve - here))) (some u)).isSome

/-- A core's admission of one team of a node (R358 to R360): the quadrants and the local base. -/
def fitCore (s : State) (l : Launch) (node core : Nat) : Option (List Nat × Nat) :=
  match fitTeam s.sys.budget (coreUse s core) (l.g.node node) with
  | some (u, qs, base) => if reservedFits s l node core u then some (qs, base) else none
  | none => none

/-- The core of team i of a cluster whose first core is given: its rectangle must lie on one die's mesh (R8, R13). -/
def clusterCore (n : Node) (core i : Nat) : Option Nat :=
  if !n.cluster then (if i = 0 then some core else none)
  else
    let x := core % 8 + i % n.cluw
    let y := core / 8 % 4 + i / n.cluw
    if core % 8 + n.cluw ≤ 8 && core / 8 % 4 + n.cluh ≤ 4 then some (core / 32 * 32 + 8 * y + x) else none

/-- Every core of a rectangle admits its team (R358). -/
def fitAll (s : State) (l : Launch) (node core k : Nat) : Bool :=
  (List.range k).all (fun i => match clusterCore (l.g.node node) core i with
    | some c => (fitCore s l node c).isSome
    | none => false)

/-- Some core or rectangle of a die admits `k` teams of a node. -/
def dieAdmits (s : State) (l : Launch) (node die k : Nat) : Bool :=
  dieServes s die && (List.range 32).any (fun c => fitAll s l node (32 * die + c) k)

/-- TEAM_FORM: a segment's oldest pending records make a team or cluster of a die; a grid record is taken, and its teams are formed in
ascending T (R355 to R357, R361). -/
def execTeamForm (lid node seg die : Nat) (s : State) : Host.Outcome State Fault Refusal :=
  match launchOf s lid with
  | none => event s
  | some l =>
    let n := l.g.node node
    if l.phase != 1 || (s.ctx l.page).state != 2 || !dieServes s die || 4 ≤ seg || l.g.nodes.length ≤ node then event s
    else if n.kind = 2 && l.grids.any (fun j => j.node == node) then
      match l.grids.find? (fun j => j.node == node) with
      | none => event s
      | some j =>
        let k := min n.k (j.last - j.next)
        let (fid, s) := s.draw
        let f : Formed := { fid := fid, lid := lid, node := node, seg := seg, die := die, spilled := 0, order := j.order,
                            seeds := (List.range k).map (fun i => { t := j.next + i, depth := 0, recs := [(0, j.data)] }), range := j.range }
        let upd := fun (x : GridJob) => if x == j then { x with next := x.next + k } else x
        let jobs := if j.next + k < j.last then l.grids.map upd else l.grids.filter (fun x => x != j)
        let s := modLaunch s lid (fun l => { l with grids := jobs })
        event { s with formed := s.formed ++ [f] }
    else
      let c := formCount s l node seg
      let rs := (l.pending node seg).take c
      if c = 0 || (die != seg && !dieAdmits s l node die (if n.kind = 1 then n.k else 1)) then event s
      else
        let rids := rs.map (fun r => r.rid)
        let order := (rs.head?.map (fun r => r.order)).getD 0
        let nsp := (rs.filter (fun r => r.spilled)).length
        let s := modLaunch s lid (fun l => { l with q := l.q.filter (fun r => !rids.contains r.rid) })
        if n.kind = 2 then
          let data := (rs.head?.map (fun r => r.data)).getD []
          let s := unspill s lid (nsp * l.g.size node)
          event (afterSpace (match gridTeams data with
            | none => modLaunch s lid (fun l => { l with dropped := l.dropped + 1 })
            | some nt => modLaunch s lid (fun l =>
              { l with nrecs := l.nrecs + 1,
                       grids := l.grids ++ [{ node := node, seg := some seg, next := 0, last := nt, data := data, order := order, range := none }] })) lid)
        else
          let (fid, s) := s.draw
          event { s with formed := s.formed ++
            [{ fid := fid, lid := lid, node := node, seg := seg, die := die, spilled := nsp, order := order, seeds := seedsOf n rs, range := none }] }

/-- What a die's dispatcher has to serve (R361): place in the order, launch, node, teams, and the number of a formed team. -/
structure Cand where
  order : Nat
  lid : Nat
  node : Nat
  k : Nat
  fid : Option Nat
  deriving DecidableEq, Repr

/-- The teams that a grid node would form from the pending record of a segment that is its next: none when the record breaks R356. -/
def gridNext (l : Launch) (node seg : Nat) : Option QRec :=
  if (l.g.node node).kind != 2 then none
  else ((l.pending node seg).head?).bind (fun r => if (gridTeams r.data).isSome then some r else none)

/-- The formed and formable teams of a die, oldest first (R361): also those of a grid record that is still pending, and of the ranges dealt
to the package. -/
def candsOn (s : State) (die : Nat) : List Cand :=
  let formed := (s.formed.filter (fun f => f.die == die)).map
    (fun f => ({ order := f.order, lid := f.lid, node := f.node, k := f.seeds.length, fid := some f.fid } : Cand))
  let open_ := s.launches.flatMap (fun l =>
    if l.phase != 1 || (s.ctx l.page).state != 2 then []
    else
      ((l.grids.filter (fun j => j.seg == some die || j.seg.isNone)).map (fun j =>
        ({ order := j.order, lid := l.lid, node := j.node, k := min (l.g.node j.node).k (j.last - j.next), fid := none } : Cand))) ++
      (List.range l.g.nodes.length).filterMap (fun n =>
        if (l.g.node n).kind = 2 then (gridNext l n die).map (fun r =>
          ({ order := r.order, lid := l.lid, node := n, k := min (l.g.node n).k ((gridTeams r.data).getD 1), fid := none } : Cand))
        else if formCount s l n die = 0 then none
        else ((l.pending n die).head?).map (fun r =>
          ({ order := r.order, lid := l.lid, node := n, k := if (l.g.node n).kind = 1 then (l.g.node n).k else 1, fid := none } : Cand))))
  sortBy (fun a b => decide (a.order < b.order) || (a.order == b.order && decide (a.fid.getD (2 ^ 64) ≤ b.fid.getD (2 ^ 64)))) (formed ++ open_)

/-- An older team that the die could admit, or an older one of the same node, goes first (R361). -/
def olderFirst (s : State) (f : Formed) : Bool :=
  let older := (candsOn s f.die).takeWhile (fun c => c.fid != some f.fid)
  older.any (fun c => (c.lid == f.lid && c.node == f.node) ||
    (!(older.takeWhile (fun x => x != c)).any (fun x => x.lid == c.lid && x.node == c.node) &&
      match launchOf s c.lid with
      | some l => (s.ctx l.page).state == 2 && dieAdmits s l c.node f.die c.k
      | none => false))

/-- A team's local memory at dispatch (R175): undefined, but zero where another context used it last. -/
def dispatchLocal (s : State) (core base size page : Nat) : State :=
  if size = 0 then s
  else
    let lo := localKey core base
    let hi := lo + size
    s.locUse.foldr (fun u s =>
      let a := max lo u.1
      let b := min hi u.2.1
      if b ≤ a then s else if u.2.2 = page then s.undefRange a b else s.zeroRange a b) (s.undefRange lo hi)

/-- The start mask of a group (R105, R355). -/
def startMask (n : Node) (role idx count : Nat) : Mask :=
  if n.kind = 0 && role = 0 then maskOf (fun l => decide (32 * idx + l < count)) else allLanes

/-- A group as it starts (R94, R105). Its first fragment's LASTISSUE, which the spec leaves open, is 0 (DESIGN CHOICE, log 118). -/
def newGroup (s : State) (l : Launch) (tid core gslot quad idx role : Nat) (n : Node) (t : Nat) (mask : Mask) : Group :=
  let base := seedBaseOf l.r.lseed (BitVec.ofNat 32 t) (BitVec.ofNat 32 idx)
  { Group.empty with
    page := l.page, team := tid, core := core, gslot := gslot, quad := quad, idx := idx, role := role,
    slot0 := some { mask := mask, pc := n.entry, fmt := 0, rsp := 0xFFFF, sup := false, last := 0, chl := 0, ready := s.clkOf core + 1, buf := none,
                    only := none, wait := none, since := none, stalled := none },
    exited := ~~~mask, seedbase := base, seed := (List.range 32).map (fun i => (i, seedInit base i)),
    allot := ((n.roles[role]?).map (fun r => r.regs)).getD 32, ended := false }

/-- The control-stack area of a group that starts holds unspecified contents (R112). -/
def clearStackArea (s : State) (place : Nat) : State :=
  let g := s.group place
  let d := (s.ctx g.page).d
  if d.csentries = 0 then s
  else (pageParts (d.csentries / 2048 + 2) (csAddr d g 0).toNat (32 * d.csentries)).foldl (fun s p =>
    match translate s d p.1 .w with
    | .ok k _ _ _ => s.undefRange k (k + p.2)
    | _ => s) s

/-- The free places of a core, lowest first. -/
def freePlaces (s : State) (core : Nat) : List Nat :=
  (List.range 64).filter (fun p => (ffind s.groups (64 * core + p)).isNone)

/-- The role of each group, in group order (R347). -/
def Node.roleOfs (n : Node) : List Nat := ((List.range n.roles.length).zip n.roles).flatMap (fun x => List.replicate x.2.ng x.1)

/-- One team dispatched to a core (R105, R175, R232, R295, R347, R355): its state and its groups. -/
def startTeam (s : State) (l : Launch) (f : Formed) (core : Nat) (clu : Option Nat) (i t : Nat) (x : Seed) : State :=
  let n := l.g.node f.node
  match fitTeam s.sys.budget (coreUse s core) n with
  | none => s
  | some (_, qs, base) =>
    let (tid, s) := s.draw
    let size := 256 * n.loc
    let s := dispatchLocal s core base size l.page
    let team : Team := { Team.empty with
      page := l.page, lid := l.lid, node := f.node, kind := n.kind, t := t, depth := if n.kind = 2 then 0 else x.depth, core := core,
      ngroup := n.groups, base := base, size := size, nslots := n.slots, ntiles := n.tiles, charge := n.charge, clu := clu,
      row := if n.cluster then i / n.cluw else 0, col := if n.cluster then i % n.cluw else 0,
      cluh := n.cluh, cluw := n.cluw, recs := x.recs, range := f.range, ended := false }
    let s := s.setTeam tid team
    let places := freePlaces s core
    let roles := n.roleOfs
    let s := (List.range n.groups).foldl (fun s j =>
      let p := places.getD j 0
      clearStackArea (s.setGroup (64 * core + p) (newGroup s l tid core p (qs.getD j 0) j (roles.getD j 0) n t
        (startMask n (roles.getD j 0) j x.recs.length))) (64 * core + p)) s
    (List.range n.groups).foldl (fun s j => checkGroup s (64 * core + places.getD j 0)) s

/-- TEAM_DISPATCH: a formed team or cluster is admitted to a core, or to the rectangle whose first core it is, and starts; its records
leave their queue (R353, R358 to R361). T of a team of a node that is no grid is its dispatch number (R356). -/
def execTeamDispatch (fid core : Nat) (s : State) : Host.Outcome State Fault Refusal :=
  match s.formed.find? (fun f => f.fid == fid) with
  | none => event s
  | some f => match launchOf s f.lid with
    | none => event s
    | some l =>
      let n := l.g.node f.node
      let k := f.seeds.length
      if (s.ctx l.page).state != 2 || core / 32 != f.die || !dieServes s f.die || !fitAll s l f.node core k || olderFirst s f then event s
      else
        let t0 := fget l.nextT f.node 0
        let s := { s with formed := s.formed.filter (fun x => x.fid != fid) }
        let s := modLaunch s f.lid (fun l =>
          { l with nextT := if n.kind = 2 then l.nextT else fset l.nextT f.node 0 (t0 + k), nrecs := l.nrecs + f.count l })
        let s := unspill s f.lid (f.spilled * l.g.size f.node)
        let (clu, s) := if n.cluster then (some s.serial, { s with serial := s.serial + 1 }) else (none, s)
        let s := ((List.range k).zip f.seeds).foldl (fun s x =>
          match clusterCore n core x.1 with
          | some c => startTeam s l f c clu x.1 (if n.kind = 2 then x.2.t else t0 + x.1) x.2
          | none => s) s
        event (afterSpace s f.lid)

/-! ### Grants, overflow, completion (R353, R363, R364) -/

/-- RESERVATION_GRANT: the oldest waiting reservation of a segment is granted once there is space (R353). A deferred credit request then
sends its grant, up to the number asked for (R390). An EMIT of a context that does not run stays waiting (R377); credits are granted all the
same (R411). -/
def execReservationGrant (lid node die : Nat) (s : State) : Host.Outcome State Fault Refusal :=
  match launchOf s lid with
  | none => event s
  | some l =>
    match (l.waits node die).head? with
    | none => event s
    | some r =>
      if (s.ctx l.page).state != 2 && r.empty.isNone || node == l.g.root && die == 0 && l.init < l.r.nrec.toNat then event s
      else match roomIn s l node die with
      | none => event s
      | some sp =>
        let s := modLaunch (grantRec s lid r.rid sp) lid (fun l => { l with ovf := 0 })
        match r.empty with
        | none => event (wakeEmits s [r.rid])
        | some pkg =>
          let more := (r.data.head?.map (fun w => w.toNat)).getD 1 - 1
          let (n, s) := (List.range more).foldl (fun (a : Nat × State) _ =>
            let (ok, _, s) := reserve a.2 lid node die [] 0 (some pkg) false
            if ok then (a.1 + 1, s) else a) (1, s)
          event (sendEnv s pkg lid { Envelope.blank with
            etype := 3, sub := 1, podctx := (s.ctx l.page).d.podctx, lseq := l.lseq, home := BitVec.ofNat 10 l.home,
            node := BitVec.ofNat 12 node, arg0 := BitVec.ofNat 32 n })

/-- A wait that counts as blocked in R363; `hard` those that are EMIT or EMITT. -/
def blockingWait : Wait → Bool
  | .emit _ => true
  | .bar _ _ _ _ => true
  | .podbar _ _ _ _ _ => true
  | .podtok _ _ _ _ _ _ => true
  | .claim _ _ => true
  | .cond _ => true
  | _ => false

/-- A group all of whose fragments wait as R363 lists. -/
def groupBlocked (s : State) (g : Group) : Bool :=
  g.park.isNone && g.h.slot.isNone && (g.yw.isSome || [g.slot0, g.slot1].all (fun f => match f with
    | some f => decide (f.last != s.clkOf g.core) && match f.wait with
      | some w => blockingWait w
      | none => false
    | none => true))

/-- A group with a fragment that waits in EMIT or EMITT. -/
def groupEmits (g : Group) : Bool :=
  [g.slot0, g.slot1].any (fun f => match f.bind (fun (x : Frag) => x.wait) with
    | some (.emit _) => true
    | _ => false)

/-- An operation is the link operation of an EMIT or EMITT that still waits for a credit: its team is blocked in it (R390). -/
def waitsCredit (s : State) (o : Op) : Bool := s.launches.any (fun l => l.rq.any (fun r => r.op == o.id))

/-- A team is blocked (R363, R390). -/
def teamBlocked (s : State) (tid : Nat) : Bool :=
  let gs := (groupsOf s tid).filter (fun p => !p.2.ended)
  !s.ops.any (fun o => o.team == tid && !waitsCredit s o) && gs.any (fun p => groupEmits p.2) && gs.all (fun p => groupBlocked s p.2)

/-- The waiting reservations of a launch: in its segments, or for a credit. -/
def waitingNodes (l : Launch) : List Nat :=
  (l.q.filter (fun r => !r.granted && r.empty.isNone)).map (fun r => r.node) ++ l.rq.map (fun r => r.node)

/-- The four conditions of R363. -/
def overflowing (s : State) (l : Launch) : Bool :=
  l.phase == 1 && l.cancel == 0 && (s.ctx l.page).state == 2 && !(waitingNodes l).isEmpty &&
  (waitingNodes l).all (fun n => (spillRoom s l (l.spilluse + l.g.size n)).isNone) &&
  s.teams.all (fun t => t.2.lid != l.lid || t.2.ended || teamBlocked s t.1) &&
  (List.range 4).all (fun die => (candsOn s die).all (fun c =>
    c.lid != l.lid || (match c.fid with
      | some _ => !dieAdmits s l c.node die c.k
      | none => (List.range 4).all (fun d => !dieAdmits s l c.node d c.k)))) &&
  l.grids.all (fun j => (List.range 4).all (fun d => !dieAdmits s l j.node d (min (l.g.node j.node).k (j.last - j.next))))

/-- The fabric cycles of R362 and R363. -/
def overflowCycles : Nat := 65536

/-- QUEUE_OVERFLOW: the conditions have held without interruption for the interval (R363). It is raised once, at the interval's end, also where the
cancel comes from another package's wave root: the interval then stands above its length until the conditions are interrupted. -/
def execQueueOverflow (lid : Nat) (s : State) : Host.Outcome State Fault Refusal :=
  match launchOf s lid with
  | none => event s
  | some l =>
    if l.ovf != overflowCycles || !overflowing s l then event s
    else event (launchFault (modLaunch s lid (fun l => { l with ovf := overflowCycles + 1 })) lid (codeOf 9 cQueueOverflow) ((waitingNodes l).headD 0))

/-- The intervals of R363 after fabric cycles have passed. -/
def ageOverflow (s : State) (fab : Nat) : State :=
  if s.launches.all (fun l => (waitingNodes l).isEmpty && l.ovf == 0) then s
  else { s with launches := s.launches.map (fun l => { l with ovf :=
      (if !overflowing s l then 0 else if overflowCycles < l.ovf then l.ovf else min overflowCycles (l.ovf + fab)) }) }

/-- The fabric cycles that may pass before an interval of R363 ends, at most n. -/
def untilOverflow (s : State) (n : Nat) : Nat :=
  s.launches.foldl (fun n l => if (waitingNodes l).isEmpty || overflowCycles < l.ovf || !overflowing s l then n else min n (overflowCycles - l.ovf)) n

/-- A member's REPLY to a wave (R400, R404). -/
def replyOf (s : State) (l : Launch) (wave : Nat) : Envelope :=
  { control s l.page 0x09 l.lseq l.home with
    arg0 := BitVec.ofNat 32 wave, arg1 := BitVec.ofNat 32 (sat32 l.fcount),
    arg2 := cat (BitVec.ofNat 32 l.sent) (BitVec.ofNat 32 l.recv),
    payload := leBytes 4 (l.fcode.toNat * 65536 + l.fnode) ++ leBytes 4 l.nteams ++ leBytes 4 l.nrecs ++ leBytes 4 l.dropped ++
      leBytes 4 l.spillmax ++ leBytes 12 0 }

/-- A wave begins (R400): WAVE to every member. -/
def startWave (s : State) (r : Root) (n : Nat) : State :=
  let r' := { r with wave := n, replies := [] }
  let s := { s with link := { s.link with roots := s.link.roots.map (fun x => if x == r then r' else x) } }
  r.members.foldl (fun s p => sendEnv s p 0 { control s r.page 0x08 r.lseq r.home with arg0 := BitVec.ofNat 32 n }) s

/-- The wave root's record of a launch. -/
def rootOf (s : State) (page : Nat) (lseq : Word) (home : Nat) : Option Root :=
  s.link.roots.find? (fun r => r.page == page && r.lseq == lseq && r.home == home)

/-- The wave root's record of a launch without pod scope, whose home is its wave root (R400). -/
def homeRoot (s : State) (l : Launch) : Root :=
  { pseq := none, podctx := (s.ctx l.page).d.podctx, page := l.page, home := l.home, lseq := l.lseq, r := l.r,
    members := (s.ctx l.page).members, started := [], nt := 0, rlen := 0, nr := 0, dealt := [], done := [], cancel := l.cancel, faults := [],
    wave := 0, replies := [], prev := none, finished := false }

/-- LAUNCH_COMPLETE: this package finds its part of a launch complete (R364, R399, R400). A launch of this package alone completes; a wave
that waits is answered; a launch whose records reached other packages begins its waves. A
completion record that meets a stash line waits for it (R183). -/
def execLaunchComplete (lid : Nat) (s : State) : Host.Outcome State Fault Refusal :=
  match launchOf s lid with
  | none => event s
  | some l =>
    if !quiescent s l then event s
    else match l.wave with
      | some w => event (sendEnv (modLaunch s lid (fun l => { l with wave := none })) (waveRootOf s l) lid (replyOf s l w))
      | none =>
        if l.home != s.pkg || l.r.pod then event s
        else if l.sent = 0 then
          let (ok, s) := cplClear s l
          event (if ok then finishLaunch s lid else s)
        else match rootOf s l.page l.lseq l.home with
          | some r => if r.wave = 0 then event (startWave s r 1) else event s
          | none =>
            let r := homeRoot s l
            event (startWave { s with link := { s.link with roots := s.link.roots ++ [r] } } r 1)

end Sys2Proof.Machine
end

