-- ==== Sys2Proof/Machine/Link.lean ====
section
/-! DEFINITION. The link engine: placement (R383, R392), record transport with credits (R386 to R391), and its events. -/
namespace Sys2Proof.Machine

/-! ### Placement (R383, R391, R392) -/

/-- The package that a record of a node goes to: none for MODE 0b11, a package that is no member, or an unreachable one. -/
def placeOf (s : State) (l : Launch) (node : Nat) : Option Nat :=
  let c := s.ctx l.page
  if c.d.podtab = 0 then some s.pkg
  else match c.dir.find? (fun x => x.2 == l.r.graph) with
    | none => some s.pkg
    | some x =>
      let e := fget c.place (4096 * x.1 + node) 0
      let mode := (bits e 14 2).toNat
      let pkg := (bits e 0 10).toNat
      let mode := if bits e 10 4 != 0 || (pkg != 0 && mode != 1) then 3 else mode
      let tgt := if mode = 0 then some s.pkg else if mode = 1 then some pkg else if mode = 2 then some l.home else none
      match tgt with
      | some p => if p = s.pkg then some p else if c.members.contains p && !unreachable s c.d.podctx p then some p else none
      | none => none

/-! ### Credits and records out (R390, R391) -/

/-- The credits held for records of a node of a launch on a package. -/
def Launch.credit (l : Launch) (pkg node : Nat) : Nat :=
  ((l.credits.find? (fun x => x.1 == pkg && x.2.1 == node)).map (fun x => x.2.2)).getD 0

/-- The credits of a package and node set. -/
def Launch.setCredit (l : Launch) (pkg node n : Nat) : Launch :=
  let rest := l.credits.filter (fun x => !(x.1 == pkg && x.2.1 == node))
  { l with credits := if n = 0 then rest else (pkg, node, n) :: rest }

/-- A credit request for reservations that wait with an empty pool, unless one is on its way (R390). -/
def requestCredit (s : State) (lid pkg node : Nat) : State :=
  match launchOf s lid with
  | none => s
  | some l =>
    let n := (l.rq.filter (fun r => r.pkg == pkg && r.node == node)).length
    if n = 0 || l.credit pkg node != 0 || l.asked.contains (pkg, node) then s
    else
      sendEnv (modLaunch s lid (fun l => { l with asked := l.asked ++ [(pkg, node)], lent := dedup (l.lent ++ [pkg]) })) pkg lid
        { Envelope.blank with etype := 3, podctx := (s.ctx l.page).d.podctx, lseq := l.lseq, home := BitVec.ofNat 10 l.home,
                              node := BitVec.ofNat 12 node, arg0 := BitVec.ofNat 32 (min n 16) }

/-- A record that has its credit: counted in SENT, retained and transmitted, or waiting behind 256 unacknowledged envelopes (R386, R391). -/
def sendRecord (s : State) (lid : Nat) (r : RemRec) : State :=
  match launchOf s lid with
  | none => s
  | some l =>
    let podctx := (s.ctx l.page).d.podctx
    let e := { Envelope.blank with etype := 1, rtype := BitVec.ofNat 4 r.rtype, podctx := podctx, lseq := l.lseq, home := BitVec.ofNat 10 l.home,
                                   depth := BitVec.ofNat 5 r.depth, node := BitVec.ofNat 12 r.node, payload := bytesOf r.data }
    let s := modLaunch s lid (fun l => { l with sent := l.sent + 1 })
    let seq := (txOf s r.pkg podctx).next
    match sendTagged s r.pkg lid r.op e with
    | (false, s) => s
    | (true, s) => modOp s r.op (fun o => match o.kind with
      | .link w => { o with kind := .link (w ++ [(r.pkg, seq)]) }
      | _ => o)

/-- A lane's reservation for a record to another package (R390): its credit taken, or waiting for one, or, when it may not wait, none.
Answers whether it was granted, and its number. -/
def reserveRemote (s : State) (lid : Nat) (r : RemRec) (wait : Bool) : Bool × Nat × State :=
  match launchOf s lid with
  | none => (true, 0, s)
  | some l =>
    if l.cancel != 0 then (true, 0, modLaunch s lid (fun l => { l with dropped := l.dropped + 1 }))
    else
      let n := l.credit r.pkg r.node
      let queued := l.rq.any (fun x => x.pkg == r.pkg && x.node == r.node)
      if n != 0 && !queued then (true, 0, sendRecord (modLaunch s lid (fun l => l.setCredit r.pkg r.node (n - 1))) lid r)
      else if !wait then (false, 0, s)
      else
        let (rid, s) := s.draw
        let s := modLaunch s lid (fun l => { l with rq := l.rq ++ [{ r with rid := rid }] })
        (false, rid, requestCredit s lid r.pkg r.node)

/-- Waiting remote reservations take the credits there are, in order: at most `fuel` of them (R390). -/
def serveCredits : Nat → Nat → Nat → Nat → State → State
  | 0, _, _, _, s => s
  | f + 1, lid, pkg, node, s =>
    match launchOf s lid with
    | none => s
    | some l =>
      match l.rq.find? (fun r => r.pkg == pkg && r.node == node) with
      | none => s
      | some r =>
        let n := l.credit pkg node
        if n = 0 then requestCredit s lid pkg node
        else
          let s := modLaunch s lid (fun l => { l.setCredit pkg node (n - 1) with rq := l.rq.filter (fun x => x.rid != r.rid), ovf := 0 })
          serveCredits f lid pkg node (wakeEmits (sendRecord s lid r) [r.rid])

/-! ### Taking envelopes (R385 to R387) -/

/-- The loaded or terminated context with a PODCTX. -/
def pageOfPod (s : State) (podctx : BitVec 16) : Option Nat :=
  (s.ctxs.find? (fun c => (decide (2 ≤ c.2.state) && decide (c.2.state ≤ 4) || c.2.state == 6) && c.2.d.podtab != 0 &&
    c.2.d.podctx == podctx)).map (fun c => c.1)

/-- The receiver's side of a stream. -/
def rxOf (s : State) (src : Nat) (podctx : BitVec 16) : Rx :=
  (s.link.rx.find? (fun r => r.src == src && r.podctx == podctx)).getD { src := src, podctx := podctx, acclo := 0, win := 0 }

/-- A stream's receiving side replaced. -/
def setRx (s : State) (r : Rx) : State :=
  { s with link := { s.link with rx := r :: s.link.rx.filter (fun u => !(u.src == r.src && u.podctx == r.podctx)) } }

/-- ACCLO past every sequence of the window that has been taken. -/
def slide : Nat → Rx → Rx
  | 0, r => r
  | f + 1, r => if bit r.win 0 then slide f { r with win := r.win >>> 1, acclo := r.acclo + 1 } else r

/-- An acknowledgement (R384, R387). -/
def ackOf (r : Rx) : Envelope :=
  { Envelope.blank with etype := 2, podctx := r.podctx, arg0 := r.acclo.setWidth 32, payload := leBytes 32 r.win.toNat }

/-- A tagged envelope reaches its stream (R387): whether it is taken, and the acknowledgement sent. The package's own need no stream. -/
def takeStream (s : State) (page src : Nat) (e : Envelope) : Bool × State :=
  if src = s.pkg then (true, s)
  else
    let r := rxOf s src e.podctx
    let d := (bits e.tag 0 22 - r.acclo).toNat
    let ack := fun (r : Rx) (s : State) => { setRx s r with out := s.out ++ [.envelope src (ackOf r)] }
    if 2 ^ 21 ≤ d || (d < 256 && bit r.win d) then (false, ack r s)
    else if 256 ≤ d then (false, doomBare (ack r s) page (codeOf 0xA cEngine) 0)
    else
      let r := slide 257 { r with win := setBit r.win d true }
      (true, ack r s)

/-- The payload length of an envelope is right (R384, R404). -/
def lenOk (e : Envelope) : Bool :=
  match e.etype.toNat, e.sub.toNat with
  | 1, _ => [16, 32, 64, 128].contains e.payload.length
  | 2, _ => e.payload.length == 32
  | 4, 0x01 => e.payload.length == 64
  | 4, 0x02 => e.payload.length == 64
  | 4, 0x09 => e.payload.length == 32
  | 4, 0x0A => e.payload.length == 128
  | _, _ => e.payload.isEmpty

/-- An envelope dropped and counted (R385). -/
def dropEnv (s : State) : State := { s with link := { s.link with drops := s.link.drops + 1 } }

/-- An ETYPE is reserved (R384). -/
def etypeReserved (e : Envelope) : Bool := e.etype.toNat = 0 || 4 < e.etype.toNat

/-- What a taken envelope does; while it cannot act yet, it waits and is tried again (log 129). -/
def actOrWait (src : Nat) (e : Envelope) (r : Bool × State) : State :=
  if r.1 then r.2 else { r.2 with link := { r.2.link with late := r.2.link.late ++ [(src, e)] } }

/-- An envelope of a kind comes from a package: dropped and counted when its ETYPE is reserved, its PODCTX unknown or its length wrong (R385);
otherwise, once its stream has taken it, what it does, false when it cannot act yet. One that waits is tried again without its stream. Before
stage 3 there is no pod (R412). -/
def fromLinkWait (kind sub : Nat) (tagged : Bool) (src : Nat) (e : Envelope) (s : State) (k : Nat → State → Bool × State) :
    Host.Outcome State Fault Refusal :=
  if s.sys.stage != 3 then event s
  else if etypeReserved e then event (dropEnv (wakeUp s))
  else if e.etype.toNat != kind || (2 < kind && e.sub.toNat != sub) then event s
  else
  let s := wakeUp s
  match (if lenOk e then pageOfPod s e.podctx else none) with
    | none => event (dropEnv s)
    | some page =>
      if s.link.late.contains (src, e) then
        let s := { s with link := { s.link with late := s.link.late.erase (src, e) } }
        event (actOrWait src e (k page s))
      else
        let (ok, s) := if tagged then takeStream s page src e else (true, s)
        event (if ok then actOrWait src e (k page s) else s)

/-- An envelope that can always act. -/
def fromLink (kind sub : Nat) (tagged : Bool) (src : Nat) (e : Envelope) (s : State) (k : Nat → State → State) :
    Host.Outcome State Fault Refusal :=
  fromLinkWait kind sub tagged src e s (fun page s => (true, k page s))

/-! ### The link engine's events -/

/-- This package's part of a launch that another package started without pod scope (R390): the envelopes do not carry its graph's
address and its LSEED, which are free values here, the address among the graphs of the directory. False while the launch table is full, a die
cannot hold the queue shares (R351), or a read waits. -/
def remoteLaunch (s : State) (page : Nat) (lseq : Word) (home : Nat) : Bool × State :=
  let c := s.ctx page
  if c.dir.isEmpty then (true, s)
  else if 4096 ≤ liveLaunches s then (false, s)
  else
    let s1 := { s with fresh := s.fresh + 2 }
    let va := (c.dir.getD ((Config.freeWord s.fresh).toNat % c.dir.length) (0, 0)).2
    match readGraph s1 c.d va with
    | .wait _ => (false, s)
    | .unusable => (true, s1)
    | .ok (.inr _) s1 => (true, s1)
    | .ok (.inl (root, types, ds)) s1 =>
      let (lid, s1) := s1.draw
      let r : LRec := { graph := va, recs := 0, nrec := 0, pod := false, spill := 0, lseed := Config.freeWord (s.fresh + 1), spillbase := 0,
                        cpl := 0, tag := 0 }
      if !sharesFit s1 (graphOf root types ds) then (false, s)
      else (true, { s1 with launches := s1.launches ++ [{ Launch.blank lid page lseq home r with g := graphOf root types ds, phase := 1 }] })

/-- The die whose segment takes a remote reservation: the lowest in service with room, else the lowest. -/
def creditDie (s : State) (l : Launch) (node : Nat) : Nat :=
  ((List.range 4).find? (fun d => dieServes s d && (l.waits node d).isEmpty && (roomIn s l node d).isSome)).getD 0

/-- Credits made for another package: reservations as far as space allows, at most n (R390). -/
def makeCredits : Nat → Nat → Nat → Nat → Nat → State → Nat × State
  | 0, _, _, _, got, s => (got, s)
  | f + 1, lid, node, src, got, s =>
    match launchOf s lid with
    | none => (got, s)
    | some l =>
      let (ok, _, s) := reserve s lid node (creditDie s l node) [] 0 (some src) false
      if ok then makeCredits f lid node src (got + 1) s else (got, s)

/-- The grant that answers a credit request with a number of credits (R384, R390). -/
def creditGrantOf (e : Envelope) (got : Nat) : Envelope :=
  { Envelope.blank with etype := 3, sub := 1, podctx := e.podctx, lseq := e.lseq, home := e.home, node := e.node, arg0 := BitVec.ofNat 32 got }

/-- A credit request at the launch it names: up to 16 reservations and their grant, or one that waits for space (R390). -/
def giveCredits (s : State) (page src : Nat) (e : Envelope) : State :=
  let node := e.node.toNat
  match launchBy s page e.lseq e.home.toNat with
  | none => s
  | some l =>
    if l.cancel != 0 || l.g.nodes.length ≤ node then s
    else
      let n := min e.arg0.toNat 16
      let (got, s) := makeCredits n l.lid node src 0 s
      if n = 0 then s
      else if got = 0 then (reserve s l.lid node (creditDie s l node) [BitVec.ofNat 32 n] 0 (some src) true).2.2
      else sendEnv s src l.lid (creditGrantOf e got)

/-- A launch has ended here, or a cancel of it has come, so that its credits have lapsed (R390, log 137). -/
def partEnded (s : State) (page : Nat) (lseq : Word) (home : Nat) : Bool :=
  s.link.ended.contains (page, lseq, home) || s.link.cancels.any (fun x => x.1 == page && x.2.1 == lseq && x.2.2.1 == home)

/-- CREDIT_REQUEST: credits of a launch, which the package may not have heard of before (R390). -/
def execCreditRequest (src : Nat) (e : Envelope) (s : State) : Host.Outcome State Fault Refusal :=
  fromLinkWait 3 0 true src e s (fun page s =>
    let home := e.home.toNat
    match (if (launchBy s page e.lseq home).isSome || home = s.pkg || partEnded s page e.lseq home then (true, s) else remoteLaunch s page e.lseq home) with
    | (false, s) => (false, s)
    | (true, s) => (true, giveCredits s page src e))

/-- CREDIT_GRANT: credits for the pool, and waiting remote reservations take them (R390), of a context that does not run when it resumes (R377). -/
def execCreditGrant (src : Nat) (e : Envelope) (s : State) : Host.Outcome State Fault Refusal :=
  fromLink 3 1 true src e s (fun page s =>
    match launchBy s page e.lseq e.home.toNat with
    | none => s
    | some l =>
      let node := e.node.toNat
      if l.cancel != 0 then s
      else
        let s := modLaunch s l.lid (fun l => { l.setCredit src node (l.credit src node + e.arg0.toNat) with
          asked := l.asked.filter (fun x => x != (src, node)) })
        if (s.ctx page).state = 2 then settleLinks (serveCredits (l.rq.length + 1) l.lid src node s) else s)

/-- RECORD_ENVELOPE: taken into the reservation its credit holds, or discarded (R389). -/
def execRecordEnvelope (src : Nat) (e : Envelope) (s : State) : Host.Outcome State Fault Refusal :=
  fromLink 1 0 true src e s (fun page s =>
    match launchBy s page e.lseq e.home.toNat with
    | none => s
    | some l =>
      let node := e.node.toNat
      match l.q.find? (fun r => r.granted && r.empty == some src && r.node == node) with
      | some r =>
        if l.cancel != 0 || e.payload.length != l.g.size node then modLaunch s l.lid (fun l => { l with recv := l.recv + 1, dropped := l.dropped + 1 })
        else
          let (p, s) := s.draw
          modLaunch s l.lid (fun l => { l with
            recv := l.recv + 1,
            q := mapIf (fun x => x.rid == r.rid) (fun x => { x with empty := none, data := wordsOf e.payload, depth := e.depth.toNat, place := p }) l.q })
      | none => modLaunch s l.lid (fun l => { l with recv := l.recv + 1, dropped := l.dropped + 1 }))

/-- ACKNOWLEDGEMENT: the retained envelopes that ACCLO and WIN cover are freed (R386). -/
def execAcknowledgement (src : Nat) (e : Envelope) (s : State) : Host.Outcome State Fault Refusal :=
  fromLink 2 0 false src e s (fun _ s =>
    let lo : BitVec 22 := bits e.arg0 0 22
    let win := leVal e.payload
    let covers := fun (q : BitVec 22) => 2 ^ 21 ≤ (q - lo).toNat || ((q - lo).toNat < 256 && win.testBit (q - lo).toNat)
    let t := txOf s src e.podctx
    let gone := t.kept.filter (fun r => covers r.seq)
    if gone.isEmpty then settleLinks (drainBacklog (t.backlog.length + 1) src e.podctx s)
    else
      let s := setTx s { t with kept := t.kept.filter (fun r => !covers r.seq) }
      let s := gone.foldl (fun s r =>
        let s' := { s with fresh := s.fresh + 1 }
        sample s' 0x05 ((Config.freeWord s.fresh).toNat % 16) (BitVec.ofNat 32 r.tries)) s
      let s := { s with ops := s.ops.map (fun o => match o.kind with
        | .link w => { o with kind := .link (w.filter (fun x => !(x.1 == src && covers x.2 && o.page == (pageOfPod s e.podctx).getD 0))) }
        | _ => o) }
      settleLinks (drainBacklog (t.backlog.length + 1) src e.podctx s))

/-- A destination becomes unreachable: every launch with a record retained for it faults with that record's node (R388). What is retained stays so
until an acknowledgement covers it (R386). -/
def giveUpDst (s : State) (dst : Nat) (podctx : BitVec 16) : State :=
  let t := txOf s dst podctx
  let recs := t.kept.filter (fun r => r.e.etype == 1)
  let s := setTx s { t with unreach := true }
  (dedup (recs.map (fun r => r.lid))).foldl (fun s lid =>
    match recs.find? (fun r => r.lid == lid) with
    | some r => launchFault s lid (codeOf 0xA cUnreachable) r.e.node.toNat
    | none => s) s

/-- RETRANSMIT_TIMEOUT: an envelope is sent again, or its destination is given up (R388). -/
def execRetransmitTimeout (dst : Nat) (podctx : BitVec 16) (seq : BitVec 22) (s : State) : Host.Outcome State Fault Refusal :=
  match pageOfPod s podctx with
  | none => event s
  | some page =>
    let d := (s.ctx page).d
    let t := txOf s dst podctx
    match t.kept.find? (fun r => r.seq == seq) with
    | none => event s
    | some r =>
      if s.sys.fab < r.timer + 1024 * d.rto then event s
      else if d.nretry ≤ r.tries then event (if t.unreach then s else giveUpDst s dst podctx)
      else
        let s := setTx s { t with kept := mapIf (fun x => x.seq == seq) (fun x => { x with tries := x.tries + 1, timer := s.sys.fab }) t.kept }
        event { s with out := s.out ++ [.envelope dst r.e] }

/-- The pod table's key of a placement entry: 4,096 g + n names node n of directory entry g (R382). -/
def placeKey (d : Desc) (i : Nat) : Nat := d.podtab.toNat + 0x400 + 8192 * (i / 4096) + 2 * (i % 4096)

/-- The placement entries of the directory's graphs as the pod table has them now (R382, R393). -/
def readPlaces (s : State) (d : Desc) (dir : List (Nat × DWord)) : FMap (BitVec 16) :=
  (dir.flatMap (fun x => (List.range 4096).map (fun n => 4096 * x.1 + n))).filterMap (fun i =>
    let v := BitVec.ofNat 16 (s.sysVal (placeKey d i) 2)
    if v = 0 then none else some (i, v))

/-- Placement entries written at .sys, one after another: false while a stash line of one has to wait (R183). -/
def putPlaces (d : Desc) (entries : List (Nat × BitVec 16)) (s : State) : Bool × State :=
  entries.foldl (fun a x => if a.1 then cohWrite a.2 (placeKey d x.1) (leBytes 2 x.2.toNat) else a) (true, s)

/-- PLACEMENT_RELOAD: Skesunal rewrites entries of its package's pod table and the link engine reloads them (R393), once every entry is written. -/
def execPlacementReload (page : Nat) (entries : List (Nat × BitVec 16)) (s : State) : Host.Outcome State Fault Refusal :=
  let c := s.ctx page
  if c.state < 2 || 4 < c.state || c.d.podtab = 0 || entries.any (fun x => decide (48 * 4096 ≤ x.1)) then event s
  else
    match putPlaces c.d entries s with
    | (false, s) => event s
    | (true, s) =>
      let s := s.sysShare (placeKey c.d 0) (8192 * 48)
      event (s.setCtx page { s.ctx page with place := readPlaces s c.d c.dir })

/-- UALINK_PORT_FAILURE: a trained port goes down; no program sees it (R379, R412). -/
def execUalinkPortFailure (port : Nat) (s : State) : Host.Outcome State Fault Refusal :=
  if port < 16 then event { s with sys := { s.sys with ports := setBit s.sys.ports port false } } else event s

end Sys2Proof.Machine
end

