-- ==== Sys2Proof/Machine/Pod.lean ====
section
/-! DEFINITION. The pod dispatchers: pod-scope launches (R394 to R399), counting waves (R400), faults and cancels (R401, R402), the final
report (R403), pod barriers (R405), and PODBAR, PODQRY, PODFLT (R407 to R410). -/
namespace Sys2Proof.Machine

/-! ### The pod root and the wave root -/

/-- A wave root's record changed. -/
def modRoot (s : State) (r : Root) (f : Root → Root) : State :=
  let is := fun (x : Root) => x.page == r.page && x.lseq == r.lseq && x.home == r.home
  { s with link := { s.link with roots := mapIf is f s.link.roots } }

/-- Every member has reported START accepted or rejected (R396). -/
def Root.heard (r : Root) : Bool := r.members.all (fun p => r.started.any (fun x => x.1 == p))

/-- The cancel that holds at the wave root: the home's own, without pod scope (R402). -/
def rootCancelOf (s : State) (r : Root) : Nat :=
  if r.pseq.isSome then r.cancel else ((launchBy s r.page r.lseq r.home).map (fun l => l.cancel)).getD r.cancel

/-- Whether a pod-scope launch may begin its waves (R400). -/
def wavesOpen (r : Root) : Bool := r.heard && r.wave == 0 && !r.finished && (r.cancel != 0 || r.dealt.length == r.nr)

/-- The waves begun, if they may be. -/
def tryWave (s : State) (page : Nat) (lseq : Word) (home : Nat) : State :=
  match rootOf s page lseq home with
  | some r => if wavesOpen r then startWave s r 1 else s
  | none => s

/-- Range r dealt to its member (R398). -/
def dealRange (s : State) (r : Root) (n : Nat) : State :=
  let to_ := r.members.getD (n % max r.members.length 1) s.pkg
  let s := modRoot s r (fun x => { x with dealt := x.dealt ++ [n] })
  sendEnv s to_ 0 { control s r.page 0x04 r.lseq r.home with arg0 := r.pseq.getD 0, arg1 := BitVec.ofNat 32 n }

/-- Completion parts sent: to the home all five (R403, R404), to every other member the first, with which its part of the launch ends. -/
def sendFinal (s : State) (r : Root) (rec_ : List Byte) (fpkgs : List Nat) : State :=
  let part := fun (n : Nat) (b : List Byte) => finalPart s r.page r.lseq r.home n b
  let s := modRoot s r (fun x => { x with finished := true })
  let s := (r.members.filter (fun p => p != r.home)).foldl (fun s p => sendEnv s p 0 (part 0 rec_)) s
  [part 4 (leBytes 8 r.rlen), part 1 (bitmap r.dealt), part 2 (bitmap r.done), part 3 (bitmap fpkgs), part 0 rec_].foldl
    (fun s e => sendEnv s r.home 0 e) s

/-- The first 64 bytes of the completion record of a launch that more than one package takes part in (R352, R403). -/
def waveRecord (s : State) (r : Root) (code reason : Nat) (fcode : BitVec 16) (fcount teams recs dropped spillmax fnode fpkg nfpkg : Nat) :
    List Byte :=
  leBytes 4 (statusWord code reason fcode).toNat ++ leBytes 4 r.lseq.toNat ++ leBytes 4 r.r.tag.toNat ++ leBytes 4 (sat32 fcount) ++
  leBytes 4 teams ++ leBytes 4 recs ++ leBytes 4 dropped ++ leBytes 4 spillmax ++ leBytes 4 (fnode * 65536 + fpkg) ++
  (match r.pseq with
   | some p => cplPod p s.pkg r.nr r.dealt.length r.done.length nfpkg
   | none => leBytes 28 0)

/-- A launch that a member rejected: REJECTED with the reason of the lowest-numbered one (R395). -/
def rejectPod (s : State) (r : Root) : State :=
  let bad := sortBy (fun (a b : Nat × Nat) => decide (a.1 ≤ b.1)) (r.started.filter (fun x => x.2 != 0))
  sendFinal s r (waveRecord s r 4 ((bad.head?.map (fun x => x.2)).getD 0) 0 0 0 0 0 0 0 0 0) []

/-- Every member has answered START: the launch is rejected, or its first ranges are dealt (R395, R396, R398). -/
def allStarted (s : State) (r : Root) : State :=
  if r.started.any (fun x => x.2 != 0) then rejectPod s r
  else
    let l := launchBy s r.page r.lseq r.home
    let r' := { r with nt := (l.map (fun l => l.nt)).getD 0, rlen := (l.map (fun l => l.rlen)).getD 0, nr := (l.map (fun l => l.nr)).getD 0 }
    let s := modRoot s r (fun _ => r')
    let s := if r'.cancel != 0 then s else
      (List.range (min r'.nr (2 * r'.members.length))).foldl (fun s n => dealRange s r' n) s
    tryWave s r.page r.lseq r.home

/-- This package's part of a launch cancelled, with the children it is home to; an unknown launch's cancel is held (R365, R396, R402). -/
def cancelPart (s : State) (page : Nat) (lseq : Word) (home : Nat) (hard : Bool) : State :=
  match launchBy s page lseq home with
  | none => { s with link := { s.link with cancels := s.link.cancels ++ [(page, lseq, home, hard)] } }
  | some l =>
    let kids := (s.launches.filter (fun x => x.parent == some l.lid)).map (fun x => x.lid)
    kids.foldl (fun s k => cancelLaunch s k hard) (cancelOne s l.lid hard)

/-- The wave root cancels a launch on every member (R401, R402): not once completion is decided, and not by a weaker kind. -/
def rootCancel (s : State) (r : Root) (hard : Bool) : State :=
  let kind := if hard then 2 else 1
  if r.finished || kind ≤ rootCancelOf s r then s
  else
    let s := modRoot s r (fun x => { x with cancel := kind })
    let s := (r.members.filter (fun p => p != s.pkg)).foldl (fun s p =>
      sendEnv s p 0 { control s r.page 0x07 r.lseq r.home with arg0 := if hard then 1 else 0 }) s
    tryWave (cancelPart s r.page r.lseq r.home hard) r.page r.lseq r.home

/-! ### Launch, start, ranges (R395 to R398) -/

/-- LAUNCH: the pod root gives the launch its PSEQ and broadcasts START (R394, R395). -/
def execLaunch (src : Nat) (e : Envelope) (s : State) : Host.Outcome State Fault Refusal :=
  fromLink 4 0x01 true src e s (fun page s =>
    if s.link.root.getD s.pkg != s.pkg then s
    else
      let p := s.link.pseq
      let home := e.home.toNat
      let r : Root := { pseq := some p, podctx := e.podctx, page := page, home := home, lseq := e.lseq, r := lrecOf e.payload,
                        members := (s.ctx page).members, started := [], nt := 0, rlen := 0, nr := 0, dealt := [], done := [], cancel := 0,
                        faults := [], wave := 0, replies := [], prev := none, finished := false }
      let held := s.link.cancels.filter (fun x => x.1 == page && x.2.1 == e.lseq && x.2.2.1 == home)
      let s := { s with link := { s.link with pseq := nextSeq p, roots := s.link.roots ++ [r] } }
      let s := r.members.foldl (fun s m => sendEnv s m 0 { control s page 0x02 e.lseq home with arg0 := p, payload := e.payload }) s
      if held.isEmpty then s else rootCancel s r (held.any (fun x => x.2.2.2)))

/-- A member's answer to START (R395). -/
def startedBy (s : State) (page src : Nat) (e : Envelope) (why : Nat) : State :=
  sendEnv s src 0 { control s page 0x03 e.lseq e.home.toNat with arg0 := e.arg0, arg1 := BitVec.ofNat 32 why }

/-- A START whose graph has passed: the launch with its grid's ranges, and a cancel that came before it held (R396, R397). -/
def enterPod (s : State) (page src : Nat) (e : Envelope) (g : Graph) (data : List Word) : State :=
  let home := e.home.toNat
  let nt := (gridTeams data).getD 0
  let rr := gridRanges nt (g.node g.root).k
  let fill := fun (l : Launch) => { l with pseq := some e.arg0, podroot := src, nt := nt, rlen := rr.1, nr := rr.2, grid := data }
  let s := match launchBy s page e.lseq home with
    | some l => modLaunch s l.lid fill
    | none =>
      let (lid, s) := s.draw
      { s with launches := s.launches ++ [fill { Launch.blank lid page e.lseq home (lrecOf e.payload) with g := g, init := 1 }] }
  let mine := fun (x : Nat × Word × Nat × Bool) => x.1 == page && x.2.1 == e.lseq && x.2.2.1 == home
  let held := s.link.cancels.filter mine
  let s := { s with link := { s.link with cancels := s.link.cancels.filter (fun x => !mine x) } }
  let s := startedBy s page src e 0
  if held.isEmpty then s else cancelPart s page e.lseq home (held.any (fun x => x.2.2.2))

/-- START: a member checks the graph and reports; the launch then waits for its turn (R395, R396). It waits itself while the launch table is full
(R351) or a read waits (R183). -/
def execStart (src : Nat) (e : Envelope) (s : State) : Host.Outcome State Fault Refusal :=
  fromLinkWait 4 0x02 true src e s (fun page s =>
    let known := launchBy s page e.lseq e.home.toNat
    if known.isNone && 4096 ≤ liveLaunches s then (false, s)
    else match checkLaunch s page e.payload with
      | .wait s => (false, s)
      | .unusable => (true, s)
      | .ok (.inr why) s => (true, startedBy (match known with
          | some l => modLaunch s l.lid (fun l => { l with podroot := src })
          | none => s) page src e why)
      | .ok (.inl g) s => match dispRead s (s.ctx page).d (lrecOf e.payload).recs (g.size g.root) with
        | .wait s => (false, s)
        | .unusable => (true, startedBy s page src e 1)
        | .ok b s => (true, enterPod s page src e g (wordsOf b)))

/-- STARTED: a member's answer at the pod root (R395, R396). -/
def execStarted (src : Nat) (e : Envelope) (s : State) : Host.Outcome State Fault Refusal :=
  fromLink 4 0x03 true src e s (fun page s =>
    match rootOf s page e.lseq e.home.toNat with
    | none => s
    | some r =>
      if r.pseq != some e.arg0 || r.heard || r.started.any (fun x => x.1 == src) then s
      else
        let r := { r with started := r.started ++ [(src, e.arg1.toNat)] }
        let s := modRoot s r (fun _ => r)
        if r.heard then allStarted s r else s)

/-- DEAL: a range of the grid for this package (R397, R398). -/
def execDeal (src : Nat) (e : Envelope) (s : State) : Host.Outcome State Fault Refusal :=
  fromLink 4 0x04 true src e s (fun page s =>
    match launchBy s page e.lseq e.home.toNat with
    | none => s
    | some l =>
      let n := e.arg1.toNat
      if l.pseq != some e.arg0 || l.cancel == 2 || l.nr ≤ n then s
      else
        let (o, s) := s.draw
        modLaunch s l.lid (fun l => { l with grids := l.grids ++
          [{ node := l.g.root, seg := none, next := n * l.rlen, last := min l.nt ((n + 1) * l.rlen), data := l.grid, order := o,
             range := some n }] }))

/-- RDONE: a range is complete; range r + 2N is dealt in the same step (R398). -/
def execRdone (src : Nat) (e : Envelope) (s : State) : Host.Outcome State Fault Refusal :=
  fromLink 4 0x05 true src e s (fun page s =>
    match rootOf s page e.lseq e.home.toNat with
    | none => s
    | some r =>
      let n := e.arg1.toNat
      if r.pseq != some e.arg0 || r.done.contains n || !r.dealt.contains n || r.finished then s
      else
        let s := modRoot s r (fun x => { x with done := x.done ++ [n] })
        let m := n + 2 * r.members.length
        let s := if m < r.nr && r.cancel == 0 then dealRange s r m else s
        tryWave s page e.lseq e.home.toNat)

/-! ### Faults and cancels (R401, R402) -/

/-- FAULT: a Launch fault reaches the wave root, and the first one starts a hard cancel (R401). -/
def execFault (src : Nat) (e : Envelope) (s : State) : Host.Outcome State Fault Refusal :=
  fromLink 4 0x06 true src e s (fun page s =>
    let home := e.home.toNat
    let s := match rootOf s page e.lseq home, launchBy s page e.lseq home with
      | none, some l => if l.r.pod || home != s.pkg then s else { s with link := { s.link with roots := s.link.roots ++ [homeRoot s l] } }
      | _, _ => s
    match rootOf s page e.lseq home with
    | none => s
    | some r =>
      let r' := { r with faults := r.faults ++ [(src, e.arg0.setWidth 16, e.node.toNat)] }
      rootCancel (modRoot s r (fun _ => r')) r' true)

/-- CANCEL: at the pod root it goes to every member; at a member it acts on its part (R402). -/
def execCancel (src : Nat) (e : Envelope) (s : State) : Host.Outcome State Fault Refusal :=
  fromLink 4 0x07 true src e s (fun page s =>
    let home := e.home.toNat
    let hard := bit e.arg0 0
    match rootOf s page e.lseq home with
    | some r => if r.pseq.isSome then rootCancel s r hard else cancelPart s page e.lseq home hard
    | none => cancelPart s page e.lseq home hard)

/-! ### Waves and the final report (R399, R400, R403) -/

/-- WAVE: a member replies, at once when it is quiescent for the launch, or when it becomes so (R400). -/
def execWave (src : Nat) (e : Envelope) (s : State) : Host.Outcome State Fault Refusal :=
  fromLink 4 0x08 true src e s (fun page s =>
    match launchBy s page e.lseq e.home.toNat with
    | none => sendEnv s src 0 { control s page 0x09 e.lseq e.home.toNat with arg0 := e.arg0, payload := leBytes 32 0 }
    | some l =>
      if quiescent s l then sendEnv s src l.lid (replyOf s l e.arg0.toNat)
      else modLaunch s l.lid (fun l => { l with wave := some e.arg0.toNat }))

/-- A launch that several packages take part in is complete: the totals of the last wave (R400, R401, R403). -/
def finishWaves (s : State) (r : Root) : State :=
  let rs := sortBy (fun (a b : Nat × Envelope) => decide (a.1 ≤ b.1)) r.replies
  let w := fun (i : Nat) (e : Envelope) => (wordAt e.payload (4 * i)).toNat
  let sum := fun (i : Nat) => (rs.map (fun x => w i x.2)).sum
  let bad := rs.filter (fun x => x.2.arg1 != 0)
  let cancel := rootCancelOf s r
  let odd := rs.find? (fun x => w 0 x.2 / 65536 != 0 && w 0 x.2 / 65536 != 0x9051)
  let (fcode, fnode, fpkg) : Nat × Nat × Nat :=
    match bad.head? with
    | some x => (w 0 x.2 / 65536, w 0 x.2 % 65536, x.1)
    | none => if cancel = 0 then (0, 0, 0) else match odd with
      | some x => if cancel = 2 then (w 0 x.2 / 65536, 0, 0) else (0x9051, 0, 0)
      | none => (0x9051, 0, 0)
  let code := if cancel = 0 then 1 else if cancel = 1 then 2 else 3
  let spill := rs.foldl (fun m x => max m (w 4 x.2)) 0
  sendFinal s r (waveRecord s r code 0 (BitVec.ofNat 16 fcode) ((rs.map (fun x => x.2.arg1.toNat)).sum) (sum 1) (sum 2) (sum 3) spill
    fnode fpkg bad.length) (bad.map (fun x => x.1))

/-- REPLY: a member's counts; the last one decides completion or the next wave (R400). -/
def execReply (src : Nat) (e : Envelope) (s : State) : Host.Outcome State Fault Refusal :=
  fromLink 4 0x09 true src e s (fun page s =>
    match rootOf s page e.lseq e.home.toNat with
    | none => s
    | some r =>
      if r.finished || e.arg0.toNat != r.wave || r.replies.any (fun x => x.1 == src) then s
      else
        let r := { r with replies := r.replies ++ [(src, e)] }
        let s := modRoot s r (fun _ => r)
        if r.members.any (fun p => !r.replies.any (fun x => x.1 == p)) then s
        else
          let sent := (r.replies.map (fun x => (hi32 x.2.arg2).toNat)).sum
          let got := (r.replies.map (fun x => (lo32 x.2.arg2).toNat)).sum
          if r.prev == some (sent, got) && (sent == got || rootCancelOf s r != 0) then finishWaves s r
          else
            let r' := { r with prev := some (sent, got) }
            startWave (modRoot s r (fun _ => r')) r' (r.wave + 1))

/-- The home has every part: the completion record, then the status (R352, R403). -/
def closeHome (s : State) (l : Launch) : State :=
  let b := bytesOf l.totals
  let s := if l.r.cpl = 0 then s else dispWrite s (s.ctx l.page).d l.r.cpl (b.take 64)
  let w := fun (i : Nat) => (l.totals.getD i 0).toNat
  closeLaunch s l.lid (l.totals.getD 0 0) [w 0 / 65536, w 8 % 65536, w 8 / 65536, w 3, l.fpkgs.length] l.fpkgs

/-- FINAL: a part of the report reaches the home, which writes the report and then the completion record (R403), once the stash lines there have
given way (R183); at another member its part of the launch ends. -/
def execFinal (src : Nat) (e : Envelope) (s : State) : Host.Outcome State Fault Refusal :=
  fromLinkWait 4 0x0A true src e s (fun page s =>
    match launchBy s page e.lseq e.home.toNat with
    | none => (true, noteEnded s page e.lseq e.home.toNat)
    | some l =>
      let n := e.arg0.toNat
      if l.home != s.pkg then (true, closeLaunch (killTeams (dropRetained s l.lid) true (fun _ t => t.lid == l.lid)) l.lid 0 [] [])
      else if 4 < n || l.final.contains n then (true, s)
      else match cplClear s l with
        | (false, s) => (false, s)
        | (true, s) =>
          let at_ : Nat := [0, 0x40, 0xC0, 0x140, 0].getD n 0
          let b := if n = 4 then e.payload.take 64 else e.payload
          let s := if n = 0 || l.r.cpl = 0 || !l.r.pod then s else
            dispWrite s (s.ctx page).d (l.r.cpl + BitVec.ofNat 64 (64 + at_)) b
          let l' := { l with final := l.final ++ [n], totals := if n = 0 then wordsOf (e.payload.take 64) else l.totals,
                             fpkgs := if n = 3 then (List.range 1024).filter (fun i => (leVal e.payload).testBit i) else l.fpkgs }
          let s := modLaunch s l.lid (fun _ => l')
          (true, if l'.final.length = 5 then closeHome s l' else s))

/-- POD_ROOT_LEAVES: a new root is elected, every live pod-scope launch ends ABORTED with 0xA050, and the PSEQ series goes on above the
highest that any member has started (R394), of which `started` tells. -/
def execPodRootLeaves (joined : List Nat) (s : State) : Host.Outcome State Fault Refusal :=
  if s.sys.stage < 3 || !joined.contains s.pkg || (match s.link.root with
      | some p => joined.contains p
      | none => true) then event s
  else
    let s := (s.launches.filter (fun l => l.r.pod)).foldl (fun s l =>
      let s := dropRetained (killTeams (dropRecords s l.lid true) true (fun _ t => t.lid == l.lid)) l.lid
      let s := failPodbars s l.lid
      let s := modLaunch s l.lid (fun l => { l with code := 3, fcode := 0xA050 })
      if l.home == s.pkg then finishLaunch s l.lid else closeLaunch s l.lid 0 [] []) s
    event { s with link := { s.link with joined := joined, root := minBy (fun p => p) joined, pseq := nextSeq s.link.started,
                                         roots := s.link.roots.filter (fun r => r.pseq.isNone) } }

/-! ### Pod barriers (R405, R408) -/

/-- The package that holds a launch's pod barriers (R405). -/
def holderOf (s : State) (l : Launch) : Nat := waveRootOf s l

/-- A pod barrier. -/
def Launch.bar (l : Launch) (b : Nat) : PodBar := fget l.bars b { phase := 0, expect := 0, arrived := 0 }
/-- A pod barrier replaced. -/
def Launch.setBar (l : Launch) (b : Nat) (x : PodBar) : Launch := { l with bars := fset l.bars b { phase := 0, expect := 0, arrived := 0 } x }

/-- Token t is of a phase before `phase`. -/
def behind (t phase : BitVec 16) : Bool := (phase - t - 1).toNat < 2 ^ 15

/-- A wait on a token at this package (R405): its end, or none. A member that is not the holder knows that the holder's PHASE is that of the latest
PBREL or PBRES that it has, or a later one: a token behind it has passed. -/
def podEnds (s : State) (l : Launch) (b : Nat) (t : Word) : Option Bool :=
  let ph := (l.bar b).phase
  let t16 : BitVec 16 := bits t 0 16
  if bits t 16 16 != 0 || l.cancel != 0 then some false
  else if holderOf s l = s.pkg then (if ph != t16 then some true else none)
  else if behind t16 ph then some true else none

/-- A wait that begins: as `podEnds` says, but away from the holder, on a token ahead of every phase heard of, as the holder's PHASE decides, which
this package does not know then: a free value (log 130). -/
def podBegins (s : State) (l : Launch) (b : Nat) (t : Word) : Option Bool × State :=
  match podEnds s l b t with
  | some ok => (some ok, s)
  | none =>
    if holderOf s l = s.pkg || bits t 0 16 == (l.bar b).phase then (none, s)
    else (if bits (Config.freeWord s.fresh) 0 16 == bits t 0 16 then none else some true, { s with fresh := s.fresh + 1 })

/-- The waiters of a pod barrier on this package that now end. -/
def wakePodbars (s : State) (lid b : Nat) : State :=
  match launchOf s lid with
  | none => s
  | some l => wake s (fun _ _ w => match w with
    | .podbar i n t pd lanes =>
      if i == lid && n == b then (podEnds s l b t).map (fun ok => fun g => g.setP pd lanes (if ok then lanes else 0)) else none
    | _ => none)

/-- Arrive(b, e) at the holder (R405): the token, and the release of the phase's waiters everywhere. -/
def podArrive (s : State) (l : Launch) (b : Nat) (e : BitVec 24) : Word × State :=
  let x := l.bar b
  if l.cancel != 0 || (x.expect != 0 && e != x.expect) then (0x80000000, s)
  else
    let t : Word := x.phase.setWidth 32
    if x.arrived + 1 == e then
      let s := modLaunch s l.lid (fun l => l.setBar b { phase := x.phase + 1, expect := 0, arrived := 0 })
      let s := wakePodbars s l.lid b
      let s := if !byWaves l then s else
        ((s.ctx l.page).members.filter (fun p => p != s.pkg)).foldl (fun s p =>
          sendEnv s p l.lid { control s l.page 0x0D l.lseq l.home with arg0 := BitVec.ofNat 32 b, arg1 := t }) s
      (t, s)
    else (t, modLaunch s l.lid (fun l => l.setBar b { x with expect := e, arrived := x.arrived + 1 }))

/-- PBARV: an arrival at the holder, answered with its token (R405). -/
def execPbarv (src : Nat) (e : Envelope) (s : State) : Host.Outcome State Fault Refusal :=
  fromLink 4 0x0B true src e s (fun page s =>
    let (t, s) := match launchBy s page e.lseq e.home.toNat with
      | some l => podArrive s l (e.arg0.toNat % 16) (bits e.arg1 0 24)
      | none => (0x80000000, s)
    sendEnv s src 0 { control s page 0x0C e.lseq e.home.toNat with arg0 := lo32 e.arg2, arg1 := t })

/-- The barrier that an arrival of a launch with a number is on. -/
def arrivalBar (s : State) (lid : Nat) (a : Word) : Option Nat :=
  firstSome (fun (p : Nat × Group) => firstSome (fun (w : Option Wait) => match w with
    | some (.podtok n i b _ _ _) => if n == a && i == lid then some b else none
    | _ => none) [p.2.slot0.bind (fun f => f.wait), p.2.slot1.bind (fun f => f.wait), p.2.h.wait]) s.groups

/-- The holder's phase was that of a token when it gave it: a phase that this package has not heard of before is known from it (R405). -/
def Launch.hear (l : Launch) (b : Nat) (t : Word) : Launch :=
  let t16 : BitVec 16 := bits t 0 16
  let x := l.bar b
  if bits t 16 16 != 0 || t16 == x.phase || behind t16 x.phase then l else l.setBar b { x with phase := t16 }

/-- PBRES: an arrival's token comes back: written, or waited on (R408). -/
def execPbres (src : Nat) (e : Envelope) (s : State) : Host.Outcome State Fault Refusal :=
  fromLink 4 0x0C true src e s (fun page s =>
    match launchBy s page e.lseq e.home.toNat with
    | none => s
    | some l =>
      let s := match arrivalBar s l.lid e.arg0 with
        | some b => modLaunch s l.lid (fun l => l.hear b e.arg1)
        | none => s
      let s := { s with groups := s.groups.map (fun p =>
        let to_ := fun (w : Option Wait) => match w with
          | some (.podtok a i b false dst lanes) => if a == e.arg0 && i == l.lid then some (.podbar l.lid b e.arg1 dst lanes) else w
          | w => w
        let fr := fun (f : Option Frag) => f.map (fun (x : Frag) => { x with wait := to_ x.wait })
        (p.1, { p.2 with slot0 := fr p.2.slot0, slot1 := fr p.2.slot1, h := { p.2.h with wait := to_ p.2.h.wait } })) }
      let s := wake s (fun _ _ w => match w with
        | .podtok a i _ true dst _ => if a == e.arg0 && i == l.lid then some (fun g => g.setS dst e.arg1) else none
        | _ => none)
      (List.range 16).foldl (fun s b => wakePodbars s l.lid b) s)

/-- PBREL: a phase has completed at the holder, or the barrier's waiters fail (R405). -/
def execPbrel (src : Nat) (e : Envelope) (s : State) : Host.Outcome State Fault Refusal :=
  fromLink 4 0x0D true src e s (fun page s =>
    match launchBy s page e.lseq e.home.toNat with
    | none => s
    | some l =>
      if bit e.arg2 0 then failPodbars s l.lid
      else
        let b := e.arg0.toNat % 16
        let t : BitVec 16 := bits e.arg1 0 16
        let x := l.bar b
        let s := if behind t x.phase then s else modLaunch s l.lid (fun l => l.setBar b { x with phase := t + 1 })
        wakePodbars s l.lid b)

/-- The launch of the issuing team. -/
def myLaunch (s : State) (c : Iss) : Option Launch := launchOf s (s.team (s.group c.place).team).lid

/-- A fault of a pod instruction for its active lanes (R407). -/
def podTrap (s : State) (c : Iss) : Eff := .trap s [.plain (codeOf 0xA cIllegalForm) c.act]

/-- A pod barrier wait begins on a token: ended at once, or the fragment waits (R405, R408). -/
def podWait (c : Iss) (l : Launch) (b : Nat) (t : Word) (pd : Nat) (s : State) : Eff :=
  let (ends, s) := podBegins s ((launchOf s l.lid).getD l) b t
  goGroup s c (fun g =>
    let g := g.ripen c.slot (.p pd) c.act
    match ends with
    | some ok => g.setP pd c.act (if ok then c.act else 0)
    | none => g.modFrag c.slot (fun f => { f with wait := some (.podbar l.lid b t pd c.act) }))

/-- PODBAR: an arrival, a wait, or both (R408). -/
def execPodbar (h : Hd) (x : WNib) (s : State) : Host.Outcome State Fault Refusal :=
  issue (shPodbar h) 0xEC 3 h.st (fun c s =>
    match myLaunch s c with
    | none => .go s
    | some l =>
      let mode := (bits h.mod 0 2).toNat
      let v := (s.group c.place).rs c.slot h.b.toNat
      let b := x.n.toNat
      if mode = 2 then podWait c l b v h.a.toNat s
      else if v = 0 || 2 ^ 24 ≤ v.toNat then podTrap s c
      else
        let done := fun (t : Word) (s : State) =>
          if mode = 1 then goGroup s c (fun g => g.write c.slot (.s h.a.toNat) [(0, t)] 0) else podWait c l b t h.a.toNat s
        if l.cancel != 0 then done 0x80000000 s
        else if holderOf s l = s.pkg then
          let (t, s) := podArrive s l b (v.setWidth 24)
          done t s
        else
          let n := s.link.nextArr
          let s := { s with link := { s.link with nextArr := nextSeq n } }
          let s := sendEnv s (holderOf s l) l.lid { control s l.page 0x0B l.lseq l.home with arg0 := BitVec.ofNat 32 b, arg1 := v, arg2 := zx n }
          goGroup s c (fun g =>
            (g.ripen c.slot (if mode = 1 then .s h.a.toNat else .p h.a.toNat) (if mode = 1 then allLanes else c.act)).modFrag c.slot
              (fun f => { f with wait := some (.podtok n l.lid b (mode == 1) h.a.toNat c.act) }))) s

/-! ### Queries (R409, R410) -/

/-- A pod quantity at the wave root (R409): `asker` is the issuing package. -/
def podValue (s : State) (page : Nat) (root : Option Root) (sel : Nat) (operand asker : Nat) : Word :=
  let c := s.ctx page
  let mem := if c.d.podtab = 0 then [s.pkg] else c.members
  if sel = 5 then BitVec.ofNat 32 ((root.map (fun r => r.dealt.length)).getD 0)
  else if sel = 6 then BitVec.ofNat 32 ((root.map (fun r => r.done.length)).getD 0)
  else if !mem.contains operand then 0
  else if operand = asker then 3
  else if unreachable s c.d.podctx operand then 2 else 1

/-- A launch's queries replaced; a QUERY goes out when another one has become the first (R409): an ANSWER carries no number, so one query at a time
is on its way (log 146). -/
def askNext (s : State) (lid : Nat) (was now : List (Word × Word × Word)) : State :=
  match launchOf s lid with
  | none => s
  | some l =>
    let s := modLaunch s lid (fun l => { l with queries := now })
    match now.head? with
    | none => s
    | some q => if was.head? == some q then s else
      sendEnv s (waveRootOf s l) lid { control s l.page 0x0E l.lseq l.home with arg0 := q.2.1, arg1 := q.2.2 }

/-- PODQRY: what every package knows is answered at once, the rest by the wave root (R409). -/
def execPodqry (h : Hd) (x : WNib) (s : State) : Host.Outcome State Fault Refusal :=
  issue (shPodqry h x) 0xED 3 h.st (fun c s =>
    match myLaunch s c with
    | none => .go s
    | some l =>
      let sel := x.n.toNat
      let cx := s.ctx l.page
      let put := fun (v : Word) (s : State) => goGroup s c (fun g => g.write c.slot (.s h.a.toNat) [(0, v)] 0)
      let operand := if sel = 7 then ((s.group c.place).rs c.slot h.b.toNat).toNat else 0
      if sel = 0 then put (match s.link.root with
        | some p => BitVec.ofNat 32 p
        | none => 0xFFFFFFFF) s
      else if sel = 1 then put (BitVec.ofNat 32 (if cx.d.podtab = 0 then 1 else cx.members.length)) s
      else if sel = 2 then put (BitVec.ofNat 32 l.home) s
      else if sel = 3 then put (if l.r.pod then l.pseq.getD 0 else 0) s
      else if sel = 4 then put (BitVec.ofNat 32 (if l.r.pod then l.nr else 0)) s
      else if waveRootOf s l = s.pkg then put (podValue s l.page (rootOf s l.page l.lseq l.home) sel operand s.pkg) s
      else
        let n := s.link.nextArr
        let s := askNext { s with link := { s.link with nextArr := nextSeq n } } l.lid l.queries
          (l.queries ++ [(n, BitVec.ofNat 32 sel, BitVec.ofNat 32 operand)])
        goGroup s c (fun g => (g.ripen c.slot (.s h.a.toNat) allLanes).modFrag c.slot (fun f => { f with wait := some (.podqry n h.a.toNat) }))) s

/-- QUERY: the wave root answers with a pod quantity (R409). -/
def execQuery (src : Nat) (e : Envelope) (s : State) : Host.Outcome State Fault Refusal :=
  fromLink 4 0x0E true src e s (fun page s =>
    sendEnv s src 0 { control s page 0x0F e.lseq e.home.toNat with
      arg0 := podValue s page (rootOf s page e.lseq e.home.toNat) e.arg0.toNat e.arg1.toNat src })

/-- ANSWER: the query of the launch that is on its way receives the value, and the next one goes out (R409). -/
def execAnswer (src : Nat) (e : Envelope) (s : State) : Host.Outcome State Fault Refusal :=
  fromLink 4 0x0F true src e s (fun page s =>
    match launchBy s page e.lseq e.home.toNat with
    | none => s
    | some l => match l.queries with
      | [] => s
      | (n, _) :: rest => wake (askNext s l.lid l.queries rest) (fun _ _ w => match w with
        | .podqry m sd => if m == n then some (fun g => g.setS sd e.arg0) else none
        | _ => none))

/-- The fault report of a live launch as far as it is known here (R410): FCODE, FPKG, FNODE, FCOUNT, faulting packages. -/
def liveReport (s : State) (l : Launch) : List Nat × List Nat :=
  match rootOf s l.page l.lseq l.home with
  | some r =>
    let ps := dedup (r.faults.map (fun x => x.1))
    match minBy (fun p => p) ps with
    | some p => match r.faults.find? (fun x => x.1 == p) with
      | some f => ([f.2.1.toNat, p, f.2.2, r.faults.length, ps.length], ps)
      | none => ([0, 0, 0, 0, 0], [])
    | none => ([0, 0, 0, 0, 0], [])
  | none => if l.fcount = 0 then ([0, 0, 0, 0, 0], []) else ([l.fcode.toNat, l.fpkg, l.fnode, l.fcount, 1], [l.fpkg])

/-- PODFLT: one item of a launch's fault report (R410). -/
def execPodflt (h : Hd) (x : WPodflt) (s : State) : Host.Outcome State Fault Refusal :=
  issue (shPodflt h x) 0xEE 3 h.st (fun c s =>
    match myLaunch s c with
    | none => .go s
    | some own =>
      let v := (s.group c.place).rs c.slot h.b.toNat
      let sel := x.sel.toNat
      let live := if v = 0 then some own else launchBy s own.page v s.pkg
      let pick := fun (r : List Nat × List Nat) =>
        if sel = 6 then BitVec.ofNat 32 (((leVal (bitmap r.2)) / 2 ^ (32 * x.word.toNat)) % 2 ^ 32)
        else BitVec.ofNat 32 (r.1.getD (sel - 1) 0)
      let out : Word := match live with
        | some l => if sel = 0 then 0 else pick (liveReport s l)
        | none => match (s.ctx own.page).closed.find? (fun k => k.1 == v) with
          | some (_, st, rep, map) => if sel = 0 then st else pick (rep, map)
          | none => if sel = 0 then 0xF else 0
      goGroup s c (fun g => g.write c.slot (.s h.a.toNat) [(0, out)] 0)) s

end Sys2Proof.Machine
end

