-- ==== Sys2Proof/Machine/Context.lean ====
section
/-! DEFINITION. A context's life on its page (R414 to R416): LOAD and its checks (R34, R113, R207, R250, R381, R382), UNLOAD, TERM, pre-emption and
restore (R31 to R33), the host launch queue (R415). -/
namespace Sys2Proof.Machine

/-! ### The descriptor (R34, R113, R207, R250, R381) -/

/-- The context descriptor's fields. -/
def descOf (b : List Byte) : Desc :=
  let w := wordAt b
  let q := dwordAt b
  { savebase := q 0x00, savesize := w 0x08, hndbase := q 0x40, csbase := q 0x48, csentries := (bits (w 0x50) 0 16).toNat,
    stallchk := bit (w 0x54) 0, hnden := bits (w 0x58) 0 16, hsavebase := q 0x60, hsavestride := w 0x68, ptroot := q 0x80,
    ctxid := bits (w 0x88) 16 16, asid := bits (w 0x88) 0 12, frqbase := q 0x90, frqsize := (w 0x98).toNat,
    poolsize := (w 0x9C).toNat, poolhdr := q 0xA0, hoten := bit (w 0xA8) 31, hotthresh := (bits (w 0xA8) 0 16).toNat,
    wdcycles := (w 0xC0).toNat, wddiag := q 0xC8, podtab := q 0xD0, podctx := bits (w 0xD8) 16 16, rto := (w 0xDC).toNat,
    nretry := (bits (w 0xE0) 0 8).toNat }

/-- A power of two from lo to hi. -/
def pow2In (lo hi v : Nat) : Bool := decide (lo ≤ v) && decide (v ≤ hi) && (v == 2 ^ Nat.log2 v)

/-- SAVEREQ of the BT440 (R34, R413). -/
def saveReq : Nat := 0x4800

/-- The reserved fields of the descriptor: the lowest byte of each, and whether it is not zero. -/
def descReserved (b : List Byte) : List (Nat × Bool) :=
  let w := wordAt b
  ([(0x10, 0x40), (0x5C, 0x60), (0x6C, 0x80), (0x8C, 0x90), (0xAC, 0xC0), (0xC4, 0xC8), (0xE4, 0x100)].map
    (fun (r : Nat × Nat) => (r.1, (b.drop r.1).take (r.2 - r.1) |>.any (fun y => y != 0)))) ++
  [(0x0E, bits (w 0x0C) 16 16 != 0), (0x52, bits (w 0x50) 16 16 != 0), (0x54, bits (w 0x54) 1 31 != 0), (0x5A, bits (w 0x58) 16 16 != 0),
   (0x58, bit (w 0x58) 0), (0x89, bits (w 0x88) 12 4 != 0), (0xAA, bits (w 0xA8) 16 15 != 0), (0xD8, bits (w 0xD8) 0 16 != 0),
   (0xE1, bits (w 0xE0) 8 24 != 0)]

/-- A context other than this page's is loaded: running, halting or halted, or terminated and not yet unloaded. -/
def otherLoaded (s : State) (page : Nat) (f : Desc → Bool) : Bool :=
  s.ctxs.any (fun c => c.1 != page && (decide (2 ≤ c.2.state) && decide (c.2.state ≤ 4) || c.2.state == 6) && f c.2.d)

/-- MEMBERS of the pod table (R382). -/
def podMembers (s : State) (d : Desc) : List Nat :=
  let b := viewBytes s d.podtab.toNat 128
  (List.range 1024).filter (fun p => bit (b.getD (p / 8) 0) (p % 8))

/-- The directory entries in use (R382). -/
def podDir (s : State) (d : Desc) : List (Nat × DWord) :=
  ((List.range 48).map (fun g => (g, s.sysDword (d.podtab.toNat + 0x100 + 16 * g)))).filter (fun x => x.2 != 0)

/-- The pod table refuses the context: a reserved byte, or the package's own bit (R381, R382). -/
def podBad (s : State) (d : Desc) : Bool :=
  d.podtab != 0 && (!(podMembers s d).contains s.pkg || (viewBytes s (d.podtab.toNat + 0x80) 128).any (fun x => x != 0) ||
    (List.range 48).any (fun g => s.sysDword (d.podtab.toNat + 0x108 + 16 * g) != 0))

/-- Every failing field of a descriptor for a page, by REASON (R414). Before stage 3 the package has no number and there is no pod (R412): a pod
table cannot hold the package's own bit (DEDUCED, log 103). -/
def descFails (s : State) (page : Nat) (b : List Byte) : List Nat :=
  let d := descOf b
  let pod := d.podtab != 0
  let out := fun (v hi : Nat) => if pod then decide (v = 0) || decide (hi < v) else v != 0
  ((descReserved b ++
    ([(0x00, bits d.savebase 0 16 != 0), (0x08, decide (d.savesize.toNat < saveReq)), (0x0C, bits (wordAt b 0x0C) 0 16 != 1),
     (0x40, bits d.hndbase 0 2 != 0), (0x48, bits d.csbase 0 5 != 0), (0x60, bits d.hsavebase 0 8 != 0),
     (0x68, bits d.hsavestride 0 8 != 0), (0x80, bits d.ptroot 0 12 != 0), (0x88, otherLoaded s page (fun e => e.asid == d.asid)),
     (0x90, bits d.frqbase 0 6 != 0), (0x98, !pow2In 16 65536 d.frqsize), (0x9C, d.poolsize != 0 && !pow2In 1 (2 ^ 31) d.poolsize),
     (0xA0, d.poolsize != 0 && bits d.poolhdr 0 6 != 0), (0xA8, d.hoten && d.hotthresh == 0), (0xC8, bits d.wddiag 0 6 != 0),
     (0xD0, bits d.podtab 0 12 != 0 || podBad s d || (pod && s.sys.stage != 3)), (0xDA, otherLoaded s page (fun e => e.podctx == d.podctx)),
     (0xDC, out d.rto 65535), (0xE0, out d.nretry 255)] : List (Nat × Bool))).filter (fun x => x.2)).map (fun x => x.1)

/-- A page refused. -/
def refuse (s : State) (page : Nat) (reason : Nat) : State :=
  s.setCtx page { s.ctx page with state := 5, reason := BitVec.ofNat 16 reason }

/-- The page with a descriptor's context running: the queue's WR and the pod table as memory holds them, SEQ and LSEQ from 1 (R216, R217, R351,
R382). QERR, which only a written 1 clears, and REASON stay (R2, R414). -/
def loadDesc (s : State) (page : Nat) (d : Desc) : State :=
  let c := s.ctx page
  let dir := if d.podtab = 0 then [] else podDir s d
  s.setCtx page { Ctx.reset with
    descAddr := c.descAddr, reason := c.reason, qerr := c.qerr, qbase := c.qbase, qsize := c.qsize, qhead := c.qhead, qtail := c.qtail, state := 2, d := d,
    wr := BitVec.ofNat 32 (s.sysVal d.frqbase.toNat 4), members := if d.podtab = 0 then [] else podMembers s d, dir := dir,
    place := if d.podtab = 0 then [] else readPlaces s d dir }

/-- What LOAD and RESUME read of a context has been read: its descriptor, and with it the queue's header and the pod table (R179). -/
def loadReads (s : State) (page : Nat) (d : Desc) : State :=
  let s := (s.sysShare (s.ctx page).descAddr.toNat 256).sysShare d.frqbase.toNat 8
  if d.podtab = 0 then s else s.sysShare d.podtab.toNat (0x400 + 8192 * 48)

/-- LOAD (R414): honoured from stage 1, in STATE 0 or 5. -/
def doLoad (s : State) (page : Nat) : State :=
  let c := s.ctx page
  if 4096 ≤ page || s.sys.stage = 0 || !(c.state == 0 || c.state == 5) then s
  else
    let s := wakeUp s
    if bits c.descAddr 0 8 != 0 then refuse s page 0x100
    else if s.gone c.descAddr.toNat then { s with absent := true }
    else
      let b := viewBytes s c.descAddr.toNat 256
      match minBy id (descFails s page b) with
      | some r => refuse (loadReads s page (descOf b)) page r
      | none => if s.gone (descOf b).frqbase.toNat then { s with absent := true } else loadDesc (loadReads s page (descOf b)) page (descOf b)

/-- LOAD. -/
def execLoad (page : Nat) (s : State) : Host.Outcome State Fault Refusal := event (doLoad s page)

/-! ### The end (R29, R416) -/

/-- The terminal record of TERM and of UNLOAD (R427). -/
def termRec : FRec := { FRec.blank with code := codeOf 9 cCancelled, flags := flTerminal ||| flLast }

/-- TERM ends a loaded context; on a page without one it does nothing (R414, R416). -/
def doTerm (s : State) (page : Nat) : State :=
  if 2 ≤ (s.ctx page).state && (s.ctx page).state ≤ 4 then settleDoom (doom s page termRec) else s

/-- TERM. -/
def execTerm (page : Nat) (s : State) : Host.Outcome State Fault Refusal := event (doTerm s page)

/-- What a context no longer holds when its page goes back to STATE 0 (R416). Ranges of local memory it used last stay marked as those of
another context. -/
def freePage (s : State) (page : Nat) : State :=
  let d := (s.ctx page).d
  let s := { s with teams := s.teams.filter (fun t => t.2.page != page),
                    launches := s.launches.filter (fun l => l.page != page),
                    moves := s.moves.filter (fun m => m.asid != d.asid),
                    claims := s.claims.filter (fun c => c.host || c.asid != d.asid),
                    hot := s.hot.filter (fun x => x.1 / 2 ^ 41 != d.asid.toNat),
                    locUse := s.locUse.map (fun (u : Nat × Nat × Nat) => if u.2.2 == page then (u.1, u.2.1, 4096) else u) }
  let mine := fun (q : BitVec 16) => d.podtab != 0 && q == d.podctx
  let s := { s with link := { s.link with
    roots := s.link.roots.filter (fun r => r.page != page), cancels := s.link.cancels.filter (fun x => x.1 != page),
    ended := s.link.ended.filter (fun x => x.1 != page),
    late := s.link.late.filter (fun x => !mine x.2.podctx), tx := s.link.tx.filter (fun t => !mine t.podctx), rx := s.link.rx.filter (fun r => !mine r.podctx) } }
  (s.dropTlb d.asid none).setCtx page Ctx.reset

/-- UNLOAD (R414, R416): of a halted context, which ends first; of a terminated or a refused one. What a halted context's end has the package do
for itself, as the pod root, comes before its page is freed. -/
def doUnload (s : State) (page : Nat) : State :=
  let st := (s.ctx page).state
  if st = 4 then
    let s := endContext s page termRec
    if s.owed.isEmpty then freePage s page else { s with owed := s.owed ++ [.unload page] }
  else if st = 6 then freePage s page
  else if st = 5 then s.setCtx page Ctx.reset
  else s

/-- UNLOAD. -/
def execUnload (page : Nat) (s : State) : Host.Outcome State Fault Refusal := event (doUnload s page)

/-! ### Pre-emption (R31 to R33, R112, R133, R206, R230, R273) -/

/-- HALT: pre-emption is requested (R31, R414). -/
def doHalt (s : State) (page : Nat) : State :=
  let c := s.ctx page
  if c.state = 2 then s.setCtx page { c with state := 3 } else s

/-- HALT. -/
def execHalt (page : Nat) (s : State) : Host.Outcome State Fault Refusal := event (doHalt s page)

/-- Every chunk that a copy or Skesunal has read is written and arrives (R273). One whose write meets a fault stops its copy before it (R266): it
stays read behind that fault, or behind the record that is posted for it. -/
def finishChunks (s : State) (page : Nat) : State :=
  s.ops.foldl (fun s o => match o.kind with
    | .copy c => if o.page != page then s else c.held.foldl (fun s h => match copyOf s o.id with
      | some (o, c) => match moveChunk s o c h.1 c.rem.isSome with
        | .done s => s
        | .fault f =>
          if causeOf f.code == cEngine then doomOp s o f
          else if o.stop.isSome || (c.rem.map (fun r => r.2)) == some false then s
          else if f.first && !opOrphan s o && c.rem.isNone then stopOp s o.id [f]
          else handOff s o f
      | none => s) s
    | _ => s) s

/-- A context has a chunk that has been read and whose write waits (R273): the save waits for it. -/
def chunksOpen (s : State) (page : Nat) : Bool :=
  s.ops.any (fun o => o.page == page && match o.kind with
    | .copy c => c.held.any (fun h => match moveChunk s o c h.1 false with
        | .done _ => true
        | .fault _ => false)
    | _ => false)

/-- A fault of an accepted operation, or of a stream whose APPOP waits, waits at a boundary of one of a context's groups: it is delivered before
the save (R33). -/
def faultsDue (s : State) (page : Nat) : Bool :=
  s.ops.any (fun o => o.page == page && match o.stop with
    | some st => (deliverTo s o st).isSome
    | none => false) ||
  s.groups.any (fun g => g.2.page == page && (heldPop s g.2).isSome)

/-- A group's on-chip control-stack entries written to their places in memory, lowest first, while that can be done (R112). -/
def spillChip (place : Nat) : Nat → State → State
  | 0, s => s
  | n + 1, s =>
    let g := s.group place
    match g.chip with
    | [] => s
    | e :: l => match csWrite s place g.chipBase e 0 with
      | .ok s => spillChip place n (s.modGroup place (fun g => { g with chip := l }))
      | .error _ => s

/-- A group halted: its pending writes done, its operand buffers empty, its control stack written (R51, R55, R133). -/
def saveGroup (s : State) (place : Nat) : State :=
  spillChip place 6 (s.modGroup place Group.drainPoint)

/-- The places of a context's groups. -/
def placesOf (s : State) (page : Nat) : List Nat := (s.groups.filter (fun g => g.2.page == page && !g.2.ended)).map (fun g => g.1)

/-- A direct operation of a context as it is saved: what its lanes have met and no group has been told is forgotten, and every unfinished lane is tried
again after the restore (R293). -/
def Op.saved (page : Nat) (o : Op) : Op :=
  match o.kind, o.stop.all (fun st => !st.sent) with
  | .direct d, true => if o.page == page then { o with stop := none, kind := .direct { d with faulted := [] } } else o
  | _, _ => o

/-- The save (R32): operations at their restart points, groups at boundaries, Owned lines written back and every line Invalid,
translations and prefetches gone, the save area written in a layout of its own. False while a fault is to be delivered first (R33), while
a chunk, an invalidation or a write-back has to wait (R230, R252, R273). SAVEBASE is a key as it stands, its bits above 51 too (DESIGN CHOICE,
log 140). -/
def saveContext (s : State) (page : Nat) : Bool × State :=
  let d := (s.ctx page).d
  let s := finishChunks s page
  if faultsDue s page || chunksOpen s page || invWaits s page then (false, s)
  else
  let s := (placesOf s page).foldl saveGroup s
  let s := { s with pfx := s.pfx.filter (fun p => p.page != page), ops := s.ops.map (Op.saved page) }
  let (ok, s) := invalidate s page none
  if !ok then (false, s)
  else
    let s := s.undefRange d.savebase.toNat (d.savebase.toNat + 65536 * d.savesize.toNat)
    (true, s.setCtx page { s.ctx page with state := 4 })

/-- PREEMPTION_SAVE: a halting context is saved and halted. -/
def execPreemptionSave (page : Nat) (s : State) : Host.Outcome State Fault Refusal :=
  if (s.ctx page).state = 3 then event (saveContext s page).2 else event s

/-- The six top control-stack entries read back (R133); what cannot be read now is filled when it is needed. -/
def refillChip (s : State) (place : Nat) : State :=
  match csRefill place 0 6 s with
  | .ok s => s
  | .error _ => s

/-- The reservations of a context that waited for credits take those that came while it did not run (R377, R390). -/
def serveResumed (s : State) (page : Nat) : State :=
  settleLinks ((s.launches.filter (fun l => l.page == page)).foldl (fun s l =>
    (dedup (l.rq.map (fun r => (r.pkg, r.node)))).foldl (fun s x => serveCredits (l.rq.length + 1) l.lid x.1 x.2 s) s) s)

/-- RESUME: a halted context goes on at its saved PCs, under its descriptor as it now stands; its accesses translate afresh (R31, R34, R230,
R414). -/
def doResume (s : State) (page : Nat) : State :=
  let c := s.ctx page
  if c.state != 4 then s
  else
    let b := viewBytes s c.descAddr.toNat 256
    let d := descOf b
    let c := if bits c.descAddr 0 8 != 0 || !(descFails s page b).isEmpty then c
      else { c with d := d, wr := if d.frqbase = c.d.frqbase then c.wr else BitVec.ofNat 32 (s.sysVal d.frqbase.toNat 4) }
    let s := ((loadReads s page d).dropTlb c.d.asid none).setCtx page { c with state := 2 }
    serveResumed (wakeConds ((placesOf s page).foldl refillChip s)) page

/-- RESUME. -/
def execResume (page : Nat) (s : State) : Host.Outcome State Fault Refusal := event (doResume s page)

/-! ### The host launch queue (R415) -/

/-- QTAIL written: the doorbell (R415). -/
def doQtail (s : State) (page : Nat) (v : Word) : State :=
  let c := s.ctx page
  if 4096 ≤ page then s
  else if c.qsize.toNat < (v - c.qhead).toNat then s.setCtx page { c with qerr := true }
  else wakeUp (s.setCtx page { c with qtail := v })

/-- The host's registers answer: the link is up, and the firmware was verified (R423). -/
def hostUp (s : State) : Bool := s.sys.going != 0 && s.sys.err != 1

/-- QTAIL_WRITE. -/
def execQtailWrite (page : Nat) (v : Word) (s : State) : Host.Outcome State Fault Refusal := event (if hostUp s then doQtail s page v else s)

/-- A page may consume a record: fewer than 4,096 launches live, and every lower page that waited when there were 4,096 has resumed (R415). -/
def mayConsume (s : State) (page : Nat) : Bool :=
  ringWaits (s.ctx page) && decide (s.sys.pstate < 3) && decide (liveLaunches s < 4096) &&
    s.sys.stalled.all (fun p => decide (page ≤ p) || !ringWaits (s.ctx p))

/-- A ring's next record consumed (R415): QHEAD advances, and the page has resumed. -/
def ringTaken (s : State) (page : Nat) : State :=
  let c := s.ctx page
  { s.setCtx page { c with qhead := c.qhead + 1 } with sys := { s.sys with stalled := s.sys.stalled.filter (fun p => p != page) } }

/-- HOST_QUEUE_RECORD_CONSUME: the next record of a ring is read and QHEAD advances (R415, R426); nothing is consumed while a read waits for a
stash line (R183). -/
def execHostQueueRecordConsume (page : Nat) (s : State) : Host.Outcome State Fault Refusal :=
  if !mayConsume s page then event s
  else
    let c := s.ctx page
    match dispRead s c.d (c.qbase + BitVec.ofNat 64 (64 * (c.qhead.toNat % max c.qsize.toNat 1))) 64 with
    | .wait s => event s
    | .unusable => event (acceptLaunch (ringTaken s page) page none none).2
    | .ok b s => match acceptLaunch s page (some b) none with
      | (none, s) => event s
      | (some _, s) => event (ringTaken s page)

end Sys2Proof.Machine
end

