-- ==== Sys2Proof/Machine/Convert.lean ====
section
/-! DEFINITION. The conversion instructions (R158 to R162) and PAIR (R56 to R58). -/
namespace Sys2Proof.Machine

/-- One element converted under FMT (R84, R158): SATN is bit 0, ESCZ bit 1. `q` is the lane's SEED state, `j` the element. -/
def cvtElem (x : WCvt) (fmt : BitVec 2) (q : Word) (j : Nat) (a : DWord) : DWord × Flags :=
  convert x.ty x.sty (modeOf x.rnd (seedRnd q j)) x.sat (bit fmt 0) (bit fmt 1) a

/-- A conversion: `f` maps FMT, the lane's SEED state and the operands. -/
def cvtIssue (sh : Shape) (op : Nat) (h : Hd) (x : WCvt) (args : List (Src × Nat)) (f : BitVec 2 → LaneFn) (s : State) :
    Host.Outcome State Fault Refusal :=
  issue sh op 3 h.st (fun c s => goGroup s c (vecGroup sh.dst args (isSr x.rnd) (f c.fmt) c.slot c.act)) s

/-- CVT: one value converted (R158). -/
def execCvt (h : Hd) (x : WCvt) (s : State) : Host.Outcome State Fault Refusal :=
  cvtIssue (shCvt h x) 0x64 h x [(.v h.b.toNat, tyRegs x.sty)] (fun fmt q l => cvtElem x fmt q 0 (l.getD 0 0)) s

/-- CVTN: two values into one register (R159). -/
def execCvtn (h : Hd) (x : WCvt) (s : State) : Host.Outcome State Fault Refusal :=
  cvtIssue (shCvtn h x) 0x65 h x [(.v h.b.toNat, 1), (.v h.c.toNat, 1)]
    (fun fmt q l => packed (fun j => cvtElem x fmt q j (l.getD j 0))) s

/-- The place of element j in a packed register (R160): its lowest bit and its width. -/
def packPlace (t : Ty) (hi : Bool) (j : Nat) : Nat × Nat := if t = .e2m1 then (4 * j + (if hi then 16 else 0), 4) else (8 * j, 8)

/-- Four converted elements packed; with .hi the low half keeps the old value (R160). -/
def pack4Val (x : WCvt) (hi : Bool) (fmt : BitVec 2) (q : Word) (a b old : DWord) : DWord × Flags :=
  let e := fun j => cvtElem x fmt q j (zx (if j < 2 then bits a (32 * j) 32 else bits b (32 * (j - 2)) 32))
  let put := fun (acc : Nat) j => acc + (e j).1.toNat % 2 ^ (packPlace x.ty hi j).2 * 2 ^ (packPlace x.ty hi j).1
  (BitVec.ofNat 64 ((List.range 4).foldl put (if hi then old.toNat % 65536 else 0)), orFlags ((List.range 4).map (fun j => (e j).2)))

/-- PACK4: four values into one register (R160). -/
def execPack4 (h : Hd) (x : WCvt) (s : State) : Host.Outcome State Fault Refusal :=
  cvtIssue (shPack4 h x) 0x66 h x [(.v h.b.toNat, 2), (.v h.c.toNat, 2), (.v h.a.toNat, 1)]
    (fun fmt q l => pack4Val x (bit h.mod 0) fmt q (l.getD 0 0) (l.getD 1 0) (l.getD 2 0)) s

/-- UNPK4: four narrow elements into four registers (R161). -/
def execUnpk4 (h : Hd) (x : WCvt) (s : State) : Host.Outcome State Fault Refusal :=
  issue (shUnpk4 h x) 0x67 3 h.st (fun c s => goGroup s c (fun g =>
    ((List.range 4).zip (shUnpk4 h x).dst).foldl (fun g' p =>
      let rs := (lanes c.act).map (fun l =>
        let pl := packPlace x.sty (bit h.mod 0) p.1
        (l, cvtElem x c.fmt 0 p.1 (BitVec.ofNat 64 ((g.rv c.slot h.b.toNat l).toNat / 2 ^ pl.1 % 2 ^ pl.2))))
      (g'.put c.slot [p.2] (rs.map (fun r => (r.1, r.2.1)))).flags c.slot p.2.2 (orFlags (rs.map (fun r => r.2.2)))) g)) s

/-! ### PAIR -/

/-- The result of a half in a lane, from its operands and its destination's value (R57). `p` is the value of the predicate a sel half
names. -/
def halfVal (f : Half) (p : Bool) (a b d : DWord) : DWord × Flags :=
  match f.op with
  | 0x01 => intOp .add .i32 false a b
  | 0x02 => intOp .sub .i32 false a b
  | 0x03 => intOp .mul .i32 false a b
  | 0x04 => intMad .i32 false a b d
  | 0x05 => intOp .min .i32 false a b
  | 0x06 => intOp .max .i32 false a b
  | 0x07 => intOp .min .n32 false a b
  | 0x08 => intOp .max .n32 false a b
  | 0x09 => intOp .and .i32 false a b
  | 0x0A => intOp .or .i32 false a b
  | 0x0B => intOp .xor .i32 false a b
  | 0x0C => intOp .shl .i32 false a b
  | 0x0D => intOp .shr .i32 false a b
  | 0x0E => intOp .sra .i32 false a b
  | 0x0F => (a, 0)
  | 0x11 => fltOp .add .f32 0 0 false a b
  | 0x12 => fltOp .sub .f32 0 0 false a b
  | 0x13 => fltOp .mul .f32 0 0 false a b
  | 0x14 => fltFma .f32 0 0 false a b d
  | 0x15 => fltMinMax false .f32 a b
  | 0x16 => fltMinMax true .f32 a b
  | n => (if p != decide (0x28 ≤ n) then a else b, 0)

/-- A half's results in the active lanes. -/
def halfRun (g : Group) (slot : Nat) (act : Mask) (f : Half) : List (Nat × DWord × Flags) :=
  (lanes act).map (fun l =>
    let r := fun n => zx (g.rv slot n l)
    (l, halfVal f (g.rp slot (f.op % 8) l) (r f.a) (r f.b) (r f.d)))

/-- PAIR: two halves under one guard, both reading before either writes (R56 to R58). -/
def execPair (h : Hd) (x : WPair) (s : State) : Host.Outcome State Fault Refusal :=
  issue (shPair h x) 0xFF 3 h.st (fun c s => goGroup s c (fun g =>
    let fs := halves h x
    let a := halfRun g c.slot c.act fs.1
    let b := halfRun g c.slot c.act fs.2
    let put := fun (g : Group) (f : Half) (rs : List (Nat × DWord × Flags)) =>
      (g.put c.slot [(.v f.d, halfLat f)] (rs.map (fun r => (r.1, r.2.1)))).flags c.slot (halfLat f) (orFlags (rs.map (fun r => r.2.2)))
    put (put g fs.1 a) fs.2 b)) s

end Sys2Proof.Machine
end

