-- ==== Sys2Proof/Machine/Cross.lean ====
section
/-! DEFINITION. The cross-lane instructions (R163 to R169) with the reduction tree of R101 and R102. -/
namespace Sys2Proof.Machine

/-! ### SHFL, BALLOT, VOTE, MATCH -/

/-- SHFL: a register of another lane (R164). -/
def execShfl (h : Hd) (x : WShfl) (s : State) : Host.Outcome State Fault Refusal :=
  let sh := shShfl h x
  issue sh 0x68 3 h.st (fun c s => goGroup s c (fun g =>
    let rs := (lanes c.act).map (fun l =>
      let k := if x.imm then lo32 (sx x.imm20) else g.rv c.slot h.c.toNat l
      let src := shflSrc x.mode.toNat l k.toNat
      (l, src.isNone, srcLane g c.slot (src.getD l) (tyRegs x.ty) (.v h.b.toNat)))
    (g.put c.slot sh.vdst (rs.map (fun r => (r.1, r.2.2)))).put c.slot sh.pdst (rs.map (fun r => (r.1, truth r.2.1))))) s

/-- A predicate, negated by MOD bit 26, as a lane mask. -/
def predMask (g : Group) (slot : Nat) (h : Hd) : Mask := if bit h.mod 0 then ~~~ g.rpm slot h.b.toNat else g.rpm slot h.b.toNat

/-- BALLOT: the active lanes whose predicate is true (R165). -/
def execBallot (h : Hd) (s : State) : Host.Outcome State Fault Refusal :=
  issueAlways (shBallot h) 0x69 3 h.st (fun c s => goGroup s c (fun g =>
    g.put c.slot (shBallot h).dst [(0, zx (c.act &&& predMask g c.slot h))])) s

/-- The value of a VOTE over n lanes of which t are true (R166). -/
def voteVal (mode n t : Nat) : Bool :=
  match mode with
  | 0 => t == n
  | 1 => decide (1 ≤ t)
  | 2 => t == 0 || t == n
  | _ => decide (n < 2 * t)

/-- VOTE: one value into every active lane (R166). -/
def execVote (h : Hd) (x : WVote) (s : State) : Host.Outcome State Fault Refusal :=
  issue (shVote h x) 0x6A 3 h.st (fun c s => goGroup s c (fun g =>
    let v := voteVal x.mode.toNat (popc c.act) (popc (c.act &&& predMask g c.slot h))
    g.put c.slot (shVote h x).dst ((lanes c.act).map (fun l => (l, truth v))))) s

/-- MATCH: classes of equal value among the active lanes (R169). -/
def execMatchV (h : Hd) (x : WTy) (s : State) : Host.Outcome State Fault Refusal :=
  let sh := shMatchV h x
  issue sh 0x6D 3 h.st (fun c s => goGroup s c (fun g =>
    let a := fun l => srcLane g c.slot l (tyRegs x.ty) (.v h.b.toNat)
    let rs := (lanes c.act).map (fun l => (l, maskOfList ((lanes c.act).filter (fun k => a k == a l))))
    let val := fun (eq : Mask) => if bit h.mod 0 then zx eq else BitVec.ofNat 64 (lowLane eq)
    (g.put c.slot sh.vdst (rs.map (fun r => (r.1, val r.2)))).put c.slot sh.pdst (rs.map (fun r => (r.1, truth (r.2 == c.act)))))) s

/-! ### Reductions -/

/-- The operations of REDUX (R168); PSUM uses the first. -/
inductive RedOp where
  | add | min | max | and | or | xor
  deriving DecidableEq, Repr

/-- The operation of a code. -/
def redOpOf (n : Nat) : RedOp :=
  match n with
  | 0 => .add
  | 1 => .min
  | 2 => .max
  | 3 => .and
  | 4 => .or
  | _ => .xor

/-- The identity of a reduction (R102, R168). -/
def redId (o : RedOp) (t : Ty) : DWord :=
  match o with
  | .add => if t = .f32 then 0x80000000 else 0
  | .min => if t = .f32 then 0x7F800000 else intWrap t (intRange t).2
  | .max => if t = .f32 then 0xFF800000 else intWrap t (intRange t).1
  | .and => intWrap t (-1)
  | .or => 0
  | .xor => 0

/-- One step of a reduction; a floating addition of the identity returns the other operand unchanged (R102). -/
def redStep (o : RedOp) (t : Ty) (rnd : BitVec 3) (a b : DWord) : DWord × Flags :=
  match o with
  | .add =>
    if t = .f32 then
      if a = redId o t then (b, 0) else if b = redId o t then (a, 0) else fltOp .add t rnd 0 false a b
    else intOp .add t false a b
  | .min => if t = .f32 then fltMinMax false t a b else intOp .min t false a b
  | .max => if t = .f32 then fltMinMax true t a b else intOp .max t false a b
  | .and => intOp .and t false a b
  | .or => intOp .or t false a b
  | .xor => intOp .xor t false a b

/-- The 32-term tree of R101 over the lanes of a mask, the others supplying the identity. -/
def redTree (o : RedOp) (t : Ty) (rnd : BitVec 3) (m : Mask) (a : Nat → DWord) : DWord × Flags :=
  (treeFold (fun x y => let r := redStep o t rnd x.1 y.1; (r.1, x.2 ||| y.2 ||| r.2)) 5
    ((List.range 32).map (fun l => (if bit m l then a l else redId o t, (0 : Flags))))).getD (redId o t, 0)

/-- PSUM: prefix sums over the active lanes (R102, R167). -/
def execPsum (h : Hd) (x : WAlu) (s : State) : Host.Outcome State Fault Refusal :=
  issue (shPsum h x) 0x6B 3 h.st (fun c s => goGroup s c (fun g =>
    let excl := bit h.mod 0
    let a := fun l => srcLane g c.slot l (tyRegs x.ty) (.v h.b.toNat)
    let rs := (lanes c.act).map (fun l =>
      (l, redTree .add x.ty x.rnd (c.act &&& maskOf (fun k => decide (k < l) || (k == l && !excl))) a))
    (g.put c.slot (shPsum h x).dst (rs.map (fun r => (r.1, r.2.1)))).flags c.slot (latOf (shPsum h x).dst) (orFlags (rs.map (fun r => r.2.2))))) s

/-- The segments of REDUX that have an active lane, with their active lanes. -/
def segments (w : Nat) (act : Mask) : List Mask :=
  ((List.range (32 / w)).map (fun i => act &&& maskOf (fun l => l / w == i))).filter (fun m => m != 0)

/-- REDUX: each segment's reduction (R168). -/
def execRedux (h : Hd) (x : WRedux) (s : State) : Host.Outcome State Fault Refusal :=
  issue (shRedux h x) 0x6C 3 h.st (fun c s => goGroup s c (fun g =>
    let a := fun l => srcLane g c.slot l (tyRegs x.ty) (.v h.b.toNat)
    let rs := (segments (2 ^ x.width.toNat) c.act).map (fun m => (m, redTree (redOpOf (bits h.mod 0 3).toNat) x.ty x.rnd m a))
    let vals := rs.flatMap (fun r => (if x.lead then [lowLane r.1] else lanes r.1).map (fun l => (l, r.2.1)))
    (g.put c.slot (shRedux h x).dst (sortBy (fun p q => decide (p.1 ≤ q.1)) vals)).flags c.slot (latOf (shRedux h x).dst) (orFlags (rs.map (fun r => r.2.2))))) s

end Sys2Proof.Machine
end

