-- ==== Sys2Proof/Machine/Float.lean ====
section
/-! DEFINITION. The vector floating-point, special-function and packed-half instructions (R149 to R157, R162). -/
namespace Sys2Proof.Machine

/-- FADD: rounded once (R149). -/
def execFadd (h : Hd) (x : WAlu) (s : State) : Host.Outcome State Fault Refusal :=
  vec (shFadd h x) 0x48 3 h.st (vArgs (aluF x 2 true rndAny) h x none) (isSr x.rnd) (fun q l => fltOp .add x.ty x.rnd (seedRnd q 0) x.sat (l.getD 0 0) (l.getD 1 0)) s

/-- FADD_5W: rounded once, literal (R149). -/
def execFadd5w (h : Hd) (x : WAlu) (l : BitVec 60) (s : State) : Host.Outcome State Fault Refusal :=
  vec (shFadd5w h x l) 0x48 5 h.st (vArgs (aluF x 2 true rndAny) h x (some l)) (isSr x.rnd) (fun q l => fltOp .add x.ty x.rnd (seedRnd q 0) x.sat (l.getD 0 0) (l.getD 1 0)) s

/-- FSUB: rounded once (R149). -/
def execFsub (h : Hd) (x : WAlu) (s : State) : Host.Outcome State Fault Refusal :=
  vec (shFsub h x) 0x49 3 h.st (vArgs (aluF x 2 true rndAny) h x none) (isSr x.rnd) (fun q l => fltOp .sub x.ty x.rnd (seedRnd q 0) x.sat (l.getD 0 0) (l.getD 1 0)) s

/-- FSUB_5W: rounded once, literal (R149). -/
def execFsub5w (h : Hd) (x : WAlu) (l : BitVec 60) (s : State) : Host.Outcome State Fault Refusal :=
  vec (shFsub5w h x l) 0x49 5 h.st (vArgs (aluF x 2 true rndAny) h x (some l)) (isSr x.rnd) (fun q l => fltOp .sub x.ty x.rnd (seedRnd q 0) x.sat (l.getD 0 0) (l.getD 1 0)) s

/-- FMUL: rounded once (R149). -/
def execFmul (h : Hd) (x : WAlu) (s : State) : Host.Outcome State Fault Refusal :=
  vec (shFmul h x) 0x4A 3 h.st (vArgs (aluF x 2 true rndAny) h x none) (isSr x.rnd) (fun q l => fltOp .mul x.ty x.rnd (seedRnd q 0) x.sat (l.getD 0 0) (l.getD 1 0)) s

/-- FMUL_5W: rounded once, literal (R149). -/
def execFmul5w (h : Hd) (x : WAlu) (l : BitVec 60) (s : State) : Host.Outcome State Fault Refusal :=
  vec (shFmul5w h x l) 0x4A 5 h.st (vArgs (aluF x 2 true rndAny) h x (some l)) (isSr x.rnd) (fun q l => fltOp .mul x.ty x.rnd (seedRnd q 0) x.sat (l.getD 0 0) (l.getD 1 0)) s

/-- FFMA: fused multiply-add (R149). -/
def execFfma (h : Hd) (x : WAlu) (s : State) : Host.Outcome State Fault Refusal :=
  vec (shFfma h x) 0x4B 3 h.st (vArgs ({ aluF x 3 true rndAny with acc := true, mod := 1 }) h x none) (isSr x.rnd) (fun q l => fltFma x.ty x.rnd (seedRnd q 0) x.sat (l.getD 0 0) (l.getD 1 0) (l.getD 2 0)) s

/-- FFMA_5W: fused multiply-add, literal (R149). -/
def execFfma5w (h : Hd) (x : WAlu) (l : BitVec 60) (s : State) : Host.Outcome State Fault Refusal :=
  vec (shFfma5w h x l) 0x4B 5 h.st (vArgs ({ aluF x 3 true rndAny with acc := true, mod := 1 }) h x (some l)) (isSr x.rnd) (fun q l => fltFma x.ty x.rnd (seedRnd q 0) x.sat (l.getD 0 0) (l.getD 1 0) (l.getD 2 0)) s

/-- FMIN: minimumNumber (R150). -/
def execFmin (h : Hd) (x : WAlu) (s : State) : Host.Outcome State Fault Refusal :=
  vec (shFmin h x) 0x4C 3 h.st (vArgs (aluF x 2 false [0]) h x none) (false) (fn2 (fltMinMax false x.ty)) s

/-- FMIN_5W: minimumNumber, literal (R150). -/
def execFmin5w (h : Hd) (x : WAlu) (l : BitVec 60) (s : State) : Host.Outcome State Fault Refusal :=
  vec (shFmin5w h x l) 0x4C 5 h.st (vArgs (aluF x 2 false [0]) h x (some l)) (false) (fn2 (fltMinMax false x.ty)) s

/-- FMAX: maximumNumber (R150). -/
def execFmax (h : Hd) (x : WAlu) (s : State) : Host.Outcome State Fault Refusal :=
  vec (shFmax h x) 0x4D 3 h.st (vArgs (aluF x 2 false [0]) h x none) (false) (fn2 (fltMinMax true x.ty)) s

/-- FMAX_5W: maximumNumber, literal (R150). -/
def execFmax5w (h : Hd) (x : WAlu) (l : BitVec 60) (s : State) : Host.Outcome State Fault Refusal :=
  vec (shFmax5w h x l) 0x4D 5 h.st (vArgs (aluF x 2 false [0]) h x (some l)) (false) (fn2 (fltMinMax true x.ty)) s

/-- FCMP: compare into a predicate (R151). -/
def execFcmp (h : Hd) (x : WAlu) (s : State) : Host.Outcome State Fault Refusal :=
  vec (shFcmp h x) 0x4E 3 h.st (vArgs (aluF x 2 false [0]) h x none) (false) (fn2 (fun a b => let r := fCompare (bits h.mod 0 4).toNat (fltVal x.ty a) (fltVal x.ty b); (truth r.1, r.2))) s

/-- FCMP_5W: compare into a predicate, literal (R151). -/
def execFcmp5w (h : Hd) (x : WAlu) (l : BitVec 60) (s : State) : Host.Outcome State Fault Refusal :=
  vec (shFcmp5w h x l) 0x4E 5 h.st (vArgs (aluF x 2 false [0]) h x (some l)) (false) (fn2 (fun a b => let r := fCompare (bits h.mod 0 4).toNat (fltVal x.ty a) (fltVal x.ty b); (truth r.1, r.2))) s

/-- FRND: integral value (R152). -/
def execFrnd (h : Hd) (x : WAlu) (s : State) : Host.Outcome State Fault Refusal :=
  vec (shFrnd h x) 0x4F 3 h.st (vArgs (aluF x 1 false [0, 1, 2, 3]) h x none) (false) (fn1 (fun a => fltOut (fRound (fmOf x.ty) (modeOf x.rnd 0) (fltVal x.ty a)))) s

/-- FRND_5W: integral value, literal (R152). -/
def execFrnd5w (h : Hd) (x : WAlu) (l : BitVec 60) (s : State) : Host.Outcome State Fault Refusal :=
  vec (shFrnd5w h x l) 0x4F 5 h.st (vArgs (aluF x 1 false [0, 1, 2, 3]) h x (some l)) (false) (fn1 (fun a => fltOut (fRound (fmOf x.ty) (modeOf x.rnd 0) (fltVal x.ty a)))) s

/-- FCLASS: class (R153). -/
def execFclass (h : Hd) (x : WAlu) (s : State) : Host.Outcome State Fault Refusal :=
  vec (shFclass h x) 0x50 3 h.st (vArgs (aluF x 1 false [0]) h x none) (false) (fn1 (fun a => (BitVec.ofNat 64 (fClass (fmOf x.ty) (fltVal x.ty a)), 0))) s

/-- FCLASS_5W: class, literal (R153). -/
def execFclass5w (h : Hd) (x : WAlu) (l : BitVec 60) (s : State) : Host.Outcome State Fault Refusal :=
  vec (shFclass5w h x l) 0x50 5 h.st (vArgs (aluF x 1 false [0]) h x (some l)) (false) (fn1 (fun a => (BitVec.ofNat 64 (fClass (fmOf x.ty) (fltVal x.ty a)), 0))) s

/-- FSCALE: scaling by a power of two (R149). -/
def execFscale (h : Hd) (x : WAlu) (s : State) : Host.Outcome State Fault Refusal :=
  vec (shFscale h x) 0x51 3 h.st (vArgs (aluScale x) h x none) (isSr x.rnd) (fun q l => fltOut (fScale (fmOf x.ty) (modeOf x.rnd (seedRnd q 0)) x.sat (fltVal x.ty (l.getD 0 0)) (intVal .i32 (l.getD 1 0)))) s

/-- FSCALE_5W: scaling by a power of two, literal (R149). -/
def execFscale5w (h : Hd) (x : WAlu) (l : BitVec 60) (s : State) : Host.Outcome State Fault Refusal :=
  vec (shFscale5w h x l) 0x51 5 h.st (vArgs (aluScale x) h x (some l)) (isSr x.rnd) (fun q l => fltOut (fScale (fmOf x.ty) (modeOf x.rnd (seedRnd q 0)) x.sat (fltVal x.ty (l.getD 0 0)) (intVal .i32 (l.getD 1 0)))) s

/-- FRCP: special function (R154). -/
def execFrcp (h : Hd) (x : WAlu) (s : State) : Host.Outcome State Fault Refusal :=
  vec (shFrcp h x) 0x58 3 h.st (vArgs (aluSpecial [0] false) h x none) (false) (fn1 (fun a => fltOut (specialFn .rcp (fmOf x.ty) (tyCode x.ty).toNat (modeOf x.rnd 0) x.sat (fltCode x.ty a)))) s

/-- FRSQ: special function (R154). -/
def execFrsq (h : Hd) (x : WAlu) (s : State) : Host.Outcome State Fault Refusal :=
  vec (shFrsq h x) 0x59 3 h.st (vArgs (aluSpecial [0] false) h x none) (false) (fn1 (fun a => fltOut (specialFn .rsq (fmOf x.ty) (tyCode x.ty).toNat (modeOf x.rnd 0) x.sat (fltCode x.ty a)))) s

/-- FSQRT: special function (R154). -/
def execFsqrt (h : Hd) (x : WAlu) (s : State) : Host.Outcome State Fault Refusal :=
  vec (shFsqrt h x) 0x5A 3 h.st (vArgs (aluSpecial [0, 1, 2, 3] false) h x none) (false) (fn1 (fun a => fltOut (specialFn .sqrt (fmOf x.ty) (tyCode x.ty).toNat (modeOf x.rnd 0) x.sat (fltCode x.ty a)))) s

/-- FEX2: special function (R156). -/
def execFex2 (h : Hd) (x : WAlu) (s : State) : Host.Outcome State Fault Refusal :=
  vec (shFex2 h x) 0x5B 3 h.st (vArgs (aluSpecial [0] true) h x none) (false) (fn1 (fun a => fltOut (specialFn .ex2 (fmOf x.ty) (tyCode x.ty).toNat (modeOf x.rnd 0) x.sat (fltCode x.ty a)))) s

/-- FLG2: special function (R156). -/
def execFlg2 (h : Hd) (x : WAlu) (s : State) : Host.Outcome State Fault Refusal :=
  vec (shFlg2 h x) 0x5C 3 h.st (vArgs (aluSpecial [0] false) h x none) (false) (fn1 (fun a => fltOut (specialFn .lg2 (fmOf x.ty) (tyCode x.ty).toNat (modeOf x.rnd 0) x.sat (fltCode x.ty a)))) s

/-- FSIN: special function (R156). -/
def execFsin (h : Hd) (x : WAlu) (s : State) : Host.Outcome State Fault Refusal :=
  vec (shFsin h x) 0x5D 3 h.st (vArgs (aluSpecial [0] false) h x none) (false) (fn1 (fun a => fltOut (specialFn .sin (fmOf x.ty) (tyCode x.ty).toNat (modeOf x.rnd 0) x.sat (fltCode x.ty a)))) s

/-- FCOS: special function (R156). -/
def execFcos (h : Hd) (x : WAlu) (s : State) : Host.Outcome State Fault Refusal :=
  vec (shFcos h x) 0x5E 3 h.st (vArgs (aluSpecial [0] false) h x none) (false) (fn1 (fun a => fltOut (specialFn .cos (fmOf x.ty) (tyCode x.ty).toNat (modeOf x.rnd 0) x.sat (fltCode x.ty a)))) s

/-- FTANH: special function (R156). -/
def execFtanh (h : Hd) (x : WAlu) (s : State) : Host.Outcome State Fault Refusal :=
  vec (shFtanh h x) 0x5F 3 h.st (vArgs (aluSpecial [0] false) h x none) (false) (fn1 (fun a => fltOut (specialFn .tanh (fmOf x.ty) (tyCode x.ty).toNat (modeOf x.rnd 0) x.sat (fltCode x.ty a)))) s

/-- HADD2: both halves (R157). -/
def execHadd2 (h : Hd) (x : WAlu) (s : State) : Host.Outcome State Fault Refusal :=
  vec (shHadd2 h x) 0x60 3 h.st (vArgs (aluH 2) h x none) (isSr x.rnd) (fun q l => packed (fun j => fltOp .add x.ty x.rnd (seedRnd q j) x.sat (elem16 (l.getD 0 0) j) (elem16 (l.getD 1 0) j))) s

/-- HADD2_5W: both halves, literal (R157). -/
def execHadd25w (h : Hd) (x : WAlu) (l : BitVec 60) (s : State) : Host.Outcome State Fault Refusal :=
  vec (shHadd25w h x l) 0x60 5 h.st (vArgs (aluH 2) h x (some l)) (isSr x.rnd) (fun q l => packed (fun j => fltOp .add x.ty x.rnd (seedRnd q j) x.sat (elem16 (l.getD 0 0) j) (elem16 (l.getD 1 0) j))) s

/-- HMUL2: both halves (R157). -/
def execHmul2 (h : Hd) (x : WAlu) (s : State) : Host.Outcome State Fault Refusal :=
  vec (shHmul2 h x) 0x61 3 h.st (vArgs (aluH 2) h x none) (isSr x.rnd) (fun q l => packed (fun j => fltOp .mul x.ty x.rnd (seedRnd q j) x.sat (elem16 (l.getD 0 0) j) (elem16 (l.getD 1 0) j))) s

/-- HMUL2_5W: both halves, literal (R157). -/
def execHmul25w (h : Hd) (x : WAlu) (l : BitVec 60) (s : State) : Host.Outcome State Fault Refusal :=
  vec (shHmul25w h x l) 0x61 5 h.st (vArgs (aluH 2) h x (some l)) (isSr x.rnd) (fun q l => packed (fun j => fltOp .mul x.ty x.rnd (seedRnd q j) x.sat (elem16 (l.getD 0 0) j) (elem16 (l.getD 1 0) j))) s

/-- HFMA2: both halves (R157). -/
def execHfma2 (h : Hd) (x : WAlu) (s : State) : Host.Outcome State Fault Refusal :=
  vec (shHfma2 h x) 0x62 3 h.st (vArgs ({ aluH 3 with acc := true, mod := 1 }) h x none) (isSr x.rnd) (fun q l => packed (fun j => fltFma x.ty x.rnd (seedRnd q j) x.sat (elem16 (l.getD 0 0) j) (elem16 (l.getD 1 0) j) (elem16 (l.getD 2 0) j))) s

/-- HFMA2_5W: both halves, literal (R157). -/
def execHfma25w (h : Hd) (x : WAlu) (l : BitVec 60) (s : State) : Host.Outcome State Fault Refusal :=
  vec (shHfma25w h x l) 0x62 5 h.st (vArgs ({ aluH 3 with acc := true, mod := 1 }) h x (some l)) (isSr x.rnd) (fun q l => packed (fun j => fltFma x.ty x.rnd (seedRnd q j) x.sat (elem16 (l.getD 0 0) j) (elem16 (l.getD 1 0) j) (elem16 (l.getD 2 0) j))) s

end Sys2Proof.Machine
end

