-- ==== Sys2Proof/Machine/Graph.lean ====
section
/-! DEFINITION. The graph scheduler's instructions: EMIT, EMITT, RECLD, FLUSHQ, GLAUNCH, GCANCEL, GWAIT (R369 to R376). -/
namespace Sys2Proof.Machine

/-- A record to emit: the lane, the target node, its words, its depth. -/
structure Out where
  lane : Nat
  node : Nat
  data : List Word
  depth : Nat
  deriving DecidableEq, Repr

/-- The target of a successor position and record type in the issuing team's node: none when it breaks R370. -/
def emitTarget (l : Launch) (node m rtype : Nat) : Option Nat :=
  match (l.g.node node).succ[m]? with
  | some t => if (l.g.node t).itype = rtype then some t else none
  | none => none

/-- The depth of a record (R354). -/
def emitDepth (t : Team) (target : Nat) : Nat := if target ≤ t.node then t.depth + 1 else t.depth

/-- One record's reservation (R353, R366, R390, R392): what it answered so far, the waiting reservations, the state. -/
structure Reserved where
  s : State
  /-- by lane: granted at once -/
  got : List (Nat × Bool)
  rids : List Nat
  lost : List Nat

/-- One record reserved. -/
def reserveOne (lid rtype op die : Nat) (nb : Bool) (r : Reserved) (o : Out) : Reserved :=
  match launchOf r.s lid with
  | none => { r with got := r.got ++ [(o.lane, true)] }
  | some l =>
    let keep := fun (x : Bool × Nat × State) =>
      { r with s := x.2.2, got := r.got ++ [(o.lane, x.1)], rids := if x.1 || nb then r.rids else r.rids ++ [x.2.1] }
    if l.cancel != 0 then keep (reserve r.s lid o.node die o.data o.depth none (!nb))
    else match placeOf r.s l o.node with
      | none => { r with lost := r.lost ++ [o.lane] }
      | some p =>
        if p = r.s.pkg then keep (reserve r.s lid o.node die o.data o.depth none (!nb))
        else keep (reserveRemote r.s lid { rid := 0, node := o.node, pkg := p, rtype := rtype, data := o.data, depth := o.depth, op := op } (!nb))

/-- Whether an EMIT or EMITT is a link operation (R391): some record goes to another package and takes a credit now or waits for one. -/
def needsLink (s : State) (l : Launch) (nb : Bool) (outs : List Out) : Bool :=
  l.cancel == 0 && outs.any (fun o => match placeOf s l o.node with
    | some p => p != s.pkg && (!nb || (l.credit p o.node != 0 && !l.rq.any (fun x => x.pkg == p && x.node == o.node)))
    | none => false)

/-- Records emitted (R370): those whose depth exceeds RECUR fault, those with no package fault, the others reserve in ascending lane;
`fin` writes the .nb predicates. Without .nb the fragment waits until every reservation has been granted, also after a handler's
return. -/
def emitEff (c : Iss) (s : State) (l : Launch) (rtype : Nat) (nb : Bool) (outs : List Out) (maskOfOut : Out → Mask)
    (fin : List (Nat × Bool) → Group → Group) : Eff :=
  let deep := outs.filter (fun o => decide ((l.g.node o.node).recur < o.depth))
  let good := outs.filter (fun o => decide (o.depth ≤ (l.g.node o.node).recur))
  let link := needsLink s l nb good
  match (if link then slotRoom s c [5] else none) with
  | some why => .holdFor why s
  | none =>
    let (op, s) := if link then acceptOp s c [5] none 0 (.link []) else (0, s)
    let die := (s.group c.place).core / 32
    let r := good.foldl (reserveOne l.lid rtype op die nb) { s := s, got := [], rids := [], lost := [] }
    let s := settleLinks r.s
    let s := s.modGroup c.place (fun g =>
      let g := if nb then fin r.got g else g
      if r.rids.isEmpty then g else g.modFrag c.slot (fun f => { f with wait := some (.emit r.rids) }))
    let m := fun (os : List Out) => os.foldl (fun a o => a ||| maskOfOut o) (0 : Mask)
    let f1 := if deep.isEmpty then [] else [FaultInfo.plain (codeOf 9 cRecursion) (m deep)]
    let lostOuts := good.filter (fun o => r.lost.contains o.lane)
    let f2 := if lostOuts.isEmpty then [] else [FaultInfo.plain (codeOf 0xA cUnreachable) (m lostOuts)]
    if f1.isEmpty && f2.isEmpty then .go s else .trap s (f1 ++ f2)

/-- A fault of a graph instruction for its active lanes (R369). -/
def graphTrap (s : State) (c : Iss) (cause : Nat) (addr : DWord) (kind : Nat) : Eff :=
  .trap s [{ FaultInfo.plain (codeOf 9 cause) c.act with addr := addr, kind := kind }]

/-- EMIT (R370). -/
def execEmit (h : Hd) (x : WEmit) (s : State) : Host.Outcome State Fault Refusal :=
  issue (shEmit (recRegs s (s.group s.cur.1)) h x) 0xE0 3 h.st (fun c s =>
    match myLaunch s c with
    | none => graphTrap s c cIllegalForm 0 kNone
    | some l =>
      let g := s.group c.place
      let t := s.team g.team
      let rt := x.rtype.toNat
      let nb := bit h.mod 1
      let n := l.g.typeBytes rt / 4
      let pos := fun (lane : Nat) => if bit h.mod 0 then (g.rv c.slot h.c.toNat lane).toNat else x.succ.toNat
      let outs := (lanes c.act).map (fun lane => (lane, emitTarget l t.node (pos lane) rt))
      if outs.any (fun o => o.2.isNone) then graphTrap s c cIllegalForm 0 kNone
      else
        let outs := outs.map (fun o =>
          let tgt := o.2.getD 0
          ({ lane := o.1, node := tgt, data := (List.range n).map (fun i => g.rv c.slot (h.b.toNat + i) o.1), depth := emitDepth t tgt } : Out))
        emitEff c s l rt nb outs (fun o => setBit 0 o.lane true)
          (fun got g => g.write c.slot (.p h.a.toNat) (got.map (fun q => (q.1, if q.2 then 1 else 0))) 0)) s

/-- EMITT: one record read from local memory, then, at the team's depth, as one lane of EMIT (R371). -/
def execEmitt (h : Hd) (x : WEmit) (s : State) : Host.Outcome State Fault Refusal :=
  issue (shEmitt h) 0xE1 3 h.st (fun c s =>
    match myLaunch s c with
    | none => graphTrap s c cIllegalForm 0 kNone
    | some l =>
      let g := s.group c.place
      let t := s.team g.team
      let rt := x.rtype.toNat
      let off := (g.rs c.slot h.b.toNat).toNat
      let addr : DWord := BitVec.ofNat 64 off
      if !aligned off 16 then graphTrap s c cAlign addr kRead
      else match locAccess s 9 kRead g.team off (l.g.typeBytes rt) addr none with
        | .fault f => .trap s [{ f with mask := c.act }]
        | .wait s => .hold s
        | .absentMem => .own { s with absent := true }
        | .ok b s => match emitTarget l t.node x.succ.toNat rt with
          | none => graphTrap s c cIllegalForm 0 kNone
          | some tgt =>
            emitEff c s l rt (bit h.mod 1) [{ lane := lowLane c.act, node := tgt, data := wordsOf b, depth := emitDepth t tgt }]
              (fun _ => c.act)
              (fun got g => g.write c.slot (.k h.a.toNat) (got.map (fun q => (0, if q.2 then 1 else 0))) 0)) s

/-- The input record a lane of a group reads: its own at a lane-record node, else the team's; empty where there is none (R372). -/
def inputOf (t : Team) (idx lane : Nat) : List Word := (ffind t.recs (if t.kind = 0 then 32 * idx + lane else 0)).getD []

/-- RECLD (R372). -/
def execRecld (h : Hd) (s : State) : Host.Outcome State Fault Refusal :=
  issue (shRecld (inRegs s (s.group s.cur.1)) h) 0xE2 3 h.st (fun c s =>
    let g := s.group c.place
    let t := s.team g.team
    let n := inRegs s g
    if bit h.mod 0 then
      if t.kind = 0 then graphTrap s c cIllegalForm 0 kNone
      else goGroup s c (fun g => (List.range n).foldl
        (fun g i => g.write c.slot (.s (h.a.toNat + i)) [(0, (inputOf t g.idx 0).getD i 0)] 0) g)
    else goGroup s c (fun g => (List.range n).foldl
      (fun g i => g.write c.slot (.v (h.a.toNat + i)) ((lanes c.act).map (fun l => (l, (inputOf t g.idx l).getD i 0))) 0) g)) s

/-- FLUSHQ: the pending records of a successor's segments, or of every successor's, may form partial teams (R373). -/
def execFlushq (h : Hd) (x : WFlush) (s : State) : Host.Outcome State Fault Refusal :=
  issue (shFlushq h x) 0xE3 3 h.st (fun c s =>
    match myLaunch s c with
    | none => graphTrap s c cIllegalForm 0 kNone
    | some l =>
      let succ := (l.g.node (s.team (s.group c.place).team).node).succ
      let m := x.succ.toNat
      if !bit h.mod 0 && succ.length ≤ m then graphTrap s c cIllegalForm 0 kNone
      else
        let ts := if bit h.mod 0 then succ else [succ.getD m 0]
        .go (modLaunch s l.lid (fun l => { l with q := mapIf (fun r => r.granted && r.empty.isNone && ts.contains r.node) (fun r => { r with flush := true }) l.q }))) s

/-- GLAUNCH: a child launch from a launch record in local memory (R365, R374). It waits while the launch table is full (R351) or a read of the
graph waits (R183). -/
def execGlaunch (h : Hd) (s : State) : Host.Outcome State Fault Refusal :=
  issue (shGlaunch h) 0xE4 3 h.st (fun c s =>
    match myLaunch s c with
    | none => graphTrap s c cIllegalForm 0 kNone
    | some l =>
      let g := s.group c.place
      let nb := bit h.mod 1
      let off := (g.rs c.slot h.b.toNat).toNat
      let addr : DWord := BitVec.ofNat 64 off
      let put := fun (q : Word) (ok : Bool) (g : Group) =>
        let g := g.write c.slot (.s h.a.toNat) [(0, q)] 0
        if nb then g.write c.slot (.k h.c.toNat) [(0, if ok then 1 else 0)] 0 else g
      if !aligned off 64 then graphTrap s c cAlign addr kRead
      else match locAccess s 9 kRead g.team off 64 addr none with
        | .fault f => .trap s [{ f with mask := c.act }]
        | .wait s => .hold s
        | .absentMem => .own { s with absent := true }
        | .ok b s' =>
          if 31 ≤ l.level then graphTrap s c cRecursion 0 kNone
          else if 4096 ≤ liveLaunches s then (if nb then goGroup s' c (put 0 false) else .hold s)
          else
            match acceptLaunch s' l.page (some b) (some l) with
            | (none, s) => .hold s
            | (some q, s) => goGroup s c (put q true)) s

/-- GCANCEL: a soft or hard cancel of a launch of the context (R375); a hard one of its own launch ends the issuing group too. -/
def execGcancel (h : Hd) (s : State) : Host.Outcome State Fault Refusal :=
  issue (shGcancel h) 0xE5 3 h.st (fun c s =>
    let g := s.group c.place
    match launchBy s g.page (g.rs c.slot h.b.toNat) s.pkg with
    | none => .go s
    | some l => .go (cancelLaunch s l.lid (bit h.mod 0))) s

/-- GWAIT: a launch's status, once it is complete (R376). -/
def execGwait (h : Hd) (s : State) : Host.Outcome State Fault Refusal :=
  issue (shGwait h) 0xE6 3 h.st (fun c s =>
    let g := s.group c.place
    let q := g.rs c.slot h.b.toNat
    let put := fun (v : Word) => goGroup s c (fun g => g.write c.slot (.s h.a.toNat) [(0, v)] 0)
    match launchBy s g.page q s.pkg with
    | some _ =>
      if bit h.mod 0 then put 0
      else goGroup s c (fun g => (g.ripen c.slot (.s h.a.toNat) allLanes).modFrag c.slot (fun f => { f with wait := some (.gwait q h.a.toNat) }))
    | none => match (s.ctx g.page).closed.find? (fun k => k.1 == q) with
      | some (_, st, _, _) => put st
      | none => put 0xF) s

end Sys2Proof.Machine
end

