-- ==== Sys2Proof/Machine/Integer.lean ====
section
/-! DEFINITION. The vector integer, logic, bit and move instructions (R144 to R148, R170). -/
namespace Sys2Proof.Machine

/-- IADD_I1: integer addition, mould I1 (R144). -/
def execIaddI1 (f : F1) (s : State) : Host.Outcome State Fault Refusal :=
  vec (shIaddI1 f) 0x30 1 f.st (i1 false f) false (fn2 (intOp .add .i32 false)) s

/-- IADD: integer addition (R144). -/
def execIadd (h : Hd) (x : WAlu) (s : State) : Host.Outcome State Fault Refusal :=
  vec (shIadd h x) 0x30 3 h.st (vArgs (aluI x 2 intTys true (latInt x.ty)) h x none) (false) (fn2 (intOp .add x.ty x.sat)) s

/-- IADD_5W: integer addition, literal (R144). -/
def execIadd5w (h : Hd) (x : WAlu) (l : BitVec 60) (s : State) : Host.Outcome State Fault Refusal :=
  vec (shIadd5w h x l) 0x30 5 h.st (vArgs (aluI x 2 intTys true (latInt x.ty)) h x (some l)) (false) (fn2 (intOp .add x.ty x.sat)) s

/-- ISUB_I1: integer subtraction, mould I1 (R144). -/
def execIsubI1 (f : F1) (s : State) : Host.Outcome State Fault Refusal :=
  vec (shIsubI1 f) 0x31 1 f.st (i1 false f) false (fn2 (intOp .sub .i32 false)) s

/-- ISUB: integer subtraction (R144). -/
def execIsub (h : Hd) (x : WAlu) (s : State) : Host.Outcome State Fault Refusal :=
  vec (shIsub h x) 0x31 3 h.st (vArgs (aluI x 2 intTys true (latInt x.ty)) h x none) (false) (fn2 (intOp .sub x.ty x.sat)) s

/-- ISUB_5W: integer subtraction, literal (R144). -/
def execIsub5w (h : Hd) (x : WAlu) (l : BitVec 60) (s : State) : Host.Outcome State Fault Refusal :=
  vec (shIsub5w h x l) 0x31 5 h.st (vArgs (aluI x 2 intTys true (latInt x.ty)) h x (some l)) (false) (fn2 (intOp .sub x.ty x.sat)) s

/-- IMUL_I1: integer product, mould I1 (R144). -/
def execImulI1 (f : F1) (s : State) : Host.Outcome State Fault Refusal :=
  vec (shImulI1 f) 0x32 1 f.st (i1 false f) false (fn2 (intOp .mul .i32 false)) s

/-- IMUL: integer product (R144). -/
def execImul (h : Hd) (x : WAlu) (s : State) : Host.Outcome State Fault Refusal :=
  vec (shImul h x) 0x32 3 h.st (vArgs (aluI x 2 intTys true (latMul x.ty)) h x none) (false) (fn2 (intOp .mul x.ty x.sat)) s

/-- IMUL_5W: integer product, literal (R144). -/
def execImul5w (h : Hd) (x : WAlu) (l : BitVec 60) (s : State) : Host.Outcome State Fault Refusal :=
  vec (shImul5w h x l) 0x32 5 h.st (vArgs (aluI x 2 intTys true (latMul x.ty)) h x (some l)) (false) (fn2 (intOp .mul x.ty x.sat)) s

/-- IMULH_I1: integer high product, mould I1 (R144). -/
def execImulhI1 (f : F1) (s : State) : Host.Outcome State Fault Refusal :=
  vec (shImulhI1 f) 0x33 1 f.st (i1 false f) false (fn2 (intOp .mulh .i32 false)) s

/-- IMULH: integer high product (R144). -/
def execImulh (h : Hd) (x : WAlu) (s : State) : Host.Outcome State Fault Refusal :=
  vec (shImulh h x) 0x33 3 h.st (vArgs (aluI x 2 wordTys false (latMul x.ty)) h x none) (false) (fn2 (intOp .mulh x.ty x.sat)) s

/-- IMULH_5W: integer high product, literal (R144). -/
def execImulh5w (h : Hd) (x : WAlu) (l : BitVec 60) (s : State) : Host.Outcome State Fault Refusal :=
  vec (shImulh5w h x l) 0x33 5 h.st (vArgs (aluI x 2 wordTys false (latMul x.ty)) h x (some l)) (false) (fn2 (intOp .mulh x.ty x.sat)) s

/-- IMIN_I1: integer minimum, mould I1 (R144). -/
def execIminI1 (f : F1) (s : State) : Host.Outcome State Fault Refusal :=
  vec (shIminI1 f) 0x37 1 f.st (i1 false f) false (fn2 (intOp .min .i32 false)) s

/-- IMIN: integer minimum (R144). -/
def execImin (h : Hd) (x : WAlu) (s : State) : Host.Outcome State Fault Refusal :=
  vec (shImin h x) 0x37 3 h.st (vArgs (aluI x 2 intTys false (latInt x.ty)) h x none) (false) (fn2 (intOp .min x.ty x.sat)) s

/-- IMIN_5W: integer minimum, literal (R144). -/
def execImin5w (h : Hd) (x : WAlu) (l : BitVec 60) (s : State) : Host.Outcome State Fault Refusal :=
  vec (shImin5w h x l) 0x37 5 h.st (vArgs (aluI x 2 intTys false (latInt x.ty)) h x (some l)) (false) (fn2 (intOp .min x.ty x.sat)) s

/-- IMAX_I1: integer maximum, mould I1 (R144). -/
def execImaxI1 (f : F1) (s : State) : Host.Outcome State Fault Refusal :=
  vec (shImaxI1 f) 0x38 1 f.st (i1 false f) false (fn2 (intOp .max .i32 false)) s

/-- IMAX: integer maximum (R144). -/
def execImax (h : Hd) (x : WAlu) (s : State) : Host.Outcome State Fault Refusal :=
  vec (shImax h x) 0x38 3 h.st (vArgs (aluI x 2 intTys false (latInt x.ty)) h x none) (false) (fn2 (intOp .max x.ty x.sat)) s

/-- IMAX_5W: integer maximum, literal (R144). -/
def execImax5w (h : Hd) (x : WAlu) (l : BitVec 60) (s : State) : Host.Outcome State Fault Refusal :=
  vec (shImax5w h x l) 0x38 5 h.st (vArgs (aluI x 2 intTys false (latInt x.ty)) h x (some l)) (false) (fn2 (intOp .max x.ty x.sat)) s

/-- IAND_I1: integer AND, mould I1 (R144). -/
def execIandI1 (f : F1) (s : State) : Host.Outcome State Fault Refusal :=
  vec (shIandI1 f) 0x3E 1 f.st (i1 false f) false (fn2 (intOp .and .n32 false)) s

/-- IAND: integer AND (R144). -/
def execIand (h : Hd) (x : WAlu) (s : State) : Host.Outcome State Fault Refusal :=
  vec (shIand h x) 0x3E 3 h.st (vArgs (aluI x 2 intTys false (latInt x.ty)) h x none) (false) (fn2 (intOp .and x.ty x.sat)) s

/-- IAND_5W: integer AND, literal (R144). -/
def execIand5w (h : Hd) (x : WAlu) (l : BitVec 60) (s : State) : Host.Outcome State Fault Refusal :=
  vec (shIand5w h x l) 0x3E 5 h.st (vArgs (aluI x 2 intTys false (latInt x.ty)) h x (some l)) (false) (fn2 (intOp .and x.ty x.sat)) s

/-- IOR_I1: integer OR, mould I1 (R144). -/
def execIorI1 (f : F1) (s : State) : Host.Outcome State Fault Refusal :=
  vec (shIorI1 f) 0x3F 1 f.st (i1 false f) false (fn2 (intOp .or .n32 false)) s

/-- IOR: integer OR (R144). -/
def execIor (h : Hd) (x : WAlu) (s : State) : Host.Outcome State Fault Refusal :=
  vec (shIor h x) 0x3F 3 h.st (vArgs (aluI x 2 intTys false (latInt x.ty)) h x none) (false) (fn2 (intOp .or x.ty x.sat)) s

/-- IOR_5W: integer OR, literal (R144). -/
def execIor5w (h : Hd) (x : WAlu) (l : BitVec 60) (s : State) : Host.Outcome State Fault Refusal :=
  vec (shIor5w h x l) 0x3F 5 h.st (vArgs (aluI x 2 intTys false (latInt x.ty)) h x (some l)) (false) (fn2 (intOp .or x.ty x.sat)) s

/-- IXOR_I1: integer XOR, mould I1 (R144). -/
def execIxorI1 (f : F1) (s : State) : Host.Outcome State Fault Refusal :=
  vec (shIxorI1 f) 0x40 1 f.st (i1 false f) false (fn2 (intOp .xor .n32 false)) s

/-- IXOR: integer XOR (R144). -/
def execIxor (h : Hd) (x : WAlu) (s : State) : Host.Outcome State Fault Refusal :=
  vec (shIxor h x) 0x40 3 h.st (vArgs (aluI x 2 intTys false (latInt x.ty)) h x none) (false) (fn2 (intOp .xor x.ty x.sat)) s

/-- IXOR_5W: integer XOR, literal (R144). -/
def execIxor5w (h : Hd) (x : WAlu) (l : BitVec 60) (s : State) : Host.Outcome State Fault Refusal :=
  vec (shIxor5w h x l) 0x40 5 h.st (vArgs (aluI x 2 intTys false (latInt x.ty)) h x (some l)) (false) (fn2 (intOp .xor x.ty x.sat)) s

/-- ISHL_I1: left shift, mould I1 (R144). -/
def execIshlI1 (f : F1) (s : State) : Host.Outcome State Fault Refusal :=
  vec (shIshlI1 f) 0x3B 1 f.st (i1 false f) false (fn2 (intOp .shl .n32 false)) s

/-- ISHL: left shift (R144). -/
def execIshl (h : Hd) (x : WAlu) (s : State) : Host.Outcome State Fault Refusal :=
  vec (shIshl h x) 0x3B 3 h.st (vArgs (aluSh x intTys) h x none) (false) (fn2 (intOp .shl x.ty false)) s

/-- ISHL_5W: left shift, literal (R144). -/
def execIshl5w (h : Hd) (x : WAlu) (l : BitVec 60) (s : State) : Host.Outcome State Fault Refusal :=
  vec (shIshl5w h x l) 0x3B 5 h.st (vArgs (aluSh x intTys) h x (some l)) (false) (fn2 (intOp .shl x.ty false)) s

/-- ISHR_I1: logical right shift, mould I1 (R144). -/
def execIshrI1 (f : F1) (s : State) : Host.Outcome State Fault Refusal :=
  vec (shIshrI1 f) 0x3C 1 f.st (i1 false f) false (fn2 (intOp .shr .n32 false)) s

/-- ISHR: logical right shift (R144). -/
def execIshr (h : Hd) (x : WAlu) (s : State) : Host.Outcome State Fault Refusal :=
  vec (shIshr h x) 0x3C 3 h.st (vArgs (aluSh x intTys) h x none) (false) (fn2 (intOp .shr x.ty false)) s

/-- ISHR_5W: logical right shift, literal (R144). -/
def execIshr5w (h : Hd) (x : WAlu) (l : BitVec 60) (s : State) : Host.Outcome State Fault Refusal :=
  vec (shIshr5w h x l) 0x3C 5 h.st (vArgs (aluSh x intTys) h x (some l)) (false) (fn2 (intOp .shr x.ty false)) s

/-- ISRA_I1: arithmetic right shift, mould I1 (R144). -/
def execIsraI1 (f : F1) (s : State) : Host.Outcome State Fault Refusal :=
  vec (shIsraI1 f) 0x3D 1 f.st (i1 false f) false (fn2 (intOp .sra .i32 false)) s

/-- ISRA: arithmetic right shift (R144). -/
def execIsra (h : Hd) (x : WAlu) (s : State) : Host.Outcome State Fault Refusal :=
  vec (shIsra h x) 0x3D 3 h.st (vArgs (aluSh x intTys) h x none) (false) (fn2 (intOp .sra x.ty false)) s

/-- ISRA_5W: arithmetic right shift, literal (R144). -/
def execIsra5w (h : Hd) (x : WAlu) (l : BitVec 60) (s : State) : Host.Outcome State Fault Refusal :=
  vec (shIsra5w h x l) 0x3D 5 h.st (vArgs (aluSh x intTys) h x (some l)) (false) (fn2 (intOp .sra x.ty false)) s

/-- IMAD: multiply-add (R144). -/
def execImad (h : Hd) (x : WAlu) (s : State) : Host.Outcome State Fault Refusal :=
  vec (shImad h x) 0x34 3 h.st (vArgs ({ aluI x 3 intTys true (latMul x.ty) with acc := true, mod := 1 }) h x none) (false) (fn3 (intMad x.ty x.sat)) s

/-- IMAD_5W: multiply-add, literal (R144). -/
def execImad5w (h : Hd) (x : WAlu) (l : BitVec 60) (s : State) : Host.Outcome State Fault Refusal :=
  vec (shImad5w h x l) 0x34 5 h.st (vArgs ({ aluI x 3 intTys true (latMul x.ty) with acc := true, mod := 1 }) h x (some l)) (false) (fn3 (intMad x.ty x.sat)) s

/-- IABS_U1: magnitude, mould U1 (R144). -/
def execIabsU1 (f : F1) (s : State) : Host.Outcome State Fault Refusal :=
  vec (shIabsU1 f) 0x35 1 f.st (u1 false f) false (fn1 (fun a => intOut .i32 false (intVal .i32 a).natAbs)) s

/-- IABS: magnitude (R144). -/
def execIabs (h : Hd) (x : WAlu) (s : State) : Host.Outcome State Fault Refusal :=
  vec (shIabs h x) 0x35 3 h.st (vArgs (aluI x 1 [.i32, .i64, .i16, .i8] true (latInt x.ty)) h x none) (false) (fn1 (fun a => intOut x.ty x.sat (intVal x.ty a).natAbs)) s

/-- INEG_U1: negation, mould U1 (R144). -/
def execInegU1 (f : F1) (s : State) : Host.Outcome State Fault Refusal :=
  vec (shInegU1 f) 0x36 1 f.st (u1 false f) false (fn1 (fun a => intOut .i32 false (-(intVal .i32 a)))) s

/-- INEG: negation (R144). -/
def execIneg (h : Hd) (x : WAlu) (s : State) : Host.Outcome State Fault Refusal :=
  vec (shIneg h x) 0x36 3 h.st (vArgs (aluI x 1 intTys true (latInt x.ty)) h x none) (false) (fn1 (fun a => intOut x.ty x.sat (-(intVal x.ty a)))) s

/-- ICMP: compare into a predicate (R145). -/
def execIcmp (h : Hd) (x : WAlu) (s : State) : Host.Outcome State Fault Refusal :=
  vec (shIcmp h x) 0x39 3 h.st (vArgs (aluI x 2 intTys false (latInt x.ty)) h x none) (false) (fn2 (fun a b => (truth (intCmp (bits h.mod 0 3).toNat x.ty a b), 0))) s

/-- ICMP_5W: compare into a predicate, literal (R145). -/
def execIcmp5w (h : Hd) (x : WAlu) (l : BitVec 60) (s : State) : Host.Outcome State Fault Refusal :=
  vec (shIcmp5w h x l) 0x39 5 h.st (vArgs (aluI x 2 intTys false (latInt x.ty)) h x (some l)) (false) (fn2 (fun a b => (truth (intCmp (bits h.mod 0 3).toNat x.ty a b), 0))) s

/-- ISEL's effect: field D's predicate, negated by MOD bit 26, chooses in each lane (R145). -/
def iselEff (sh : Shape) (len : Nat) (h : Hd) (args : List (Src × Nat)) (s : State) : Host.Outcome State Fault Refusal :=
  issue sh 0x3A len h.st (fun c s => goGroup s c (fun g =>
    g.put c.slot sh.dst ((lanes c.act).map (fun l =>
      let v := args.map (fun a => srcLane g c.slot l a.2 a.1)
      (l, v.getD (if g.rp c.slot h.d.toNat l != bit h.mod 0 then 0 else 1) 0))))) s

/-- ISEL: select (R145). -/
def execIsel (h : Hd) (x : WAlu) (s : State) : Host.Outcome State Fault Refusal :=
  iselEff (shIsel h x) 3 h (vArgs { aluI x 2 wordTys false (latInt x.ty) with mod := 1 } h x none) s

/-- ISEL_5W: select, literal (R145). -/
def execIsel5w (h : Hd) (x : WAlu) (l : BitVec 60) (s : State) : Host.Outcome State Fault Refusal :=
  iselEff (shIsel5w h x l) 5 h (vArgs { aluI x 2 wordTys false (latInt x.ty) with mod := 1 } h x (some l)) s

/-- The sources of LOP3: field B under UB, field C, then field D or the literal (R146). -/
def lop3Args (h : Hd) (x : WLop3) (lit : Option (BitVec 60)) : List (Src × Nat) :=
  let w := tyRegs x.ty
  [(if x.ub then .s h.b.toNat else .v h.b.toNat, w), (.v h.c.toNat, w),
   (match lit with
    | some _ => .imm (immVal (immKOf x.ty) 0 lit)
    | none => .v h.d.toNat, w)]

/-- LOP3: any function of three bits (R146). -/
def execLop3 (h : Hd) (x : WLop3) (s : State) : Host.Outcome State Fault Refusal :=
  vec (shLop3 h x) 0x41 3 h.st (lop3Args h x none) false (fn3 (fun a b c => (lop3Val x.lut a b c, 0))) s

/-- LOP3_5W: any function of three bits, literal (R146). -/
def execLop35w (h : Hd) (x : WLop3) (l : BitVec 60) (s : State) : Host.Outcome State Fault Refusal :=
  vec (shLop35w h x l) 0x41 5 h.st (lop3Args h x (some l)) false (fn3 (fun a b c => (lop3Val x.lut a b c, 0))) s

/-- POPC_U1: set bits, mould U1 (R148). -/
def execPopcU1 (f : F1) (s : State) : Host.Outcome State Fault Refusal :=
  vec (shPopcU1 f) 0x42 1 f.st (u1 false f) false (fn1 (fun a => (popVal .n32 a, 0))) s

/-- POPC: set bits (R148). -/
def execPopc (h : Hd) (x : WAlu) (s : State) : Host.Outcome State Fault Refusal :=
  vec (shPopc h x) 0x42 3 h.st (vArgs (aluI x 1 rawTys false (latInt x.ty)) h x none) (false) (fn1 (fun a => (popVal x.ty a, 0))) s

/-- CLZ_U1: leading zeros, mould U1 (R148). -/
def execClzU1 (f : F1) (s : State) : Host.Outcome State Fault Refusal :=
  vec (shClzU1 f) 0x43 1 f.st (u1 false f) false (fn1 (fun a => (clzVal .n32 a, 0))) s

/-- CLZ: leading zeros (R148). -/
def execClz (h : Hd) (x : WAlu) (s : State) : Host.Outcome State Fault Refusal :=
  vec (shClz h x) 0x43 3 h.st (vArgs (aluI x 1 rawTys false (latInt x.ty)) h x none) (false) (fn1 (fun a => (clzVal x.ty a, 0))) s

/-- BREV_U1: bit reversal, mould U1 (R148). -/
def execBrevU1 (f : F1) (s : State) : Host.Outcome State Fault Refusal :=
  vec (shBrevU1 f) 0x44 1 f.st (u1 false f) false (fn1 (fun a => (brevVal .n32 a, 0))) s

/-- BREV: bit reversal (R148). -/
def execBrev (h : Hd) (x : WAlu) (s : State) : Host.Outcome State Fault Refusal :=
  vec (shBrev h x) 0x44 3 h.st (vArgs (aluI x 1 rawTys false (latInt x.ty)) h x none) (false) (fn1 (fun a => (brevVal x.ty a, 0))) s

/-- BFE: bit field extract (R147). -/
def execBfe (h : Hd) (x : WAlu) (s : State) : Host.Outcome State Fault Refusal :=
  vec (shBfe h x) 0x45 3 h.st (vArgs (aluSh x wordTys) h x none) (false) (fn2 (fun a b => (bfeVal x.ty a b, 0))) s

/-- BFE_5W: bit field extract, literal (R147). -/
def execBfe5w (h : Hd) (x : WAlu) (l : BitVec 60) (s : State) : Host.Outcome State Fault Refusal :=
  vec (shBfe5w h x l) 0x45 5 h.st (vArgs (aluSh x wordTys) h x (some l)) (false) (fn2 (fun a b => (bfeVal x.ty a b, 0))) s

/-- BFI: bit field insert (R147). -/
def execBfi (h : Hd) (x : WAlu) (s : State) : Host.Outcome State Fault Refusal :=
  vec (shBfi h x) 0x46 3 h.st (vArgs (aluBfi x) h x none) (false) (fn3 (fun a b c => (bfiVal x.ty a b c, 0))) s

/-- BFI_5W: bit field insert, literal (R147). -/
def execBfi5w (h : Hd) (x : WAlu) (l : BitVec 60) (s : State) : Host.Outcome State Fault Refusal :=
  vec (shBfi5w h x l) 0x46 5 h.st (vArgs (aluBfi x) h x (some l)) (false) (fn3 (fun a b c => (bfiVal x.ty a b c, 0))) s

/-- MOV_U1: move, mould U1 (R170). -/
def execMovU1 (f : F1) (s : State) : Host.Outcome State Fault Refusal :=
  vec (shMovU1 f) 0x6E 1 f.st (u1 false f) false (fn1 (fun a => (a, 0))) s

/-- MOV: move (R170). -/
def execMov (h : Hd) (x : WAlu) (s : State) : Host.Outcome State Fault Refusal :=
  vec (shMov h x) 0x6E 3 h.st (vArgs (aluMov x) h x none) (false) (fn1 (fun a => (a, 0))) s

/-- MOVI_M1: immediate, mould M1 (R170). -/
def execMoviM1 (f : F1) (s : State) : Host.Outcome State Fault Refusal :=
  vec (shMoviM1 f) 0x6F 1 f.st (m1 f) false (fn1 (fun a => (a, 0))) s

/-- MOVI: immediate (R170). -/
def execMovi (h : Hd) (x : WAlu) (s : State) : Host.Outcome State Fault Refusal :=
  vec (shMovi h x) 0x6F 3 h.st (vArgs (aluMovi x) h x none) (false) (fn1 (fun a => (a, 0))) s

/-- MOVI_5W: immediate, literal (R170). -/
def execMovi5w (h : Hd) (x : WAlu) (l : BitVec 60) (s : State) : Host.Outcome State Fault Refusal :=
  vec (shMovi5w h x l) 0x6F 5 h.st (vArgs (aluMovi x) h x (some l)) (false) (fn1 (fun a => (a, 0))) s

end Sys2Proof.Machine
end

