-- ==== Sys2Proof/Machine/Matrix.lean ====
section
/-! DEFINITION. The matrix engine: checks and acceptance (R309 to R321), conflicts (R305), a segment of MMA and MMAS (R97 to R100, R302,
R304, R313), the other operations' completion, faults and restart (R322 to R324). -/
namespace Sys2Proof.Machine

/-! ### Tiles, descriptors, metadata -/

/-- A tile of a team. -/
def Team.tile (t : Team) (n : Nat) : Tile := fget t.tiles n Tile.zero

/-- A tile replaced. -/
def setTile (s : State) (tid n : Nat) (x : Tile) : State :=
  match ffind s.teams tid with
  | some t => s.setTeam tid { t with tiles := fset t.tiles n Tile.zero x }
  | none => s

/-- An ACC96 encoding is a NaN, or an infinity (R83). -/
def accNan (a : Acc) : Bool := bits a 80 15 == 0x7FFF && bits a 0 80 != 0
def accInf (a : Acc) : Bool := bits a 80 15 == 0x7FFF && bits a 0 80 == 0

/-- Elements written into a tile, with NAN and INF (R296, R313). -/
def Tile.put (x : Tile) (l : List (Nat × Acc)) : Tile :=
  { el := l.foldl (fun m p => fset m p.1 0 p.2) x.el, nan := x.nan || l.any (fun p => accNan p.2), inf := x.inf || l.any (fun p => accInf p.2) }

/-- The tile descriptor that 32 bytes hold (R297). -/
def tileOf (b : List Byte) : TileDesc :=
  { elem := dwordAt b 0, moff := wordAt b 8, xoff := wordAt b 0x0C, ooff := wordAt b 0x10, pitch := (bits (wordAt b 0x14) 0 24).toNat,
    fmt := tyOf (bits (wordAt b 0x18) 28 4), ocap := (bits (wordAt b 0x18) 16 9).toNat, ocount := (bits (wordAt b 0x18) 0 9).toNat }

/-- The reserved fields of a tile descriptor are zero (R297). -/
def tileReservedOk (b : List Byte) : Bool :=
  bits (wordAt b 0x14) 24 8 == 0 && bits (wordAt b 0x18) 25 3 == 0 && bits (wordAt b 0x18) 9 7 == 0 && wordAt b 0x1C == 0

/-- A 16-bit element type, whose micro-scales and lists are not read (R299, R100). -/
def half16 (t : Ty) : Bool := t == .bf16 || t == .f16

/-- The contents of a descriptor agree with the instruction (R310 row 4). -/
def tileFits (b : List Byte) (d : TileDesc) (ty : Ty) (sideB : Bool) (nseg : Nat) : Bool :=
  tileReservedOk b && d.fmt == ty && decide (d.ocount ≤ d.ocap) && decide (d.ocap ≤ (if sideB then 256 else 16)) &&
  !(half16 ty && (d.ocap != 0 || d.ocount != 0)) && decide (nseg * lineBytes d.fmt ≤ d.pitch)

/-- The bases that a descriptor names are aligned (R297). -/
def basesAligned (d : TileDesc) : Bool :=
  aligned d.elem.toNat 16 && (half16 d.fmt || aligned (d.elem + sx d.moff).toNat 32) &&
  aligned (d.elem + sx d.xoff).toNat 4 && (d.ocount == 0 || aligned (d.elem + sx d.ooff).toNat 8)

/-- The alignments of R297 hold: of every base and of PITCH (R310 row 5). -/
def tileAligned (d : TileDesc) : Bool := basesAligned d && aligned d.pitch 16

/-- The ranges of one operand in segment s, in the order of R322: INPUT code without its side, address, bytes. -/
def segRanges (d : TileDesc) (sideB : Bool) (lines s : Nat) : List (Nat × DWord × Nat) :=
  (List.range lines).map (fun l => (0, d.elemAddr l s, lineBytes d.fmt)) ++
  (if half16 d.fmt then [] else [(1, d.microAddr 0 s, 32 * lines)]) ++
  [(2, d.macroAddr sideB 0 s, if sideB then 4 else 4 * lines)] ++
  (if d.ocount = 0 then [] else (List.range (if sideB then 1 else lines)).map (fun l => (3, d.listAddr sideB l s, 8 * d.ocount)))

/-- Every range that an operand can be read at lies where R310 row 6 asks. -/
def tileThere (s : State) (tid : Nat) (d : TileDesc) (sideB : Bool) (lines nseg : Nat) : Bool :=
  (List.range nseg).all (fun k => (segRanges d sideB lines k).all (fun r => rangeThere s tid r.2.1 r.2.2))

/-! ### Issue -/

/-- A trap of the matrix engine against the issuing fragment's mask (R310). -/
def matTrap (s : State) (c : Iss) (cause : Nat) : Eff := .trap s [.plain (codeOf 7 cause) c.mask]

/-- A matrix operation accepted (R309). -/
def matAccept (s : State) (c : Iss) (reg : Option (SlotRef × BitVec 16)) (flags : Flags) (tile : Nat) (m : MatKind) : Eff :=
  acceptEff s c [3] reg flags (.matrix tile m)

/-- MMA and MMAS (R310 to R312). -/
def mmaEff (h : Hd) (x : WMma) (sparse : Bool) (c : Iss) (s0 : State) : Eff :=
  let g := s0.group c.place
  let t := s0.team g.team
  let sh := g.rs c.slot h.d.toNat
  let offA := (g.rs c.slot h.b.toNat).toNat
  let offB := (g.rs c.slot h.c.toNat).toNat
  let nseg := (bits sh 0 5).toNat + 1
  let m := (bits sh 8 7).toNat + 1
  let n := (bits sh 16 7).toNat + 1
  if bits sh 23 9 != 0 || bit sh 15 || bits sh 5 3 != 0 || (sparse && nseg != 1) then matTrap s0 c cIllegalForm
  else if !aligned offA 32 || !aligned offB 32 then matTrap s0 c cAlign
  else if t.size < offA + 32 || t.size < offB + 32 then matTrap s0 c cProt
  else
    let rd := fun (off : Nat) (s : State) => locAccess s 7 kEngRead g.team off 32 (BitVec.ofNat 64 off) none
    match (rd offA s0).bind (fun a s => (rd offB s).bind (fun b s => .ok (a, b) s)) with
    | .fault f => .trap s0 [{ f with mask := c.mask }]
    | .wait s => .hold s
    | .absentMem => .own { s0 with absent := true }
    | .ok (a, b) s =>
      let da := tileOf a
      let db := tileOf b
      if !tileFits a da x.aty false nseg || !tileFits b db x.bty true nseg then matTrap s0 c cIllegalForm
      else if !tileAligned da || !tileAligned db then matTrap s0 c cAlign
      else if !tileThere s g.team da false m nseg || !tileThere s g.team db true n nseg then matTrap s0 c cProt
      else matAccept s c none 0 h.a.toNat (.mma da db m n nseg sparse x.pat (bits h.mod 3 3).toNat (bits h.mod 0 3).toNat 0)

/-- MMA (R311). -/
def execMma (h : Hd) (x : WMma) (s : State) : Host.Outcome State Fault Refusal := issue (shMma h x) 0xC9 3 h.st (mmaEff h x false) s
/-- MMAS (R311). -/
def execMmas (h : Hd) (x : WMma) (s : State) : Host.Outcome State Fault Refusal := issue (shMmas h x) 0xCA 3 h.st (mmaEff h x true) s

/-- MZERO (R314). -/
def execMzero (h : Hd) (s : State) : Host.Outcome State Fault Refusal :=
  issue (shMzero h) 0xC8 3 h.st (fun c s => matAccept s c none 0 h.a.toNat .mzero) s

/-- The position operand of ACCRD and ACCWR: POS and QTR, none when another bit is set (R315). -/
def posOf (v : Word) : Option (Nat × Nat) :=
  if bit v 7 || bits v 10 22 != 0 then none else some ((bits v 0 7).toNat, (bits v 8 2).toNat)

/-- ACCRD (R315). -/
def execAccrd (h : Hd) (x : WAcc) (s : State) : Host.Outcome State Fault Refusal :=
  issue (shAccrd h x) 0xCC 3 h.st (fun c s =>
    match posOf ((s.group c.place).rs c.slot h.c.toNat) with
    | none => matTrap s c cIllegalForm
    | some (pos, qtr) => matAccept s c none 0 h.b.toNat (.accrd h.a.toNat pos qtr (bit h.mod 0) x.ty x.rnd x.sat x.wide)) s

/-- The value of a lane's register in TYPE as ACC96, a NaN quiet (R89, R317). -/
def accOf (x : Num) : Acc := BitVec.ofNat 96 (roundTo .acc .rn false x.quiet).1

/-- What a lane of ACCWR supplies, and NV for a signaling NaN (R317). -/
def accSource (g : Group) (slot reg : Nat) (x : WAcc) (l : Nat) : Acc × Flags :=
  if x.wide then (g.rv slot (reg + 2) l ++ g.rv slot (reg + 1) l ++ g.rv slot reg l, 0)
  else
    let v := fltVal x.ty (srcLane g slot l (tyRegs x.ty) (.v reg))
    (accOf v, flagIf v.isSig fNV)

/-- ACCWR (R315, R317): the data registers are read at issue (R307). -/
def execAccwr (h : Hd) (x : WAcc) (s : State) : Host.Outcome State Fault Refusal :=
  issue (shAccwr h x) 0xCD 3 h.st (fun c s =>
    let g := s.group c.place
    match posOf (g.rs c.slot h.c.toNat) with
    | none => matTrap s c cIllegalForm
    | some (pos, qtr) =>
      let src := (List.range 32).map (accSource g c.slot h.b.toNat x)
      matAccept s c none (orFlags (src.map (fun p => p.2))) h.a.toNat (.accwr pos qtr (bit h.mod 0) (bit h.mod 1) (src.map (fun p => p.1)))) s

/-- ACCST (R318, R319). -/
def execAccst (h : Hd) (x : WAccst) (s : State) : Host.Outcome State Fault Refusal :=
  issue (shAccst h x) 0xCE 3 h.st (fun c s =>
    let g := s.group c.place
    let base := g.rs64 c.slot h.b.toNat
    let pitch := (g.rs c.slot h.c.toNat).toNat
    let rows := g.rs c.slot h.d.toNat
    let row0 := (bits rows 0 7).toNat
    let nrows := (bits rows 8 7).toNat + 1
    let es := accSize x.ty x.wide x.pad
    let al := if es = 12 then 4 else es
    let reg := registerAt s c x.rep (x.slot.toNat, x.cl, x.cpos.toNat) (fun sl => sl.kind == 1)
    if registerWaits s c x.rep (x.slot.toNat, x.cl, x.cpos.toNat) then .hold s
    else if bit rows 7 || bits rows 15 17 != 0 || decide (128 < row0 + nrows) || decide (pitch < 128 * es) || reg.isNone then
      matTrap s c cIllegalForm
    else if !aligned base.toNat al || !aligned pitch al then matTrap s c cAlign
    else if !(List.range nrows).all (fun i => rangeThere s g.team (plus base (i * pitch)) (128 * es)) then matTrap s c cProt
    else matAccept s c (reg.getD none) 0 h.a.toNat
      (.accst base row0 nrows pitch x.ty x.rnd x.sat x.wide x.pad x.scope x.rep 0)) s

/-- MLD (R320). -/
def execMld (h : Hd) (s : State) : Host.Outcome State Fault Refusal :=
  issue (shMld h) 0xCB 3 h.st (fun c s =>
    let g := s.group c.place
    let base := g.rs64 c.slot h.b.toNat
    if !aligned base.toNat 16 then matTrap s c cAlign
    else if !rangeThere s g.team base 2048 then matTrap s c cProt
    else matAccept s c none 0 0 (.mld h.a.toNat base)) s

/-! ### Order (R305) and TSTAT (R296) -/

/-- A matrix operation that may act now. -/
def matAt (s : State) (id : Nat) : Option (Op × Nat × MatKind) :=
  (opById s id).bind (fun o => match o.mat with
    | some (t, m) => if opRuns s o && o.stop.isNone && !o.todo.isEmpty && matReady s o t m then some (o, t, m) else none
    | none => none)

/-- The unfinished operations of a team that name a tile, oldest first. -/
def onTile (s : State) (tid tile : Nat) : List (Op × MatKind) :=
  s.ops.filterMap (fun o => match o.mat with
    | some (t, m) => if o.team == tid && !o.todo.isEmpty && tileNamed t m == some tile then some (o, m) else none
    | none => none)

/-- TSTAT (R296). -/
def tstat (s : State) (tid tile : Nat) : Word :=
  let l := onTile s tid tile
  let x := (s.team tid).tile tile
  let st := match l.head? with
    | some (o, _) => if o.stop.isSome then 2 else 1
    | none => 0
  let (prog, nseg) := (firstSome (fun (p : Op × MatKind) => match p.2 with
    | .mma _ _ _ _ nseg _ _ _ _ prog => some (prog, nseg - 1)
    | _ => none) l).getD (0, 0)
  BitVec.ofNat 32 (st * 2 ^ 30 + min l.length 63 * 2 ^ 24 + prog * 2 ^ 19 + nseg * 2 ^ 14 + natOf x.nan * 2 + natOf x.inf)

/-- MSTAT (R321). -/
def execMstat (h : Hd) (s : State) : Host.Outcome State Fault Refusal :=
  issue (shMstat h) 0xCF 3 h.st (fun c s =>
    goGroup s c (fun g => g.write c.slot (.s h.a.toNat) [(0, tstat s g.team h.b.toNat)] 0)) s

/-! ### A segment (R97, R298, R302, R304) -/

/-- What is read of one operand for a segment: element codes by line, micro-scale codes, macro-scales, list entries by list. -/
structure Side where
  el : List (List Nat)
  micro : List (List Nat)
  macros : List Word
  lists : List (List DWord)

/-- The codes of 128 elements. -/
def elemCodes (t : Ty) (b : List Byte) : List Nat :=
  (List.range 128).map (fun k =>
    if t = .e2m1 then (b.getD (k / 2) 0).toNat / 16 ^ (k % 2) % 16
    else if half16 t then leVal ((b.drop (2 * k)).take 2)
    else (b.getD k 0).toNat)

/-- A line's bytes of which only those in `need` are read: within each memory line from the first to the last needed (R304). -/
def readNeeded (e : Eng) (a : DWord) (n : Nat) (need : Nat → Bool) (s : State) : MemR (List Byte) :=
  (piecesOf a n).foldl (fun r p => r.bind (fun acc s =>
    let ks := (List.range p.2).filter (fun i => need (p.1 + i))
    match ks.head?, ks.getLast? with
    | some lo, some hi => (engOne e false kEngRead (hi + 1 - lo) (plus a (p.1 + lo)) none s).bind (fun b s =>
        .ok (acc ++ List.replicate lo 0 ++ b ++ List.replicate (p.2 - 1 - hi) 0) s)
    | _, _ => .ok (acc ++ List.replicate p.2 0) s)) (.ok [] s)

/-- A read whose fault carries an INPUT code (R324). -/
def tagged {α : Type} (input : Nat) (r : MemR α) : MemR α :=
  match r with
  | .fault f => .fault { f with det := [BitVec.ofNat 32 input] }
  | r => r

/-- One operand of segment k (R298, R322). `gone l k` says which elements are absent (R304). -/
def readSide (e : Eng) (d : TileDesc) (sideB : Bool) (lines k : Nat) (gone : Nat → Nat → Bool) (s : State) : MemR Side :=
  let i0 := if sideB then 4 else 0
  let need := fun (l : Nat) (i : Nat) =>
    if d.fmt = .e2m1 then !gone l (2 * i) || !gone l (2 * i + 1) else if half16 d.fmt then !gone l (i / 2) else !gone l i
  let n := lineBytes d.fmt
  (tagged i0 (engAll (fun l s => readNeeded e (d.elemAddr l k) n (need l) s) (List.range lines) s)).bind (fun el s =>
  (tagged (i0 + 1) (if half16 d.fmt then .ok [] s else engRead e false kEngRead (d.microAddr 0 k) (32 * lines) s)).bind (fun mi s =>
  (tagged (i0 + 2) (engRead e false kEngRead (d.macroAddr sideB 0 k) (if sideB then 4 else 4 * lines) s)).bind (fun ma s =>
  (tagged (i0 + 3) (if d.ocount = 0 then .ok [] s else
    engAll (fun l s => engRead e false kEngRead (d.listAddr sideB l k) (8 * d.ocount) s) (List.range (if sideB then 1 else lines)) s)).bind (fun ls s =>
  .ok { el := el.map (elemCodes d.fmt),
        micro := (List.range lines).map (fun l => if half16 d.fmt then List.replicate 32 127 else ((mi.drop (32 * l)).take 32).map (fun b => b.toNat)),
        macros := wordsOf ma, lists := ls.map (fun b => (List.range d.ocount).map (fun i => dwordAt b (8 * i))) } s))))

/-- The escape code of a type (R302). -/
def isEscape (t : Ty) (c : Nat) : Bool :=
  match t with
  | .e4m3 => c == 0x7F
  | .e5m2 => c == 0x7F
  | .e2m1 => c == 8
  | _ => false

/-- VALID, ROW and K of an entry (R301). -/
def entValid (e : DWord) : Bool := bit e 63
def entRow (e : DWord) : Nat := (bits e 39 7).toNat
def entK (e : DWord) : Nat := (bits e 32 7).toNat

/-- The lines that the failures of one list concern (R302, R324): `own` is the list's line for A. -/
def listFailures (own : Option Nat) (lines : Nat) (esc : Nat → Nat → Bool) (es : List DWord) : List Nat :=
  let dirty := (es.filter (fun e => bits e 46 17 != 0)).map entRow
  let valid := es.filter (fun e => entValid e && (own.isSome || decide (entRow e < lines)))
  let key := fun (e : DWord) => 128 * entRow e + entK e
  let order := ((valid.zip (valid.drop 1)).filter (fun p => decide (key p.2 ≤ key p.1))).map (fun p => entRow p.2)
  let foreign := match own with
    | some l => (valid.filter (fun e => entRow e != l)).map entRow
    | none => []
  let wrong := (valid.filter (fun e => (own.isNone || own == some (entRow e)) && !esc (entRow e) (entK e))).map entRow
  dirty ++ order ++ foreign ++ wrong

/-- The lines of escapes without an entry. -/
def bareEscapes (lines : Nat) (esc : Nat → Nat → Bool) (listOf : Nat → List DWord) : List Nat :=
  (List.range lines).filter (fun l => (List.range 128).any (fun k => esc l k &&
    !(listOf l).any (fun e => entValid e && entRow e == l && entK e == k)))

/-- Every line that a failure of one operand concerns (R302). -/
def sideFailures (x : Side) (sideB : Bool) (lines : Nat) (esc : Nat → Nat → Bool) : List Nat :=
  let listOf := fun (l : Nat) => x.lists.getD (if sideB then 0 else l) []
  ((List.range x.lists.length).flatMap (fun i => listFailures (if sideB then none else some i) lines esc (x.lists.getD i []))) ++
  bareEscapes lines esc listOf

/-- An FP32 code's value. -/
def f32Val (w : Word) : Num := (Fm.f32.value false w.toNat).1

/-- A value times a power of two. -/
def scaleBy (x : Num) (b : Int) : Num :=
  match x with
  | .fin s m e => .fin s m (if m = 0 then e else e + b)
  | x => x

/-- A value scaled by a micro-scale code (R97): 0xFF is a NaN. -/
def microScaled (x : Num) (code : Nat) : Num := if code = 0xFF then .cnan else scaleBy x ((code : Int) - 127)

/-- One position of an operand: its value, absent or escape, and its outlier. -/
structure Pos where
  val : Num
  gone : Bool
  esc : Bool
  out : Num

/-- The position (l, k) of an operand. -/
def Side.pos (x : Side) (t : Ty) (sideB : Bool) (gone : Nat → Nat → Bool) (l k : Nat) : Pos :=
  let c := (x.el.getD l []).getD k 0
  let e := isEscape t c && !gone l k
  { val := ((fmOf t).value false c).1, gone := gone l k, esc := e,
    out := if e then ((x.lists.getD (if sideB then 0 else l) []).find? (fun y => entValid y && entRow y == l && entK y == k)).elim .cnan
        (fun y => f32Val (y.setWidth 32)) else .zero }

/-- A micro-block's term (R97, R98, R304). -/
def microTerm (a b : Nat → Pos) (ea eb : Nat) (blk : Nat) : Num :=
  if ea = 0xFF || eb = 0xFF then .cnan
  else
    let ps := ((rangeFrom (4 * blk) 4).filter (fun k => !(a k).gone && !(b k).gone && !(a k).esc && !(b k).esc)).map
      (fun k => mulExact (a k).val (b k).val)
    match ps with
    | [] => .zero
    | p :: l => scaleBy (l.foldl addExact p) ((ea : Int) + eb - 254)

/-- The value of one element's segment before RoundACC (R97). -/
def segValue (a b : Nat → Pos) (ea eb : Nat → Nat) (ma mb : Word) : Num :=
  let terms := (List.range 32).map (fun i => microTerm a b (ea i) (eb i) i)
  let dense := (treeFold (fun x y => round64 (addExact x y)) 5 terms).getD .zero
  let sum := (List.range 128).foldl (fun s k =>
    if !(a k).gone && !(b k).gone && ((a k).esc || (b k).esc) then
      let x := if (a k).esc then (a k).out else microScaled (a k).val (ea (k / 4))
      let y := if (b k).esc then (b k).out else microScaled (b k).val (eb (k / 4))
      round64 (addExact s (mulExact x y))
    else s) dense
  mulExact sum (mulExact (f32Val ma) (f32Val mb))

/-- ACC plus a segment's value (R97, R98): a NaN that the element already holds is kept, quiet. -/
def accAdd (acc : Acc) (x : Num) : Acc :=
  if accNan acc then acc ||| (1#96 <<< 79) else accRound (addExact (accVal acc) (accVal (accRound x)))

/-- The elements after a segment (R313). -/
def segResult (t : Tile) (m n : Nat) (a b : Nat → Nat → Pos) (xa xb : Side) : List (Nat × Acc) :=
  (List.range m).flatMap (fun i => (List.range n).map (fun j =>
    (128 * i + j, accAdd (fget t.el (128 * i + j) 0)
      (segValue (a i) (b j) (fun k => (xa.micro.getD i []).getD k 0) (fun k => (xb.micro.getD j []).getD k 0)
        (xa.macros.getD i 0) (xb.macros.getD 0 0)))))

/-- Absent positions under a pattern (R304). -/
def absentBy (t : Team) (on : Bool) (reg : Nat) (l k : Nat) : Bool := on && bit (fget t.metan reg 0) (128 * l + k)

/-- A segment attempted: the elements after it, or a fault with DETAIL 0x34 in `det`. -/
def segAttempt (s : State) (o : Op) (tile : Nat) (a b : TileDesc) (m n k : Nat) (sparse : Bool) (pat : BitVec 2) (ma mb : Nat) : MemR (List (Nat × Acc)) :=
  let t := s.team o.team
  let e := o.eng s 7
  let ga := absentBy t (sparse && bit pat 0) ma
  let gb := absentBy t (sparse && bit pat 1) mb
  (readSide e a false m k ga s).bind (fun xa s => (readSide e b true n k gb s).bind (fun xb s =>
    let pa := xa.pos a.fmt false ga
    let pb := xb.pos b.fmt true gb
    let fa := sideFailures xa false m (fun l k => (pa l k).esc)
    let fb := sideFailures xb true n (fun l k => (pb l k).esc)
    let bad := fun (input line : Nat) (addr : DWord) => (.fault
      { code := codeOf 7 cOutMismatch, mask := allLanes, addr := addr, kind := kNone, first := false,
        det := [BitVec.ofNat 32 (256 * line + input)] } : MemR (List (Nat × Acc)))
    match minBy id fa, minBy id fb with
    | some l, _ => bad 3 l (a.listAddr false l k)
    | none, some l => bad 7 l (b.listAddr true l k)
    | none, none => .ok (segResult ((s.team o.team).tile tile) m n pa pb xa xb) s))

/-! ### Events -/

/-- The number of an element of lane L (R315). -/
def elemNo (pos qtr : Nat) (col : Bool) (l : Nat) : Nat := if col then 128 * (32 * qtr + l) + pos else 128 * pos + 32 * qtr + l

/-- An operation's kind replaced. -/
def setMat (s : State) (id tile : Nat) (m : MatKind) : State := modOp s id (fun o => { o with kind := .matrix tile m })

/-- FMT.SATN of an operation (R84). -/
def Op.satn (o : Op) : Bool := bit o.fmt 0

/-- An element converted as ACCRD and ACCST do (R316): its words' value and flags. -/
def accOut (o : Op) (ty : Ty) (rnd : BitVec 3) (sat wide : Bool) (a : Acc) : Nat × Flags :=
  if wide then (a.toNat, 0)
  else
    let v := accVal a
    let (c, fl) := roundTo (fmOf ty) (modeOf rnd 0) (sat || o.satn) v.quiet
    (c, fl ||| sigFlags [v])

/-- MMA_SEGMENT_DONE: one segment is added to every element in one step (R313). -/
def execMmaSegmentDone (op : Nat) (s : State) : Host.Outcome State Fault Refusal :=
  match matAt s op with
  | some (o, tile, .mma a b m n nseg sparse pat ma mb prog) =>
    event (attempt s (segAttempt s o tile a b m n prog sparse pat ma mb) (fun _ => s) (fun l s =>
      let s := setTile s o.team tile (((s.team o.team).tile tile).put l)
      let s := setMat s op tile (.mma a b m n nseg sparse pat ma mb (prog + 1))
      if prog + 1 = nseg then opRipe s op 3 else s))
  | _ => event s

/-- MZERO_DONE (R314). -/
def execMzeroDone (op : Nat) (s : State) : Host.Outcome State Fault Refusal :=
  match matAt s op with
  | some (o, tile, .mzero) => event (opRipe (setTile s o.team tile Tile.zero) op 3)
  | _ => event s

/-- ACCWR_DONE (R317). With .add the tile element is the last operand, as an accumulating destination is (R89). -/
def execAccwrDone (op : Nat) (s : State) : Host.Outcome State Fault Refusal :=
  match matAt s op with
  | some (o, tile, .accwr pos qtr col add vals) =>
    let x := (s.team o.team).tile tile
    let l := ((List.range 32).zip vals).map (fun p =>
      let k := elemNo pos qtr col p.1
      (k, if add then BitVec.ofNat 96 (fAdd .acc .rn false (accVal p.2) (accVal (fget x.el k 0))).1 else p.2))
    event (opRipe (setTile s o.team tile (x.put l)) op 3)
  | _ => event s

/-- ACCRD_DONE (R316). -/
def execAccrdDone (op : Nat) (s : State) : Host.Outcome State Fault Refusal :=
  match matAt s op with
  | some (o, tile, .accrd vd pos qtr col ty rnd sat wide) =>
    let x := (s.team o.team).tile tile
    let outs := (List.range 32).map (fun l => (l, accOut o ty rnd sat wide (fget x.el (elemNo pos qtr col l) 0)))
    let s := s.modGroup o.place (fun g =>
      if g.ended then g
      else (List.range (accRegs ty wide)).foldl (fun g j =>
        g.arrive (.v (vd + j)) (outs.map (fun p => (p.1, BitVec.ofNat 32 (p.2.1 / 2 ^ (32 * j)))))) g)
    let s := modOp s op (fun o => { o with flags := o.flags ||| orFlags (outs.map (fun p => p.2.2)) })
    event (opRipe s op 3)
  | _ => event s

/-- The metadata register that an image holds (R303). -/
def setMeta (s : State) (tid reg : Nat) (b : List Byte) : State :=
  match ffind s.teams tid with
  | some t => s.setTeam tid { t with metan := fset t.metan reg 0 (~~~(BitVec.ofNat 16384 (leVal b))) }
  | none => s

/-- MLD_DONE (R320). -/
def execMldDone (op : Nat) (s : State) : Host.Outcome State Fault Refusal :=
  match matAt s op with
  | some (o, _, .mld reg addr) =>
    event (attempt s (engRead (o.eng s 7) false kEngRead addr 2048 s) (fun _ => s) (fun b s => opRipe (setMeta s o.team reg b) op 3))
  | _ => event s

/-- The bytes and flags of a row as ACCST stores it (R319). -/
def rowBytes (o : Op) (x : Tile) (r : Nat) (ty : Ty) (rnd : BitVec 3) (sat wide pad : Bool) : List Byte × Flags :=
  let outs := (List.range 128).map (fun c => accOut o ty rnd sat wide (fget x.el (128 * r + c) 0))
  (outs.flatMap (fun p => leBytes (accSize ty wide pad) p.1), orFlags (outs.map (fun p => p.2)))

/-- ACCST_ROW_DONE: one row is written and visible, with its arrival (R319). -/
def execAccstRowDone (op : Nat) (s : State) : Host.Outcome State Fault Refusal :=
  match matAt s op with
  | some (o, tile, .accst base row0 nrows pitch ty rnd sat wide pad scope rep rows) =>
    let (b, fl) := rowBytes o ((s.team o.team).tile tile) (row0 + rows) ty rnd sat wide pad
    let last := rows + 1 == nrows
    event (attempt s (engWrite (o.eng s 7) false kEngWrite (plus base (rows * pitch)) b s) (fun _ => s) (fun _ s =>
      let s := setMat s op tile (.accst base row0 nrows pitch ty rnd sat wide pad scope rep (rows + 1))
      let s := modOp s op (fun o => { o with flags := o.flags ||| fl })
      let s := match o.reg with
        | some (r, tag) => postArrival s o r tag none b.length last
        | none => s
      sweepTeams (if last then opRipe s op 3 else s)))
  | _ => event s

/-- DETAIL of a matrix operation's record (R324). -/
def matDetail (o : Op) (tile : Nat) (m : MatKind) (input : Word) : List Word :=
  let (nseg, at_, rows) := match m with
    | .mma _ _ _ _ nseg _ _ _ _ prog => (nseg - 1, prog, 0)
    | .accst _ row0 _ _ _ _ _ _ _ _ _ rows => (0, row0 + rows, rows)
    | _ => (0, 0, 0)
  [BitVec.ofNat 32 (o.op.toNat * 2 ^ 24 + ((tileNamed tile m).getD 0) * 2 ^ 16 + nseg * 256 + at_ % 128), input, BitVec.ofNat 32 rows, 0]

/-- The fault that an operation's next attempt meets. -/
def matFaultOf (s : State) (o : Op) (tile : Nat) (m : MatKind) : Option FaultInfo :=
  let of := fun {α : Type} (r : MemR α) (input : Option Word) => match r with
    | .fault f => some { f with mask := allLanes, det := matDetail o tile m (input.getD (f.det.getD 0 0)) }
    | _ => none
  match m with
  | .mma a b m n _ sparse pat ma mb prog => of (segAttempt s o tile a b m n prog sparse pat ma mb) none
  | .mld _ addr => of (engRead (o.eng s 7) false kEngRead addr 2048 s) (some 8)
  | .accst base row0 _ pitch ty rnd sat wide pad _ _ rows =>
    of (engWrite (o.eng s 7) false kEngWrite (plus base (rows * pitch)) (rowBytes o ((s.team o.team).tile tile) (row0 + rows) ty rnd sat wide pad).1 s)
      (some 9)
  | _ => none

/-- MATRIX_FAULT: an operation stops at its restart point (R322). -/
def execMatrixFault (op : Nat) (s : State) : Host.Outcome State Fault Refusal :=
  match matAt s op with
  | some (o, tile, m) => match matFaultOf s o tile m with
    | some f => event (faultOp s o f)
    | none => event s
  | none => event s

end Sys2Proof.Machine
end

