-- ==== Sys2Proof/Machine/Quant.lean ====
section
/-! DEFINITION. The quantiser: descriptors and checks (R328, R329, R340, R341), histograms (R330), clip points (R331), packing (R332 to
R337), list checks and resets (R338, R339), order and faults (R342 to R344). -/
namespace Sys2Proof.Machine

/-! ### Issue (R328, R341) -/

/-- A trap of the quantiser against the issuing fragment's mask. -/
def qTrap (s : State) (c : Iss) (cause : Nat) : Eff := .trap s [.plain (codeOf 8 cause) c.mask]

/-- The descriptor that 64 bytes hold (R328). -/
def qdescOf (b : List Byte) : QDesc :=
  let w := wordAt b 0x1C
  { src := dwordAt b 0, spitch := (wordAt b 8).toNat, toff := (wordAt b 0x0C).toNat, hoff := (wordAt b 0x10).toNat,
    coff := (wordAt b 0x14).toNat, foff := (wordAt b 0x18).toNat, sideB := bit w 31, bf16 := bits w 28 3 == 1, seg := (bits w 16 5).toNat,
    lines := (bits w 8 7).toNat + 1, pct := (bits (wordAt b 0x20) 0 11).toNat }

/-- Row 4 of R341: `clip` for QCLIP. -/
def qdescOk (b : List Byte) (d : QDesc) (clip : Bool) : Bool :=
  let w := wordAt b 0x1C
  bits w 21 7 == 0 && !bit w 15 && bits w 0 8 == 0 && bits (wordAt b 0x20) 11 21 == 0 && (b.drop 0x24).all (fun x => x == 0) &&
  (bits w 28 3).toNat ≤ 1 && (!d.sideB || d.lines == 128) && (!clip || (decide (1 ≤ d.pct) && decide (d.pct ≤ 1024))) &&
  decide (128 * d.ses ≤ d.spitch)

/-- Row 7 of R341. -/
def qtileOk (b : List Byte) (d : QDesc) (t : TileDesc) : Bool :=
  tileReservedOk b && [Ty.e4m3, .e5m2, .e2m1].contains t.fmt && decide (t.ocap ≤ (if d.sideB then 256 else 16)) &&
  decide (t.ocount ≤ t.ocap) && decide ((d.seg + 1) * lineBytes t.fmt ≤ t.pitch)

/-- Row 8 of R341: `tile` when a tile descriptor is used, `lists` when its lists are. -/
def qAligned (d : QDesc) (t : TileDesc) (tile lists : Bool) : Bool :=
  aligned d.hoff 64 && aligned d.coff 8 && aligned d.foff 4 && aligned d.src.toNat d.ses && aligned d.spitch d.ses &&
  (!tile || basesAligned (if lists && t.ocap != 0 then { t with ocount := t.ocap } else t))

/-- Row 9 of R341 for one range. -/
def qRangeOk (s : State) (tid : Nat) (r : QRange) : Bool :=
  let ro := fun (u off : Nat) => r.write && hitsReadOnly (s.team u) off r.n
  if r.loc then decide (r.addr.toNat + r.n ≤ (s.team tid).size) && !ro tid r.addr.toNat
  else rangeThere s tid r.addr r.n && !match regionOf r.addr with
    | .self off => ro tid off
    | .cluster pos off => match clusterTeam s tid pos with
      | some u => ro u off
      | none => false
    | _ => false

/-- A quantiser instruction: the checks of R341 in their order, then acceptance. -/
def quantEff (h : Hd) (x : WQ) (c : Iss) (s0 : State) : Eff :=
  let g := s0.group c.place
  let t := s0.team g.team
  let off := (g.rs c.slot h.b.toNat).toNat
  let code := c.op.toNat
  let usesTile := code == 0xD9 || code == 0xDA || code == 0xDB
  let rd := fun (off n : Nat) (s : State) => locAccess s 8 kEngRead g.team off n (BitVec.ofNat 64 off) none
  let go := fun (s : State) (d : QDesc) (td : TileDesc) =>
    if !qAligned d td usesTile (code == 0xDA) then qTrap s0 c cAlign
    else
      let sr := isSr x.rnd
      let g' := if sr then g.advanceSeeds allLanes else g
      let q : QuantOp := { code := code, d := d, td := td, sq := (List.range 32).map (fun l => fget g'.seed l 0), sr := sr, strict := x.strict,
                           acc := x.acc, scope := x.scope }
      if !(qRanges q).all (qRangeOk s0 g.team) then qTrap s0 c cProt
      else match acceptEff s c [4] none 0 (.quant q) with
        | .go s => if sr then goGroup s c (fun g => g.advanceSeeds allLanes) else .go s
        | e => e
  if !aligned off 64 then qTrap s0 c cAlign
  else if t.size < off + 64 then qTrap s0 c cProt
  else match rd off 64 s0 with
    | .fault f => .trap s0 [{ f with mask := c.mask }]
    | .wait s => .hold s
    | .absentMem => .own { s0 with absent := true }
    | .ok b s =>
      let d := qdescOf b
      if !qdescOk b d (code == 0xD9) then qTrap s0 c cIllegalForm
      else if !usesTile then go s d (tileOf [])
      else if !aligned d.toff 32 then qTrap s0 c cAlign
      else if t.size < d.toff + 32 then qTrap s0 c cProt
      else match rd d.toff 32 s with
        | .fault f => .trap s0 [{ f with mask := c.mask }]
        | .wait s => .hold s
        | .absentMem => .own { s0 with absent := true }
        | .ok tb s => if !qtileOk tb d (tileOf tb) then qTrap s0 c cIllegalForm else go s d (tileOf tb)

/-- QHIST (R330). -/
def execQhist (h : Hd) (x : WQ) (s : State) : Host.Outcome State Fault Refusal := issue (shQhist h x) 0xD8 3 h.st (quantEff h x) s
/-- QCLIP (R331). -/
def execQclip (h : Hd) (x : WQ) (s : State) : Host.Outcome State Fault Refusal := issue (shQclip h x) 0xD9 3 h.st (quantEff h x) s
/-- QPACK (R332). -/
def execQpack (h : Hd) (x : WQ) (s : State) : Host.Outcome State Fault Refusal := issue (shQpack h x) 0xDA 3 h.st (quantEff h x) s
/-- QOLST (R338). -/
def execQolst (h : Hd) (x : WQ) (s : State) : Host.Outcome State Fault Refusal := issue (shQolst h x) 0xDB 3 h.st (quantEff h x) s
/-- QRST (R339). -/
def execQrst (h : Hd) (x : WQ) (s : State) : Host.Outcome State Fault Refusal := issue (shQrst h x) 0xDC 3 h.st (quantEff h x) s

/-! ### What an operation computes -/

/-- What an operation comes to when its reads succeed: writes and flags; an overflow of a strict QPACK, with its first unit and the
number of units; a unit's clip record that ends the context. -/
inductive QEnd where
  | out (writes : List (Bool × DWord × List Byte)) (flags : Flags)
  | overflow (unit n : Nat)
  | bad (unit : Nat)

/-- The FP32 codes of a source line (R329). -/
def lineCodes (d : QDesc) (b : List Byte) : List Nat :=
  (List.range 128).map (fun k => if d.bf16 then leVal ((b.drop (2 * k)).take 2) * 65536 else leVal ((b.drop (4 * k)).take 4))

/-- Magnitude and class of an FP32 code. -/
def magOf (c : Nat) : Nat := c % 2 ^ 31
def isNan32 (c : Nat) : Bool := decide (0x7F800000 < magOf c)

/-- The lines of a unit. -/
def QDesc.linesOf (d : QDesc) (u : Nat) : List Nat := if d.sideB then List.range d.lines else [u]

/-- A histogram block over some elements, added to old counts (R330). -/
def histBlock (old : List Byte) (els : List Nat) : List Byte :=
  let cnt := fun (off : Nat) (f : Nat → Bool) => leBytes 2 (min 0xFFFF (leVal ((old.drop off).take 2) + (els.filter f).length))
  let bin := fun (e : Nat) => cnt (2 * e) (fun c => magOf c != 0 && !isNan32 c && magOf c / 2 ^ 23 == e)
  (List.range 256).flatMap bin ++ cnt 0x200 (fun c => magOf c == 0) ++ cnt 0x202 isNan32 ++ List.replicate 60 0

/-- EB and FMAX of a target as significand and exponent (R329). -/
def ebOf : Ty → Int
  | .e4m3 => 8
  | .e5m2 => 15
  | _ => 2

/-- The FP32 code of a power of two in the normal range. -/
def pow2Code (e : Int) : Nat := (e + 127).toNat * 2 ^ 23

/-- A clip record from a block (R331). -/
def clipRecord (fmt : Ty) (pct : Nat) (block : List Byte) : List Byte :=
  let bin := fun (e : Nat) => leVal ((block.drop (2 * e)).take 2)
  let sums := (List.range 255).foldl (fun (l : List Nat × Nat) e => (l.1 ++ [l.2 + bin e], l.2 + bin e)) ([], 0)
  let f := sums.2
  if f = 0 then leBytes 4 256 ++ leBytes 4 0x3F800000
  else
    let need := ceilDiv (pct * f) 1024
    let ce := ((List.range 255).find? (fun e => decide (need ≤ sums.1.getD e 0))).getD 254
    leBytes 4 ce ++ leBytes 4 (pow2Code (max ((ce : Int) - 126 - ebOf fmt) (-126)))

/-- A clip record: CE, EMPTY, MA. -/
structure Clip where
  ce : Nat
  empty : Bool
  ma : Nat

/-- The clip record that 8 bytes hold; none when it breaks R331. -/
def clipOf (b : List Byte) : Option Clip :=
  let w := wordAt b 0
  let ma := (wordAt b 4).toNat
  if bits w 9 23 != 0 || bits w 0 8 == 255 || ma = 0 || 0x7F800000 ≤ ma then none
  else some { ce := (bits w 0 8).toNat, empty := bit w 8, ma := ma }

/-- The magnitude of a value. -/
def Num.mag : Num → Num
  | .fin _ m e => .fin false m e
  | .inf _ => .inf false
  | x => x

/-- An exact quotient to 96 bits and a sticky bit below them, which every rounding of R86 takes as the quotient. -/
def quotient (x y : Num) : Num :=
  match x, y with
  | .fin s m e, .fin _ n k =>
    if m = 0 then .fin s 0 0
    else
      let q := m * 2 ^ 96 / n
      .fin s (2 * q + natOf (m * 2 ^ 96 % n != 0)) (e - k - 97)
  | x, _ => x

/-- The smallest n with |x| ≤ y × 2^n, for x and y not zero. -/
def leastScale (x y : Num) : Int :=
  match x, y with
  | .fin _ m e, .fin _ k f =>
    let n : Int := (m.log2 : Int) + e - ((k.log2 : Int) + f)
    match cmpNum (.fin false m e) (.fin false k (f + n)) with
    | .gt => n + 1
    | _ => n
  | _, _ => 0

/-- FMAX of a target (R329). -/
def fmaxOf (t : Ty) : Num := .fin false (fmOf t).maxM (fmOf t).maxQ

/-- A position of a unit in QPACK: line, k, its FP32 code. -/
structure QPos where
  l : Nat
  k : Nat
  code : Nat
  deriving DecidableEq

/-- The candidates of a unit in the order of R332. -/
def candidates (fmt : Ty) (ce : Nat) (ps : List QPos) : List QPos :=
  let c := ps.filter (fun p => if isNan32 p.code then fmt == .e2m1 else decide (ce < magOf p.code / 2 ^ 23))
  sortBy (fun a b =>
    if isNan32 a.code != isNan32 b.code then isNan32 a.code
    else if !isNan32 a.code && magOf a.code != magOf b.code then decide (magOf b.code < magOf a.code)
    else decide (128 * a.l + a.k ≤ 128 * b.l + b.k)) c

/-- The escape and NaN codes of a target (R329). -/
def escapeOf (t : Ty) : Nat := if t = .e2m1 then 8 else 0x7F
def nanCodeOf (t : Ty) : Nat := if t = .e4m3 then 0xFF else 0x7E

/-- The random bits of element (l, k) (R334). -/
def qRnd (sq : List Word) (l k : Nat) : BitVec 16 := (rotr (sq.getD (k % 32) 0) (8 * (k / 32))).setWidth 16 ^^^ BitVec.ofNat 16 (l * 0x2545)

/-- One unit packed (R332): the codes and micro-scales by line, the list entries, the flags, the status word. -/
structure Packed where
  els : List (List Nat)
  micro : List (List Nat)
  entries : List DWord
  flags : Flags
  status : Word

/-- The unit's elected positions and the others among its candidates. -/
def elect (q : QuantOp) (ce : Nat) (ps : List QPos) : List QPos × List QPos :=
  let c := candidates q.td.fmt ce ps
  (c.take q.td.ocap, c.drop q.td.ocap)

/-- One unit packed (R332, R335). -/
def packUnit (q : QuantOp) (cl : Clip) (ls : List (Nat × List Nat)) : Packed :=
  let fmt := q.td.fmt
  let ma := f32Val (BitVec.ofNat 32 cl.ma)
  let ps := ls.flatMap (fun x => ((List.range 128).zip x.2).map (fun y => ({ l := x.1, k := y.1, code := y.2 } : QPos)))
  let (e, over_) := elect q cl.ce ps
  let raw := fun (p : QPos) => f32Val (BitVec.ofNat 32 p.code)
  let val := fun (p : QPos) => if over_.contains p then
      (if isNan32 p.code then Num.zero else .fin (raw p).sign 1 ((cl.ce : Int) - 126)) else raw p
  let overFl := orFlags (over_.map (fun p => if isNan32 p.code then 0 else fNX ||| flagIf (magOf p.code == 0x7F800000) fOF))
  let block := fun (x : Nat × List Nat) (b : Nat) =>
    let bp := ((rangeFrom (4 * b) 4).map (fun k => ({ l := x.1, k := k, code := x.2.getD k 0 } : QPos)))
    let free := (bp.filter (fun p => !e.contains p)).map val
    let m := (free.filter (fun v => !v.isNaN)).foldl (fun a v => if cmpNum a v.mag == .lt then v.mag else a) Num.zero
    let ea : Int := if m.isZero then 127 else 127 + leastScale m (mulExact (fmaxOf fmt) ma)
    let scl := decide (ea < 0) || decide (254 < ea)
    let ea := max 0 (min 254 ea)
    let den := scaleBy ma (ea - 127)
    let out := bp.map (fun p =>
      if e.contains p then (escapeOf fmt, (0 : Flags))
      else if (val p).isNaN then (nanCodeOf fmt, 0)
      else roundTo (fmOf fmt) (if q.sr then .sr (qRnd q.sq p.l p.k) else .rn) true (quotient (val p) den))
    (out.map (fun o => o.1), ea.toNat, orFlags (out.map (fun o => o.2)), scl)
  let rows := ls.map (fun x => (List.range 32).map (block x))
  let es := sortBy (fun (a b : QPos) => decide (128 * a.l + a.k ≤ 128 * b.l + b.k)) e
  let vals := es.map (fun p => (p, roundTo .f32 .rn false (quotient (raw p).quiet ma), sigFlags [raw p]))
  { els := rows.map (fun r => r.flatMap (fun b => b.1)), micro := rows.map (fun r => r.map (fun b => b.2.1)),
    entries := vals.map (fun v => BitVec.ofNat 64 (2 ^ 63 + v.1.l * 2 ^ 39 + v.1.k * 2 ^ 32 + v.2.1.1)),
    flags := overFl ||| orFlags (rows.flatMap (fun r => r.map (fun b => b.2.2.1))) ||| orFlags (vals.map (fun v => v.2.1.2 ||| v.2.2)),
    status := BitVec.ofNat 32 (natOf (ps.any (fun p => isNan32 p.code)) * 2 ^ 31 + natOf (!over_.isEmpty) * 2 ^ 30 +
      natOf (rows.any (fun r => r.any (fun b => b.2.2.2))) * 2 ^ 29 + natOf (ps.all (fun p => magOf p.code == 0)) * 2 ^ 28 +
      natOf cl.empty * 2 ^ 27 + e.length) }

/-- The bytes of a line's codes: E2M1 elements two to a byte (R298, R333). -/
def codeBytes (t : Ty) (l : List Nat) : List Byte :=
  if t = .e2m1 then (pairUp l).map (fun p => BitVec.ofNat 8 (p.1 + 16 * p.2)) else l.map (BitVec.ofNat 8)

/-- What a packed unit writes (R333). -/
def packWrites (q : QuantOp) (u : Nat) (cl : Clip) (p : Packed) : List (Bool × DWord × List Byte) :=
  let d := q.d
  let t := q.td
  ((d.linesOf u).zip p.els).map (fun x => (false, t.elemAddr x.1 d.seg, codeBytes t.fmt x.2)) ++
  ((d.linesOf u).zip p.micro).map (fun x => (false, t.microAddr x.1 d.seg, x.2.map (BitVec.ofNat 8))) ++
  [(false, t.macroAddr d.sideB u d.seg, leBytes 4 cl.ma)] ++
  [(false, t.listAddr d.sideB u d.seg, (p.entries ++ List.replicate (t.ocap - p.entries.length) 0).flatMap (fun (e : DWord) => leBytes 8 e.toNat))] ++
  [(true, d.status u, leBytes 4 p.status.toNat)]

/-- The status word of QOLST (R338). -/
def olstStatus (q : QuantOp) (u : Nat) (els : List (Nat × List Nat)) (es : List DWord) : Word :=
  let esc := fun (l k : Nat) => isEscape q.td.fmt (((els.find? (fun x => x.1 == l)).elim [] (fun x => x.2)).getD k 0)
  let n := (els.map (fun x => (x.2.filter (isEscape q.td.fmt)).length)).sum
  let bare := (els.map (fun x => x.1)).any (fun l => (List.range 128).any (fun k => esc l k &&
    !es.any (fun e => entValid e && entRow e == l && entK e == k)))
  let fail := bare || !(listFailures (if q.d.sideB then none else some u) 128 esc es).isEmpty
  BitVec.ofNat 32 (natOf fail * 2 ^ 31 + n * 2 ^ 16 + (es.filter entValid).length)

/-- A unit's lines, each read at an address. -/
def readLines (e : Eng) (d : QDesc) (u n : Nat) (at_ : Nat → DWord) (s : State) : MemR (List (Nat × List Byte)) :=
  engAll (fun l s => (engRead e false kEngRead (at_ l) n s).bind (fun b s => .ok (l, b) s)) (d.linesOf u) s

/-- The units' results gathered. -/
def gather (l : List QEnd) : QEnd :=
  l.foldl (fun a b => match a, b with
    | .out w f, .out v g => .out (w ++ v) (f ||| g)
    | .bad u, _ => .bad u
    | _, .bad u => .bad u
    | .overflow u n, .overflow _ m => .overflow u (n + m)
    | .overflow u n, _ => .overflow u n
    | _, .overflow u n => .overflow u n) (.out [] 0)

/-- One unit of an operation, from memory as it stands. -/
def quantUnit (e : Eng) (q : QuantOp) (u : Nat) (s : State) : MemR QEnd :=
  let d := q.d
  let rdLoc := fun (a : DWord) (n : Nat) (s : State) => engRead e true kEngRead a n s
  match q.code with
  | 0xD8 => (readLines e d u (128 * d.ses) d.line s).bind (fun ls s =>
      (if q.acc then rdLoc (d.block u) 576 s else .ok [] s).bind (fun old s =>
        .ok (.out [(true, d.block u, histBlock old (ls.flatMap (fun l => lineCodes d l.2)))] 0) s))
  | 0xD9 => (rdLoc (d.block u) 576 s).bind (fun b s => .ok (.out [(true, d.clip u, clipRecord q.td.fmt d.pct b)] 0) s)
  | 0xDA => (rdLoc (d.clip u) 8 s).bind (fun b s => match clipOf b with
      | none => .ok (.bad u) s
      | some cl => (readLines e d u (128 * d.ses) d.line s).bind (fun ls s =>
          let codes := ls.map (fun l => (l.1, lineCodes d l.2))
          let p := packUnit q cl codes
          if q.strict && bit p.status 30 then .ok (.overflow u 1) s else .ok (.out (packWrites q u cl p) p.flags) s))
  | 0xDB => (readLines e d u (lineBytes q.td.fmt) (fun l => q.td.elemAddr l d.seg) s).bind (fun ls s =>
      (if q.td.ocount = 0 then .ok [] s else engRead e false kEngRead (q.td.listAddr d.sideB u d.seg) (8 * q.td.ocount) s).bind (fun b s =>
        let st := olstStatus q u (ls.map (fun l => (l.1, elemCodes q.td.fmt l.2))) ((List.range q.td.ocount).map (fun i => dwordAt b (8 * i)))
        .ok (.out [(true, d.status u, leBytes 4 st.toNat)] 0) s))
  | _ => .ok (.out [(true, d.block u, List.replicate 576 0), (true, d.status u, List.replicate 4 0)] 0) s

/-- Every page translated and every stash line filled before any byte is written (R343): the first fault in the order of R344. -/
def quantProbe (e : Eng) (q : QuantOp) (s : State) : MemR Unit :=
  (engAll (fun (r : QRange) s =>
    match engAll (fun (p : Nat × Nat) s => engOne e r.loc (if r.write then kEngWrite else kEngRead) p.2 (plus r.addr p.1)
      (if r.write then some id else none) s) (piecesOf r.addr r.n) s with
    | .fault f => MemR.fault { f with det := [BitVec.ofNat 32 r.unit, BitVec.ofNat 32 r.input] }
    | x => x) (qRanges q) s).bind (fun _ s => .ok () s)

/-- An operation attempted: its result, with its writes done (R342, R343). -/
def quantAttempt (s : State) (o : Op) (q : QuantOp) : MemR QEnd :=
  let e := o.eng s 8
  (quantProbe e q s).bind (fun _ _ => (engAll (quantUnit e q) (List.range q.d.units) s).bind (fun l s => match gather l with
    | .out w f => (engAll (fun (x : Bool × DWord × List Byte) s => engWrite e x.1 kEngWrite x.2.1 x.2.2 s) w s).bind (fun _ s => .ok (.out w f) s)
    | r => .ok r s))

/-! ### Events (R342 to R344) -/

/-- A quantiser operation that may act now. -/
def quantAt (s : State) (id : Nat) : Option (Op × QuantOp) :=
  (opById s id).bind (fun o => match o.kind with
    | .quant q => if opRuns s o && o.stop.isNone && !o.todo.isEmpty && quantReady s o then some (o, q) else none
    | _ => none)

/-- DETAIL of a quantiser operation's record (R344). -/
def quantDetail (o : Op) (unit input n : Nat) : List Word :=
  [BitVec.ofNat 32 (o.op.toNat * 2 ^ 24 + unit), BitVec.ofNat 32 input, BitVec.ofNat 32 n, 0]

/-- QUANT_OP_DONE: the operation reads, computes and writes (R342); a clip record that breaks R331 ends the context. -/
def execQuantOpDone (op : Nat) (s : State) : Host.Outcome State Fault Refusal :=
  match quantAt s op with
  | none => event s
  | some (o, q) =>
    event (attempt s (quantAttempt s o q) (fun _ => s) (fun r s' => match r with
      | .out _ fl => opRipe (modOp s' op (fun o => { o with flags := o.flags ||| fl })) op 4
      | .overflow _ _ => s
      | .bad u => doomOp s o { FaultInfo.plain (codeOf 8 cEngine) allLanes with det := quantDetail o u 2 0 }))

/-- QUANT_FAULT: a translation fault, or an overflow of a strict QPACK, stops the operation at its start (R337, R343). -/
def execQuantFault (op : Nat) (s : State) : Host.Outcome State Fault Refusal :=
  match quantAt s op with
  | none => event s
  | some (o, q) => match quantAttempt s o q with
    | .fault f => event (faultOp s o { f with mask := allLanes, det := quantDetail o (f.det.getD 0 0).toNat (f.det.getD 1 0).toNat 0 })
    | .ok (.overflow u n) _ =>
      let f : FaultInfo := { code := codeOf 8 cOutOverflow, mask := allLanes, addr := q.td.listAddr q.d.sideB u q.d.seg, kind := kNone,
                             first := false, det := quantDetail o u 6 n }
      let s := modOp s op (fun o => { o with kind := .quant { q with strict := false } })
      event (stopOp s op [f])
    | _ => event s

end Sys2Proof.Machine
end

