-- ==== Sys2Proof/Machine/Special.lean ====
section
/-! DEFINITION. Special registers (R107, R108, R139, R19, R85, R96) and register blocks (R126, R140). -/
namespace Sys2Proof.Machine

/-- A group's engine counter (R17). -/
def Group.count (g : Group) (cls : Nat) : Nat := fget g.cnt cls 0

/-- The value of a uniform special register as a fragment reads it (R107). SV registers read as zero in user mode (R2). -/
def sregRead (s : State) (g : Group) (f : Frag) (n : Nat) : Word :=
  let t := s.team g.team
  let w := fun (k : Nat) => BitVec.ofNat 32 k
  let sv := fun (x : Word) => if f.sup then x else 0
  let hs := (s.ctx g.page).d.hsavebase + BitVec.ofNat 64 ((s.ctx g.page).d.hsavestride.toNat * (64 * g.core + g.gslot))
  match n with
  | 0x01 => w g.role
  | 0x02 => w g.idx
  | 0x03 => w t.ngroup
  | 0x04 => w t.t
  | 0x05 => w (t.row * 256 + t.col)
  | 0x06 => w g.core
  | 0x07 => w s.pkg
  | 0x08 => w (s.clkOf g.core)
  | 0x09 => f.chl
  | 0x0A => lo32 f.fmt
  | 0x0B => lo32 g.fstat
  | 0x0D => g.seedbase
  | 0x0E => w (g.count 3 * 2 ^ 24 + g.count 2 * 2 ^ 16 + g.count 1 * 256 + g.count 0)
  | 0x0F => w (g.count 5 * 256 + g.count 4)
  | 0x10 => f.mask
  | 0x11 => g.exited
  | 0x12 => w g.allot
  | 0x13 => w g.sp
  | 0x14 => lo32 f.rsp
  | 0x15 => w g.gslot
  | 0x20 => sv (lo32 g.h.ecause)
  | 0x21 => sv (lo32 g.h.epc)
  | 0x22 => sv (hi32 g.h.epc)
  | 0x23 => sv (lo32 g.h.enpc)
  | 0x24 => sv (hi32 g.h.enpc)
  | 0x25 => sv (lo32 g.h.eaddr)
  | 0x26 => sv (hi32 g.h.eaddr)
  | 0x27 => sv g.h.emask
  | 0x28 => sv g.h.efrag
  | 0x29 => sv (if g.h.replay then 1 else 0)
  | 0x2A => g.h.ersp ++ 0#14 ++ g.h.efmt
  | 0x2B => lo32 hs
  | 0x2C => hi32 hs
  | 0x2D => sv g.h.erest
  | _ => 0

/-- RSR of FSTAT waits for the group's engine operations that may still raise flags (R85), in a handler too. -/
def fstatWaits (s : State) (place : Nat) : Bool :=
  s.ops.any (fun o => o.place == place && match o.kind with
    | .matrix _ _ => true
    | .quant _ => true
    | _ => false)

/-- RSR's effect (R107, R108): register a receives special register n. A read of FSTAT waits until the older instructions of the fragment have made
their updates, and sees of the other fragment's only those made by then (R85, log 131). -/
def rsrEff (dst : List (RegName × Nat)) (n : Nat) (c : Iss) (s : State) : Eff :=
  let g := s.group c.place
  let f := theFrag s c
  if n = 0x0B && fstatWaits s c.place then .hold s
  else if sregLane n then
    goGroup s c (fun g => g.put c.slot dst ((lanes c.act).map (fun l =>
      (l, if n = 0x00 then BitVec.ofNat 64 l else zx (fget g.seed l 0)))))
  else
    let s' := if n = 0x08 then
        s.modGroup c.place (fun g => g.modFrag c.slot (fun f => { f with chl := BitVec.ofNat 32 (nowAt s c.place / 2 ^ 32) }))
      else s
    let own := fun (g : Group) => if n = 0x0B then g.settleFlags c.slot else g
    goGroup s' c (fun g' => (own g').put c.slot dst [(0, zx (sregRead s (own g) f n))])

/-- RSR (R139). -/
def execRsr (h : Hd) (s : State) : Host.Outcome State Fault Refusal :=
  issue (shRsr h) 0x23 3 h.st (rsrEff (shRsr h).dst h.b.toNat) s
/-- RSR, mould U1. -/
def execRsrU1 (f : F1) (s : State) : Host.Outcome State Fault Refusal :=
  issue (shRsrU1 f) 0x23 1 f.st (rsrEff (shRsrU1 f).dst f.b.toNat) s

/-- A supervisor write of a handler register (R107). -/
def Handler.write (h : Handler) (n : Nat) (v : Word) : Handler :=
  match n with
  | 0x20 => { h with ecause := v.setWidth 16 }
  | 0x21 => { h with epc := cat (hi32 h.epc) v }
  | 0x22 => { h with epc := cat v (lo32 h.epc) }
  | 0x23 => { h with enpc := cat (hi32 h.enpc) v }
  | 0x24 => { h with enpc := cat v (lo32 h.enpc) }
  | 0x25 => { h with eaddr := cat (hi32 h.eaddr) v }
  | 0x26 => { h with eaddr := cat v (lo32 h.eaddr) }
  | 0x27 => { h with emask := v }
  | 0x28 => { h with efrag := v }
  | 0x29 => { h with replay := bit v 0 }
  | 0x2D => { h with erest := v }
  | _ => h

/-- WSR's effect (R107, R96): writes to read-only registers, and user-mode writes to SV registers, are ignored. -/
def wsrEff (a n : Nat) (c : Iss) (s : State) : Eff :=
  goGroup s c (fun g =>
    if n = 0x0A then g.modFrag c.slot (fun f => { f with fmt := (g.rs c.slot a).setWidth 2 })
    else if n = 0x0B then { g with fstat := g.fstat &&& ~~~((g.rs c.slot a).setWidth 7) }
    else if n = 0x0C then
      { g with seed := (lanes c.act).foldl (fun m l => fset m l 0 (if g.rv c.slot a l = 0 then 1 else g.rv c.slot a l)) g.seed }
    else if c.sup then { g with h := g.h.write n (g.rs c.slot a) } else g)

/-- WSR (R139). -/
def execWsr (h : Hd) (s : State) : Host.Outcome State Fault Refusal :=
  issue (shWsr h) 0x24 3 h.st (wsrEff h.a.toNat h.b.toNat) s
/-- WSR, mould U1. -/
def execWsrU1 (f : F1) (s : State) : Host.Outcome State Fault Refusal :=
  issue (shWsrU1 f) 0x24 1 f.st (wsrEff f.a.toNat f.b.toNat) s

/-! ### Register blocks (R126) -/

/-- The blocks in a team's pool of a quadrant. -/
def Team.pool (t : Team) (quad : Nat) : Nat := fget t.pools quad 0

/-- A team's pool of a quadrant changed. -/
def setPool (s : State) (tid quad n : Nat) : State :=
  match ffind s.teams tid with
  | some t => s.setTeam tid { t with pools := fset t.pools quad 0 n }
  | none => s

/-- Both instructions need every live lane of the group in the issuing fragment. The check comes before that of the registers: R126 gives no order
(log 132). -/
def blockCheck (s : State) (c : Iss) (k : Unit → Eff) : Eff :=
  if c.mask != ~~~(s.group c.place).exited then .trap s [.plain (codeOf 0 cConvergence) c.mask] else k ()

/-- REGGIVE: the top blocks go to the quadrant's pool, once no engine write to them is outstanding, nor one of an instruction that waits in the held
slot or that the handler interrupted (R126). -/
def execReggive (h : Hd) (x : WNib) (s : State) : Host.Outcome State Fault Refusal :=
  issue (shReggive h x) 0x25 3 h.st (fun c s => blockCheck s c (fun _ =>
    let g := s.group c.place
    let n := x.n.toNat
    if g.allot < 32 * n + 32 then .trap s [.plain (codeOf 0 cRegRange) c.mask]
    else
      let lo := g.allot - 32 * n
      let top := fun (r : RegName) => match r with
        | .v i => decide (lo ≤ i)
        | _ => false
      if (pendingRegs s c.place ++ (waitWrites s g c.slot).1 ++ (waitWrites s g c.slot).2).any top then .hold s
      else
        let s := setPool s g.team g.quad ((s.team g.team).pool g.quad + n)
        goGroup s c (fun g =>
          let g := g.drain (fun w => top w.reg)
          { g with allot := lo, v := g.v.filter (fun x => decide (x.1 < 32 * lo)) }))) s

/-- The claims of a team that wait on a quadrant's pool: order, place, slot and blocks; slot 2 is a wait that a handler interrupted (R28). -/
def claimsOf (s : State) (tid quad : Nat) : List (Nat × Nat × Nat × Nat) :=
  sortBy (fun a b => decide (a.1 ≤ b.1)) (s.groups.flatMap (fun p =>
    if p.2.team != tid || p.2.quad != quad then []
    else [0, 1, 2].flatMap (fun slot => match if slot = 2 then p.2.h.wait else (p.2.frag slot).bind (fun f => f.wait) with
      | some (.claim n o) => [(o, p.1, slot, n)]
      | _ => [])))

/-- Blocks taken from the pool: the allotment rises and the new registers read zero (R126). -/
def takeBlocks (s : State) (place n : Nat) : State :=
  let g := s.group place
  let s := setPool s g.team g.quad ((s.team g.team).pool g.quad - n)
  s.modGroup place (fun g => { g with allot := g.allot + 32 * n, v := g.v.filter (fun x => decide (x.1 < 32 * g.allot)) })

/-- REGCLAIM: blocks from the pool, or a wait in issue order (R126). -/
def execRegclaim (h : Hd) (x : WNib) (s : State) : Host.Outcome State Fault Refusal :=
  issue (shRegclaim h x) 0x26 3 h.st (fun c s => blockCheck s c (fun _ =>
    let g := s.group c.place
    let n := x.n.toNat
    if 512 < g.allot + 32 * n then .trap s [.plain (codeOf 0 cRegRange) c.mask]
    else if n ≤ (s.team g.team).pool g.quad && (claimsOf s g.team g.quad).isEmpty then .go (takeBlocks s c.place n)
    else
      let (o, s) := s.draw
      goGroup s c (fun g => g.modFrag c.slot (fun f => { f with wait := some (.claim n o) })))) s

/-- REGCLAIM_GRANT: the first waiting claim of a pool is served when the pool holds its blocks (R126). -/
def execRegclaimGrant (team quad : Nat) (s : State) : Host.Outcome State Fault Refusal :=
  match (claimsOf s team quad).head? with
  | some (_, place, slot, n) =>
    if n ≤ (s.team team).pool quad then
      let s := takeBlocks s place n
      event (s.modGroup place (fun g =>
        if slot = 2 then { g with h := { g.h with wait := none } } else g.modFrag slot (fun f => { f with wait := none })))
    else event s
  | none => event s

end Sys2Proof.Machine
end

