-- ==== Sys2Proof/Machine/Stash.lean ====
section
/-! DEFINITION. Stash windows: the four stash instructions (R194, R195) and the events of stash lines and of L2 (R179 to R186). -/
namespace Sys2Proof.Machine

/-- The fault of a stash instruction for its active lanes (R194, R195), with address 0 and KIND 0x0F (DESIGN CHOICE, log 149). -/
def stashTrap (s : State) (c : Iss) (cause : Nat) : Eff := .trap s [.plain (codeOf 2 cause) c.act]

/-- Two ranges meet. -/
def meet (a n b m : Nat) : Bool := decide (a < b + m) && decide (b < a + n)

/-- The live windows of a team that a new one would overlap, in offsets or in global lines (R184). -/
def stashOverlap (t : Team) (loff size gbase : Nat) : Bool :=
  t.windows.any (fun w => meet loff size w.2.loff w.2.size || meet gbase size w.2.gbase.toNat w.2.size)

/-- The local range of a window becomes undefined. -/
def spoilWindow (s : State) (t : Team) (loff size : Nat) : State :=
  s.undefRange (localKey t.core (t.base + loff)) (localKey t.core (t.base + loff) + size)

/-- STASHMAP (R194). -/
def execStashmap (h : Hd) (x : WStash) (s : State) : Host.Outcome State Fault Refusal :=
  issue (shStashmap h) 0x9C 3 h.st (fun c s =>
    let g := s.group c.place
    let t := s.team g.team
    let loff := (g.rs c.slot h.b.toNat).toNat
    let gbase := g.rs64 c.slot h.c.toNat
    let size := (g.rs c.slot h.d.toNat).toNat
    if !aligned loff 256 || !aligned size 256 || !aligned gbase.toNat 256 || size = 0 then stashTrap s c cAlign
    else if t.size < loff + size || !inTranslated gbase size then stashTrap s c cProt
    else if (ffind t.windows x.win.toNat).isSome || stashOverlap t loff size gbase.toNat then stashTrap s c cIllegalForm
    else
      let s := spoilWindow s t loff size
      .go (s.setTeam g.team { s.team g.team with
        windows := fput (s.team g.team).windows x.win.toNat { rw := x.flag, loff := loff, size := size, gbase := gbase, lines := [] } })) s

/-- What the write-backs of several lines come to: the state, the faults of the lines that failed, a malformed entry, absent memory. -/
structure SyncRes where
  s : State
  faults : List FaultInfo
  absent : Bool

/-- Every Owned line of some windows written back (R181, R183). -/
def syncLines (s : State) (tid : Nat) (act : Mask) (ls : List (Nat × Nat)) : SyncRes :=
  ls.foldl (fun r l =>
    let flt := fun (code : BitVec 16) (va : DWord) =>
      { r with faults := r.faults ++ [{ code := code, mask := act, addr := va, kind := kWriteBack, first := false, det := [] }] }
    match tryWriteBack r.s tid l.1 l.2 with
    | .done s => { r with s := s }
    | .refused cause va => flt (codeOf 2 cause) va
    | .malformed va => flt (codeOf 3 cEngine) va
    | .absentMem => { r with absent := true }) { s := s, faults := [], absent := false }

/-- The lines of a team's window that are not Invalid. -/
def linesOf (t : Team) (win : Nat) : List (Nat × Nat) :=
  ((ffind t.windows win).map (fun w => w.lines.map (fun l => (win, l.1)))).getD []

/-- A window's write-backs, then `fin`; the fragment parks when one fails, and the instruction is issued again (R183). -/
def syncEff (c : Iss) (s : State) (tid : Nat) (ls : List (Nat × Nat)) (fin : State → State) : Eff :=
  let r := syncLines s tid c.act ls
  if r.absent then .own { s with absent := true }
  else if r.faults.isEmpty then .go (fin r.s)
  else .trap r.s r.faults

/-- STASHUNMAP (R195). -/
def execStashunmap (h : Hd) (x : WStash) (s : State) : Host.Outcome State Fault Refusal :=
  issue (shStashunmap h x) 0x9D 3 h.st (fun c s =>
    let tid := (s.group c.place).team
    match ffind (s.team tid).windows x.win.toNat with
    | none => stashTrap s c cIllegalForm
    | some w => syncEff c s tid (linesOf (s.team tid) x.win.toNat) (fun s =>
        let s := spoilWindow s (s.team tid) w.loff w.size
        s.setTeam tid { s.team tid with windows := fdel (s.team tid).windows x.win.toNat })) s

/-- STASHSYNC, of one window or of all (R195). -/
def execStashsync (h : Hd) (x : WStash) (s : State) : Host.Outcome State Fault Refusal :=
  issue (shStashsync h x) 0x9E 3 h.st (fun c s =>
    let tid := (s.group c.place).team
    let t := s.team tid
    if x.flag then syncEff c s tid (t.windows.flatMap (fun w => linesOf t w.1)) (fun s => s)
    else if (ffind t.windows x.win.toNat).isNone then stashTrap s c cIllegalForm
    else syncEff c s tid (linesOf t x.win.toNat) (fun s => s)) s

/-- STASHINV: every line Invalid, dirty bytes lost (R195). -/
def execStashinv (h : Hd) (x : WStash) (s : State) : Host.Outcome State Fault Refusal :=
  issue (shStashinv h x) 0x9F 3 h.st (fun c s =>
    let tid := (s.group c.place).team
    match ffind (s.team tid).windows x.win.toNat with
    | none => stashTrap s c cIllegalForm
    | some w => .go (s.setTeam tid { s.team tid with windows := fput (s.team tid).windows x.win.toNat { w with lines := [] } })) s

/-! ### Events -/

/-- A line number lies in a live window of a team. -/
def lineThere (s : State) (team win line : Nat) : Bool :=
  match ffind (s.team team).windows win with
  | some w => decide (256 * line < w.size)
  | none => false

/-- STASH_FILL: an Invalid line of a live window is brought in (R180); a fill that would fault raises its fault at the access. -/
def execStashFill (team win line : Nat) (s : State) : Host.Outcome State Fault Refusal :=
  if !lineThere s team win line then event s
  else match fillLine s 2 team win line with
    | .ok _ s => event s
    | .wait s => event s
    | .fault _ => event s
    | .absentMem => event { s with absent := true }

/-- STASH_WRITE_BACK: dirty bytes go to the global line, or a record is posted (R181, R183). -/
def execStashWriteBack (team win line : Nat) (s : State) : Host.Outcome State Fault Refusal := event (writeBack s team win line).2

/-- L2_RECALL: the line is written back and becomes Invalid (R181). -/
def execL2Recall (team win line : Nat) (s : State) : Host.Outcome State Fault Refusal := event (remoteLine s true team win line).2

/-- REMOTE_LINE_REQUEST: a read or an ownership request from a remote agent (R179). -/
def execRemoteLineRequest (write : Bool) (team win line : Nat) (s : State) : Host.Outcome State Fault Refusal :=
  event (remoteLine s write team win line).2

/-- The home slice of a device physical address (R185). -/
def homeSlice (pa : Nat) : BitVec 7 :=
  let f := fun (lo n : Nat) => BitVec.ofNat 7 (pa / 2 ^ lo % 2 ^ n)
  f 8 7 ^^^ f 15 7 ^^^ f 22 7 ^^^ f 29 7 ^^^ f 36 7 ^^^ f 43 5

/-- LINE_MIGRATION: a device line is held by another slice, or by its home again (R186). -/
def execLineMigration (line : Nat) (slice : BitVec 7) (s : State) : Host.Outcome State Fault Refusal :=
  if 2 ^ 31 ≤ line then event s
  else event { s with forward := fset s.forward line (homeSlice (256 * line)).toNat slice.toNat }

end Sys2Proof.Machine
end

