-- ==== Sys2Proof/Machine/Crypto.lean ====
section
/-! DEFINITION. The two functions that the spec takes from outside itself for images and attestation (R423, R424): SHA-512, as FIPS 180-4
gives it, and Ed25519, as RFC 8032 gives it (PRESUMED, log 147: the spec names them and does not define them). -/
namespace Sys2Proof.Machine

/-! ### SHA-512 (FIPS 180-4) -/

/-- The eight words a SHA-512 block updates. -/
structure Sha where
  a : DWord
  b : DWord
  c : DWord
  d : DWord
  e : DWord
  f : DWord
  g : DWord
  h : DWord
  deriving DecidableEq, Repr

/-- The initial value: the fractions of the square roots of the first eight primes. -/
def Sha.init : Sha :=
  Sha.mk 0x6a09e667f3bcc908 0xbb67ae8584caa73b 0x3c6ef372fe94f82b 0xa54ff53a5f1d36f1
    0x510e527fade682d1 0x9b05688c2b3e6c1f 0x1f83d9abfb41bd6b 0x5be0cd19137e2179

/-- The round constants: the fractions of the cube roots of the first eighty primes, in five parts. -/
def shaConstA : List DWord := [
  0x428a2f98d728ae22, 0x7137449123ef65cd, 0xb5c0fbcfec4d3b2f, 0xe9b5dba58189dbbc,
  0x3956c25bf348b538, 0x59f111f1b605d019, 0x923f82a4af194f9b, 0xab1c5ed5da6d8118,
  0xd807aa98a3030242, 0x12835b0145706fbe, 0x243185be4ee4b28c, 0x550c7dc3d5ffb4e2,
  0x72be5d74f27b896f, 0x80deb1fe3b1696b1, 0x9bdc06a725c71235, 0xc19bf174cf692694]
def shaConstB : List DWord := [
  0xe49b69c19ef14ad2, 0xefbe4786384f25e3, 0x0fc19dc68b8cd5b5, 0x240ca1cc77ac9c65,
  0x2de92c6f592b0275, 0x4a7484aa6ea6e483, 0x5cb0a9dcbd41fbd4, 0x76f988da831153b5,
  0x983e5152ee66dfab, 0xa831c66d2db43210, 0xb00327c898fb213f, 0xbf597fc7beef0ee4,
  0xc6e00bf33da88fc2, 0xd5a79147930aa725, 0x06ca6351e003826f, 0x142929670a0e6e70]
def shaConstC : List DWord := [
  0x27b70a8546d22ffc, 0x2e1b21385c26c926, 0x4d2c6dfc5ac42aed, 0x53380d139d95b3df,
  0x650a73548baf63de, 0x766a0abb3c77b2a8, 0x81c2c92e47edaee6, 0x92722c851482353b,
  0xa2bfe8a14cf10364, 0xa81a664bbc423001, 0xc24b8b70d0f89791, 0xc76c51a30654be30,
  0xd192e819d6ef5218, 0xd69906245565a910, 0xf40e35855771202a, 0x106aa07032bbd1b8]
def shaConstD : List DWord := [
  0x19a4c116b8d2d0c8, 0x1e376c085141ab53, 0x2748774cdf8eeb99, 0x34b0bcb5e19b48a8,
  0x391c0cb3c5c95a63, 0x4ed8aa4ae3418acb, 0x5b9cca4f7763e373, 0x682e6ff3d6b2b8a3,
  0x748f82ee5defb2fc, 0x78a5636f43172f60, 0x84c87814a1f0ab72, 0x8cc702081a6439ec,
  0x90befffa23631e28, 0xa4506cebde82bde9, 0xbef9a3f7b2c67915, 0xc67178f2e372532b]
def shaConstE : List DWord := [
  0xca273eceea26619c, 0xd186b8c721c0c207, 0xeada7dd6cde0eb1e, 0xf57d4f7fee6ed178,
  0x06f067aa72176fba, 0x0a637dc5a2c898a6, 0x113f9804bef90dae, 0x1b710b35131c471b,
  0x28db77f523047d84, 0x32caab7b40c72493, 0x3c9ebe0a15c9bebc, 0x431d67c49c100d4c,
  0x4cc5d4becb3e42b6, 0x597f299cfc657e2a, 0x5fcb6fab3ad6faec, 0x6c44198c4a475817]

/-- All eighty. -/
def shaConsts : List DWord := shaConstA ++ shaConstB ++ shaConstC ++ shaConstD ++ shaConstE

/-- The next word of the message schedule, from the last sixteen. -/
def shaNext (w : List DWord) : DWord :=
  let x := w.getD 1 0
  let y := w.getD 14 0
  (y.rotateRight 19 ^^^ y.rotateRight 61 ^^^ (y >>> 6)) + w.getD 9 0 + (x.rotateRight 1 ^^^ x.rotateRight 8 ^^^ (x >>> 7)) + w.getD 0 0

/-- One round with constant k and schedule word w. -/
def Sha.round (s : Sha) (k w : DWord) : Sha :=
  let t1 := s.h + (s.e.rotateRight 14 ^^^ s.e.rotateRight 18 ^^^ s.e.rotateRight 41) + ((s.e &&& s.f) ^^^ (~~~s.e &&& s.g)) + k + w
  let t2 := (s.a.rotateRight 28 ^^^ s.a.rotateRight 34 ^^^ s.a.rotateRight 39) + ((s.a &&& s.b) ^^^ (s.a &&& s.c) ^^^ (s.b &&& s.c))
  { a := t1 + t2, b := s.a, c := s.b, d := s.c, e := s.d + t1, f := s.e, g := s.f, h := s.g }

/-- The rounds of one block: the window w of sixteen schedule words moves on by one word a round. -/
def Sha.rounds : List DWord → Sha → List DWord → Sha
  | [], s, _ => s
  | k :: ks, s, w => Sha.rounds ks (s.round k (w.getD 0 0)) (w.drop 1 ++ [shaNext w])

/-- One block of sixteen words. -/
def Sha.block (s : Sha) (w : List DWord) : Sha :=
  let r := Sha.rounds shaConsts s w
  { a := s.a + r.a, b := s.b + r.b, c := s.c + r.c, d := s.d + r.d, e := s.e + r.e, f := s.f + r.f, g := s.g + r.g, h := s.h + r.h }

/-- The 64-bit word whose most significant byte comes first. -/
def beDword (l : List Byte) : DWord := BitVec.ofNat 64 (leVal l.reverse)

/-- A 64-bit word's bytes, the most significant first. -/
def beBytes (x : DWord) : List Byte := (leBytes 8 x.toNat).reverse

/-- The message padded to whole blocks of 128 bytes: 0x80, zeros, and its length in bits in sixteen bytes. -/
def shaPad (l : List Byte) : List Byte :=
  l ++ [0x80] ++ List.replicate ((239 - l.length % 128) % 128) 0 ++ (leBytes 16 (8 * l.length)).reverse

/-- The words of one block of bytes. -/
def shaWords (l : List Byte) : List DWord := (List.range 16).map (fun i => beDword ((l.drop (8 * i)).take 8))

/-- SHA-512 of a list of bytes, as its 64 bytes. -/
def sha512Bytes (l : List Byte) : List Byte :=
  let p := shaPad l
  let r := (List.range (p.length / 128)).foldl (fun s i => s.block (shaWords ((p.drop (128 * i)).take 128))) Sha.init
  [r.a, r.b, r.c, r.d, r.e, r.f, r.g, r.h].flatMap beBytes

/-- SHA-512 of a list of bytes, as the number whose byte i, from the least significant, is byte i of the digest. -/
def sha512 (l : List Byte) : BitVec 512 := BitVec.ofNat 512 (leVal (sha512Bytes l))

/-! ### Ed25519 (RFC 8032, section 5.1) -/

/-- The field's prime, 2^255 - 19. -/
def edP : Nat := 2 ^ 255 - 19

/-- The order of the base point. -/
def edL : Nat := 2 ^ 252 + 27742317777372353535851937790883648493

/-- The curve's constant, -121665/121666. -/
def edD : Nat := 37095705934669439343138083508754565189542113879843219016388785533085940283555

/-- x to the power n modulo p, by the bits of n, at most `fuel` of them. -/
def powMod (p x : Nat) : Nat → Nat → Nat
  | 0, _ => 1 % p
  | fuel + 1, n =>
    let y := powMod p x fuel (n / 2)
    if n % 2 = 1 then y * y % p * x % p else y * y % p

/-- The inverse in the field. -/
def edInv (x : Nat) : Nat := powMod edP x 255 (edP - 2)

/-- A point in extended coordinates: x = X/Z, y = Y/Z, xy = T/Z. -/
structure EdPoint where
  x : Nat
  y : Nat
  z : Nat
  t : Nat
  deriving DecidableEq, Repr

/-- The neutral point. -/
def EdPoint.zero : EdPoint := { x := 0, y := 1, z := 1, t := 0 }

/-- The sum of two points. -/
def EdPoint.add (p q : EdPoint) : EdPoint :=
  let a := (p.y + edP - p.x) * (q.y + edP - q.x) % edP
  let b := (p.y + p.x) * (q.y + q.x) % edP
  let c := 2 * p.t * q.t * edD % edP
  let d := 2 * p.z * q.z % edP
  let e := b + edP - a
  let f := d + edP - c
  let g := d + c
  let h := b + a
  { x := e * f % edP, y := g * h % edP, z := f * g % edP, t := e * h % edP }

/-- n times a point, by the bits of n, at most `fuel` of them. -/
def EdPoint.mul (p : EdPoint) : Nat → Nat → EdPoint
  | 0, _ => EdPoint.zero
  | fuel + 1, n =>
    let q := p.mul fuel (n / 2)
    if n % 2 = 1 then (q.add q).add p else q.add q

/-- Two points are the same point. -/
def EdPoint.same (p q : EdPoint) : Bool := p.x * q.z % edP == q.x * p.z % edP && p.y * q.z % edP == q.y * p.z % edP

/-- The root of (y^2 - 1)/(d y^2 + 1) with the sign bit given, if there is one. -/
def edRoot (y sign : Nat) : Option Nat :=
  let x2 := (y * y + edP - 1) * edInv (edD * y * y % edP + 1) % edP
  let r := powMod edP x2 255 ((edP + 3) / 8)
  let x := if r * r % edP = x2 then r else r * powMod edP 2 255 ((edP - 1) / 4) % edP
  if edP ≤ y || x * x % edP != x2 || (x == 0 && sign == 1) then none
  else some (if x % 2 = sign then x else edP - x)

/-- A point from the number its 32 bytes hold, least significant first: y, and the sign of x in the top bit. -/
def edDecode (v : Nat) : Option EdPoint :=
  let y := v % 2 ^ 255
  (edRoot y (v / 2 ^ 255 % 2)).map (fun x => { x := x, y := y, z := 1, t := x * y % edP })

/-- A point's number. -/
def edEncode (p : EdPoint) : Nat :=
  let i := edInv p.z
  p.y * i % edP + 2 ^ 255 * (p.x * i % edP % 2)

/-- The base point. -/
def edBase : EdPoint :=
  let x := 15112221349535400772501151409588531511454012693041857206046113283949847762202
  let y := 46316835694926478169428394003475163141307993866256225615783033603165251855960
  { x := x, y := y, z := 1, t := x * y % edP }

/-- SHA-512 of a list of bytes as a number, least significant byte first, modulo the order of the base point. -/
def edHash (l : List Byte) : Nat := (sha512 l).toNat % edL

/-- The secret scalar of a secret key: the low half of its hash, with the bits that Ed25519 fixes. -/
def edScalar (h : BitVec 512) : Nat := 2 ^ 254 + h.toNat % 2 ^ 254 / 8 * 8

/-- The public key of a secret key. -/
def ed25519Public (seed : BitVec 256) : BitVec 256 :=
  BitVec.ofNat 256 (edEncode (edBase.mul 256 (edScalar (sha512 (leBytes 32 seed.toNat)))))

/-- The signature of a message under a secret key: the 64 bytes R, S as a number, least significant byte first. -/
def ed25519Sign (seed : BitVec 256) (m : List Byte) : BitVec 512 :=
  let h := sha512 (leBytes 32 seed.toNat)
  let r := edHash (leBytes 32 (h.toNat / 2 ^ 256) ++ m)
  let rp := edEncode (edBase.mul 256 r)
  let k := edHash (leBytes 32 rp ++ leBytes 32 (ed25519Public seed).toNat ++ m)
  BitVec.ofNat 512 (rp + 2 ^ 256 * ((r + k * edScalar h) % edL))

/-- The signature of a message is good under a public key: both points decode, S is below the order, and 8 S B = 8 R + 8 k A. -/
def ed25519Verify (key : BitVec 256) (m : List Byte) (sig : BitVec 512) : Bool :=
  let rp := sig.toNat % 2 ^ 256
  let s := sig.toNat / 2 ^ 256
  match edDecode key.toNat, edDecode rp with
  | some a, some r =>
    let k := edHash (leBytes 32 rp ++ leBytes 32 key.toNat ++ m)
    decide (s < edL) && ((edBase.mul 256 s).mul 4 8).same ((r.add (a.mul 256 k)).mul 4 8)
  | _, _ => false

end Sys2Proof.Machine
end

