-- ==== Sys2Proof/Machine/System.lean ====
section
/-! DEFINITION. The system controller: staged start (R412), the host's register space (R413, R414), invalidation and migration by the host (R418,
R419, R224, R225), power states (R420), monitors (R421), base-die cores (R422), attestation (R423, R424); accesses of the host and of peers. -/
namespace Sys2Proof.Machine

/-! ### Staged start (R412, R423) -/

/-- The system controller changed. -/
def State.modSys (s : State) (f : Sys → Sys) : State := { s with sys := f s.sys }

/-- An image passes its checks (R423): its header, the SHA-512 digest of its body, the signing key's digest, the Ed25519 signature over the
bytes of the body's digest, the minimum version. -/
def Image.ok (i : Image) : Bool :=
  i.magic == Config.imageMagic && i.len == i.body.length && i.digest == sha512 i.body &&
  sha512 (leBytes 32 i.key.toNat) == Config.signerDigest && ed25519Verify i.key (leBytes 64 i.digest.toNat) i.sig &&
  decide (Config.minVersion.toNat ≤ i.version.toNat)

/-- Skesunal's image and that of each of the eight base-die cores, one a stack, are there and pass (R423). -/
def imagesOk (l : List Image) : Bool := l.length == 9 && l.all Image.ok

/-- PCIE_LINK_UP: stage 0 with the images verified, Skesunal's first, or ERR 0x1 (R412, R423). -/
def execPcieLinkUp (images : List Image) (s : State) : Host.Outcome State Fault Refusal :=
  if s.sys.going != 0 then event s
  else event (s.modSys (fun y => { y with going := 1, err := if imagesOk images then 0 else 1, digests := images.map (fun i => i.digest) }))

/-- HOST_RESET: every unit as at reset; host memory and peers' memory are not the package's, and its own memories hold unspecified bytes. -/
def execHostReset (s : State) : Host.Outcome State Fault Refusal :=
  let out := fun (k : Nat) => decide (2 ^ 52 ≤ k) && decide (k < 2 ^ 64)
  let s' := { State.reset with
    mem := s.mem.filter (fun c => out c.1), undef := s.undef.filter (fun u => out u.lo), out := s.out, agenda := s.agenda,
    serial := s.serial, turn := s.turn, fresh := s.fresh }
  event ((s'.undefRange (devKey 0) (2 ^ 39)).undefRange (localKey 0 0) (localKey 128 0))

/-- STAGE1_ENTRY: die 0 and stack 0 are in service, or ERR says which failed. -/
def execStage1Entry (err : BitVec 4) (s : State) : Host.Outcome State Fault Refusal :=
  if s.sys.stage != 0 || s.sys.going != 1 || s.sys.err == 1 then event s
  else if err = 0 then event (s.modSys (fun y => { y with stage := 1, err := 0 }))
  else if err = 2 || err = 3 then event (s.modSys (fun y => { y with err := err }))
  else event s

/-- A context page is loaded: STATE 1 to 4, or terminated and not yet unloaded. -/
def anyLoaded (s : State) : Bool := s.ctxs.any (fun c => decide (1 ≤ c.2.state) && c.2.state != 5)

/-- STARTCTL bit 0: honoured at stage 1 with no context loaded. -/
def doGo2 (s : State) : State := if s.sys.stage = 1 && !anyLoaded s then s.modSys (fun y => { y with going := 2 }) else s

/-- GO2. -/
def execGo2 (s : State) : Host.Outcome State Fault Refusal := event (doGo2 s)

/-- STAGE2_ENTRY: every die and stack is in service; device memory holds unspecified bytes. -/
def execStage2Entry (err : BitVec 4) (s : State) : Host.Outcome State Fault Refusal :=
  if s.sys.stage != 1 || s.sys.going != 2 || anyLoaded s then event s
  else if err = 0 then event ((s.modSys (fun y => { y with stage := 2, err := 0 })).undefRange (devKey 0) (2 ^ 39))
  else if err = 2 || err = 3 then event (s.modSys (fun y => { y with err := err, going := 1 }))
  else event s

/-- STARTCTL bit 1: honoured at stage 2. -/
def doGo3 (s : State) : State := if s.sys.stage = 2 then s.modSys (fun y => { y with going := 3 }) else s

/-- GO3. -/
def execGo3 (s : State) : Host.Outcome State Fault Refusal := event (doGo3 s)

/-- STAGE3_ENTRY: ports up, PKG set, the lowest joined package the pod root (R394); running launches keep this package as their home. -/
def execStage3Entry (ports : BitVec 16) (pkg : BitVec 10) (joined : List Nat) (s : State) : Host.Outcome State Fault Refusal :=
  if s.sys.stage != 2 || s.sys.going != 3 || !s.owed.isEmpty || !joined.contains pkg.toNat then event s
  else if ports = 0 then event (s.modSys (fun y => { y with err := 4, going := 2 }))
  else
    let old := s.pkg
    let home := fun (p : Nat) => if p = old then pkg.toNat else p
    let s := s.modSys (fun y => { y with stage := 3, err := 0, ports := ports, pkg := pkg })
    event { s with launches := s.launches.map (fun l => { l with home := home l.home }),
                   link := { s.link with joined := joined, root := minBy id joined,
                                         roots := s.link.roots.map (fun r => { r with home := home r.home }) } }

/-- CAPS (R412). -/
def caps (s : State) : Word :=
  let y := s.sys
  let n := y.stage * 2 ^ 30 + (if y.stage = 0 then 0 else if y.stage = 1 then 1 else 0xF) * 2 ^ 26 +
    (if y.stage = 0 then 0 else if y.stage = 1 then 1 else 0xFF) * 2 ^ 18 + natOf (y.ports != 0) * 2 ^ 17 +
    natOf (y.stage == 3 && s.link.root == some s.pkg) * 2 ^ 16 + y.err.toNat * 2 ^ 12 + y.pkg.toNat
  BitVec.ofNat 32 n

/-! ### Power (R420) -/

/-- The budget of a state. -/
def budgetOf (p : Nat) : Nat := if p = 0 then 512 else if p = 1 then 384 else if p = 2 then 256 else 0

/-- PCEIL written: the budget follows at once; clocks that rise do so at once, clocks that fall wait for CLOCK_LOWER. -/
def doPceil (s : State) (v : Word) : State :=
  let p : BitVec 2 := bits v 0 2
  if p = 3 then s
  else if 3 ≤ s.sys.pstate then s.modSys (fun y => { y with pceil := p })
  else s.modSys (fun y => { y with pceil := p, budget := budgetOf p.toNat, pstate := if p.toNat < y.pstate then p.toNat else y.pstate })

/-- PCEIL_WRITE. -/
def execPceilWrite (v : Word) (s : State) : Host.Outcome State Fault Refusal := event (if hostUp s then doPceil s v else s)

/-- CLOCK_LOWER: the clocks fall once the charges resident on every core fit the budget. -/
def execClockLower (s : State) : Host.Outcome State Fault Refusal :=
  if s.sys.pstate < s.sys.pceil.toNat && (List.range 128).all (fun c => decide ((coreUse s c).charge ≤ s.sys.budget)) then
    event (s.modSys (fun y => { y with pstate := y.pceil.toNat }))
  else event s

/-- A launch is live, a context is halting, or a ring holds unconsumed records. -/
def hasWork (s : State) : Bool := liveLaunches s != 0 || s.ctxs.any (fun c => c.2.state == 3 || c.2.qhead != c.2.qtail)

/-- The deepest idle state whose exit latency LATTOL allows. -/
def idleState (lattol : Word) : Option Nat := if 900000 ≤ lattol.toNat then some 4 else if 40000 ≤ lattol.toNat then some 3 else none

/-- IDLE_ENTRY: without work the Thaos enters the deepest idle state that LATTOL allows, from an active state or from the other idle state.
In P4 the compute dies are off: L2 holds no line. -/
def execIdleEntry (s : State) : Host.Outcome State Fault Refusal :=
  if hasWork s || s.sys.wake && 3 ≤ s.sys.pstate then event s
  else match idleState s.sys.lattol with
    | none => event s
    | some p =>
      if p = s.sys.pstate then event s
      else
        let s := s.modSys (fun y => { y with pstate := p, budget := 0, wake := false })
        event (if p = 4 then { s with forward := [] } else s)

/-- IDLE_EXIT: back to PCEIL, when woken, when there is work, or when LATTOL no longer allows an idle state. -/
def execIdleExit (s : State) : Host.Outcome State Fault Refusal :=
  if s.sys.pstate < 3 || !(s.sys.wake || hasWork s || (idleState s.sys.lattol).isNone) then event s
  else event (s.modSys (fun y => { y with pstate := y.pceil.toNat, budget := budgetOf y.pceil.toNat, wake := false }))

/-! ### Invalidation and migration by the host (R418, R419, R224, R225) -/

/-- One attempt at an invalidation: done, or its write-backs wait. -/
def tryInvalidate (s : State) (r : BitVec 12 × Option (Nat × Nat)) : Bool × State :=
  match pageOfAsid s r.1 with
  | some page => invalidate s page r.2
  | none => (true, s.dropTlb r.1 (r.2.map (fun x => (x.1 / 65536, x.2 / 65536))))

/-- An invalidation that is not complete is tried again. -/
def retryInvalidate (s : State) : State :=
  match s.sys.inv with
  | none => s
  | some r =>
    let (ok, s) := tryInvalidate s r
    if ok then s.modSys (fun y => { y with inv := none }) else s

/-- INVGO written (R418). -/
def doInvgo (s : State) : State :=
  let y := s.sys
  if y.inv.isSome || bits y.invbase 0 16 != 0 || bits y.invasid 12 20 != 0 then s
  else
    let range := if y.invcnt = 0 then none else some (y.invbase.toNat, 65536 * y.invcnt.toNat)
    retryInvalidate (s.modSys (fun y => { y with inv := some (bits y.invasid 0 12, range) }))

/-- INVGO. -/
def execInvgo (s : State) : Host.Outcome State Fault Refusal := event (if hostUp s then doInvgo s else s)

/-- MIGCTL written with 1 (R419). -/
def doMigRequest (s : State) : State :=
  if s.sys.mig = 1 || s.sys.mig = 2 then s
  else { s with claims := s.claims ++ [{ asid := bits s.sys.migasid 0 12, unit := s.sys.migva.toNat / 65536, host := true, seq := 0, granted := false, loc := none }],
                sys := { s.sys with mig := 1 } }

/-- MIG_REQUEST. -/
def execMigRequest (s : State) : Host.Outcome State Fault Refusal := event (if hostUp s then doMigRequest s else s)

/-- A waiting claim answered (R224, R419): the host reads it in MIGCTL, the driver is told. -/
def answerClaim (s : State) (c : Claim) (granted : Bool) : State :=
  if c.host then s.modSys (fun y => { y with mig := if granted then 2 else 3 })
  else { s with out := s.out ++ [.claim ((pageOfAsid s c.asid).getD 0) c.seq granted] }

/-- A waiting claim leaves with RETRY. -/
def retryClaim (s : State) (c : Claim) : State := answerClaim { s with claims := s.claims.erase c } c false

/-- A waiting claim granted, or answered RETRY when its page may not move (R224, R225). -/
def judgeClaim (s : State) (c : Claim) : State :=
  let lf := claimLeaf s c
  let no := (pageOfAsid s c.asid).isNone || (match lf with
    | some (_, e, _) => bit e pteShr
    | none => false)
  if no then retryClaim s c
  else
    let c' := { c with granted := true, loc := lf.map (fun (x : Nat × DWord × Nat) => pteLoc x.2.1) }
    answerClaim { s with claims := s.claims.map (fun x => if x == c then c' else x) } c true

/-- MOVE_CLAIM_GRANT: the oldest waiting claim whose page is not claimed is granted or answered RETRY; when the other side waits for the same
page too, the side that HOME names wins and every claim of the other is answered RETRY (R224). -/
def execMoveClaimGrant (s : State) : Host.Outcome State Fault Refusal :=
  match s.claims.find? (fun c => !c.granted && !s.claims.any (fun x => x.granted && samePage s x c)) with
  | none => event s
  | some c => match s.claims.find? (fun x => !x.granted && x.host != c.host && samePage s x c) with
    | none => event (judgeClaim s c)
    | some x =>
      let win := if c.host == homeIsHost s c then c else x
      let lost := s.claims.filter (fun y => !y.granted && y.host != win.host && samePage s y c)
      event (judgeClaim (lost.foldl retryClaim s) win)

/-- MIGCTL written with 2: the granted claim ends (R419). -/
def doMigDone (s : State) : State :=
  match s.claims.find? (fun c => c.granted && c.host) with
  | none => s
  | some c => (endClaim s c).modSys (fun y => { y with mig := 0 })

/-- MIG_DONE. -/
def execMigDone (s : State) : Host.Outcome State Fault Refusal := event (if hostUp s then doMigDone s else s)

/-! ### Monitors (R421) and base-die cores (R422) -/

/-- A monitor block. -/
def State.mon (s : State) (i : Nat) : Monitor := fget s.sys.mons i Monitor.reset
/-- A monitor block replaced. -/
def State.setMon (s : State) (i : Nat) (m : Monitor) : State := s.modSys (fun y => { y with mons := fset y.mons i Monitor.reset m })

/-- A block's first word written: CLR, then the fields; an unlisted EVENT leaves EN 0. -/
def Monitor.setWord (m : Monitor) (now : Nat) (v : Word) : Monitor :=
  let m := if bit v 30 then m.cleared now else m
  let ev : BitVec 8 := bits v 16 8
  { m with en := bit v 31 && monEvents.contains ev.toNat, frz := bit v 29, shift := bits v 24 5, event := ev, src := bits v 0 16 }

/-- A block's first word as read. -/
def Monitor.word (m : Monitor) : Word :=
  BitVec.ofNat 32 (natOf m.en * 2 ^ 31 + natOf m.frz * 2 ^ 29 + m.shift.toNat * 2 ^ 24 + m.event.toNat * 2 ^ 16 + m.src.toNat)

/-- MONITOR_CLR. -/
def execMonitorClr (blk : Nat) (s : State) : Host.Outcome State Fault Refusal :=
  if 64 ≤ blk || !hostUp s then event s else event (s.setMon blk ((s.mon blk).cleared s.monNow))

/-- POWER_SAMPLE_TIMER: once per window of 2^20 fabric cycles; the power is the world's. -/
def execPowerSampleTimer (watts : Word) (s : State) : Host.Outcome State Fault Refusal :=
  let w := s.sys.fab / 2 ^ 20
  if w ≤ s.sys.fabpow then event s else event (sample (s.modSys (fun y => { y with fabpow := w })) 0x08 0 watts)

/-- A stack in service (R412). -/
def stackUp (s : State) (stack : Nat) : Bool := decide (stack < 8) && (decide (2 ≤ s.sys.stage) || (s.sys.stage == 1 && stack == 0))

/-- The key of a row of a stack. -/
def rowKey (stack row : Nat) : Nat := stack * 2 ^ 40 + row % 2 ^ 40

/-- SCRUB_PASS: at most one in each window of 2^36 fabric cycles; temperature and corrected errors are reported, and no value changes. -/
def execScrubPass (stack : Nat) (temp : Word) (errs : List Nat) (s : State) : Host.Outcome State Fault Refusal :=
  let n := s.sys.fab / 2 ^ 36 + 1
  if !stackUp s stack || n ≤ fget s.sys.scrubs stack 0 then event s
  else
    let add := fun (m : FMap Nat) (r : Nat) => fput m (rowKey stack r) (fget m (rowKey stack r) 0 + 1)
    event (sample (s.modSys (fun y => { y with scrubs := fput y.scrubs stack n, temps := fput y.temps stack temp,
                                               corrected := errs.foldl add y.corrected })) 0x07 stack temp)

/-- ROW_REMAP: a row with 16 corrected errors goes to a spare row; no value changes. -/
def execRowRemap (stack row : Nat) (s : State) : Host.Outcome State Fault Refusal :=
  let k := rowKey stack row
  if fget s.sys.corrected k 0 < 16 then event s
  else event (s.modSys (fun y => { y with corrected := fdel y.corrected k, remapped := y.remapped ++ [k] }))

/-! ### Attestation (R424) -/

/-- Bytes of the mailbox written. -/
def putAttest (s : State) (off : Nat) : List Byte → State
  | [] => s
  | b :: l => putAttest (s.modSys (fun y => { y with attest := fset y.attest off 0 b })) (off + 1) l

/-- Bytes of the mailbox. -/
def getAttest (s : State) (off n : Nat) : List Byte := (List.range n).map (fun i => fget s.sys.attest (off + i) 0)

/-- The measurement: SHA-512 of the concatenated image digests, Skesunal's first, each as its 64 bytes in the order SHA-512 gives them
(PRESUMED, log 147). -/
def measurement (s : State) : List Byte := sha512Bytes (s.sys.digests.flatMap (fun d => leBytes 64 d.toNat))

/-- The command: measurement, CAPS, the identity key's public half, and its signature over nonce, measurement and CAPS. -/
def doAttest (s : State) : State :=
  let c := leBytes 4 (caps s).toNat
  let m := measurement s
  let sig := ed25519Sign Config.identitySeed (getAttest s 0 32 ++ m ++ c)
  let s := putAttest s 0x40 m
  let s := putAttest s 0x80 c
  let s := putAttest s 0xC0 (leBytes 32 (ed25519Public Config.identitySeed).toNat)
  let s := putAttest s 0x100 (leBytes 64 sig.toNat)
  putAttest s 0x1FC (leBytes 4 2)

/-- ATTEST_COMMAND: answered even when the firmware was not verified (R423). -/
def execAttestCommand (s : State) : Host.Outcome State Fault Refusal := event (if s.sys.going = 0 then s else doAttest s)

/-! ### The host's registers (R413, R414) -/

/-- A write of n bytes of v at offset o of a register of w bytes, over its old value: the whole, or a half of a 64-bit one; none for any other
width or alignment. -/
def regMerge (w : Nat) (old : DWord) (o n : Nat) (v : DWord) : Option DWord :=
  if n = w && o = 0 then some (if w = 8 then v else zx (lo32 v))
  else if w = 8 && n = 4 && o = 0 then some (cat (hi32 old) (lo32 v))
  else if w = 8 && n = 4 && o = 4 then some (cat (lo32 v) (lo32 old))
  else none

/-- A driver's answer written whole: SEQ, ACTION, zeros (R218). -/
def doFresp (s : State) (page : Nat) (v : DWord) : State :=
  if bits v 34 30 != 0 then s
  else match unanswered s page (lo32 v) with
    | none => s
    | some p => if bits v 32 2 = 0 then endRecordClaims (answerPart s page p) page p.frec.seq else if bits v 32 2 = 1 then doom s page p.frec else s

/-- CTL written: one of TERM, HALT and RESUME, in this precedence, then UNLOAD, then LOAD (R414). -/
def doCtl (s : State) (page : Nat) (v : Word) : State :=
  let s := if bit v 4 then doTerm s page else if bit v 2 then doHalt s page else if bit v 3 then doResume s page else s
  let s := if bit v 1 then doUnload s page else s
  if bit v 0 then doLoad s page else s

/-- A register of a context page written (R414). -/
def writePage (s : State) (page o n : Nat) (v : DWord) : State :=
  let c := s.ctx page
  let w := lo32 v
  if o < 8 then ((regMerge 8 c.descAddr o n v).map (fun x => s.setCtx page { c with descAddr := x })).getD s
  else if o = 0x08 && n = 4 then doCtl s page w
  else if o = 0x0C && n = 4 then (if bit w 15 then s.setCtx page { c with qerr := false } else s)
  else if 0x10 ≤ o && o < 0x18 then
    (if c.state != 0 then s else ((regMerge 8 c.qbase (o - 0x10) n v).map (fun x => s.setCtx page { c with qbase := x })).getD s)
  else if o = 0x18 && n = 4 then (if c.state != 0 then s else s.setCtx page { c with qsize := w })
  else if o = 0x20 && n = 4 then doQtail s page w
  else if o = 0x28 && n = 8 then doFresp s page v
  else s

/-- A register outside the context pages written (R413). INVASID keeps reserved bits that are written, out of sight, for INVGO to see (R3, R418, DESIGN
CHOICE, log 148). -/
def writeGlobal (s : State) (o n : Nat) (v : DWord) : State :=
  let w := lo32 v
  let y := s.sys
  if o = 0x04 && n = 4 then (let s := if bit w 0 then doGo2 s else s; if bit w 1 then doGo3 s else s)
  else if o = 0x08 && n = 4 then doPceil s w
  else if o = 0x0C && n = 4 then { s with sys := { y with lattol := w } }
  else if o = 0x20 && n = 4 then { s with sys := { y with invasid := w } }
  else if o = 0x24 && n = 4 then { s with sys := { y with invcnt := w } }
  else if 0x28 ≤ o && o < 0x30 then ((regMerge 8 y.invbase (o - 0x28) n v).map (fun x => { s with sys := { y with invbase := x } })).getD s
  else if o = 0x30 && n = 4 then doInvgo s
  else if o = 0x40 && n = 4 then { s with sys := { y with migasid := w &&& 0xFFF } }
  else if 0x48 ≤ o && o < 0x50 then ((regMerge 8 y.migva (o - 0x48) n v).map (fun x => { s with sys := { y with migva := x } })).getD s
  else if o = 0x50 && n = 4 then (if w = 1 then doMigRequest s else if w = 2 then doMigDone s else s)
  else if 0x1000 ≤ o && o < 0x3000 && n = 4 && o % 128 = 0 then s.setMon ((o - 0x1000) / 128) ((s.mon ((o - 0x1000) / 128)).setWord s.monNow w)
  else s

/-- The attestation mailbox written in aligned words (R413, R424). -/
def writeAttest (s : State) (o n : Nat) (v : DWord) : State :=
  if n != 4 || o % 4 != 0 then s
  else if o = 0x1FC && lo32 v = 1 then doAttest s
  else putAttest s o (leBytes 4 (lo32 v).toNat)

/-- A write of n bytes to the host's register space. -/
def barWrite (s : State) (off n : Nat) (v : DWord) : State :=
  if s.sys.going = 0 then s
  else if 0x200 ≤ off && off < 0x400 then writeAttest s (off - 0x200) n v
  else if !hostUp s then s
  else if 0x100000 ≤ off && off < 0x1100000 then writePage s ((off - 0x100000) / 4096) ((off - 0x100000) % 4096) n v
  else if off < 0x3000 then writeGlobal s off n v
  else s

/-- REGISTER_WRITE. -/
def execRegisterWrite (off bytes : Nat) (v : DWord) (s : State) : Host.Outcome State Fault Refusal := event (barWrite s off bytes v)

/-- The part of a register that a read of n bytes at offset o of it returns: the whole, or a half of a 64-bit one; zero otherwise. -/
def regPart (w : Nat) (x : DWord) (o n : Nat) : DWord :=
  if n = w && o = 0 then x
  else if w = 8 && n = 4 && o = 0 then zx (lo32 x)
  else if w = 8 && n = 4 && o = 4 then zx (hi32 x)
  else 0

/-- A register of a context page read (R414): CTL and FRESP are write-only. -/
def readPage (s : State) (page o n : Nat) : DWord :=
  let c := s.ctx page
  if o < 8 then regPart 8 c.descAddr o n
  else if o = 0x0C then regPart 4 (BitVec.ofNat 64 (c.reason.toNat * 2 ^ 16 + natOf c.qerr * 2 ^ 15 + c.state)) 0 n
  else if 0x10 ≤ o && o < 0x18 then regPart 8 c.qbase (o - 0x10) n
  else if o = 0x18 then regPart 4 (zx c.qsize) 0 n
  else if o = 0x1C then regPart 4 (zx c.qhead) 0 n
  else if o = 0x20 then regPart 4 (zx c.qtail) 0 n
  else 0

/-- A register outside the context pages read (R413, R421). -/
def readGlobal (s : State) (o n : Nat) : DWord :=
  let y := s.sys
  let m := s.mon ((o - 0x1000) / 128)
  if o = 0x00 then regPart 4 (zx (caps s)) 0 n
  else if o = 0x08 then regPart 4 (zx y.pceil) 0 n
  else if o = 0x0C then regPart 4 (zx y.lattol) 0 n
  else if o = 0x10 then regPart 4 (BitVec.ofNat 64 y.pstate) 0 n
  else if o = 0x14 then regPart 4 (BitVec.ofNat 64 saveReq) 0 n
  else if o = 0x20 then regPart 4 (zx (y.invasid &&& 0xFFF)) 0 n
  else if o = 0x24 then regPart 4 (zx y.invcnt) 0 n
  else if 0x28 ≤ o && o < 0x30 then regPart 8 y.invbase (o - 0x28) n
  else if o = 0x30 then regPart 4 (BitVec.ofNat 64 (natOf y.inv.isSome)) 0 n
  else if o = 0x40 then regPart 4 (zx y.migasid) 0 n
  else if 0x48 ≤ o && o < 0x50 then regPart 8 y.migva (o - 0x48) n
  else if o = 0x50 then regPart 4 (BitVec.ofNat 64 y.mig) 0 n
  else if 0x1000 ≤ o && o < 0x3000 && o % 4 = 0 && n = 4 then
    let r := o % 128
    if r = 0 then zx m.word
    else if r = 4 then zx m.count
    else if r = 8 then zx m.min
    else if r = 12 then zx m.max
    else if r < 0x50 then zx (fget m.bins ((r - 16) / 4) 0)
    else 0
  else 0

/-- A read of n bytes from the host's register space (R413). No row of the opcode table is a read: it changes nothing. -/
def barRead (s : State) (off n : Nat) : DWord :=
  if s.sys.going = 0 then 0
  else if 0x200 ≤ off && off < 0x400 then
    (if n = 4 && off % 4 = 0 then BitVec.ofNat 64 (leVal (getAttest s (off - 0x200) 4)) else 0)
  else if !hostUp s then 0
  else if 0x100000 ≤ off && off < 0x1100000 then readPage s ((off - 0x100000) / 4096) ((off - 0x100000) % 4096) n
  else if off < 0x3000 then readGlobal s off n
  else 0

/-! ### Accesses of the host and of peer packages (R174, R198, R380, R413) -/

/-- The team whose allocation holds a byte of a core. -/
def holderOfByte (s : State) (core off : Nat) : Option Nat :=
  (s.teams.find? (fun t => t.2.core == core && decide (t.2.base ≤ off) && decide (off < t.2.base + t.2.size))).map (fun t => t.1)

/-- What becomes of a host access that a fault stops: a malformed entry of its walk ends the context, with no group to name (R212, R427); any
other fault performs nothing (log 108). -/
def hostFault (s : State) (page : Nat) (f : FaultInfo) : State :=
  if f.code == codeOf 3 cEngine then doomBare s page f.code f.addr else s

/-- The host's access to one byte through the aperture: zero, and ignored, where no allocation holds it or its line's global address does not
translate (log 37); false where it has to wait for a stash line (R183). -/
def apertureByte (s : State) (core off : Nat) (b : Option Byte) : Bool × Byte × State :=
  match holderOfByte s core off with
  | none => (true, 0, s)
  | some tid => match locAccess s 2 (if b.isSome then kWrite else kRead) tid (off - (s.team tid).base) 1 0 (b.map (fun b => fun _ => [b])) with
    | .ok l s => (true, l.headD 0, s)
    | .absentMem => (true, 0, { s with absent := true })
    | .wait s => (false, 0, s)
    | .fault f => (true, 0, hostFault s (s.team tid).page f)

/-- HOST_APERTURE_ACCESS: each byte at its offset of the aperture (R413). While a byte has to wait for a stash line, nothing is performed (R183). -/
def execHostApertureAccess (write : Bool) (off bytes : Nat) (v : DWord) (s : State) : Host.Outcome State Fault Refusal :=
  if !hostUp s || 8 < bytes || off < 0x10000000 || 0x20000000 < off + bytes then event s
  else
    let one := fun (s : State) (i : Nat) =>
      let o := off - 0x10000000 + i
      apertureByte s (o / 0x200000) (o % 0x200000) (if write then some (bits v (8 * i) 8) else none)
    match (List.range bytes).find? (fun i => !(one s i).1) with
    | some i => event (one s i).2.2
    | none =>
      let (l, s) := (List.range bytes).foldl (fun (a : List Byte × State) i => (a.1 ++ [(one a.2 i).2.1], (one a.2 i).2.2)) ([], s)
      event (if write then s else { s with out := s.out ++ [.hostData (BitVec.ofNat 64 (leVal l))] })

/-- A host access within one page, by the I/O die's map unit at .sys (R198): its writes to a page that the host holds count (R225), and one to a
peer's memory leaves as a message (R380), but a read of a DEAD page (R223). The hot-page tracker of R226 does not count it (log 123). -/
def hostAccess (s : State) (d : Desc) (va : DWord) (n : Nat) (f : Option (List Byte)) : MemR (List Byte) :=
  match walkSnoop s d va.toNat (if f.isSome then .w else .r) with
  | (false, s) => .wait s
  | (true, s) => match translate s d va.toNat (if f.isSome then .w else .r) with
  | .ok k e base units => match reviveSnoop s d va.toNat e f.isSome with
    | (false, s) => .wait s
    | (true, s) => match snoopRange s k n f.isSome with
    | (false, s) => .wait s
    | (true, s) =>
      let old := leafBytes s d va.toNat e k n
      let s := s.keepTlb d.asid (leafNow s d va.toNat e) base units
      match f with
      | none => .ok old (if deadNow s d va.toNat e then s else toPeer (sampleHbm s e k) e k n false none)
      | some b =>
        let s := reviveDead s d va.toNat e base units
        let s := if pteLoc e = 1 then noteMove s d.asid base va.toNat else s
        .ok old ((toPeer s e k n false (some b)).setBytes k b)
  | x => xlFault 3 (if f.isSome then kWrite else kRead) va x

/-- HOST_MEMORY_ACCESS: up to eight bytes in a loaded context; an access that cannot be translated performs nothing, and one that has to wait for a
stash line's write-back leaves its record (R183). -/
def execHostMemoryAccess (write : Bool) (page : Nat) (va : DWord) (bytes : Nat) (v : DWord) (s : State) : Host.Outcome State Fault Refusal :=
  let c := s.ctx page
  if c.state < 2 || 4 < c.state || 8 < bytes || !inTranslated va bytes then event s
  else
    let data := leBytes bytes v.toNat
    let one := fun (p : Nat × Nat) (s : State) =>
      hostAccess s c.d (BitVec.ofNat 64 p.1) p.2 (if write then some ((data.drop (p.1 - va.toNat)).take p.2) else none)
    let ps := pageParts 3 va.toNat bytes
    let r := ps.foldl (fun (r : MemR (List Byte)) p => r.bind (fun l s => (one p s).bind (fun b s => .ok (l ++ b) s))) (.ok [] s)
    match r with
    | .ok l s => event (if write then s else { s with out := s.out ++ [.hostData (BitVec.ofNat 64 (leVal l))] })
    | .wait _ => event ((firstSome (fun p => match one p s with
        | .wait t => some t
        | _ => none) ps).getD s)
    | .fault f => event (hostFault s page f)
    | .absentMem => event { s with absent := true }

/-- The record ingress window (R417). -/
def inIngress (pa : DWord) : Bool := decide (0x00FF000000000000 ≤ pa.toNat) && decide (pa.toNat < 0x00FF000000040000)

/-- An answer to a peer. -/
def answerPeer (s : State) (dst : Nat) (v : List Byte) (ok : Bool) : State := { s with out := s.out ++ [.answer dst v ok] }

/-- An envelope reaches the link engine: it acts as the event of its kind (R384, R404). -/
def takeEnvelope (src : Nat) (e : Envelope) (s : State) : Host.Outcome State Fault Refusal :=
  match e.etype.toNat, e.sub.toNat with
  | 1, _ => execRecordEnvelope src e s
  | 2, _ => execAcknowledgement src e s
  | 3, 0 => execCreditRequest src e s
  | 3, 1 => execCreditGrant src e s
  | 4, 0x01 => execLaunch src e s
  | 4, 0x02 => execStart src e s
  | 4, 0x03 => execStarted src e s
  | 4, 0x04 => execDeal src e s
  | 4, 0x05 => execRdone src e s
  | 4, 0x06 => execFault src e s
  | 4, 0x07 => execCancel src e s
  | 4, 0x08 => execWave src e s
  | 4, 0x09 => execReply src e s
  | 4, 0x0A => execFinal src e s
  | 4, 0x0B => execPbarv src e s
  | 4, 0x0C => execPbres src e s
  | 4, 0x0D => execPbrel src e s
  | 4, 0x0E => execQuery src e s
  | 4, 0x0F => execAnswer src e s
  | _, _ => event (dropEnv s)

/-- The payload bytes of an envelope that arrives in `n` bytes: as its kind gives, of a record as its launch's record type gives (R384); none
when the length is wrong. -/
def payloadOf (s : State) (e : Envelope) (n : Nat) : Option Nat :=
  let sizes := if e.etype = 1 then
      match (pageOfPod s e.podctx).bind (fun page => launchBy s page e.lseq e.home.toNat) with
      | some l => [l.g.typeBytes e.rtype.toNat]
      | none => [16, 32, 64, 128]
    else if e.etype = 2 then [32]
    else if e.etype = 4 then (if e.sub = 1 || e.sub = 2 then [64] else if e.sub = 9 then [32] else if e.sub = 0x0A then [128] else [0])
    else [0]
  sizes.find? (fun k => wireLen k == n)

/-- A write to the ingress window is one envelope, from the package whose place it is written at (R385). -/
def ingressWrite (off : Nat) (b : List Byte) (s : State) : Host.Outcome State Fault Refusal :=
  let e := headerIn b
  if s.sys.stage != 3 then event s
  else match (if b.length < 32 || etypeReserved e then none else payloadOf s e b.length) with
    | none => event (dropEnv (wakeUp s))
    | some n => takeEnvelope (off / 256) { e with payload := (b.drop 32).take n } s

/-- A peer's access to device memory within a line, one step at the line's serialisation point (R186, R380). A read that meets an uncorrectable
error is answered as failed. -/
def peerLine (a : PeerAcc) (n : Nat) (s : State) : State :=
  let k := devKey a.pa.toNat
  let write := match a.kind with
    | .read => false
    | _ => true
  match snoopRange s k n write with
  | (false, s) => s
  | (true, s) =>
    let old := s.bytesAt k n
    match a.kind with
    | .read => answerPeer s a.src old (!s.badAt k n)
    | .write => s.setBytes k a.data
    | .atomic op ty =>
      let v := atomVal op.toNat ty (BitVec.ofNat 64 (leVal old)) a.b a.c
      answerPeer (s.setBytes k (leBytes n v.toNat)) a.src old (!s.badAt k n)

/-- PEER_ACCESS: a read, write or atomic by physical address within one line (R380). The ingress window reads as zero, and takes each write as
an envelope (R385). -/
def execPeerAccess (a : PeerAcc) (s : State) : Host.Outcome State Fault Refusal :=
  let n := match a.kind with
    | .atomic _ ty => tyBits ty / 8
    | .write => a.data.length
    | .read => a.bytes
  if s.sys.stage != 3 then event s
  else if inIngress a.pa then
    match a.kind with
    | .write => ingressWrite (a.pa.toNat - 0x00FF000000000000) a.data s
    | _ => event (answerPeer s a.src (List.replicate n 0) true)
  else if n = 0 || 256 < a.pa.toNat % 256 + n then event s
  else if 2 ^ 39 < a.pa.toNat + n then event (answerPeer s a.src [] false)
  else event (peerLine a n s)

end Sys2Proof.Machine
end

