-- ==== Sys2Proof/Machine/Uniform.lean ====
section
/-! DEFINITION. The uniform scalar arithmetic, PLOP and KLOP (R135 to R137). -/
namespace Sys2Proof.Machine

/-- SADD_I1: uniform addition, mould I1 (R136). -/
def execSaddI1 (f : F1) (s : State) : Host.Outcome State Fault Refusal :=
  uni (shSaddI1 f) 0x10 1 f.st (i1 true f) (fn2 (intOp .add .i32 false)) s

/-- SADD: uniform addition (R136). -/
def execSadd (h : Hd) (x : WAlu) (s : State) : Host.Outcome State Fault Refusal :=
  uni (shSadd h x) 0x10 3 h.st (sArgs (aluS x true false 2) h x none) (fn2 (intOp .add x.ty x.sat)) s

/-- SADD_5W: uniform addition, literal (R136). -/
def execSadd5w (h : Hd) (x : WAlu) (l : BitVec 60) (s : State) : Host.Outcome State Fault Refusal :=
  uni (shSadd5w h x l) 0x10 5 h.st (sArgs (aluS x true false 2) h x (some l)) (fn2 (intOp .add x.ty x.sat)) s

/-- SSUB_I1: uniform subtraction, mould I1 (R136). -/
def execSsubI1 (f : F1) (s : State) : Host.Outcome State Fault Refusal :=
  uni (shSsubI1 f) 0x11 1 f.st (i1 true f) (fn2 (intOp .sub .i32 false)) s

/-- SSUB: uniform subtraction (R136). -/
def execSsub (h : Hd) (x : WAlu) (s : State) : Host.Outcome State Fault Refusal :=
  uni (shSsub h x) 0x11 3 h.st (sArgs (aluS x true false 2) h x none) (fn2 (intOp .sub x.ty x.sat)) s

/-- SSUB_5W: uniform subtraction, literal (R136). -/
def execSsub5w (h : Hd) (x : WAlu) (l : BitVec 60) (s : State) : Host.Outcome State Fault Refusal :=
  uni (shSsub5w h x l) 0x11 5 h.st (sArgs (aluS x true false 2) h x (some l)) (fn2 (intOp .sub x.ty x.sat)) s

/-- SMUL_I1: uniform low product, mould I1 (R136). -/
def execSmulI1 (f : F1) (s : State) : Host.Outcome State Fault Refusal :=
  uni (shSmulI1 f) 0x12 1 f.st (i1 true f) (fn2 (intOp .mul .i32 false)) s

/-- SMUL: uniform low product (R136). -/
def execSmul (h : Hd) (x : WAlu) (s : State) : Host.Outcome State Fault Refusal :=
  uni (shSmul h x) 0x12 3 h.st (sArgs (aluS x true false 4) h x none) (fn2 (intOp .mul x.ty x.sat)) s

/-- SMUL_5W: uniform low product, literal (R136). -/
def execSmul5w (h : Hd) (x : WAlu) (l : BitVec 60) (s : State) : Host.Outcome State Fault Refusal :=
  uni (shSmul5w h x l) 0x12 5 h.st (sArgs (aluS x true false 4) h x (some l)) (fn2 (intOp .mul x.ty x.sat)) s

/-- SMULH_I1: uniform high product, mould I1 (R136). -/
def execSmulhI1 (f : F1) (s : State) : Host.Outcome State Fault Refusal :=
  uni (shSmulhI1 f) 0x13 1 f.st (i1 true f) (fn2 (intOp .mulh .i32 false)) s

/-- SMULH: uniform high product (R136). -/
def execSmulh (h : Hd) (x : WAlu) (s : State) : Host.Outcome State Fault Refusal :=
  uni (shSmulh h x) 0x13 3 h.st (sArgs (aluS x false false 4) h x none) (fn2 (intOp .mulh x.ty x.sat)) s

/-- SMULH_5W: uniform high product, literal (R136). -/
def execSmulh5w (h : Hd) (x : WAlu) (l : BitVec 60) (s : State) : Host.Outcome State Fault Refusal :=
  uni (shSmulh5w h x l) 0x13 5 h.st (sArgs (aluS x false false 4) h x (some l)) (fn2 (intOp .mulh x.ty x.sat)) s

/-- SAND_I1: uniform AND, mould I1 (R136). -/
def execSandI1 (f : F1) (s : State) : Host.Outcome State Fault Refusal :=
  uni (shSandI1 f) 0x14 1 f.st (i1 true f) (fn2 (intOp .and .n32 false)) s

/-- SAND: uniform AND (R136). -/
def execSand (h : Hd) (x : WAlu) (s : State) : Host.Outcome State Fault Refusal :=
  uni (shSand h x) 0x14 3 h.st (sArgs (aluS x false false 2) h x none) (fn2 (intOp .and x.ty x.sat)) s

/-- SAND_5W: uniform AND, literal (R136). -/
def execSand5w (h : Hd) (x : WAlu) (l : BitVec 60) (s : State) : Host.Outcome State Fault Refusal :=
  uni (shSand5w h x l) 0x14 5 h.st (sArgs (aluS x false false 2) h x (some l)) (fn2 (intOp .and x.ty x.sat)) s

/-- SOR_I1: uniform OR, mould I1 (R136). -/
def execSorI1 (f : F1) (s : State) : Host.Outcome State Fault Refusal :=
  uni (shSorI1 f) 0x15 1 f.st (i1 true f) (fn2 (intOp .or .n32 false)) s

/-- SOR: uniform OR (R136). -/
def execSor (h : Hd) (x : WAlu) (s : State) : Host.Outcome State Fault Refusal :=
  uni (shSor h x) 0x15 3 h.st (sArgs (aluS x false false 2) h x none) (fn2 (intOp .or x.ty x.sat)) s

/-- SOR_5W: uniform OR, literal (R136). -/
def execSor5w (h : Hd) (x : WAlu) (l : BitVec 60) (s : State) : Host.Outcome State Fault Refusal :=
  uni (shSor5w h x l) 0x15 5 h.st (sArgs (aluS x false false 2) h x (some l)) (fn2 (intOp .or x.ty x.sat)) s

/-- SXOR_I1: uniform XOR, mould I1 (R136). -/
def execSxorI1 (f : F1) (s : State) : Host.Outcome State Fault Refusal :=
  uni (shSxorI1 f) 0x16 1 f.st (i1 true f) (fn2 (intOp .xor .n32 false)) s

/-- SXOR: uniform XOR (R136). -/
def execSxor (h : Hd) (x : WAlu) (s : State) : Host.Outcome State Fault Refusal :=
  uni (shSxor h x) 0x16 3 h.st (sArgs (aluS x false false 2) h x none) (fn2 (intOp .xor x.ty x.sat)) s

/-- SXOR_5W: uniform XOR, literal (R136). -/
def execSxor5w (h : Hd) (x : WAlu) (l : BitVec 60) (s : State) : Host.Outcome State Fault Refusal :=
  uni (shSxor5w h x l) 0x16 5 h.st (sArgs (aluS x false false 2) h x (some l)) (fn2 (intOp .xor x.ty x.sat)) s

/-- SSHL_I1: uniform left shift, mould I1 (R136). -/
def execSshlI1 (f : F1) (s : State) : Host.Outcome State Fault Refusal :=
  uni (shSshlI1 f) 0x17 1 f.st (i1 true f) (fn2 (intOp .shl .n32 false)) s

/-- SSHL: uniform left shift (R136). -/
def execSshl (h : Hd) (x : WAlu) (s : State) : Host.Outcome State Fault Refusal :=
  uni (shSshl h x) 0x17 3 h.st (sArgs (aluS x false true 2) h x none) (fn2 (intOp .shl x.ty x.sat)) s

/-- SSHL_5W: uniform left shift, literal (R136). -/
def execSshl5w (h : Hd) (x : WAlu) (l : BitVec 60) (s : State) : Host.Outcome State Fault Refusal :=
  uni (shSshl5w h x l) 0x17 5 h.st (sArgs (aluS x false true 2) h x (some l)) (fn2 (intOp .shl x.ty x.sat)) s

/-- SSHR_I1: uniform logical right shift, mould I1 (R136). -/
def execSshrI1 (f : F1) (s : State) : Host.Outcome State Fault Refusal :=
  uni (shSshrI1 f) 0x18 1 f.st (i1 true f) (fn2 (intOp .shr .n32 false)) s

/-- SSHR: uniform logical right shift (R136). -/
def execSshr (h : Hd) (x : WAlu) (s : State) : Host.Outcome State Fault Refusal :=
  uni (shSshr h x) 0x18 3 h.st (sArgs (aluS x false true 2) h x none) (fn2 (intOp .shr x.ty x.sat)) s

/-- SSHR_5W: uniform logical right shift, literal (R136). -/
def execSshr5w (h : Hd) (x : WAlu) (l : BitVec 60) (s : State) : Host.Outcome State Fault Refusal :=
  uni (shSshr5w h x l) 0x18 5 h.st (sArgs (aluS x false true 2) h x (some l)) (fn2 (intOp .shr x.ty x.sat)) s

/-- SSRA_I1: uniform arithmetic right shift, mould I1 (R136). -/
def execSsraI1 (f : F1) (s : State) : Host.Outcome State Fault Refusal :=
  uni (shSsraI1 f) 0x19 1 f.st (i1 true f) (fn2 (intOp .sra .i32 false)) s

/-- SSRA: uniform arithmetic right shift (R136). -/
def execSsra (h : Hd) (x : WAlu) (s : State) : Host.Outcome State Fault Refusal :=
  uni (shSsra h x) 0x19 3 h.st (sArgs (aluS x false true 2) h x none) (fn2 (intOp .sra x.ty x.sat)) s

/-- SSRA_5W: uniform arithmetic right shift, literal (R136). -/
def execSsra5w (h : Hd) (x : WAlu) (l : BitVec 60) (s : State) : Host.Outcome State Fault Refusal :=
  uni (shSsra5w h x l) 0x19 5 h.st (sArgs (aluS x false true 2) h x (some l)) (fn2 (intOp .sra x.ty x.sat)) s

/-- SMIN_I1: uniform minimum, mould I1 (R136). -/
def execSminI1 (f : F1) (s : State) : Host.Outcome State Fault Refusal :=
  uni (shSminI1 f) 0x1A 1 f.st (i1 true f) (fn2 (intOp .min .i32 false)) s

/-- SMIN: uniform minimum (R136). -/
def execSmin (h : Hd) (x : WAlu) (s : State) : Host.Outcome State Fault Refusal :=
  uni (shSmin h x) 0x1A 3 h.st (sArgs (aluS x false false 2) h x none) (fn2 (intOp .min x.ty x.sat)) s

/-- SMIN_5W: uniform minimum, literal (R136). -/
def execSmin5w (h : Hd) (x : WAlu) (l : BitVec 60) (s : State) : Host.Outcome State Fault Refusal :=
  uni (shSmin5w h x l) 0x1A 5 h.st (sArgs (aluS x false false 2) h x (some l)) (fn2 (intOp .min x.ty x.sat)) s

/-- SMAX_I1: uniform maximum, mould I1 (R136). -/
def execSmaxI1 (f : F1) (s : State) : Host.Outcome State Fault Refusal :=
  uni (shSmaxI1 f) 0x1B 1 f.st (i1 true f) (fn2 (intOp .max .i32 false)) s

/-- SMAX: uniform maximum (R136). -/
def execSmax (h : Hd) (x : WAlu) (s : State) : Host.Outcome State Fault Refusal :=
  uni (shSmax h x) 0x1B 3 h.st (sArgs (aluS x false false 2) h x none) (fn2 (intOp .max x.ty x.sat)) s

/-- SMAX_5W: uniform maximum, literal (R136). -/
def execSmax5w (h : Hd) (x : WAlu) (l : BitVec 60) (s : State) : Host.Outcome State Fault Refusal :=
  uni (shSmax5w h x l) 0x1B 5 h.st (sArgs (aluS x false false 2) h x (some l)) (fn2 (intOp .max x.ty x.sat)) s

/-- SMOV_U1: uniform move, mould U1 (R137). -/
def execSmovU1 (f : F1) (s : State) : Host.Outcome State Fault Refusal :=
  uni (shSmovU1 f) 0x1E 1 f.st (u1 true f) (fn1 (fun a => (a, 0))) s

/-- SMOV: uniform move (R137). -/
def execSmov (h : Hd) (x : WAlu) (s : State) : Host.Outcome State Fault Refusal :=
  uni (shSmov h x) 0x1E 3 h.st (sArgs (aluSmov x) h x none) (fn1 (fun a => (a, 0))) s

/-- SLDI_M1: uniform immediate, mould M1 (R137). -/
def execSldiM1 (f : F1) (s : State) : Host.Outcome State Fault Refusal :=
  uni (shSldiM1 f) 0x1F 1 f.st (m1 f) (fn1 (fun a => (a, 0))) s

/-- SLDI: uniform immediate (R137). -/
def execSldi (h : Hd) (x : WAlu) (s : State) : Host.Outcome State Fault Refusal :=
  uni (shSldi h x) 0x1F 3 h.st (sArgs (aluSldi x) h x none) (fn1 (fun a => (a, 0))) s

/-- SLDI_5W: uniform immediate, literal (R137). -/
def execSldi5w (h : Hd) (x : WAlu) (l : BitVec 60) (s : State) : Host.Outcome State Fault Refusal :=
  uni (shSldi5w h x l) 0x1F 5 h.st (sArgs (aluSldi x) h x (some l)) (fn1 (fun a => (a, 0))) s

/-- SCMP: uniform compare into a uniform predicate (R137). -/
def execScmp (h : Hd) (x : WAlu) (s : State) : Host.Outcome State Fault Refusal :=
  uni (shScmp h x) 0x1D 3 h.st (sArgs (aluS x false false 2) h x none) (fn2 (fun a b => (truth (intCmp (bits h.mod 0 3).toNat x.ty a b), 0))) s

/-- SCMP_5W: uniform compare into a uniform predicate, literal (R137). -/
def execScmp5w (h : Hd) (x : WAlu) (l : BitVec 60) (s : State) : Host.Outcome State Fault Refusal :=
  uni (shScmp5w h x l) 0x1D 5 h.st (sArgs (aluS x false false 2) h x (some l)) (fn2 (fun a b => (truth (intCmp (bits h.mod 0 3).toNat x.ty a b), 0))) s

/-- SSEL's effect: the predicate named by field D chooses (R137). -/
def sselEff (sh : Shape) (len : Nat) (h : Hd) (args : List (Src × Nat)) (s : State) : Host.Outcome State Fault Refusal :=
  issue sh 0x1C len h.st (fun c s => goGroup s c (fun g =>
    uniGroup sh.dst args (fn2 (fun a b => (if g.rk c.slot h.d.toNat then a else b, 0))) c.slot g)) s

/-- SSEL: uniform select (R137). -/
def execSsel (h : Hd) (x : WAlu) (s : State) : Host.Outcome State Fault Refusal :=
  sselEff (shSsel h x) 3 h (sArgs (aluS x false false 2) h x none) s

/-- SSEL_5W: uniform select, literal (R137). -/
def execSsel5w (h : Hd) (x : WAlu) (l : BitVec 60) (s : State) : Host.Outcome State Fault Refusal :=
  sselEff (shSsel5w h x l) 5 h (sArgs (aluS x false false 2) h x (some l)) s

/-- SFFS_U1: lowest set bit, mould U1 (R137). -/
def execSffsU1 (f : F1) (s : State) : Host.Outcome State Fault Refusal :=
  uni (shSffsU1 f) 0x21 1 f.st (u1 true f) (fn1 (fun a => (ffsVal .n32 a, 0))) s

/-- SFFS: lowest set bit (R137). -/
def execSffs (h : Hd) (x : WTy) (s : State) : Host.Outcome State Fault Refusal :=
  uni (shSffs h x) 0x21 3 h.st [(.s h.b.toNat, tyRegs x.ty)] (fn1 (fun a => (ffsVal x.ty a, 0))) s

/-- SPOP_U1: set bits, mould U1 (R137). -/
def execSpopU1 (f : F1) (s : State) : Host.Outcome State Fault Refusal :=
  uni (shSpopU1 f) 0x22 1 f.st (u1 true f) (fn1 (fun a => (popVal .n32 a, 0))) s

/-- SPOP: set bits (R137). -/
def execSpop (h : Hd) (x : WTy) (s : State) : Host.Outcome State Fault Refusal :=
  uni (shSpop h x) 0x22 3 h.st [(.s h.b.toNat, tyRegs x.ty)] (fn1 (fun a => (popVal x.ty a, 0))) s

/-- VTOS: the lane named by the word, or the lowest lane of the fragment's mask under .first (R137). -/
def execVtos (h : Hd) (x : WVtos) (s : State) : Host.Outcome State Fault Refusal :=
  issue (shVtos h x) 0x27 3 h.st (fun c s => goGroup s c (fun g =>
    let lane := if bit h.mod 0 then lowLane c.mask else x.lane.toNat
    g.put c.slot (shVtos h x).dst [(0, srcLane g c.slot lane (tyRegs x.ty) (.v h.b.toNat))])) s

/-- STOV: a uniform value into every lane of the fragment's mask (R137). -/
def execStov (h : Hd) (x : WTy) (s : State) : Host.Outcome State Fault Refusal :=
  issue (shStov h x) 0x28 3 h.st (fun c s => goGroup s c (fun g =>
    let v := srcLane g c.slot 0 (tyRegs x.ty) (.s h.b.toNat)
    g.put c.slot (shStov h x).dst ((lanes c.act).map (fun l => (l, v))))) s

/-- KLOP: a truth table of three uniform predicates (R137). -/
def execKlop (h : Hd) (x : WLut) (s : State) : Host.Outcome State Fault Refusal :=
  issue (shKlop h) 0x29 3 h.st (fun c s => goGroup s c (fun g =>
    g.put c.slot (shKlop h).dst
      [(0, truth (lutBit x.lut (g.rk c.slot h.b.toNat) (g.rk c.slot h.c.toNat) (g.rk c.slot h.d.toNat)))])) s

/-- PLOP: a truth table of three predicates in each active lane (R135). -/
def execPlop (h : Hd) (x : WLut) (s : State) : Host.Outcome State Fault Refusal :=
  issue (shPlop h) 0x0F 3 h.st (fun c s => goGroup s c (fun g =>
    g.put c.slot (shPlop h).dst ((lanes c.act).map (fun l =>
      (l, truth (lutBit x.lut (g.rp c.slot h.b.toNat l) (g.rp c.slot h.c.toNat l) (g.rp c.slot h.d.toNat l))))))) s

end Sys2Proof.Machine
end

