-- ==== Sys2Proof/Machine/Dispatch.lean ====
section
/-! DEFINITION. Every instruction and event to its meaning. -/
namespace Sys2Proof.Machine

/-- The meaning of an instruction at the current fragment, or of an event. -/
def exec (i : Instr) (s : State) : Host.Outcome State Fault Refusal :=
  match i with
  | .pcieLinkUp images => Sys2Proof.Machine.execPcieLinkUp images s
  | .hostReset => Sys2Proof.Machine.execHostReset s
  | .stage1Entry err => Sys2Proof.Machine.execStage1Entry err s
  | .go2 => Sys2Proof.Machine.execGo2 s
  | .stage2Entry err => Sys2Proof.Machine.execStage2Entry err s
  | .go3 => Sys2Proof.Machine.execGo3 s
  | .stage3Entry ports pkg joined => Sys2Proof.Machine.execStage3Entry ports pkg joined s
  | .podRootLeaves joined => Sys2Proof.Machine.execPodRootLeaves joined s
  | .pceilWrite v => Sys2Proof.Machine.execPceilWrite v s
  | .clockLower => Sys2Proof.Machine.execClockLower s
  | .idleEntry => Sys2Proof.Machine.execIdleEntry s
  | .idleExit => Sys2Proof.Machine.execIdleExit s
  | .invgo => Sys2Proof.Machine.execInvgo s
  | .migRequest => Sys2Proof.Machine.execMigRequest s
  | .migDone => Sys2Proof.Machine.execMigDone s
  | .moveClaimGrant => Sys2Proof.Machine.execMoveClaimGrant s
  | .load page => Sys2Proof.Machine.execLoad page s
  | .unload page => Sys2Proof.Machine.execUnload page s
  | .halt page => Sys2Proof.Machine.execHalt page s
  | .resume page => Sys2Proof.Machine.execResume page s
  | .term page => Sys2Proof.Machine.execTerm page s
  | .preemptionSave page => Sys2Proof.Machine.execPreemptionSave page s
  | .qtailWrite page v => Sys2Proof.Machine.execQtailWrite page v s
  | .hostQueueRecordConsume page => Sys2Proof.Machine.execHostQueueRecordConsume page s
  | .frespResume page seq => Sys2Proof.Machine.execFrespResume page seq s
  | .frespTerminate page seq => Sys2Proof.Machine.execFrespTerminate page seq s
  | .attestCommand => Sys2Proof.Machine.execAttestCommand s
  | .monitorClr blk => Sys2Proof.Machine.execMonitorClr blk s
  | .powerSampleTimer watts => Sys2Proof.Machine.execPowerSampleTimer watts s
  | .registerWrite off bytes v => Sys2Proof.Machine.execRegisterWrite off bytes v s
  | .hostApertureAccess write off bytes v => Sys2Proof.Machine.execHostApertureAccess write off bytes v s
  | .hostMemoryAccess write page va bytes v => Sys2Proof.Machine.execHostMemoryAccess write page va bytes v s
  | .scrubPass stack temp errs => Sys2Proof.Machine.execScrubPass stack temp errs s
  | .rowRemap stack row => Sys2Proof.Machine.execRowRemap stack row s
  | .stashFill team win line => Sys2Proof.Machine.execStashFill team win line s
  | .stashWriteBack team win line => Sys2Proof.Machine.execStashWriteBack team win line s
  | .l2Recall team win line => Sys2Proof.Machine.execL2Recall team win line s
  | .remoteLineRequest write team win line => Sys2Proof.Machine.execRemoteLineRequest write team win line s
  | .lineMigration line slice => Sys2Proof.Machine.execLineMigration line slice s
  | .faultRecordPost page => Sys2Proof.Machine.execFaultRecordPost page s
  | .hotWindowExpiry => Sys2Proof.Machine.execHotWindowExpiry s
  | .cfillService page seq => Sys2Proof.Machine.execCfillService page seq s
  | .peerAccess a => Sys2Proof.Machine.execPeerAccess a s
  | .asyncFaultDelivery place => Sys2Proof.Machine.execAsyncFaultDelivery place s
  | .operationRetire op cls => Sys2Proof.Machine.execOperationRetire op cls s
  | .yieldResume place => Sys2Proof.Machine.execYieldResume place s
  | .regclaimGrant team quad => Sys2Proof.Machine.execRegclaimGrant team quad s
  | .engineArrival n => Sys2Proof.Machine.execEngineArrival n s
  | .barrierWatchdogExpiry team slot => Sys2Proof.Machine.execBarrierWatchdogExpiry team slot s
  | .copyChunkDone op chunk => Sys2Proof.Machine.execCopyChunkDone op chunk s
  | .copyFault op chunk => Sys2Proof.Machine.execCopyFault op chunk s
  | .remainderChunk op => Sys2Proof.Machine.execRemainderChunk op s
  | .prefetchLine core => Sys2Proof.Machine.execPrefetchLine core s
  | .accessElementDone op lane => Sys2Proof.Machine.execAccessElementDone op lane s
  | .accessOperationStop op => Sys2Proof.Machine.execAccessOperationStop op s
  | .streamEntryReady team snum => Sys2Proof.Machine.execStreamEntryReady team snum s
  | .streamFaultHold team snum => Sys2Proof.Machine.execStreamFaultHold team snum s
  | .streamContextFree team snum => Sys2Proof.Machine.execStreamContextFree team snum s
  | .mmaSegmentDone op => Sys2Proof.Machine.execMmaSegmentDone op s
  | .matrixFault op => Sys2Proof.Machine.execMatrixFault op s
  | .accstRowDone op => Sys2Proof.Machine.execAccstRowDone op s
  | .mzeroDone op => Sys2Proof.Machine.execMzeroDone op s
  | .accwrDone op => Sys2Proof.Machine.execAccwrDone op s
  | .accrdDone op => Sys2Proof.Machine.execAccrdDone op s
  | .mldDone op => Sys2Proof.Machine.execMldDone op s
  | .quantOpDone op => Sys2Proof.Machine.execQuantOpDone op s
  | .quantFault op => Sys2Proof.Machine.execQuantFault op s
  | .launchStart page lseq => Sys2Proof.Machine.execLaunchStart page lseq s
  | .reservationGrant lid node die => Sys2Proof.Machine.execReservationGrant lid node die s
  | .teamForm lid node seg die => Sys2Proof.Machine.execTeamForm lid node seg die s
  | .teamDispatch fid core => Sys2Proof.Machine.execTeamDispatch fid core s
  | .queueOverflow lid => Sys2Proof.Machine.execQueueOverflow lid s
  | .launchComplete lid => Sys2Proof.Machine.execLaunchComplete lid s
  | .recordEnvelope src e => Sys2Proof.Machine.execRecordEnvelope src e s
  | .acknowledgement src e => Sys2Proof.Machine.execAcknowledgement src e s
  | .creditRequest src e => Sys2Proof.Machine.execCreditRequest src e s
  | .creditGrant src e => Sys2Proof.Machine.execCreditGrant src e s
  | .retransmitTimeout dst podctx seq => Sys2Proof.Machine.execRetransmitTimeout dst podctx seq s
  | .launch src e => Sys2Proof.Machine.execLaunch src e s
  | .start src e => Sys2Proof.Machine.execStart src e s
  | .started src e => Sys2Proof.Machine.execStarted src e s
  | .deal src e => Sys2Proof.Machine.execDeal src e s
  | .rdone src e => Sys2Proof.Machine.execRdone src e s
  | .fault src e => Sys2Proof.Machine.execFault src e s
  | .cancel src e => Sys2Proof.Machine.execCancel src e s
  | .wave src e => Sys2Proof.Machine.execWave src e s
  | .reply src e => Sys2Proof.Machine.execReply src e s
  | .final src e => Sys2Proof.Machine.execFinal src e s
  | .pbarv src e => Sys2Proof.Machine.execPbarv src e s
  | .pbres src e => Sys2Proof.Machine.execPbres src e s
  | .pbrel src e => Sys2Proof.Machine.execPbrel src e s
  | .query src e => Sys2Proof.Machine.execQuery src e s
  | .answer src e => Sys2Proof.Machine.execAnswer src e s
  | .zeroWord w => Sys2Proof.Machine.execZeroWord w s
  | .unassignedOpcode w => Sys2Proof.Machine.execUnassignedOpcode w s
  | .nopZ1 f => Sys2Proof.Machine.execNopZ1 f s
  | .nop h => Sys2Proof.Machine.execNop h s
  | .braJ1 f => Sys2Proof.Machine.execBraJ1 f s
  | .bra h x => Sys2Proof.Machine.execBra h x s
  | .brx h => Sys2Proof.Machine.execBrx h s
  | .brc h x => Sys2Proof.Machine.execBrc h x s
  | .join h x => Sys2Proof.Machine.execJoin h x s
  | .callJ1 f => Sys2Proof.Machine.execCallJ1 f s
  | .call h x => Sys2Proof.Machine.execCall h x s
  | .callx h => Sys2Proof.Machine.execCallx h s
  | .retZ1 f => Sys2Proof.Machine.execRetZ1 f s
  | .ret h => Sys2Proof.Machine.execRet h s
  | .exitZ1 f => Sys2Proof.Machine.execExitZ1 f s
  | .exit h => Sys2Proof.Machine.execExit h s
  | .yieldZ1 f => Sys2Proof.Machine.execYieldZ1 f s
  | .yield h => Sys2Proof.Machine.execYield h s
  | .yieldc h x => Sys2Proof.Machine.execYieldc h x s
  | .waitc h x => Sys2Proof.Machine.execWaitc h x s
  | .trap h x => Sys2Proof.Machine.execTrap h x s
  | .svret f => Sys2Proof.Machine.execSvret f s
  | .plop h x => Sys2Proof.Machine.execPlop h x s
  | .saddI1 f => Sys2Proof.Machine.execSaddI1 f s
  | .sadd h x => Sys2Proof.Machine.execSadd h x s
  | .sadd5w h x lit => Sys2Proof.Machine.execSadd5w h x lit s
  | .ssubI1 f => Sys2Proof.Machine.execSsubI1 f s
  | .ssub h x => Sys2Proof.Machine.execSsub h x s
  | .ssub5w h x lit => Sys2Proof.Machine.execSsub5w h x lit s
  | .smulI1 f => Sys2Proof.Machine.execSmulI1 f s
  | .smul h x => Sys2Proof.Machine.execSmul h x s
  | .smul5w h x lit => Sys2Proof.Machine.execSmul5w h x lit s
  | .smulhI1 f => Sys2Proof.Machine.execSmulhI1 f s
  | .smulh h x => Sys2Proof.Machine.execSmulh h x s
  | .smulh5w h x lit => Sys2Proof.Machine.execSmulh5w h x lit s
  | .sandI1 f => Sys2Proof.Machine.execSandI1 f s
  | .sand h x => Sys2Proof.Machine.execSand h x s
  | .sand5w h x lit => Sys2Proof.Machine.execSand5w h x lit s
  | .sorI1 f => Sys2Proof.Machine.execSorI1 f s
  | .sor h x => Sys2Proof.Machine.execSor h x s
  | .sor5w h x lit => Sys2Proof.Machine.execSor5w h x lit s
  | .sxorI1 f => Sys2Proof.Machine.execSxorI1 f s
  | .sxor h x => Sys2Proof.Machine.execSxor h x s
  | .sxor5w h x lit => Sys2Proof.Machine.execSxor5w h x lit s
  | .sshlI1 f => Sys2Proof.Machine.execSshlI1 f s
  | .sshl h x => Sys2Proof.Machine.execSshl h x s
  | .sshl5w h x lit => Sys2Proof.Machine.execSshl5w h x lit s
  | .sshrI1 f => Sys2Proof.Machine.execSshrI1 f s
  | .sshr h x => Sys2Proof.Machine.execSshr h x s
  | .sshr5w h x lit => Sys2Proof.Machine.execSshr5w h x lit s
  | .ssraI1 f => Sys2Proof.Machine.execSsraI1 f s
  | .ssra h x => Sys2Proof.Machine.execSsra h x s
  | .ssra5w h x lit => Sys2Proof.Machine.execSsra5w h x lit s
  | .sminI1 f => Sys2Proof.Machine.execSminI1 f s
  | .smin h x => Sys2Proof.Machine.execSmin h x s
  | .smin5w h x lit => Sys2Proof.Machine.execSmin5w h x lit s
  | .smaxI1 f => Sys2Proof.Machine.execSmaxI1 f s
  | .smax h x => Sys2Proof.Machine.execSmax h x s
  | .smax5w h x lit => Sys2Proof.Machine.execSmax5w h x lit s
  | .ssel h x => Sys2Proof.Machine.execSsel h x s
  | .ssel5w h x lit => Sys2Proof.Machine.execSsel5w h x lit s
  | .scmp h x => Sys2Proof.Machine.execScmp h x s
  | .scmp5w h x lit => Sys2Proof.Machine.execScmp5w h x lit s
  | .smovU1 f => Sys2Proof.Machine.execSmovU1 f s
  | .smov h x => Sys2Proof.Machine.execSmov h x s
  | .sldiM1 f => Sys2Proof.Machine.execSldiM1 f s
  | .sldi h x => Sys2Proof.Machine.execSldi h x s
  | .sldi5w h x lit => Sys2Proof.Machine.execSldi5w h x lit s
  | .sldk h x => Sys2Proof.Machine.execSldk h x s
  | .sffsU1 f => Sys2Proof.Machine.execSffsU1 f s
  | .sffs h x => Sys2Proof.Machine.execSffs h x s
  | .spopU1 f => Sys2Proof.Machine.execSpopU1 f s
  | .spop h x => Sys2Proof.Machine.execSpop h x s
  | .rsrU1 f => Sys2Proof.Machine.execRsrU1 f s
  | .rsr h => Sys2Proof.Machine.execRsr h s
  | .wsrU1 f => Sys2Proof.Machine.execWsrU1 f s
  | .wsr h => Sys2Proof.Machine.execWsr h s
  | .reggive h x => Sys2Proof.Machine.execReggive h x s
  | .regclaim h x => Sys2Proof.Machine.execRegclaim h x s
  | .vtos h x => Sys2Proof.Machine.execVtos h x s
  | .stov h x => Sys2Proof.Machine.execStov h x s
  | .klop h x => Sys2Proof.Machine.execKlop h x s
  | .iaddI1 f => Sys2Proof.Machine.execIaddI1 f s
  | .iadd h x => Sys2Proof.Machine.execIadd h x s
  | .iadd5w h x lit => Sys2Proof.Machine.execIadd5w h x lit s
  | .isubI1 f => Sys2Proof.Machine.execIsubI1 f s
  | .isub h x => Sys2Proof.Machine.execIsub h x s
  | .isub5w h x lit => Sys2Proof.Machine.execIsub5w h x lit s
  | .imulI1 f => Sys2Proof.Machine.execImulI1 f s
  | .imul h x => Sys2Proof.Machine.execImul h x s
  | .imul5w h x lit => Sys2Proof.Machine.execImul5w h x lit s
  | .imulhI1 f => Sys2Proof.Machine.execImulhI1 f s
  | .imulh h x => Sys2Proof.Machine.execImulh h x s
  | .imulh5w h x lit => Sys2Proof.Machine.execImulh5w h x lit s
  | .imad h x => Sys2Proof.Machine.execImad h x s
  | .imad5w h x lit => Sys2Proof.Machine.execImad5w h x lit s
  | .iabsU1 f => Sys2Proof.Machine.execIabsU1 f s
  | .iabs h x => Sys2Proof.Machine.execIabs h x s
  | .inegU1 f => Sys2Proof.Machine.execInegU1 f s
  | .ineg h x => Sys2Proof.Machine.execIneg h x s
  | .iminI1 f => Sys2Proof.Machine.execIminI1 f s
  | .imin h x => Sys2Proof.Machine.execImin h x s
  | .imin5w h x lit => Sys2Proof.Machine.execImin5w h x lit s
  | .imaxI1 f => Sys2Proof.Machine.execImaxI1 f s
  | .imax h x => Sys2Proof.Machine.execImax h x s
  | .imax5w h x lit => Sys2Proof.Machine.execImax5w h x lit s
  | .icmp h x => Sys2Proof.Machine.execIcmp h x s
  | .icmp5w h x lit => Sys2Proof.Machine.execIcmp5w h x lit s
  | .isel h x => Sys2Proof.Machine.execIsel h x s
  | .isel5w h x lit => Sys2Proof.Machine.execIsel5w h x lit s
  | .ishlI1 f => Sys2Proof.Machine.execIshlI1 f s
  | .ishl h x => Sys2Proof.Machine.execIshl h x s
  | .ishl5w h x lit => Sys2Proof.Machine.execIshl5w h x lit s
  | .ishrI1 f => Sys2Proof.Machine.execIshrI1 f s
  | .ishr h x => Sys2Proof.Machine.execIshr h x s
  | .ishr5w h x lit => Sys2Proof.Machine.execIshr5w h x lit s
  | .israI1 f => Sys2Proof.Machine.execIsraI1 f s
  | .isra h x => Sys2Proof.Machine.execIsra h x s
  | .isra5w h x lit => Sys2Proof.Machine.execIsra5w h x lit s
  | .iandI1 f => Sys2Proof.Machine.execIandI1 f s
  | .iand h x => Sys2Proof.Machine.execIand h x s
  | .iand5w h x lit => Sys2Proof.Machine.execIand5w h x lit s
  | .iorI1 f => Sys2Proof.Machine.execIorI1 f s
  | .ior h x => Sys2Proof.Machine.execIor h x s
  | .ior5w h x lit => Sys2Proof.Machine.execIor5w h x lit s
  | .ixorI1 f => Sys2Proof.Machine.execIxorI1 f s
  | .ixor h x => Sys2Proof.Machine.execIxor h x s
  | .ixor5w h x lit => Sys2Proof.Machine.execIxor5w h x lit s
  | .lop3 h x => Sys2Proof.Machine.execLop3 h x s
  | .lop35w h x lit => Sys2Proof.Machine.execLop35w h x lit s
  | .popcU1 f => Sys2Proof.Machine.execPopcU1 f s
  | .popc h x => Sys2Proof.Machine.execPopc h x s
  | .clzU1 f => Sys2Proof.Machine.execClzU1 f s
  | .clz h x => Sys2Proof.Machine.execClz h x s
  | .brevU1 f => Sys2Proof.Machine.execBrevU1 f s
  | .brev h x => Sys2Proof.Machine.execBrev h x s
  | .bfe h x => Sys2Proof.Machine.execBfe h x s
  | .bfe5w h x lit => Sys2Proof.Machine.execBfe5w h x lit s
  | .bfi h x => Sys2Proof.Machine.execBfi h x s
  | .bfi5w h x lit => Sys2Proof.Machine.execBfi5w h x lit s
  | .fadd h x => Sys2Proof.Machine.execFadd h x s
  | .fadd5w h x lit => Sys2Proof.Machine.execFadd5w h x lit s
  | .fsub h x => Sys2Proof.Machine.execFsub h x s
  | .fsub5w h x lit => Sys2Proof.Machine.execFsub5w h x lit s
  | .fmul h x => Sys2Proof.Machine.execFmul h x s
  | .fmul5w h x lit => Sys2Proof.Machine.execFmul5w h x lit s
  | .ffma h x => Sys2Proof.Machine.execFfma h x s
  | .ffma5w h x lit => Sys2Proof.Machine.execFfma5w h x lit s
  | .fmin h x => Sys2Proof.Machine.execFmin h x s
  | .fmin5w h x lit => Sys2Proof.Machine.execFmin5w h x lit s
  | .fmax h x => Sys2Proof.Machine.execFmax h x s
  | .fmax5w h x lit => Sys2Proof.Machine.execFmax5w h x lit s
  | .fcmp h x => Sys2Proof.Machine.execFcmp h x s
  | .fcmp5w h x lit => Sys2Proof.Machine.execFcmp5w h x lit s
  | .frnd h x => Sys2Proof.Machine.execFrnd h x s
  | .frnd5w h x lit => Sys2Proof.Machine.execFrnd5w h x lit s
  | .fclass h x => Sys2Proof.Machine.execFclass h x s
  | .fclass5w h x lit => Sys2Proof.Machine.execFclass5w h x lit s
  | .fscale h x => Sys2Proof.Machine.execFscale h x s
  | .fscale5w h x lit => Sys2Proof.Machine.execFscale5w h x lit s
  | .frcp h x => Sys2Proof.Machine.execFrcp h x s
  | .frsq h x => Sys2Proof.Machine.execFrsq h x s
  | .fsqrt h x => Sys2Proof.Machine.execFsqrt h x s
  | .fex2 h x => Sys2Proof.Machine.execFex2 h x s
  | .flg2 h x => Sys2Proof.Machine.execFlg2 h x s
  | .fsin h x => Sys2Proof.Machine.execFsin h x s
  | .fcos h x => Sys2Proof.Machine.execFcos h x s
  | .ftanh h x => Sys2Proof.Machine.execFtanh h x s
  | .hadd2 h x => Sys2Proof.Machine.execHadd2 h x s
  | .hadd25w h x lit => Sys2Proof.Machine.execHadd25w h x lit s
  | .hmul2 h x => Sys2Proof.Machine.execHmul2 h x s
  | .hmul25w h x lit => Sys2Proof.Machine.execHmul25w h x lit s
  | .hfma2 h x => Sys2Proof.Machine.execHfma2 h x s
  | .hfma25w h x lit => Sys2Proof.Machine.execHfma25w h x lit s
  | .cvt h x => Sys2Proof.Machine.execCvt h x s
  | .cvtn h x => Sys2Proof.Machine.execCvtn h x s
  | .pack4 h x => Sys2Proof.Machine.execPack4 h x s
  | .unpk4 h x => Sys2Proof.Machine.execUnpk4 h x s
  | .shfl h x => Sys2Proof.Machine.execShfl h x s
  | .ballot h => Sys2Proof.Machine.execBallot h s
  | .vote h x => Sys2Proof.Machine.execVote h x s
  | .psum h x => Sys2Proof.Machine.execPsum h x s
  | .redux h x => Sys2Proof.Machine.execRedux h x s
  | .matchV h x => Sys2Proof.Machine.execMatchV h x s
  | .movU1 f => Sys2Proof.Machine.execMovU1 f s
  | .mov h x => Sys2Proof.Machine.execMov h x s
  | .moviM1 f => Sys2Proof.Machine.execMoviM1 f s
  | .movi h x => Sys2Proof.Machine.execMovi h x s
  | .movi5w h x lit => Sys2Proof.Machine.execMovi5w h x lit s
  | .pair h x => Sys2Proof.Machine.execPair h x s
  | .ld h x => Sys2Proof.Machine.execLd h x s
  | .ld5w h x lit => Sys2Proof.Machine.execLd5w h x lit s
  | .st h x => Sys2Proof.Machine.execSt h x s
  | .st5w h x lit => Sys2Proof.Machine.execSt5w h x lit s
  | .ldl h x => Sys2Proof.Machine.execLdl h x s
  | .ldl5w h x lit => Sys2Proof.Machine.execLdl5w h x lit s
  | .stl h x => Sys2Proof.Machine.execStl h x s
  | .stl5w h x lit => Sys2Proof.Machine.execStl5w h x lit s
  | .ldc h x => Sys2Proof.Machine.execLdc h x s
  | .ldc5w h x lit => Sys2Proof.Machine.execLdc5w h x lit s
  | .lda h x => Sys2Proof.Machine.execLda h x s
  | .lda5w h x lit => Sys2Proof.Machine.execLda5w h x lit s
  | .strel h x => Sys2Proof.Machine.execStrel h x s
  | .strel5w h x lit => Sys2Proof.Machine.execStrel5w h x lit s
  | .atom h x => Sys2Proof.Machine.execAtom h x s
  | .atom5w h x lit => Sys2Proof.Machine.execAtom5w h x lit s
  | .atoml h x => Sys2Proof.Machine.execAtoml h x s
  | .atoml5w h x lit => Sys2Proof.Machine.execAtoml5w h x lit s
  | .red h x => Sys2Proof.Machine.execRed h x s
  | .red5w h x lit => Sys2Proof.Machine.execRed5w h x lit s
  | .fenceZ1 f => Sys2Proof.Machine.execFenceZ1 f s
  | .fence h x => Sys2Proof.Machine.execFence h x s
  | .pref h x => Sys2Proof.Machine.execPref h x s
  | .pref5w h x lit => Sys2Proof.Machine.execPref5w h x lit s
  | .stashmap h x => Sys2Proof.Machine.execStashmap h x s
  | .stashunmap h x => Sys2Proof.Machine.execStashunmap h x s
  | .stashsync h x => Sys2Proof.Machine.execStashsync h x s
  | .stashinv h x => Sys2Proof.Machine.execStashinv h x s
  | .discard h => Sys2Proof.Machine.execDiscard h s
  | .pghint h x => Sys2Proof.Machine.execPghint h x s
  | .pgpoolGet h => Sys2Proof.Machine.execPgpoolGet h s
  | .pgpoolPut h => Sys2Proof.Machine.execPgpoolPut h s
  | .pgmap h => Sys2Proof.Machine.execPgmap h s
  | .pgmapFwd h => Sys2Proof.Machine.execPgmapFwd h s
  | .tlbinv h => Sys2Proof.Machine.execTlbinv h s
  | .barinit h x => Sys2Proof.Machine.execBarinit h x s
  | .barexp h x => Sys2Proof.Machine.execBarexp h x s
  | .bararv h x => Sys2Proof.Machine.execBararv h x s
  | .barwait h x => Sys2Proof.Machine.execBarwait h x s
  | .bararw h x => Sys2Proof.Machine.execBararw h x s
  | .bartest h x => Sys2Proof.Machine.execBartest h x s
  | .barinv h x => Sys2Proof.Machine.execBarinv h x s
  | .cpy h x => Sys2Proof.Machine.execCpy h x s
  | .cpy2d h x => Sys2Proof.Machine.execCpy2d h x s
  | .cpys h x => Sys2Proof.Machine.execCpys h x s
  | .pfx h x => Sys2Proof.Machine.execPfx h x s
  | .pfxcancel h => Sys2Proof.Machine.execPfxcancel h s
  | .apstart h x => Sys2Proof.Machine.execApstart h x s
  | .appop h x => Sys2Proof.Machine.execAppop h x s
  | .appush h x => Sys2Proof.Machine.execAppush h x s
  | .apstat h x => Sys2Proof.Machine.execApstat h x s
  | .apstop h x => Sys2Proof.Machine.execApstop h x s
  | .agath h x => Sys2Proof.Machine.execAgath h x s
  | .ascat h x => Sys2Proof.Machine.execAscat h x s
  | .apreplay h => Sys2Proof.Machine.execApreplay h s
  | .mzero h => Sys2Proof.Machine.execMzero h s
  | .mma h x => Sys2Proof.Machine.execMma h x s
  | .mmas h x => Sys2Proof.Machine.execMmas h x s
  | .mld h => Sys2Proof.Machine.execMld h s
  | .accrd h x => Sys2Proof.Machine.execAccrd h x s
  | .accwr h x => Sys2Proof.Machine.execAccwr h x s
  | .accst h x => Sys2Proof.Machine.execAccst h x s
  | .mstat h => Sys2Proof.Machine.execMstat h s
  | .qhist h x => Sys2Proof.Machine.execQhist h x s
  | .qclip h x => Sys2Proof.Machine.execQclip h x s
  | .qpack h x => Sys2Proof.Machine.execQpack h x s
  | .qolst h x => Sys2Proof.Machine.execQolst h x s
  | .qrst h x => Sys2Proof.Machine.execQrst h x s
  | .emit h x => Sys2Proof.Machine.execEmit h x s
  | .emitt h x => Sys2Proof.Machine.execEmitt h x s
  | .recld h => Sys2Proof.Machine.execRecld h s
  | .flushq h x => Sys2Proof.Machine.execFlushq h x s
  | .glaunch h => Sys2Proof.Machine.execGlaunch h s
  | .gcancel h => Sys2Proof.Machine.execGcancel h s
  | .gwait h => Sys2Proof.Machine.execGwait h s
  | .podbar h x => Sys2Proof.Machine.execPodbar h x s
  | .podqry h x => Sys2Proof.Machine.execPodqry h x s
  | .podflt h x => Sys2Proof.Machine.execPodflt h x s
  | .placementReload page entries => Sys2Proof.Machine.execPlacementReload page entries s
  | .ualinkPortFailure port => Sys2Proof.Machine.execUalinkPortFailure port s

end Sys2Proof.Machine
end

