-- ==== Sys2Proof/Machine/Turn.lean ====
section
/-! DEFINITION. Who moves next: the agenda's head, or, with an empty agenda, a turn that the state itself chooses; the passing
of cycles; the start of an issue turn; the placing of one instruction for the next step. -/
namespace Sys2Proof.Machine

/-- The state in which a fetched instruction runs. -/
def fetched (s : State) : State :=
  let g := s.group s.cur.1
  match g.frag s.cur.2 with
  | some f => keepFetched s (s.ctx g.page).d f.pc
  | none => s

/-! ### Readiness (R127) -/

/-- Whether a fragment that has found a resource missing would issue its instruction now: a try leaves it stalled no more (R20, R127). -/
noncomputable def wouldIssue (s : State) (place slot : Nat) (i : Option Instr) : Bool :=
  match openFetch { s with cur := (place, slot) }, i with
  | (false, _), _ => false
  | (true, _), none => true
  | (true, t), some i => match exec i (fetched t) with
    | .next u => ((u.group place).frag slot).all (fun f => f.stalled.isNone)
    | _ => true

/-- A fragment is ready (R127): it may issue, its stall count has expired, its operands have arrived, and it is not stalled. -/
noncomputable def readyNow (s : State) (place slot : Nat) (g : Group) (f : Frag) : Bool :=
  mayIssue s g f && decide (f.ready ≤ s.clkOf g.core) && match fetchAt s (s.ctx g.page).d f with
    | .instr i => !blocked s place slot (shape (recRegs s g) (inRegs s g) i) && (f.stalled.isNone || wouldIssue s place slot (some i))
    | _ => f.stalled.isNone || wouldIssue s place slot none

/-- A fragment with the cycle it has been ready from, or none when it is not ready. -/
noncomputable def markFrag (s : State) (from_ place slot : Nat) (g : Group) (f : Frag) : Frag :=
  { f with since := if readyNow s place slot g f then some (f.since.getD (max from_ f.ready)) else none }

/-- The ready marks of every fragment that `p` accepts brought up to date; `from_` gives for a core the earliest cycle a new mark may name. -/
noncomputable def markReady (s : State) (from_ : Nat → Nat) (p : Group → Bool) : State :=
  { s with groups := s.groups.map (fun x =>
      if p x.2 then
        (x.1, { x.2 with slot0 := x.2.slot0.map (markFrag s (from_ x.2.core) x.1 0 x.2), slot1 := x.2.slot1.map (markFrag s (from_ x.2.core) x.1 1 x.2) })
      else x) }

/-! ### Cycles -/

/-- Initial records of the launches of running contexts that have not entered their queue, because of space or of a read that waited (R351). -/
def retryInit (s : State) : State :=
  (s.launches.filter (fun l => l.phase == 1 && l.cancel == 0 && !l.r.pod && decide (l.init < l.r.nrec.toNat) && (s.ctx l.page).state == 2)).foldl
    (fun s l => afterSpace s l.lid) s

/-- Cycles pass: the counters of every core, which stand still in the idle states (R420), and the fabric counter advance (R4), no further than to
the next expiry of a watchdog or an overflow interval; ages grow, an incomplete invalidation is tried again, and fragments that have
become ready are marked. Initial records that have not entered their queue are tried again
(R351). -/
noncomputable def tick (s : State) (core fab : Nat) : State :=
  let core := if 3 ≤ s.sys.pstate then 0 else untilExpiry s (fun _ => true) core
  let fab := untilOverflow s fab
  let t := sweepTeams (retryInvalidate (ageOverflow (ageSlots s (fun _ => true) core) fab))
  markReady (retryInit { t with clk := s.clk + core, sys := { t.sys with fab := s.sys.fab + fab } }) s.clkOf (fun _ => true)

/-- Cycles pass for one core alone: its counter is its own (R4). -/
noncomputable def drift (s : State) (core n : Nat) : State :=
  let n := if 3 ≤ s.sys.pstate then 0 else untilExpiry s (fun c => c == core) n
  let t := ageSlots s (fun c => c == core) n
  markReady { t with skew := fset s.skew core 0 (fget s.skew core 0 + n) } s.clkOf (fun g => g.core == core)

/-- A peer package's memory changes (R380): no effect on a key that is not of a peer. -/
def foreign (s : State) (key : Nat) (b : Byte) : State := if 2 ^ 53 ≤ key && key < 2 ^ 64 then s.setBytes key [b] else s

/-- Another member has started a pod number: the highest that any member has started is kept (R394, log 96). -/
def noteStarted (s : State) (pseq : Word) : State :=
  if s.sys.stage = 3 && decide (s.link.started.toNat < pseq.toNat) then { s with link := { s.link with started := pseq } } else s

/-- A line of device memory has an uncorrectable error from now on (R422). -/
def upset (s : State) (line : Nat) : State := if line < 2 ^ 31 && !s.bad.contains line then { s with bad := line :: s.bad } else s

/-! ### Events that may be due -/

/-- Some event for each element of a list. -/
def eventsOf {α : Type} (l : List α) (f : α → List Instr) : List Instr := l.flatMap f

/-- An event when a condition holds. -/
def when_ (b : Bool) (i : Instr) : List Instr := if b then [i] else []

/-- Events of the system controller and of the contexts. -/
def dueSystem (s : State) : List Instr :=
  when_ (s.sys.pstate < s.sys.pceil.toNat) .clockLower ++
  when_ (!hasWork s && (idleState s.sys.lattol).any (fun p => p != s.sys.pstate)) .idleEntry ++
  when_ (3 ≤ s.sys.pstate && (s.sys.wake || hasWork s || (idleState s.sys.lattol).isNone)) .idleExit ++
  when_ (s.claims.any (fun c => !c.granted)) .moveClaimGrant ++
  when_ (s.sys.hotwin < s.sys.fab / 2 ^ 20) .hotWindowExpiry ++
  eventsOf s.ctxs (fun c =>
    when_ (c.2.state == 3) (.preemptionSave c.1) ++ when_ (mayConsume s c.1) (.hostQueueRecordConsume c.1) ++
    when_ (!c.2.heldRecs.isEmpty) (.faultRecordPost c.1) ++
    ((c.2.waiting.filter (fun p => p.frec.seq == 0)).map (fun p => .cfillService c.1 (BitVec.ofNat 32 p.ticket))) ++
    ((expired s c.1).take 1).map (fun x => .barrierWatchdogExpiry x.2.1 x.2.2))

/-- Events of the dispatchers and of the link engine. -/
def dueLaunches (s : State) : List Instr :=
  eventsOf s.link.late (fun x => (eventOf x.1 x.2).toList) ++
  eventsOf s.launches (fun l =>
    when_ (mayStart s l) (.launchStart l.page l.lseq) ++ when_ (quiescent s l) (.launchComplete l.lid) ++
    when_ (l.ovf == overflowCycles) (.queueOverflow l.lid) ++
    eventsOf l.q (fun r => if r.granted then (List.range 4).map (fun d => .teamForm l.lid r.node r.die d) else [.reservationGrant l.lid r.node r.die]) ++
    eventsOf l.grids (fun j => ((List.range 4).filter (dieServes s)).map (fun d => .teamForm l.lid j.node (j.seg.getD d) d))) ++
  eventsOf s.formed (fun f => match launchOf s f.lid with
    | some l => (((List.range 32).map (fun c => 32 * f.die + c)).filter (fun c => fitAll s l f.node c f.seeds.length)).map (fun c => .teamDispatch f.fid c)
    | none => []) ++
  eventsOf s.link.tx (fun t => match pageOfPod s t.podctx with
    | some page => (t.kept.filter (fun r => decide (r.timer + 1024 * (s.ctx page).d.rto ≤ s.sys.fab))).map (fun r => .retransmitTimeout t.dst t.podctx r.seq)
    | none => [])

/-- Events that may move an operation. -/
def dueOp (o : Op) : List Instr :=
  o.ripe.map (fun k => .operationRetire o.id k) ++
  match o.kind with
  | .copy c =>
    ((((List.range c.chunks).filter (fun i => c.held.any (fun h => h.1 == i) || c.unread i)).take 4).flatMap
      (fun i => [.copyChunkDone o.id i, .copyFault o.id i])) ++ when_ c.rem.isSome (.remainderChunk o.id)
  | .direct d => when_ (d.full && !o.todo.isEmpty) (.accessElementDone o.id 0) ++
    ((lanes (d.active &&& ~~~d.done)).map (fun l => .accessElementDone o.id l)) ++ [.accessOperationStop o.id]
  | .matrix _ .mzero => [.mzeroDone o.id]
  | .matrix _ (.mma _ _ _ _ _ _ _ _ _ _) => [.mmaSegmentDone o.id, .matrixFault o.id]
  | .matrix _ (.mld _ _) => [.mldDone o.id, .matrixFault o.id]
  | .matrix _ (.accrd _ _ _ _ _ _ _ _) => [.accrdDone o.id]
  | .matrix _ (.accwr _ _ _ _ _) => [.accwrDone o.id]
  | .matrix _ (.accst _ _ _ _ _ _ _ _ _ _ _ _) => [.accstRowDone o.id, .matrixFault o.id]
  | .quant _ => [.quantOpDone o.id, .quantFault o.id]
  | .link _ => []

/-- Events of the cores and their engines. -/
def dueCores (s : State) : List Instr :=
  eventsOf s.ops dueOp ++
  eventsOf s.groups (fun g =>
    when_ (s.ops.any (fun o => o.place == g.1 && o.stop.isSome) || (heldPop s g.2).isSome) (.asyncFaultDelivery g.1) ++
    when_ g.2.yw.isSome (.yieldResume g.1) ++ when_ (!(claimsOf s g.2.team g.2.quad).isEmpty) (.regclaimGrant g.2.team g.2.quad)) ++
  eventsOf s.teams (fun t => eventsOf t.2.streams (fun x =>
    [.streamEntryReady t.1 x.1, .streamFaultHold t.1 x.1] ++ when_ (x.2.state == 3) (.streamContextFree t.1 x.1))) ++
  when_ (!s.arrivals.isEmpty) (.engineArrival 0) ++
  (dedup (s.pfx.map (fun p => p.core))).map (fun c => .prefetchLine c)

/-- Events of the package's own units that may be due. One that is not yet due leaves the state as it is. -/
def dueEvents (s : State) : List Instr := dueSystem s ++ dueLaunches s ++ dueCores s

/-- The quadrants that have a resident group and have not issued in this cycle. -/
def openQuads (s : State) : List (Nat × Nat) :=
  (dedup (s.groups.map (fun x => (x.2.core, x.2.quad)))).filter (fun q => mayIssueNow s q.1 q.2)

/-- The turn taken when the agenda is empty: an event the package owes itself; else, by turns, a due event, a quadrant, a cycle. -/
def defaultTurn (s : State) : Turn :=
  match s.owed with
  | e :: _ => .event e
  | [] =>
    let ev := dueEvents s
    let qs := openQuads s
    if s.turn % 2 = 0 && !ev.isEmpty then .event (ev.getD (s.turn / 2 % ev.length) .clockLower)
    else match qs[s.turn / 2 % qs.length]? with
      | some q => .issue q.1 q.2
      | none => .tick 1 1

/-- The next turn, and the state without it. -/
def nextTurn (s : State) : Turn × State :=
  let s' := { s with turn := s.turn + 1 }
  match s.agenda with
  | t :: l => (t, { s' with agenda := l })
  | [] => match s.owed with
    | e :: l => (.event e, { s' with owed := l })
    | [] => (defaultTurn s, s')

/-- A row that is an event of the machine, and no instruction that a program holds. -/
def isEvent (i : Instr) : Bool :=
  match i with
  | .zeroWord _ => false
  | .unassignedOpcode _ => false
  | i => (rawOf i).isNone

/-- The start of a quadrant's issue turn: ready marks, and the fragment it chooses. -/
noncomputable def startIssue (s : State) (core quad : Nat) : Option (Nat × Nat) × State :=
  let s := markReady s s.clkOf (fun g => g.core == core && g.quad == quad)
  if !mayIssueNow s core quad then (none, s)
  else match pick s core quad with
    | none => (none, s)
    | some c => (some c, { s with cur := c })

/-- What the current fragment fetches. -/
noncomputable def fetchCur (s : State) : Fetched :=
  let g := s.group s.cur.1
  match g.frag s.cur.2 with
  | some f => fetchAt s (s.ctx g.page).d f
  | none => .absentMem

/-! ### Placing one instruction -/

/-- The address at which one instruction is placed. -/
def placeVa : DWord := 0x0000001000000000
/-- The leaf of that page: readable, writable, executable device memory at 64 KiB. -/
def placeLeaf : DWord := 0x000000000001001F

/-- A fragment of every lane at that address, as R105 starts one. -/
def placeFrag : Frag :=
  { mask := allLanes, pc := placeVa, fmt := 0, rsp := 0xFFFF, sup := false, last := 0, chl := 0, ready := 0, buf := none, only := none,
    wait := none, since := none, stalled := none }

/-- A program of one instruction in place of a load from outside: context page 0 running, a group of every lane at core 0, place 0,
quadrant 0 with 512 registers, alone in its quadrant, its page translated, and the instruction's bytes there. -/
def placeOne (s : State) (bytes : List Byte) : State :=
  let c := s.ctx 0
  let s := s.setCtx 0 { c with state := 2, doom := none }
  let s := s.keepTlb c.d.asid placeLeaf 0x100000 1
  let g := { s.group 0 with page := 0, core := 0, gslot := 0, quad := 0, slot0 := some placeFrag, allot := 512, ended := false,
                            park := none, yw := none, pend := [], h := { (s.group 0).h with slot := none } }
  let s := { s with groups := fput (s.groups.filter (fun x => x.2.core != 0 || x.2.quad != 0)) 0 g,
                    issued := fdel s.issued 0, ops := s.ops.filter (fun o => o.place != 0), agenda := [.issue 0 0], cur := (0, 0) }
  s.setBytes 0x10000 bytes

end Sys2Proof.Machine
end

