-- ==== Sys2Proof/Machine/Step.lean ====
section
/-! DEFINITION. One step of the package: the next turn is taken. An issue turn runs the instruction that the chosen fragment
fetches; an event turn runs an event; otherwise cycles pass, or the world outside does what no row of the table names. -/
namespace Sys2Proof.Machine

/-- One step. It is not computable by compiled code only because decoding builds constructors of the largest inductive; the
kernel evaluates it. -/
noncomputable def step (s : State) : Host.Outcome State Fault Refusal :=
  match nextTurn s with
  | (.tick core fab, s) => finish (tick s core fab)
  | (.drift core n, s) => finish (drift s core n)
  | (.upset line, s) => finish (upset s line)
  | (.foreign key b, s) => finish (foreign s key b)
  | (.driverClaim page seq, s) => finish (requestClaim s page seq)
  | (.podStarted pseq, s) => finish (noteStarted s pseq)
  | (.event i, s) => if isEvent i then exec i s else .next s
  | (.issue core quad, s) => match startIssue s core quad with
    | (none, s) => .next s
    | (some _, s) => match openFetch s with
      | (false, s) => finish s
      | (true, s) => match fetchCur s with
        | .instr i => exec i (fetched s)
        | .fault f len => finish (fetchFault s f len)
        | .absentMem => finish { s with absent := true }

/-- The state with one instruction placed where the next step fetches: `w`'s low `nbits` bits, little-endian, zeros above. -/
def State.withFetchWord (s : State) (nbits w : Nat) : State := placeOne s (leBytes 20 (w % 2 ^ nbits))

end Sys2Proof.Machine
end

