-- ==== Sys2Proof/Safety.lean ====
section
/-! DEFINITION. The terms that claims use: a settled state, an instruction that can issue, what an issue leaves, and which instructions
share a shape of effect. -/
namespace Sys2Proof.Machine

/-- The memory list is in its canonical form. -/
def State.MemOk (s : State) : Prop := Memory.wf s.mem = true

/-- No access to absent device memory has been met and no termination is under way: the next step ends in a next state. -/
def State.settled (s : State) : Bool := !s.absent && s.ctxs.all (fun c => c.2.doom.isNone)

/-- The shape of an instruction in a state: EMIT and RECLD name as many registers as the record types of the launch have words. -/
def shapeIn (i : Instr) (s : State) : Shape := shape (recRegs s (s.group s.cur.1)) (inRegs s (s.group s.cur.1)) i

/-- What an issue needs (R30, R65, R127): the current fragment may issue, waits for no engine write, no fault of an accepted operation is to be
delivered first, and no check of steps 5 to 9 fails. The answer is what the instruction knows of its issue. -/
def canIssue (sh : Shape) (op len st : Nat) (s : State) : Option Iss :=
  match ffind s.groups s.cur.1 with
  | none => none
  | some g0 => match g0.frag s.cur.2 with
    | none => none
    | some f =>
      let g := (drainFor s s.cur sh).group s.cur.1
      let c := issOf sh op len st s.cur.1 s.cur.2 g f
      if mayIssue s g0 f && !blocked s s.cur.1 s.cur.2 sh && (asyncDue s s.cur.1 s.cur.2).isNone && (issueFault s g0 f c sh).isNone then some c
      else none

/-- An instruction can issue now. -/
def issueOf (i : Instr) (s : State) : Option Iss :=
  (rawOf i).bind (fun r => canIssue (shapeIn i s) r.op.toNat r.len r.st.toNat s)

/-- The state in which the effect of an issuing instruction begins: after the drain of R51. -/
def begun (i : Instr) (s : State) : State := drainFor s s.cur (shapeIn i s)

/-- An effect's state once its writes have taken their lanes from older AGATHs: an APPOP that waits takes none yet (R280, R285). -/
def taken (i : Instr) (s : State) (c : Iss) (s2 : State) : State :=
  if popWaits s2 c.place c.slot then s2 else supersede s2 s.serial c.place ((shapeIn i s).dst.map (fun x => x.1)) c.act

/-- The instruction's effect happens: its guard is not never, and a lane is active. -/
def Iss.live (c : Iss) (i : Instr) (s : State) : Bool :=
  c.act != 0 && !neverRuns ((drainFor s s.cur (shapeIn i s)).group c.place) c.slot (shapeIn i s)

/-- The issuing fragment of a state. -/
def State.fragOf (s : State) (c : Iss) : Option Frag := (s.group c.place).frag c.slot

/-- The issuing fragment has gone on to an address, by its own instruction and not by a handler: same lanes and mode, not parked. -/
def wentTo (c : Iss) (pc : DWord) (s t : State) : Prop :=
  (∃ f, t.fragOf c = some f ∧ f.pc = pc ∧ f.mask = c.mask ∧ f.sup = c.sup) ∧
  (t.group c.place).h = (s.group c.place).h ∧ (t.group c.place).park = (s.group c.place).park

/-- A lane's value with every pending write to its register over it, in issue order: what it is when those have completed (R50). -/
def Group.landed (g : Group) (r : RegName) (lane : Nat) (committed : Word) : Word :=
  g.pend.foldl (fun v w => if w.reg == r then (ffind w.vals lane).getD v else v) committed
/-- A v-register's lane, with every pending write over it. -/
def Group.finalV (g : Group) (n lane : Nat) : Word := g.landed (.v n) lane (fget g.v (32 * n + lane) 0)
/-- An s-register with every pending write over it. -/
def Group.finalS (g : Group) (n : Nat) : Word := g.landed (.s n) 0 (fget g.s n 0)
/-- A predicate's lane with every pending write over it; p7 is true (R46). -/
def Group.finalP (g : Group) (n lane : Nat) : Bool := n == 7 || g.landed (.p n) lane (if bit (fget g.p n 0) lane then 1 else 0) != 0
/-- A uniform predicate with every pending write over it; k3 is true. -/
def Group.finalK (g : Group) (n : Nat) : Bool := n == 3 || g.landed (.k n) 0 (fget g.k n 0) != 0
/-- FSTAT with every pending update in it: what it holds when the instructions that raised flags have written their results (R85). -/
def Group.finalFlags (g : Group) : Flags := g.fstat ||| pendFlags g.pfl

/-- A counting slot after Complete() (R234). -/
def Slot.settled (x : Slot) : Slot :=
  if x.arrived = x.expect ∧ x.tx = 0 then { x with phase := x.phase + 1, arrived := 0, arrmask := 0, age := 0 } else x

/-- A barrier instruction in a state resolves its slot field to a slot of the issuing team's reach (R244), of which no invalidation waits
for its next generation (R239). -/
def namesSlot (i : Instr) (s : State) (c : Iss) (x : WSlot) (r : SlotRef) : Prop :=
  slotRef (begun i s) ((begun i s).group c.place).team (x.slot.toNat, x.cl, x.cpos.toNat) = some r ∧ invBusy (begun i s) r = false

/-- A lane of a predicate as it is committed. -/
def Group.heldP (g : Group) (n lane : Nat) : Bool := bit (fget g.p n 0) lane

/-- The group of an issuing fragment has taken a fault in the context's handler (R129): the fragment runs at HNDBASE in supervisor mode in
the faulting lanes, and the handler registers hold what R129 saves. -/
def inHandler (c : Iss) (s t : State) (code : BitVec 16) (addr : DWord) (lanes rest : Mask) (epc : DWord) (replay : Bool) : Prop :=
  (∃ f, t.fragOf c = some f ∧ f.mask = lanes ∧ f.pc = (s.ctx (s.group c.place).page).d.hndbase ∧ f.sup = true ∧ f.fmt = 0) ∧
  let h := (t.group c.place).h
  h.ecause = code ∧ h.emask = lanes ∧ h.efrag = c.mask ∧ h.erest = rest ∧ h.eaddr = addr ∧ h.epc = epc ∧ h.enpc = c.npc ∧
  h.replay = replay ∧ h.efmt = c.fmt ∧ h.slot = some c.slot ∧ (s.fragOf c).map (fun f => f.rsp) = some h.ersp

/-- What a trap of one first word knows of its issue: every lane of the fragment, and `len` words. -/
def bareIss (s : State) (f : Frag) (w : Word) (len : Nat) : Iss :=
  { place := s.cur.1, slot := s.cur.2, pc := f.pc, npc := f.pc + BitVec.ofNat 64 (4 * len), op := bits w 6 8, st := 0, fmt := f.fmt,
    mask := f.mask, full := f.mask, act := f.mask, sup := f.sup }

/-- A context enables its handler for a cause (R113). -/
def handles (s : State) (c : Iss) (hbit : Nat) : Bool := bit (s.ctx (s.group c.place).page).d.hnden hbit

/-- The pending writes of a group are well formed: each names a lane of its register once at most, and of a uniform register lane 0 alone. -/
def Group.pendOk (g : Group) : Prop :=
  ∀ w ∈ g.pend, (w.vals.map (fun x => x.1)).Nodup ∧ ∀ x ∈ w.vals, x.1 < 32 ∧ (w.reg.uniform = true → x.1 = 0)

/-- Registers that hold the same in two groups once their pending writes have completed, but for those of a list: the v-registers and
predicates of the list differ in the lanes of a mask at most. -/
def sameRegs (g h : Group) (ds : List RegName) (m : Mask) : Prop :=
  (∀ n l, l < 32 → RegName.v n ∉ ds ∨ bit m l = false → h.finalV n l = g.finalV n l) ∧
  (∀ n, RegName.s n ∉ ds → h.finalS n = g.finalS n) ∧
  (∀ n l, l < 32 → RegName.p n ∉ ds ∨ bit m l = false → h.finalP n l = g.finalP n l) ∧
  (∀ n, RegName.k n ∉ ds → h.finalK n = g.finalK n)

/-- In a settled state an instruction issues, its guard holds in some lane, and its own effect happens. -/
def Ready (i : Instr) (s : State) (c : Iss) : Prop := s.settled = true ∧ issueOf i s = some c ∧ c.live i s = true

/-- The instruction completes, its effect having made `s2`: the next state is `s2` with the fragment at the next instruction, the issue
distances of its pending writes grown, older AGATHs' lanes taken and the quadrant marked (R10, R48, R50, R280). -/
def Completes (i : Instr) (s : State) (c : Iss) (s2 : State) : Prop := ∃ buf g, exec i s = .next (markIssued (advance (taken i s c s2) c buf) g)

/-- The instruction completes, its effect having placed the fragments itself: the next state is `s2` with the quadrant marked. -/
def Places (i : Instr) (s : State) (c : Iss) (s2 : State) : Prop := ∃ g, exec i s = .next (markIssued (taken i s c s2) g)

/-- An instruction's result in a v-register: it completes, and in each active lane register `a` holds a value of the group as it began. -/
def LaneResult (i : Instr) (s : State) (c : Iss) (a : Nat) (v : Group → Nat → Word) : Prop :=
  Ready i s c → ∃ s2, Completes i s c s2 ∧ ∀ l ∈ lanes c.act, (s2.group c.place).finalV a l = v ((begun i s).group c.place) l

/-- An instruction's result in an s-register. -/
def UniResult (i : Instr) (s : State) (c : Iss) (a : Nat) (v : Group → Word) : Prop :=
  Ready i s c → ∃ s2, Completes i s c s2 ∧ (s2.group c.place).finalS a = v ((begun i s).group c.place)

/-- A floating form or conversion with RND .sr, which advances SEED in its active lanes (R42, R95, R162). -/
def srForm (i : Instr) : Bool :=
  match i with
  | .fadd _ x => x.rnd == 5
  | .fadd5w _ x _ => x.rnd == 5
  | .fsub _ x => x.rnd == 5
  | .fsub5w _ x _ => x.rnd == 5
  | .fmul _ x => x.rnd == 5
  | .fmul5w _ x _ => x.rnd == 5
  | .ffma _ x => x.rnd == 5
  | .ffma5w _ x _ => x.rnd == 5
  | .fscale _ x => x.rnd == 5
  | .fscale5w _ x _ => x.rnd == 5
  | .hadd2 _ x => x.rnd == 5
  | .hadd25w _ x _ => x.rnd == 5
  | .hmul2 _ x => x.rnd == 5
  | .hmul25w _ x _ => x.rnd == 5
  | .hfma2 _ x => x.rnd == 5
  | .hfma25w _ x _ => x.rnd == 5
  | .cvt _ x => x.rnd == 5
  | .cvtn _ x => x.rnd == 5
  | .pack4 _ x => x.rnd == 5
  | _ => false

/-- An instruction's result in `w` v-registers from `a`, with its flags: `f` maps the group as it began, the lane's SEED state, advanced
under .sr (R95), and the lane to the value and the flags it raises (R85, R143). -/
def FlaggedResult (i : Instr) (s : State) (c : Iss) (a w : Nat) (f : Group → Word → Nat → DWord × Flags) : Prop :=
  Ready i s c → ∃ s2, Completes i s c s2 ∧
    let g := (begun i s).group c.place
    let r (l : Nat) := f g (if srForm i then seedStep (fget g.seed l 0) else fget g.seed l 0) l
    (∀ l ∈ lanes c.act, (s2.group c.place).finalV a l = lo32 (r l).1 ∧ (w = 2 → (s2.group c.place).finalV (a + 1) l = hi32 (r l).1)) ∧
    (s2.group c.place).finalFlags = g.finalFlags ||| orFlags ((lanes c.act).map (fun l => (r l).2))

/-- A uniform instruction's result in `w` s-registers from `a`, with its flags (R85, R136). -/
def FlaggedUni (i : Instr) (s : State) (c : Iss) (a w : Nat) (f : Group → DWord × Flags) : Prop :=
  Ready i s c → ∃ s2, Completes i s c s2 ∧
    let g := (begun i s).group c.place
    (s2.group c.place).finalS a = lo32 (f g).1 ∧ (w = 2 → (s2.group c.place).finalS (a + 1) = hi32 (f g).1) ∧
    (s2.group c.place).finalFlags = g.finalFlags ||| (f g).2

/-- A lane's address (R188, R190): the base, of a uniform or a vector register pair, and the byte offset, of OFF20 or the literal; for local
accesses a 32-bit base and sum. -/
def laneAddr (loc : Bool) (g : Group) (slot : Nat) (b : BitVec 9) (ub : Bool) (off : BitVec 20) (lit : Option (BitVec 60)) (l : Nat) : DWord :=
  let d : DWord := match lit with
    | none => off.signExtend 64
    | some x => x.signExtend 64
  let base (n : Nat) : Word := if ub then g.rs slot n else g.rv slot n l
  if loc then (base b.toNat + d.setWidth 32).setWidth 64 else (base (b.toNat + 1) ++ base b.toNat) + d

/-- The bytes of each SIZE (R189). -/
def bytesOfSize (size : Nat) : Nat := [1, 1, 2, 2, 4, 8, 16].getD size 0

/-- The word of register j that a load of a SIZE makes of the number it read (R189): .u8 and .u16 zero-extend, .s8 and .s16 sign-extend. -/
def wordOfSize (size v j : Nat) : Word :=
  match size with
  | 0 => (BitVec.ofNat 8 v).setWidth 32
  | 1 => (BitVec.ofNat 8 v).signExtend 32
  | 2 => (BitVec.ofNat 16 v).setWidth 32
  | 3 => (BitVec.ofNat 16 v).signExtend 32
  | _ => BitVec.ofNat 32 (v / 2 ^ (32 * j))

/-- The tree of R101 over the 2^n terms from index b: the halves' trees combined. -/
def treeOf {α : Type} (op : α → α → α) : Nat → (Nat → α) → Nat → α
  | 0, f, b => f b
  | n + 1, f, b => op (treeOf op n f b) (treeOf op n f (b + 2 ^ n))

/-- Everything but the groups, the issue marks and the bookkeeping of outstanding engine writes is as before. -/
def onlyGroups (s t : State) : Prop :=
  t.mem = s.mem ∧ t.undef = s.undef ∧ t.teams = s.teams ∧ t.ctxs = s.ctxs ∧ t.launches = s.launches ∧ t.formed = s.formed ∧
  t.arrivals = s.arrivals ∧ t.pfx = s.pfx ∧ t.tlb = s.tlb ∧ t.link = s.link ∧ t.sys = s.sys ∧ t.clk = s.clk ∧ t.skew = s.skew ∧
  t.bad = s.bad ∧ t.out = s.out

/-- Every other group is as before. -/
def sameOthers (c : Iss) (s t : State) : Prop := ∀ p, p ≠ c.place → ffind t.groups p = ffind s.groups p

/-- An engine has accepted an operation of the issuing group (R17, R20): it is the youngest operation, every class it counts in has gone up
by one, and it holds what it does. -/
def Accepts (i : Instr) (s : State) (c : Iss) (classes : List Nat) (k : OpKind) : Prop :=
  ∃ s2 o, Completes i s c s2 ∧ s2.ops = (begun i s).ops ++ [o] ∧ o.place = c.place ∧ o.pc = c.pc ∧ o.op = c.op ∧ o.todo = classes ∧
    o.ripe = [] ∧ o.stop = none ∧ o.kind = k ∧
    ∀ n, fget (s2.group c.place).cnt n 0 = fget (s.group c.place).cnt n 0 + (if classes.contains n then 1 else 0)

/-- The registration of an accepted operation: none when REP is 0, else the slot its field names, whose PEND has gone up by one (R237). -/
def Registers (i : Instr) (s : State) (c : Iss) (rep : Bool) (x : Nat × Bool × Nat) : Prop :=
  ∃ s2 o, Completes i s c s2 ∧ s2.ops = (begun i s).ops ++ [o] ∧
    (rep = false → o.reg = none) ∧
    (∀ r, rep = true → slotRef (begun i s) (s.group c.place).team x = some r →
      o.reg = some (r, (slotAt (begun i s) r).gen) ∧ (slotAt s2 r).pend = (slotAt (begun i s) r).pend + 1)

/-- No invalidation waits of the slot that a command names, or it names none (R239). -/
def freeSlot (s : State) (c : Iss) (rep : Bool) (x : Nat × Bool × Nat) : Prop :=
  ∀ r, rep = true → slotRef s (s.group c.place).team x = some r → invBusy s r = false

/-- The live line of a window of a team. -/
def lineOf (s : State) (team win line : Nat) : Option Line := (ffind (s.team team).windows win).bind (fun w => ffind w.lines line)

/-- An event makes `t` of the state: the next state, when `t` is settled. -/
def Occurs (i : Instr) (s t : State) : Prop := t.settled = true → exec i s = .next t

/-- The link engine takes an envelope of a kind for the context of a page at stage 3: its length is right, it has not come before, and its stream,
if it has one, takes it and leaves `u` (R385, R387, R412). -/
def Takes (kind sub src : Nat) (e : Envelope) (s : State) (page : Nat) (u : State) : Prop :=
  s.sys.stage = 3 ∧ s.link.late.contains (src, e) = false ∧ etypeReserved e = false ∧
  e.etype.toNat = kind ∧ (2 < kind → e.sub.toNat = sub) ∧ lenOk e = true ∧ pageOfPod (wakeUp s) e.podctx = some page ∧
  (if kind = 2 then u = wakeUp s else takeStream (wakeUp s) page src e = (true, u))

/-- An event of this package is in what the package owes itself. -/
def Owes (t : State) (f : Envelope → Instr) (ok : Envelope → Prop) : Prop := ∃ e, f e ∈ t.owed ∧ ok e

/-- A control envelope of a launch with a SUB (R404). -/
def IsControl (s : State) (page sub : Nat) (lseq : Word) (home : Nat) (k : Envelope) : Prop :=
  k.etype.toNat = 4 ∧ k.sub.toNat = sub ∧ k.podctx = (s.ctx page).d.podctx ∧ k.lseq = lseq ∧ k.home = BitVec.ofNat 10 home

/-- An envelope is on its way to another package: numbered, sent and retained, or waiting behind those that went before it (R386). -/
def OnItsWay (t : State) (dst : Nat) (k : Envelope) : Prop :=
  (∃ r ∈ (txOf t dst k.podctx).kept, r.e = { k with tag := r.e.tag } ∧ .envelope dst r.e ∈ t.out) ∨
  ∃ w ∈ (txOf t dst k.podctx).backlog, w.1 = k

/-- Records (package, node, words, depth) of a die leave a launch as R353, R390 and R391 give, each reserved or paid for with a credit: those of this
package join their targets' queues in their order, and each of the others takes a credit, is counted in SENT and goes to its package. -/
def Emitted (s t : State) (l l' : Launch) (rt die : Nat) (recs : List (Nat × Nat × List Word × Nat)) : Prop :=
  let away := recs.filter (fun r => r.1 != s.pkg)
  launchOf t l.lid = some l' ∧
  l'.q.map (fun r => (r.node, r.die, r.data, r.depth)) = l.q.map (fun r => (r.node, r.die, r.data, r.depth)) ++
    (recs.filter (fun r => r.1 == s.pkg)).map (fun r => (r.2.1, die, r.2.2.1, r.2.2.2)) ∧
  l'.sent = l.sent + away.length ∧ l'.rq = l.rq ∧
  (∀ p n, l'.credit p n = l.credit p n - (away.filter (fun r => r.1 == p && r.2.1 == n)).length) ∧
  ∀ r ∈ away, ∃ k, OnItsWay t r.1 k ∧ k.etype.toNat = 1 ∧ k.rtype = BitVec.ofNat 4 rt ∧ k.podctx = (s.ctx l.page).d.podctx ∧ k.lseq = l.lseq ∧
    k.home = BitVec.ofNat 10 l.home ∧ k.node = BitVec.ofNat 12 r.2.1 ∧ k.depth = BitVec.ofNat 5 r.2.2.2 ∧ k.payload = bytesOf r.2.2.1

/-- A launch holds a credit for each of some records to other packages, and none waits before them (R390). -/
def Funded (s : State) (l : Launch) (recs : List (Nat × Nat × List Word × Nat)) : Prop :=
  ∀ r ∈ recs, r.1 ≠ s.pkg → (recs.filter (fun x => x.1 == r.1 && x.2.1 == r.2.1)).length ≤ l.credit r.1 r.2.1 ∧
    ∀ x ∈ l.rq, x.pkg ≠ r.1 ∨ x.node ≠ r.2.1

/-- A record of a context has been posted (R216, R217): it has the context's SEQ, which moves on; it stands in the queue, with WR advanced, where the
queue can take it, and is held otherwise. -/
def Posts (u t : State) (page : Nat) (r : FRec) : Prop :=
  let c := u.ctx page
  let q := { r with seq := c.seq }
  (t.ctx page).seq = nextSeq c.seq ∧
  (c.heldRecs = [] → frqReady u page = true → (t.ctx page).heldRecs = [] ∧ (t.ctx page).wr = c.wr + 1 ∧
    t.bytesAt (c.d.frqbase.toNat + 64 + 64 * (c.wr.toNat % max c.d.frqsize 1)) 64 = frecBytes u c.d q ∧
    t.bytesAt c.d.frqbase.toNat 4 = leBytes 4 (c.wr + 1).toNat) ∧
  (c.heldRecs ≠ [] ∨ frqReady u page = false → (t.ctx page).heldRecs = c.heldRecs ++ [q] ∧ (t.ctx page).wr = c.wr)

/-- The rational number that a finite value is; 0 for an infinity or a NaN. -/
def Num.rat : Num → ℚ
  | .fin s m e => (if s then -1 else 1) * (m : ℚ) * (2 : ℚ) ^ e
  | _ => 0

/-- A fragment of a group waits. -/
def Waits (s : State) (place slot : Nat) (w : Wait) : Prop :=
  (ffind s.groups place).isSome = true ∧ slot < 2 ∧ ∃ f, (s.group place).frag slot = some f ∧ f.wait = some w

/-- A fragment of a group no longer waits. -/
def Wakes (t : State) (place slot : Nat) : Prop := ∃ f, (t.group place).frag slot = some f ∧ f.wait = none

/-- An instruction of the arithmetic families or one that changes nothing but its own group: its effect always goes on. -/
def isPlain (i : Instr) : Bool :=
  match i with
  | .nopZ1 _ => true
  | .nop _ => true
  | .plop _ _ => true
  | .saddI1 _ => true
  | .sadd _ _ => true
  | .sadd5w _ _ _ => true
  | .ssubI1 _ => true
  | .ssub _ _ => true
  | .ssub5w _ _ _ => true
  | .smulI1 _ => true
  | .smul _ _ => true
  | .smul5w _ _ _ => true
  | .smulhI1 _ => true
  | .smulh _ _ => true
  | .smulh5w _ _ _ => true
  | .sandI1 _ => true
  | .sand _ _ => true
  | .sand5w _ _ _ => true
  | .sorI1 _ => true
  | .sor _ _ => true
  | .sor5w _ _ _ => true
  | .sxorI1 _ => true
  | .sxor _ _ => true
  | .sxor5w _ _ _ => true
  | .sshlI1 _ => true
  | .sshl _ _ => true
  | .sshl5w _ _ _ => true
  | .sshrI1 _ => true
  | .sshr _ _ => true
  | .sshr5w _ _ _ => true
  | .ssraI1 _ => true
  | .ssra _ _ => true
  | .ssra5w _ _ _ => true
  | .sminI1 _ => true
  | .smin _ _ => true
  | .smin5w _ _ _ => true
  | .smaxI1 _ => true
  | .smax _ _ => true
  | .smax5w _ _ _ => true
  | .ssel _ _ => true
  | .ssel5w _ _ _ => true
  | .scmp _ _ => true
  | .scmp5w _ _ _ => true
  | .smovU1 _ => true
  | .smov _ _ => true
  | .sldiM1 _ => true
  | .sldi _ _ => true
  | .sldi5w _ _ _ => true
  | .sffsU1 _ => true
  | .sffs _ _ => true
  | .spopU1 _ => true
  | .spop _ _ => true
  | .vtos _ _ => true
  | .stov _ _ => true
  | .klop _ _ => true
  | .iaddI1 _ => true
  | .iadd _ _ => true
  | .iadd5w _ _ _ => true
  | .isubI1 _ => true
  | .isub _ _ => true
  | .isub5w _ _ _ => true
  | .imulI1 _ => true
  | .imul _ _ => true
  | .imul5w _ _ _ => true
  | .imulhI1 _ => true
  | .imulh _ _ => true
  | .imulh5w _ _ _ => true
  | .imad _ _ => true
  | .imad5w _ _ _ => true
  | .iabsU1 _ => true
  | .iabs _ _ => true
  | .inegU1 _ => true
  | .ineg _ _ => true
  | .iminI1 _ => true
  | .imin _ _ => true
  | .imin5w _ _ _ => true
  | .imaxI1 _ => true
  | .imax _ _ => true
  | .imax5w _ _ _ => true
  | .icmp _ _ => true
  | .icmp5w _ _ _ => true
  | .isel _ _ => true
  | .isel5w _ _ _ => true
  | .ishlI1 _ => true
  | .ishl _ _ => true
  | .ishl5w _ _ _ => true
  | .ishrI1 _ => true
  | .ishr _ _ => true
  | .ishr5w _ _ _ => true
  | .israI1 _ => true
  | .isra _ _ => true
  | .isra5w _ _ _ => true
  | .iandI1 _ => true
  | .iand _ _ => true
  | .iand5w _ _ _ => true
  | .iorI1 _ => true
  | .ior _ _ => true
  | .ior5w _ _ _ => true
  | .ixorI1 _ => true
  | .ixor _ _ => true
  | .ixor5w _ _ _ => true
  | .lop3 _ _ => true
  | .lop35w _ _ _ => true
  | .popcU1 _ => true
  | .popc _ _ => true
  | .clzU1 _ => true
  | .clz _ _ => true
  | .brevU1 _ => true
  | .brev _ _ => true
  | .bfe _ _ => true
  | .bfe5w _ _ _ => true
  | .bfi _ _ => true
  | .bfi5w _ _ _ => true
  | .fadd _ _ => true
  | .fadd5w _ _ _ => true
  | .fsub _ _ => true
  | .fsub5w _ _ _ => true
  | .fmul _ _ => true
  | .fmul5w _ _ _ => true
  | .ffma _ _ => true
  | .ffma5w _ _ _ => true
  | .fmin _ _ => true
  | .fmin5w _ _ _ => true
  | .fmax _ _ => true
  | .fmax5w _ _ _ => true
  | .fcmp _ _ => true
  | .fcmp5w _ _ _ => true
  | .frnd _ _ => true
  | .frnd5w _ _ _ => true
  | .fclass _ _ => true
  | .fclass5w _ _ _ => true
  | .fscale _ _ => true
  | .fscale5w _ _ _ => true
  | .frcp _ _ => true
  | .frsq _ _ => true
  | .fsqrt _ _ => true
  | .fex2 _ _ => true
  | .flg2 _ _ => true
  | .fsin _ _ => true
  | .fcos _ _ => true
  | .ftanh _ _ => true
  | .hadd2 _ _ => true
  | .hadd25w _ _ _ => true
  | .hmul2 _ _ => true
  | .hmul25w _ _ _ => true
  | .hfma2 _ _ => true
  | .hfma25w _ _ _ => true
  | .cvt _ _ => true
  | .cvtn _ _ => true
  | .pack4 _ _ => true
  | .unpk4 _ _ => true
  | .shfl _ _ => true
  | .ballot _ => true
  | .vote _ _ => true
  | .psum _ _ => true
  | .redux _ _ => true
  | .matchV _ _ => true
  | .movU1 _ => true
  | .mov _ _ => true
  | .moviM1 _ => true
  | .movi _ _ => true
  | .movi5w _ _ _ => true
  | .pair _ _ => true
  | .fenceZ1 _ => true
  | .fence _ _ => true
  | .pref _ _ => true
  | .pref5w _ _ _ => true
  | _ => false

end Sys2Proof.Machine
end

