-- ==== Sys2Proof/Certificates/Slice0/Obligations.lean ====
section
/-! DEFINITION. The statements for the provers. Each says what the rules of spec/ in its docstring say of the model. -/
open Sys2Proof Sys2Proof.Machine

/-! ### Encoding and the step -/

/-- Every well-formed instruction's words decode to it, with every operand at every value its encoding admits (R36 to R45, R63). -/
def Obligations.DecodeOfEncode : Prop :=
  ∀ i : Instr, WellFormed i = true → decodeWords (encode i) = .ok i

/-- What the first word alone decides besides (R37, R64): a continuation word is misaligned in every position of a first word; a word
whose opcode field is 0x00 traps ZERO_WORD as one word, here in user mode to an enabled handler. -/
def Obligations.FirstWordTraps : Prop :=
  (∀ (w : Word) (ws : List Word),
     (bits w 0 2 = 3 → decodeWords (w :: ws) = .error .misaligned) ∧
     (bits w 0 2 ≠ 3 → bits w 6 8 = 0 → decodeWords (w :: ws) = .ok (.zeroWord w))) ∧
  (∀ (s : State) (w : Word) (f : Frag), s.settled = true → (s.group s.cur.1).frag s.cur.2 = some f →
     mayIssue s (s.group s.cur.1) f = true → asyncDue s s.cur.1 s.cur.2 = none → f.sup = false → bits w 6 8 = 0 →
     handles s (bareIss s f w 1) 1 = true →
     ∃ t, exec (.zeroWord w) s = .next t ∧ inHandler (bareIss s f w 1) s t 0x0001 0 f.mask 0 f.pc false)

/-- An opcode that R61 does not assign traps ILLEGAL_OPCODE in every length (R62), with the engine class of its range (R15), here for the
fragment's whole mask: the handler's entry where the context enables it, the end of the context otherwise. -/
def Obligations.UnassignedOpcodesTrap : Prop :=
  (∀ (w : Word) (ws : List Word), bits w 0 2 ≠ 3 → bits w 6 8 ≠ 0 → assigned (bits w 6 8) = false → fetchCount w ≤ ws.length + 1 →
     decodeWords (w :: ws) = .ok (.unassignedOpcode w)) ∧
  (∀ (s : State) (w : Word) (f : Frag) (n : Nat), s.settled = true → (s.group s.cur.1).frag s.cur.2 = some f →
     mayIssue s (s.group s.cur.1) f = true → asyncDue s s.cur.1 s.cur.2 = none → lenOf w = some n →
     let c := bareIss s f w n
     let code := codeOf (classOf (bits w 6 8)) 0x002
     (f.sup = false → handles s c 2 = true →
       ∃ t, exec (.unassignedOpcode w) s = .next t ∧ inHandler c s t code 0 f.mask 0 f.pc false) ∧
     (f.sup = true ∨ handles s c 2 = false →
       let u := settleDoom (markIssued (doomGroup s c.place f.pc (.plain code f.mask)) (s.group c.place))
       u.absent = false → exec (.unassignedOpcode w) s = .next u ∧ (u.ctx (s.group c.place).page).state = 6)) ∧
  (∀ op : BitVec 8, ∀ r ∈ [(0x00, 0x2F, 0), (0x30, 0x8F, 1), (0xFF, 0xFF, 1), (0x90, 0xA7, 2), (0xA8, 0xAF, 3), (0xB0, 0xB7, 4),
       (0xB8, 0xBF, 5), (0xC0, 0xC7, 6), (0xC8, 0xD7, 7), (0xD8, 0xDF, 8), (0xE0, 0xEB, 9), (0xEC, 0xEF, 0xA), (0xF0, 0xFE, 0)],
     r.1 ≤ op.toNat → op.toNat ≤ r.2.1 → classOf op = r.2.2)

/-- Words written out from R36 to R45 and the opcode tables: NOP, IADD v1, v1, 5 in mould I1, RSR s4, CYCLE in mould U1, SVRET, EXIT in
three words, LDL.b32 v2, v3, 8, and a continuation word. -/
def Obligations.SampleWordsDecode : Prop :=
  decodeWords [0x00000040#32] = .ok (.nopZ1 { b := 0, a := 0, st := 0 }) ∧
  decodeWords [0x02804C00#32] = .ok (.iaddI1 { b := 5, a := 1, st := 0 }) ∧
  decodeWords [0x040108C0#32] = .ok (.rsrU1 { b := 8, a := 4, st := 0 }) ∧
  decodeWords [0x00000380#32] = .ok (.svret { b := 0, a := 0, st := 0 }) ∧
  decodeWords [0x00000241#32, 0x00700003#32, 0x00000003#32] =
    .ok (.exit { b := 0, a := 0, st := 0, mod := 0, hold := 0, guard := 7, d := 0, c := 0 }) ∧
  decodeWords [0x0180A481#32, 0x00700003#32, 0x40000023#32] =
    .ok (.ldl { b := 3, a := 2, st := 0, mod := 0, hold := 0, guard := 7, d := 0, c := 0 } { size := 4, scope := 0, ub := false, off := 8 }) ∧
  decodeWords [0x00000003#32] = .error .misaligned

/-- A STEP RUNS THE DECODED INSTRUCTION. In an issue turn whose quadrant chooses a fragment, when the fragment's PC is a multiple of 4
and the words there decode to an instruction, the step is `exec` of it (R37, R38, R127); when they decode to no instruction, the step
raises the fault that the words decide (R65). What the step adds around `exec` is `startIssue`, which marks ready fragments and names the
chosen one, `openFetch`, by which stash lines give way to the fetch and which changes nothing where no window is live and the package is
not at stage 3 (R179), and `fetched`, which keeps the translation that the fetch used. A fetch that has to wait for a line leaves its
fragment stalled (R183). An event's turn runs that event; a turn in which no fragment is chosen changes nothing else. It rests on the
model's choices of log 10, 12, 15, 26, 27. -/
def Obligations.StepRunsDecoded : Prop :=
  ∀ (s s0 s1 s2 : State) (core quad : Nat) (c : Nat × Nat) (f : Frag) (w : Word) (ws : List Word) (i : Instr),
    (nextTurn s = (.issue core quad, s0) → startIssue s0 core quad = (some c, s1) →
      (openFetch s1 = (true, s2) → (s2.group s2.cur.1).frag s2.cur.2 = some f →
        (bits f.pc 0 2 = 0 → lenOf w ≠ none → fetchWord s2 (s2.ctx (s2.group s2.cur.1).page).d f f.pc = .ok w →
          fetchRest s2 (s2.ctx (s2.group s2.cur.1).page).d f (fetchCount w - 1) (f.pc + 4) = .ok ws →
          (decodeWords (w :: ws) = .ok i → step s = exec i (fetched s2)) ∧
          (decodeWords (w :: ws) = .error .illegalForm →
            step s = finish (fetchFault s2 (.plain (codeOf (classOf (bits w 6 8)) 0x003) f.mask) (fetchCount w)))) ∧
        (bits f.pc 0 2 ≠ 0 → step s = finish (fetchFault s2 (.plain 0x0004 f.mask) 1)) ∧
        (bits f.pc 0 2 = 0 → lenOf w = none → fetchWord s2 (s2.ctx (s2.group s2.cur.1).page).d f f.pc = .ok w →
          step s = finish (fetchFault s2 (.plain 0x0004 f.mask) 1))) ∧
      (openFetch s1 = (false, s2) → step s = finish s2) ∧
      (anyWindow s1 = false → s1.sys.stage ≠ 3 → openFetch s1 = (true, s1))) ∧
    (nextTurn s = (.issue core quad, s0) → startIssue s0 core quad = (none, s1) → step s = .next s1) ∧
    (nextTurn s = (.event i, s0) → isEvent i = true → step s = exec i s0)

/-! ### Whole-machine rules -/

/-- Memory keeps its canonical form: addresses rise strictly and no byte is listed that an unlisted address reads as. It rests on the
model's choices of log 1. -/
def Obligations.StepKeepsMemoryCanonical : Prop :=
  ∀ s t : State, s.MemOk → step s = .next t → t.MemOk

/-- Right after reset memory is canonical, lists nothing, and the package holds no group, team, operation or launch; the system
controller is at stage 0 without error, every context page has STATE 0, and no monitor block is anything but at its reset values (R412,
R414, R421). It rests on the model's choices of log 1, 5, 6, 7, 8, 9. -/
def Obligations.ResetIsEmpty : Prop :=
  State.reset.MemOk ∧ State.reset.mem = [] ∧ State.reset.groups = [] ∧ State.reset.teams = [] ∧ State.reset.ops = [] ∧
  State.reset.launches = [] ∧ State.reset.sys.stage = 0 ∧ State.reset.sys.err = 0 ∧ (∀ p, (State.reset.ctx p).state = 0) ∧
  State.reset.sys.mons = []

/-! ### The arithmetic families -/

/-- Every arithmetic, cross-lane and move instruction, and NOP, FENCE and PREF, completes whenever it issues, whatever its guard: the
fragment goes to the next instruction with its lanes and mode, and nothing outside its group changes (R47, R63, R143). It rests on the
model's choices of log 22. -/
def Obligations.PlainCompletes : Prop :=
  ∀ (i : Instr) (s : State) (c : Iss), isPlain i = true → s.settled = true → issueOf i s = some c →
    ∃ t, exec i s = .next t ∧ wentTo c c.npc s t ∧ onlyGroups s t ∧ sameOthers c s t

/-- Their frame. What a register holds once the pending writes have completed (R50) is as before for every register but the destinations,
and for a v-register or predicate that is a destination in the inactive lanes (R143); the pending writes stay well formed. FSTAT only
gains flags, and finally holds all it would have held (R85). SEED advances once in the active lanes of a form with RND .sr and is
unchanged otherwise (R95). The control stack, EXITED, the counters, the allotment and every byte of memory are as before. It rests on the
model's choices of log 22. -/
def Obligations.PlainFrame : Prop :=
  ∀ (i : Instr) (s t : State) (c : Iss), isPlain i = true → s.settled = true → issueOf i s = some c → (s.group c.place).pendOk →
    exec i s = .next t →
    sameRegs (s.group c.place) (t.group c.place) ((shapeIn i s).dst.map (fun d => d.1)) c.act ∧ (t.group c.place).pendOk ∧
    (t.group c.place).fstat &&& (s.group c.place).fstat = (s.group c.place).fstat ∧
    (t.group c.place).finalFlags &&& (s.group c.place).finalFlags = (s.group c.place).finalFlags ∧
    (t.group c.place).exited = (s.group c.place).exited ∧ (t.group c.place).chip = (s.group c.place).chip ∧
    (t.group c.place).sp = (s.group c.place).sp ∧ (t.group c.place).cnt = (s.group c.place).cnt ∧
    (t.group c.place).allot = (s.group c.place).allot ∧ (∀ k, t.byteAt k = s.byteAt k) ∧
    ∀ l, l < 32 → fget (t.group c.place).seed l 0 =
      (if srForm i = true ∧ bit c.act l = true then seedStep (fget (s.group c.place).seed l 0) else fget (s.group c.place).seed l 0)

/-- The integer, bit and move instructions. In mould I1 field A is the first operand and imm9, sign-extended, the second (R45); moulds U1
and M1 have one, of 32 bits. In three and five words, on each integer type of 8 to 64 bits that the instruction takes, the operands are
fields B, C and D, with UB, IMM20 or the literal in their place where the form says so (R43, R142); a narrow operand is its low bits and
a narrow result is extended to 32, a wide one takes a register pair, and SAT clamps sums, differences and products and raises OF (R73),
with the NX that R85 gives a clamped result. The results: IADD, ISUB, IMUL, IMULH, IMAD, IABS, INEG, IMIN, IMAX, IAND, IOR, IXOR, ISHL,
ISHR, ISRA with shifts modulo N (R144), ICMP to predicate A and ISEL (R145), BFE and BFI (R147), POPC, CLZ and BREV (R148), MOV and MOVI,
MOVI of the floating types too (R43, R170); each bit of LOP3's result is the bit of LUT that the three sources' bits select (R146). The
uniform counterparts of these, SSEL, SCMP, SFFS, SPOP, SMOV, SLDI, VTOS, STOV and KLOP act on s-registers and uniform predicates (R136,
R137). FADD, FSUB and FMUL on .f32 with a NaN operand give the first NaN operand made quiet, whatever the rounding mode and SAT (R89). It
rests on the model's choices of log 128. -/
def Obligations.ArithmeticResults : Prop :=
  (∀ (f : F1) (s : State) (c : Iss),
     let a := f.a.toNat
     let high (x y : Word) : Word := BitVec.ofInt 32 (x.toInt * y.toInt / 2 ^ 32)
     let lesser (x y : Word) : Word := if y.slt x then y else x
     let greater (x y : Word) : Word := if x.slt y then y else x
     let ones (x : Word) : Word := BitVec.ofNat 32 ((List.range 32).filter (fun i => bit x i)).length
     let r (i : Instr) (op : Word → Word → Word) : Prop := LaneResult i s c a (fun g l => op (g.rv c.slot a l) (f.b.signExtend 32))
     let u (i : Instr) (op : Word → Word → Word) : Prop := UniResult i s c a (fun g => op (g.rs c.slot a) (f.b.signExtend 32))
     let r1 (i : Instr) (op : Word → Word) : Prop := LaneResult i s c a (fun g l => op (g.rv c.slot f.b.toNat l))
     let u1 (i : Instr) (op : Word → Word) : Prop := UniResult i s c a (fun g => op (g.rs c.slot f.b.toNat))
     r (.iaddI1 f) (· + ·) ∧ r (.isubI1 f) (· - ·) ∧ r (.imulI1 f) (· * ·) ∧ r (.iandI1 f) (· &&& ·) ∧ r (.iorI1 f) (· ||| ·) ∧
     r (.ixorI1 f) (· ^^^ ·) ∧ r (.imulhI1 f) high ∧ r (.iminI1 f) lesser ∧ r (.imaxI1 f) greater ∧
     r (.ishlI1 f) (fun x y => x <<< (y.toNat % 32)) ∧ r (.ishrI1 f) (fun x y => x >>> (y.toNat % 32)) ∧
     r (.israI1 f) (fun x y => x.sshiftRight (y.toNat % 32)) ∧
     u (.saddI1 f) (· + ·) ∧ u (.ssubI1 f) (· - ·) ∧ u (.smulI1 f) (· * ·) ∧ u (.sandI1 f) (· &&& ·) ∧ u (.sorI1 f) (· ||| ·) ∧
     u (.sxorI1 f) (· ^^^ ·) ∧ u (.smulhI1 f) high ∧ u (.sminI1 f) lesser ∧ u (.smaxI1 f) greater ∧
     u (.sshlI1 f) (fun x y => x <<< (y.toNat % 32)) ∧ u (.sshrI1 f) (fun x y => x >>> (y.toNat % 32)) ∧
     u (.ssraI1 f) (fun x y => x.sshiftRight (y.toNat % 32)) ∧
     r1 (.movU1 f) (fun x => x) ∧ r1 (.iabsU1 f) (fun x => if x.slt 0 then -x else x) ∧ r1 (.inegU1 f) (fun x => -x) ∧ r1 (.popcU1 f) ones ∧
     r1 (.clzU1 f) (fun x => BitVec.ofNat 32 ((List.range 32).takeWhile (fun i => !bit x (31 - i))).length) ∧
     r1 (.brevU1 f) BitVec.reverse ∧
     u1 (.smovU1 f) (fun x => x) ∧ u1 (.spopU1 f) ones ∧
     u1 (.sffsU1 f) (fun x => BitVec.ofNat 32 ((List.range 32).takeWhile (fun i => !bit x i)).length) ∧
     LaneResult (.moviM1 f) s c a (fun _ _ => f.b.signExtend 32) ∧ UniResult (.sldiM1 f) s c a (fun _ => f.b.signExtend 32)) ∧
  (∀ (h : Hd) (x : WAlu) (m : BitVec 60) (s : State) (c : Iss) (N : Nat) (sg : Bool),
     (x.ty, N, sg) ∈ [(Ty.i8, 8, true), (Ty.n8, 8, false), (Ty.i16, 16, true), (Ty.n16, 16, false), (Ty.i32, 32, true), (Ty.n32, 32, false),
       (Ty.i64, 64, true), (Ty.n64, 64, false)] →
     let a := h.a.toNat
     let w := if N = 64 then 2 else 1
     let num (signed : Bool) (i : Int) : Int := if signed ∧ 2 ^ (N - 1) ≤ i % 2 ^ N then i % 2 ^ N - 2 ^ N else i % 2 ^ N
     let v (y : DWord) : Int := num sg y.toNat
     let lo : Int := if sg then -2 ^ (N - 1) else 0
     let hi : Int := if sg then 2 ^ (N - 1) - 1 else 2 ^ N - 1
     let wr (i : Int) : DWord × Flags := (BitVec.ofInt 64 (num sg i), 0)
     let out (i : Int) : DWord × Flags :=
       if x.sat then (BitVec.ofInt 64 (max lo (min hi i)), if lo ≤ i ∧ i ≤ hi then 0 else fOF ||| fNX) else wr i
     let high (y z : DWord) := wr (v y * v z / 2 ^ N)
     let lesser (y z : DWord) := wr (if v z < v y then v z else v y)
     let greater (y z : DWord) := wr (if v y < v z then v z else v y)
     let shl (y : DWord) (n : Nat) := wr (y.toNat * 2 ^ n : Nat)
     let shr (y : DWord) (n : Nat) := wr (y.toNat % 2 ^ N / 2 ^ n : Nat)
     let sra (y : DWord) (n : Nat) := wr (num true y.toNat / 2 ^ n)
     let cond (y z : DWord) : Bool := match (bits h.mod 0 3).toNat with
       | 0 => decide (v y = v z)
       | 1 => decide (v y ≠ v z)
       | 2 => decide (v y < v z)
       | 3 => decide (v y ≤ v z)
       | 4 => decide (v z < v y)
       | _ => decide (v z ≤ v y)
     let im (lit : Option (BitVec 60)) : DWord := match lit with
       | some m => if N = 64 then m.signExtend 64 else (bits m 0 32).setWidth 64
       | none => x.imm20.signExtend 64
     let im32 (lit : Option (BitVec 60)) : Word := match lit with
       | some m => bits m 0 32
       | none => x.imm20.signExtend 32
     let sub (lit : Option (BitVec 60)) : Bool := x.imm || lit.isSome
     let rd (g : Group) (l : Nat) (q : BitVec 9) : DWord := if N = 64 then g.rv64 c.slot q.toNat l else (g.rv c.slot q.toNat l).setWidth 64
     let rs (g : Group) (q : BitVec 9) : DWord := if N = 64 then g.rs64 c.slot q.toNat else (g.rs c.slot q.toNat).setWidth 64
     let B (g : Group) (l : Nat) : DWord := if x.ub then rs g h.b else rd g l h.b
     let C (lit : Option (BitVec 60)) (g : Group) (l : Nat) : DWord := if sub lit then im lit else rd g l h.c
     let SC (lit : Option (BitVec 60)) (g : Group) : DWord := if sub lit then im lit else rs g h.c
     let K (lit : Option (BitVec 60)) (g : Group) (l : Nat) : Word := if sub lit then im32 lit else g.rv c.slot h.c.toNat l
     let SK (lit : Option (BitVec 60)) (g : Group) : Word := if sub lit then im32 lit else g.rs c.slot h.c.toNat
     let both (i j : Instr) (f : Option (BitVec 60) → Group → Nat → DWord × Flags) : Prop :=
       FlaggedResult i s c a w (fun g _ l => f none g l) ∧ FlaggedResult j s c a w (fun g _ l => f (some m) g l)
     let r (i j : Instr) (op : DWord → DWord → DWord × Flags) : Prop := both i j (fun lit g l => op (B g l) (C lit g l))
     let k (i j : Instr) (op : DWord → Nat → DWord × Flags) : Prop := both i j (fun lit g l => op (B g l) ((K lit g l).toNat % N))
     let one (i : Instr) (op : DWord → DWord × Flags) : Prop := FlaggedResult i s c a w (fun g _ l => op (B g l))
     let u (i j : Instr) (op : DWord → DWord → DWord × Flags) : Prop :=
       FlaggedUni i s c a w (fun g => op (rs g h.b) (SC none g)) ∧ FlaggedUni j s c a w (fun g => op (rs g h.b) (SC (some m) g))
     let uk (i j : Instr) (op : DWord → Nat → DWord × Flags) : Prop :=
       FlaggedUni i s c a w (fun g => op (rs g h.b) ((SK none g).toNat % N)) ∧
       FlaggedUni j s c a w (fun g => op (rs g h.b) ((SK (some m) g).toNat % N))
     (r (.iadd h x) (.iadd5w h x m) (fun y z => out (v y + v z)) ∧ r (.isub h x) (.isub5w h x m) (fun y z => out (v y - v z)) ∧
      r (.imul h x) (.imul5w h x m) (fun y z => out (v y * v z)) ∧ r (.imulh h x) (.imulh5w h x m) high ∧
      r (.iand h x) (.iand5w h x m) (fun y z => wr (y &&& z).toNat) ∧ r (.ior h x) (.ior5w h x m) (fun y z => wr (y ||| z).toNat) ∧
      r (.ixor h x) (.ixor5w h x m) (fun y z => wr (y ^^^ z).toNat) ∧ r (.imin h x) (.imin5w h x m) lesser ∧
      r (.imax h x) (.imax5w h x m) greater ∧
      k (.ishl h x) (.ishl5w h x m) shl ∧ k (.ishr h x) (.ishr5w h x m) shr ∧ k (.isra h x) (.isra5w h x m) sra ∧
      one (.iabs h x) (fun y => out (v y).natAbs) ∧ one (.ineg h x) (fun y => out (-(v y))) ∧
      LaneResult (.popc h x) s c a (fun g l => BitVec.ofNat 32 ((List.range N).filter (fun i => bit (B g l) i)).length) ∧
      LaneResult (.clz h x) s c a (fun g l => BitVec.ofNat 32 ((List.range N).takeWhile (fun i => !bit (B g l) (N - 1 - i))).length) ∧
      one (.brev h x) (fun y => (if N = 64 then y.reverse else (lo32 y).reverse.setWidth 64, 0)) ∧ one (.mov h x) (fun y => (y, 0)) ∧
      both (.movi h x) (.movi5w h x m) (fun lit _ _ => (im lit, 0))) ∧
     (both (.imad h x) (.imad5w h x m) (fun lit g l =>
        let acc := bit h.mod 0
        let second := if acc then C lit g l else rd g l h.c
        let third := if acc then rd g l h.a else if sub lit then im lit else rd g l h.d
        out (v (B g l) * v second + v third))) ∧
     (both (.isel h x) (.isel5w h x m) (fun lit g l => (if g.rp c.slot h.d.toNat l != bit h.mod 0 then B g l else C lit g l, 0))) ∧
     (both (.bfe h x) (.bfe5w h x m) (fun lit g l =>
        let pos := min (bits (K lit g l) 0 8).toNat N
        let len := min (bits (K lit g l) 8 8).toNat (N - pos)
        let field := (B g l).toNat / 2 ^ pos % 2 ^ len
        wr (if sg ∧ 0 < len ∧ 2 ^ (len - 1) ≤ field then (field : Int) - 2 ^ len else field))) ∧
     (∀ i lit, (i = .bfi h x ∧ lit = none) ∨ (i = .bfi5w h x m ∧ lit = some m) → Ready i s c → ∃ s2, Completes i s c s2 ∧
        ∀ l ∈ lanes c.act,
          let g := (begun i s).group c.place
          let t := s2.group c.place
          let place := g.rv c.slot h.c.toNat l
          let pos := min (bits place 0 8).toNat N
          let len := min (bits place 8 8).toNat (N - pos)
          let old := if sub lit then im lit else rd g l h.d
          ∀ j, j < N → bit (t.finalV (a + j / 32) l) (j % 32) =
            (if pos ≤ j ∧ j < pos + len then bit (B g l) (j - pos) else bit old j)) ∧
     (∀ i lit, (i = .icmp h x ∧ lit = none) ∨ (i = .icmp5w h x m ∧ lit = some m) → Ready i s c → h.a ≠ 7 → ∃ s2, Completes i s c s2 ∧
        let g := (begun i s).group c.place
        ∀ l ∈ lanes c.act, (s2.group c.place).finalP a l = cond (B g l) (C lit g l)) ∧
     (u (.sadd h x) (.sadd5w h x m) (fun y z => out (v y + v z)) ∧ u (.ssub h x) (.ssub5w h x m) (fun y z => out (v y - v z)) ∧
      u (.smul h x) (.smul5w h x m) (fun y z => out (v y * v z)) ∧ u (.smulh h x) (.smulh5w h x m) high ∧
      u (.sand h x) (.sand5w h x m) (fun y z => wr (y &&& z).toNat) ∧ u (.sor h x) (.sor5w h x m) (fun y z => wr (y ||| z).toNat) ∧
      u (.sxor h x) (.sxor5w h x m) (fun y z => wr (y ^^^ z).toNat) ∧
      uk (.sshl h x) (.sshl5w h x m) shl ∧ uk (.sshr h x) (.sshr5w h x m) shr ∧ uk (.ssra h x) (.ssra5w h x m) sra ∧
      u (.smin h x) (.smin5w h x m) lesser ∧ u (.smax h x) (.smax5w h x m) greater ∧
      FlaggedUni (.smov h x) s c a w (fun g => (rs g h.b, 0)) ∧
      FlaggedUni (.sldi h x) s c a w (fun _ => (im none, 0)) ∧ FlaggedUni (.sldi5w h x m) s c a w (fun _ => (im (some m), 0))) ∧
     (∀ i lit, (i = .ssel h x ∧ lit = none) ∨ (i = .ssel5w h x m ∧ lit = some m) →
        FlaggedUni i s c a w (fun g => (if g.rk c.slot h.d.toNat then rs g h.b else SC lit g, 0))) ∧
     (∀ i lit, (i = .scmp h x ∧ lit = none) ∨ (i = .scmp5w h x m ∧ lit = some m) → Ready i s c → h.a ≠ 3 →
        ∃ s2, Completes i s c s2 ∧
          let g := (begun i s).group c.place
          (s2.group c.place).finalK a = cond (rs g h.b) (SC lit g))) ∧
  (∀ (h : Hd) (x : WAlu) (m : BitVec 60) (s : State) (c : Iss) (narrow wide : DWord),
     (x.ty, narrow, wide) ∈ [(Ty.f32, (x.imm20 ++ 0#12).setWidth 64, (bits m 0 32).setWidth 64), (Ty.f64, x.imm20 ++ 0#44, m ++ 0#4),
       (Ty.f16, (bits x.imm20 0 16 ++ bits x.imm20 0 16).setWidth 64, (bits m 0 32).setWidth 64),
       (Ty.bf16, (bits x.imm20 0 16 ++ bits x.imm20 0 16).setWidth 64, (bits m 0 32).setWidth 64)] →
     FlaggedResult (.movi h x) s c h.a.toNat (tyRegs x.ty) (fun _ _ _ => (narrow, 0)) ∧
     FlaggedResult (.movi5w h x m) s c h.a.toNat (tyRegs x.ty) (fun _ _ _ => (wide, 0))) ∧
  (∀ (h : Hd) (s : State) (c : Iss) (t : Ty) (N : Nat), (t, N) ∈ [(Ty.n32, 32), (Ty.n64, 64)] →
     let w := if N = 64 then 2 else 1
     let rd (g : Group) (l : Nat) (q : BitVec 9) : DWord := if N = 64 then g.rv64 c.slot q.toNat l else (g.rv c.slot q.toNat l).setWidth 64
     let rs (g : Group) (q : BitVec 9) : DWord := if N = 64 then g.rs64 c.slot q.toNat else (g.rs c.slot q.toNat).setWidth 64
     (∀ x : WTy, x.ty = t →
        UniResult (.spop h x) s c h.a.toNat (fun g => BitVec.ofNat 32 ((List.range N).filter (fun i => bit (rs g h.b) i)).length) ∧
        UniResult (.sffs h x) s c h.a.toNat (fun g => BitVec.ofNat 32 ((List.range N).takeWhile (fun i => !bit (rs g h.b) i)).length) ∧
        FlaggedResult (.stov h x) s c h.a.toNat w (fun g _ _ => (rs g h.b, 0))) ∧
     (∀ x : WVtos, x.ty = t →
        FlaggedUni (.vtos h x) s c h.a.toNat w (fun g => (rd g (if bit h.mod 0 then (lanes c.mask).headD 0 else x.lane.toNat) h.b, 0))) ∧
     (∀ (x : WLop3) (m : BitVec 60) i lit, x.ty = t → (i = .lop3 h x ∧ lit = none) ∨ (i = .lop35w h x m ∧ lit = some m) → Ready i s c →
        ∃ s2, Completes i s c s2 ∧ ∀ l ∈ lanes c.act,
          let g := (begun i s).group c.place
          let last : DWord := match lit with
            | some m => if N = 64 then m.signExtend 64 else (bits m 0 32).setWidth 64
            | none => rd g l h.d
          let b (y : DWord) (j : Nat) : Nat := if bit y j then 1 else 0
          ∀ j, j < N → bit ((s2.group c.place).finalV (h.a.toNat + j / 32) l) (j % 32) =
            bit x.lut (b (if x.ub then rs g h.b else rd g l h.b) j + 2 * b (rd g l h.c) j + 4 * b last j))) ∧
  (∀ (h : Hd) (x : WLut) (s : State) (c : Iss), Ready (.klop h x) s c → h.a ≠ 3 → ∃ s2, Completes (.klop h x) s c s2 ∧
     let k (n : BitVec 9) : Nat := if ((begun (.klop h x) s).group c.place).rk c.slot n.toNat then 1 else 0
     (s2.group c.place).finalK h.a.toNat = bit x.lut (k h.b + 2 * k h.c + 4 * k h.d)) ∧
  (∀ (o : FltOp) (rnd : BitVec 3) (r : BitVec 16) (sat : Bool) (a b : Word),
     let isNan (x : Word) : Prop := bits x 23 8 = 0xFF ∧ bits x 0 23 ≠ 0
     (isNan a → (fltOp o .f32 rnd r sat (zx a) (zx b)).1 = zx (a ||| 0x00400000)) ∧
     (¬ isNan a → isNan b → (fltOp o .f32 rnd r sat (zx a) (zx b)).1 = zx (b ||| 0x00400000)))

/-- The floating, conversion, PAIR and cross-lane results. FADD to FSCALE, FRCP to FTANH, HADD2, HMUL2 and HFMA2 (R149 to R157), CVT,
CVTN, PACK4 and UNPK4 (R158 to R161) and the halves of PAIR (R57): in each active lane the destination gets the operation of the chapter
of numbers on the operands that the fields name, with IMM20, the literal or UB in their place, .sr taking its random bits from the lane's
advanced SEED (R95), and FSTAT finally gains the flags of all lanes (R85). FCMP writes its condition to predicate A (R151). VOTE (R166),
SHFL (R164), MATCH (R169), PSUM (R167) and REDUX (R168) on each type they take: each active lane gets what those rules say of the lanes'
values, sums and extrema of .f32 by the tree of R101 and R102 over lanes 0 to 31, in which other lanes supply the identity. -/
def Obligations.FloatAndCrossLaneResults : Prop :=
  (∀ (h : Hd) (x : WAlu) (m : BitVec 60) (s : State) (c : Iss),
     let a := h.a.toNat
     let w := tyRegs x.ty
     let im (lit : Option (BitVec 60)) : Src := .imm (immVal (immKOf x.ty) x.imm20 lit)
     let sub (lit : Option (BitVec 60)) : Bool := x.imm || lit.isSome
     let of (g : Group) (l : Nat) (o : Src) : DWord := srcLane g c.slot l w o
     let B (g : Group) (l : Nat) : DWord := of g l (if x.ub then .s h.b.toNat else .v h.b.toNat)
     let C (lit : Option (BitVec 60)) (g : Group) (l : Nat) : DWord := of g l (if sub lit then im lit else .v h.c.toNat)
     let count (lit : Option (BitVec 60)) (g : Group) (l : Nat) : DWord :=
       srcLane g c.slot l 1 (if sub lit then .imm (immVal .int32 x.imm20 lit) else .v h.c.toNat)
     let mid (lit : Option (BitVec 60)) (g : Group) (l : Nat) : DWord := if bit h.mod 0 then C lit g l else of g l (.v h.c.toNat)
     let last (lit : Option (BitVec 60)) (g : Group) (l : Nat) : DWord :=
       if bit h.mod 0 then of g l (.v a) else of g l (if sub lit then im lit else .v h.d.toNat)
     let num (y : DWord) : Machine.Num := fltVal x.ty y
     let md (q : Word) : Mode := modeOf x.rnd (seedRnd q 0)
     let both (i j : Instr) (n : Nat) (f : Option (BitVec 60) → Group → Word → Nat → DWord × Flags) : Prop :=
       FlaggedResult i s c a n (f none) ∧ FlaggedResult j s c a n (f (some m))
     let arith (o : FltOp) (lit : Option (BitVec 60)) (g : Group) (q : Word) (l : Nat) : DWord × Flags :=
       fltOp o x.ty x.rnd (seedRnd q 0) x.sat (B g l) (C lit g l)
     let half (o : FltOp) (lit : Option (BitVec 60)) (g : Group) (q : Word) (l : Nat) : DWord × Flags :=
       packed (fun j => fltOp o x.ty x.rnd (seedRnd q j) x.sat (elem16 (B g l) j) (elem16 (C lit g l) j))
     both (.fadd h x) (.fadd5w h x m) w (arith .add) ∧ both (.fsub h x) (.fsub5w h x m) w (arith .sub) ∧
     both (.fmul h x) (.fmul5w h x m) w (arith .mul) ∧
     both (.ffma h x) (.ffma5w h x m) w (fun lit g q l => fltFma x.ty x.rnd (seedRnd q 0) x.sat (B g l) (mid lit g l) (last lit g l)) ∧
     both (.fmin h x) (.fmin5w h x m) w (fun lit g _ l => fltMinMax false x.ty (B g l) (C lit g l)) ∧
     both (.fmax h x) (.fmax5w h x m) w (fun lit g _ l => fltMinMax true x.ty (B g l) (C lit g l)) ∧
     both (.fscale h x) (.fscale5w h x m) w (fun lit g q l =>
       fltOut (fScale (fmOf x.ty) (md q) x.sat (num (B g l)) (intVal .i32 (count lit g l)))) ∧
     FlaggedResult (.frnd h x) s c a w (fun g _ l => fltOut (fRound (fmOf x.ty) (modeOf x.rnd 0) (num (B g l)))) ∧
     FlaggedResult (.frnd5w h x m) s c a w (fun g _ l => fltOut (fRound (fmOf x.ty) (modeOf x.rnd 0) (num (C (some m) g l)))) ∧
     FlaggedResult (.fclass h x) s c a 1 (fun g _ l => (BitVec.ofNat 64 (fClass (fmOf x.ty) (num (B g l))), 0)) ∧
     FlaggedResult (.fclass5w h x m) s c a 1 (fun g _ l => (BitVec.ofNat 64 (fClass (fmOf x.ty) (num (C (some m) g l))), 0)) ∧
     (∀ i k, (i, k) ∈ [(Instr.frcp h x, Special.rcp), (.frsq h x, .rsq), (.fsqrt h x, .sqrt), (.fex2 h x, .ex2), (.flg2 h x, .lg2),
         (.fsin h x, .sin), (.fcos h x, .cos), (.ftanh h x, .tanh)] →
       FlaggedResult i s c a 1 (fun g _ l =>
         fltOut (specialFn k (fmOf x.ty) (tyCode x.ty).toNat (modeOf x.rnd 0) x.sat (fltCode x.ty (B g l))))) ∧
     both (.hadd2 h x) (.hadd25w h x m) 1 (half .add) ∧ both (.hmul2 h x) (.hmul25w h x m) 1 (half .mul) ∧
     both (.hfma2 h x) (.hfma25w h x m) 1 (fun lit g q l => packed (fun j => fltFma x.ty x.rnd (seedRnd q j) x.sat (elem16 (B g l) j)
       (elem16 (mid lit g l) j) (elem16 (last lit g l) j))) ∧
     (∀ i lit, (i = .fcmp h x ∧ lit = none) ∨ (i = .fcmp5w h x m ∧ lit = some m) → Ready i s c → ∃ s2, Completes i s c s2 ∧
       let g := (begun i s).group c.place
       let r (l : Nat) := fCompare (bits h.mod 0 4).toNat (num (B g l)) (num (C lit g l))
       (h.a ≠ 7 → ∀ l ∈ lanes c.act, (s2.group c.place).finalP a l = (r l).1) ∧
       (s2.group c.place).finalFlags = g.finalFlags ||| orFlags ((lanes c.act).map (fun l => (r l).2)))) ∧
  (∀ (h : Hd) (x : WCvt) (s : State) (c : Iss),
     let a := h.a.toNat
     let word (g : Group) (n : BitVec 9) (l : Nat) : DWord := zx (g.rv c.slot n.toNat l)
     FlaggedResult (.cvt h x) s c a (tyRegs x.ty) (fun g q l => cvtElem x c.fmt q 0 (srcLane g c.slot l (tyRegs x.sty) (.v h.b.toNat))) ∧
     FlaggedResult (.cvtn h x) s c a 1 (fun g q l => packed (fun j => cvtElem x c.fmt q j (if j = 0 then word g h.b l else word g h.c l))) ∧
     FlaggedResult (.pack4 h x) s c a 1 (fun g q l => pack4Val x (bit h.mod 0) c.fmt q (g.rv64 c.slot h.b.toNat l)
       (g.rv64 c.slot h.c.toNat l) (word g h.a l)) ∧
     (Ready (.unpk4 h x) s c → ∃ s2, Completes (.unpk4 h x) s c s2 ∧
       let g := (begun (.unpk4 h x) s).group c.place
       let r (j l : Nat) := cvtElem x c.fmt 0 j (BitVec.ofNat 64 ((g.rv c.slot h.b.toNat l).toNat / 2 ^ (packPlace x.sty (bit h.mod 0) j).1 %
         2 ^ (packPlace x.sty (bit h.mod 0) j).2))
       (∀ j, j < 4 → ∀ l ∈ lanes c.act, (s2.group c.place).finalV (a + j) l = lo32 (r j l).1) ∧
       (s2.group c.place).finalFlags = g.finalFlags ||| orFlags ((List.range 4).flatMap (fun j => (lanes c.act).map (fun l => (r j l).2))))) ∧
  (∀ (h : Hd) (x : WPair) (s : State) (c : Iss), Ready (.pair h x) s c → ∃ s2, Completes (.pair h x) s c s2 ∧
     let g := (begun (.pair h x) s).group c.place
     let r (f : Half) (l : Nat) := halfVal f (g.rp c.slot (f.op % 8) l) (zx (g.rv c.slot f.a l)) (zx (g.rv c.slot f.b l)) (zx (g.rv c.slot f.d l))
     let fs := [(halves h x).1, (halves h x).2]
     (∀ f ∈ fs, ∀ l ∈ lanes c.act, (s2.group c.place).finalV f.d l = lo32 (r f l).1) ∧
     (s2.group c.place).finalFlags = g.finalFlags ||| orFlags (fs.flatMap (fun f => (lanes c.act).map (fun l => (r f l).2)))) ∧
  (∀ (h : Hd) (s : State) (c : Iss),
     (∀ x : WVote, Ready (.vote h x) s c → h.a ≠ 7 → ∃ s2, Completes (.vote h x) s c s2 ∧
        let p (l : Nat) : Prop := (((begun (.vote h x) s).group c.place).rp c.slot h.b.toNat l != bit h.mod 0) = true
        let n := (lanes c.act).length
        let t := ((lanes c.act).filter (fun l => ((begun (.vote h x) s).group c.place).rp c.slot h.b.toNat l != bit h.mod 0)).length
        ∀ l ∈ lanes c.act, ((s2.group c.place).finalP h.a.toNat l = true ↔
          (x.mode = 0 ∧ ∀ k ∈ lanes c.act, p k) ∨ (x.mode = 1 ∧ ∃ k ∈ lanes c.act, p k) ∨
          (x.mode = 2 ∧ ((∀ k ∈ lanes c.act, p k) ∨ ∀ k ∈ lanes c.act, ¬ p k)) ∨ (x.mode = 3 ∧ n < 2 * t))) ∧
     (∀ x : WShfl, Ready (.shfl h x) s c → ∃ s2, Completes (.shfl h x) s c s2 ∧
        let g := (begun (.shfl h x) s).group c.place
        let k (l : Nat) : Nat := (if x.imm then x.imm20.signExtend 32 else g.rv c.slot h.c.toNat l).toNat
        let n (l : Nat) : Int := match x.mode.toNat with
          | 0 => k l
          | 1 => ((BitVec.ofNat 32 l ^^^ BitVec.ofNat 32 (k l)).toNat : Int)
          | 2 => (l : Int) - k l
          | 3 => (l : Int) + k l
          | _ => ((l : Int) + k l) % 32
        let copies (l k : Nat) : Prop := (s2.group c.place).finalV h.a.toNat l = g.rv c.slot h.b.toNat k ∧
          (x.ty = .n64 → (s2.group c.place).finalV (h.a.toNat + 1) l = g.rv c.slot (h.b.toNat + 1) k)
        ∀ l ∈ lanes c.act,
          (0 ≤ n l ∧ n l < 32 → copies l (n l).toNat ∧ (h.d ≠ 7 → (s2.group c.place).finalP h.d.toNat l = false)) ∧
          (n l < 0 ∨ 32 ≤ n l → copies l l ∧ (h.d ≠ 7 → (s2.group c.place).finalP h.d.toNat l = true))) ∧
     (∀ x : WTy, Ready (.matchV h x) s c → ∃ s2, Completes (.matchV h x) s c s2 ∧
        let g := (begun (.matchV h x) s).group c.place
        let v (l : Nat) : DWord := if x.ty = .n64 then g.rv64 c.slot h.b.toNat l else zx (g.rv c.slot h.b.toNat l)
        ∀ l ∈ lanes c.act,
          (bit h.mod 0 = true → ∀ k, k < 32 → bit ((s2.group c.place).finalV h.a.toNat l) k = (bit c.act k && v k == v l)) ∧
          (bit h.mod 0 = false → ∀ k, ((lanes c.act).filter (fun k => v k == v l)).head? = some k →
            (s2.group c.place).finalV h.a.toNat l = BitVec.ofNat 32 k) ∧
          (h.d ≠ 7 → ((s2.group c.place).finalP h.d.toNat l = true ↔ ∀ k ∈ lanes c.act, v k = v l))) ∧
     (let rd (t : Ty) (g : Group) (l : Nat) : DWord := if tyRegs t = 2 then g.rv64 c.slot h.b.toNat l else zx (g.rv c.slot h.b.toNat l)
      let sum (rnd : BitVec 3) (y z : DWord × Flags) : DWord × Flags :=
        if y.1 = 0x80000000 then (z.1, y.2 ||| z.2) else if z.1 = 0x80000000 then (y.1, y.2 ||| z.2)
        else ((fltOp .add .f32 rnd 0 false y.1 z.1).1, y.2 ||| z.2 ||| (fltOp .add .f32 rnd 0 false y.1 z.1).2)
      (∀ x : WAlu, FlaggedResult (.psum h x) s c h.a.toNat (tyRegs x.ty) (fun g _ l =>
        let ks := (lanes c.act).filter (fun k => decide (k < l) || (k == l && !bit h.mod 0))
        if x.ty = .f32 then treeOf (sum x.rnd) 5 (fun k => (if k ∈ ks then rd x.ty g k else 0x80000000, 0)) 0
        else ((ks.map (rd x.ty g)).sum, 0))) ∧
      (∀ x : WRedux, Ready (.redux h x) s c → ∃ s2, Completes (.redux h x) s c s2 ∧
        let g := (begun (.redux h x) s).group c.place
        let w := 2 ^ x.width.toNat
        let o := (bits h.mod 0 3).toNat
        let seg (l : Nat) : List Nat := (lanes c.act).filter (fun k => k / w == l / w)
        let below (y z : DWord) : Bool := match x.ty with
          | .i32 => (lo32 y).slt (lo32 z)
          | .i64 => y.slt z
          | _ => y.ult z
        let red (y : DWord) (ys : List DWord) : DWord := match o with
          | 0 => ys.foldl (· + ·) y
          | 1 => ys.foldl (fun y z => if below y z then y else z) y
          | 2 => ys.foldl (fun y z => if below y z then z else y) y
          | 3 => ys.foldl (· &&& ·) y
          | 4 => ys.foldl (· ||| ·) y
          | _ => ys.foldl (· ^^^ ·) y
        let minMax (y z : DWord × Flags) : DWord × Flags :=
          ((fltMinMax (o == 2) .f32 y.1 z.1).1, y.2 ||| z.2 ||| (fltMinMax (o == 2) .f32 y.1 z.1).2)
        let flt (l : Nat) : DWord × Flags := treeOf (if o = 0 then sum x.rnd else minMax) 5 (fun k =>
          (if k ∈ seg l then rd x.ty g k else if o = 0 then 0x80000000 else if o = 1 then 0x7F800000 else 0xFF800000, 0)) 0
        let holds (l : Nat) (y : DWord) : Prop := (s2.group c.place).finalV h.a.toNat l = lo32 y ∧
          (tyRegs x.ty = 2 → (s2.group c.place).finalV (h.a.toNat + 1) l = hi32 y)
        (∀ l ∈ lanes c.act,
          (x.lead = false ∨ (seg l).head? = some l →
            (x.ty = .f32 → holds l (flt l).1) ∧ (x.ty ≠ .f32 → ∀ y ys, (seg l).map (rd x.ty g) = y :: ys → holds l (red y ys))) ∧
          (x.lead = true → (seg l).head? ≠ some l → (s2.group c.place).finalV h.a.toNat l = g.finalV h.a.toNat l ∧
            (tyRegs x.ty = 2 → (s2.group c.place).finalV (h.a.toNat + 1) l = g.finalV (h.a.toNat + 1) l))) ∧
        (s2.group c.place).finalFlags = g.finalFlags ||| (if x.ty = .f32 then orFlags ((lanes c.act).map (fun l => (flt l).2)) else 0))))

/-- A sum, a difference or a product of two finite .f32 operands that .f32 holds exactly is that value, in every rounding mode, with or
without SAT, and raises no flag (R75, R86, R149). `V` is an encoding's value in units of 2^-149. -/
def Obligations.ExactFloatResults : Prop :=
  ∀ (rnd : BitVec 3) (r : BitVec 16) (sat : Bool) (a b k : Word),
    let V (x : Word) : Int :=
      (if bit x 31 then -1 else 1) *
        (if bits x 23 8 = 0 then ((bits x 0 23).toNat : Int) else (2 ^ 23 + (bits x 0 23).toNat : Int) * 2 ^ ((bits x 23 8).toNat - 1))
    let finite (x : Word) : Prop := bits x 23 8 ≠ 0xFF
    finite a → finite b → finite k → V k ≠ 0 →
    (V k = V a + V b → fltOp .add .f32 rnd r sat (zx a) (zx b) = (zx k, 0)) ∧
    (V k = V a - V b → fltOp .sub .f32 rnd r sat (zx a) (zx b) = (zx k, 0)) ∧
    (V k * 2 ^ 149 = V a * V b → fltOp .mul .f32 rnd r sat (zx a) (zx b) = (zx k, 0))

/-- PLOP (R135): in each active lane predicate A becomes LUT bit a + 2b + 4c of the lane's three named predicates, with a latency of 2; a
write to p7 is ignored; no other predicate and no other lane changes. -/
def Obligations.PlopTable : Prop :=
  ∀ (h : Hd) (x : WLut) (s : State) (c : Iss), Ready (.plop h x) s c → ∃ s2, Completes (.plop h x) s c s2 ∧
    let b := (begun (.plop h x) s).group c.place
    let g := s2.group c.place
    let p (n : BitVec 9) (l : Nat) : Nat := if b.rp c.slot n.toNat l then 1 else 0
    (h.a ≠ 7 → (∀ l ∈ lanes c.act, g.finalP h.a.toNat l = bit x.lut (p h.b l + 2 * p h.c l + 4 * p h.d l)) ∧
      ∃ w ∈ g.pend, w.slot = c.slot ∧ w.reg = .p h.a.toNat ∧ w.lat = 2) ∧
    (h.a = 7 → g = b) ∧
    ∀ n l, n ≠ h.a.toNat ∨ bit c.act l = false → g.finalP n l = b.finalP n l

/-- BALLOT (R165) writes the mask of the active lanes whose predicate, negated by MOD bit 26, is true; inactive lanes contribute 0, and
with no active lane it writes 0 unless its guard is never. A word 2 other than 0x00000003 is ILLEGAL_FORM. It rests on the model's
choices of log 36. -/
def Obligations.BallotResult : Prop :=
  (∀ (h : Hd) (s : State) (c : Iss), s.settled = true → issueOf (.ballot h) s = some c →
     neverRuns ((begun (.ballot h) s).group c.place) c.slot (shapeIn (.ballot h) s) = false →
     ∃ s2, Completes (.ballot h) s c s2 ∧ ∀ l, l < 32 →
       bit ((s2.group c.place).finalS h.a.toNat) l =
         (bit c.act l && (((begun (.ballot h) s).group c.place).rp c.slot h.b.toNat l != bit h.mod 0))) ∧
  (∀ (w0 w1 w2 : Word) (ws : List Word), bits w0 6 8 = 0x69 → bits w0 0 2 = 1 → w2 ≠ 0x00000003 →
     decodeWords (w0 :: w1 :: w2 :: ws) = .error .illegalForm)

/-! ### Control -/

/-- BRA in both forms goes to pc + 4 × its signed word offset, BRX to the 64-bit value of its s-register pair (R45, R134). The lanes that
take a BRC are those of F.MASK in which predicate B, negated by MOD bit 26, is true; with a uniform outcome it pushes nothing: it goes to
its target when every lane takes it, to the next instruction when none does (R115). It rests on the model's choices of log 28. -/
def Obligations.BranchesTransfer : Prop :=
  (∀ (s : State) (c : Iss),
     let goes (i : Instr) (pc : DWord) : Prop := Ready i s c → ∃ t, exec i s = .next t ∧ wentTo c pc s t ∧ onlyGroups s t ∧ sameOthers c s t
     (∀ h x, goes (.bra h x) (c.pc + 4 * x.off.signExtend 64)) ∧
     (∀ f, goes (.braJ1 f) (c.pc + 4 * (f.b ++ f.a).signExtend 64)) ∧
     (∀ h, goes (.brx h) (((begun (.brx h) s).group c.place).rs64 c.slot h.b.toNat))) ∧
  (∀ (h : Hd) (x : WOff) (s : State) (c : Iss), Ready (.brc h x) s c →
     let taken := maskOf (fun l => bit c.mask l && (((begun (.brc h x) s).group c.place).rp c.slot h.b.toNat l != bit h.mod 0))
     (taken = c.mask → ∃ t, exec (.brc h x) s = .next t ∧ wentTo c (c.pc + 4 * x.off.signExtend 64) s t ∧
       (t.group c.place).sp = (s.group c.place).sp) ∧
     (taken = 0 → c.mask ≠ 0 → ∃ t, exec (.brc h x) s = .next t ∧ wentTo c (c.pc + 12) s t ∧
       (t.group c.place).sp = (s.group c.place).sp))

/-- BRC that diverges (R115), while the entries it pushes fit on chip: the taken lanes stay in the slot at the target, the others form a
fragment at the next instruction, in the other slot when that is free and in a FRAG entry when it is not; both name the DIV entry. JOIN
(R116), with every entry on chip and no FRAG entry to load: without an entry, and at an entry that is no DIV or whose PC is another
address, it is a branch that changes no entry and keeps FMT; the last fragment to arrive at its innermost divergence fuses, and an
earlier one marks its lanes and leaves its slot free. It rests on the model's choices of log 29. -/
def Obligations.DivergencesJoin : Prop :=
  (∀ (h : Hd) (x : WOff) (s : State) (c : Iss) (f : Frag), Ready (.brc h x) s c → s.fragOf c = some f →
     let taken := maskOf (fun l => bit c.mask l && (((begun (.brc h x) s).group c.place).rp c.slot h.b.toNat l != bit h.mod 0))
     let g := s.group c.place
     let e : Entry := { kind := .div, pc := c.pc + 4 * (h.d ++ h.c).signExtend 64, mask := c.mask, aux := 0, link := f.rsp, vreg := 0,
                        sup := c.sup, live := true, fmt := c.fmt }
     let rsp := BitVec.ofNat 16 g.sp
     let here (t : State) : Prop := ∃ a, t.fragOf c = some a ∧ a.mask = taken ∧ a.pc = c.pc + 4 * x.off.signExtend 64 ∧ a.rsp = rsp ∧
       a.fmt = c.fmt ∧ a.sup = c.sup
     taken ≠ 0 → taken ≠ c.mask →
     (g.frag (1 - c.slot) = none → g.sp + 1 ≤ (s.ctx g.page).d.csentries → g.chip.length + 1 ≤ 6 →
       ∃ t b, exec (.brc h x) s = .next t ∧ here t ∧ (t.group c.place).chip = g.chip ++ [e] ∧ (t.group c.place).sp = g.sp + 1 ∧
         (t.group c.place).frag (1 - c.slot) = some b ∧ b.mask = c.mask &&& ~~~taken ∧ b.pc = c.npc ∧ b.rsp = rsp ∧ b.fmt = c.fmt ∧
         b.sup = c.sup) ∧
     (g.frag (1 - c.slot) ≠ none → g.sp + 2 ≤ (s.ctx g.page).d.csentries → g.chip.length + 2 ≤ 6 →
       ∃ t, exec (.brc h x) s = .next t ∧ here t ∧ (t.group c.place).sp = g.sp + 2 ∧
         (t.group c.place).frag (1 - c.slot) = g.frag (1 - c.slot) ∧
         (t.group c.place).chip = g.chip ++ [e, { kind := .frag, pc := c.npc, mask := c.mask &&& ~~~taken, aux := 0, link := rsp, vreg := 0,
                                                  sup := c.sup, live := true, fmt := c.fmt }])) ∧
  (∀ (h : Hd) (x : WOff) (s : State) (c : Iss) (f : Frag), Ready (.join h x) s c → s.fragOf c = some f →
     let g := s.group c.place
     let j := c.pc + 4 * x.off.signExtend 64
     let branches : Prop := ∃ t a, exec (.join h x) s = .next t ∧ wentTo c j s t ∧ t.fragOf c = some a ∧ a.fmt = f.fmt ∧ a.rsp = f.rsp ∧
       (t.group c.place).chip = g.chip ∧ (t.group c.place).sp = g.sp
     (f.rsp = 0xFFFF → branches) ∧
     (∀ e, f.rsp ≠ 0xFFFF → g.chip.length = g.sp → g.chip[f.rsp.toNat]? = some e → e.kind ≠ .div ∨ e.pc ≠ j → branches) ∧
     (∀ e, f.rsp ≠ 0xFFFF → g.chip.length = g.sp → g.fidx = [] → g.chip[f.rsp.toNat]? = some e → e.kind = .div → e.pc = j →
       (e.aux ||| c.mask = e.mask &&& ~~~g.exited → ∃ t a, exec (.join h x) s = .next t ∧ t.fragOf c = some a ∧
         a.mask = e.aux ||| c.mask ∧ a.pc = j ∧ a.fmt = e.fmt ∧ a.rsp = e.link ∧ a.sup = e.sup) ∧
       (e.aux ||| c.mask ≠ e.mask &&& ~~~g.exited → ∃ t, exec (.join h x) s = .next t ∧ t.fragOf c = none ∧
         (t.group c.place).chip[f.rsp.toNat]? = some { e with aux := e.aux ||| c.mask })))

/-- CALL in both forms (R120): a CALL entry with the return address, and the fragment at the target. CALLX (R121): the live lanes of the
lowest target start at it, the others wait in the AUX of the new CALLX entry. It rests on the model's choices of log 28, 29. -/
def Obligations.CallsPush : Prop :=
  (∀ (s : State) (c : Iss) (f : Frag), s.fragOf c = some f →
     let g := s.group c.place
     let calls (i : Instr) (tgt : DWord) : Prop := Ready i s c → g.sp + 1 ≤ (s.ctx g.page).d.csentries → g.chip.length < 6 →
       ∃ t a, exec i s = .next t ∧ t.fragOf c = some a ∧ a.pc = tgt ∧ a.rsp = BitVec.ofNat 16 g.sp ∧ a.mask = c.mask ∧ a.fmt = c.fmt ∧
         (t.group c.place).sp = g.sp + 1 ∧
         (t.group c.place).chip = g.chip ++ [{ kind := .call, pc := c.npc, mask := c.mask, aux := 0, link := f.rsp, vreg := 0, sup := c.sup,
                                               live := true, fmt := c.fmt }]
     (∀ h x, calls (.call h x) (c.pc + 4 * x.off.signExtend 64)) ∧ (∀ f1, calls (.callJ1 f1) (c.pc + 4 * (f1.b ++ f1.a).signExtend 64))) ∧
  (∀ (h : Hd) (s : State) (c : Iss) (f : Frag), Ready (.callx h) s c → s.fragOf c = some f →
     let g := s.group c.place
     let tgt (l : Nat) : DWord := ((begun (.callx h) s).group c.place).rv64 c.slot h.b.toNat l
     (∀ l ∈ lanes c.act, bits (tgt l) 0 2 = 0) → g.sp + 1 ≤ (s.ctx g.page).d.csentries → g.chip.length < 6 →
     ∃ t a, exec (.callx h) s = .next t ∧ t.fragOf c = some a ∧
       (∀ l, l < 32 → (bit a.mask l = true ↔ bit c.mask l = true ∧ bit g.exited l = false ∧ tgt l = a.pc)) ∧
       (∀ l, l < 32 → bit c.mask l = true → bit g.exited l = false → a.pc.toNat ≤ (tgt l).toNat) ∧
       a.rsp = BitVec.ofNat 16 g.sp ∧ a.fmt = c.fmt ∧ (t.group c.place).sp = g.sp + 1 ∧
       (t.group c.place).chip = g.chip ++ [{ kind := .callx, pc := c.npc, mask := c.mask, aux := c.mask &&& ~~~g.exited &&& ~~~a.mask,
                                             link := f.rsp, vreg := h.b, sup := c.sup, live := true, fmt := c.fmt }])

/-- RET in both forms, with every entry on chip (R122): from a CALL entry, and from a CALLX entry no live lane of which is pending, the
fragment gets back the entry's live lanes, PC, FMT and LINK, keeps its mode, and the entry is freed; from a CALLX entry with pending
lanes those of the lowest target start there as the next batch, and the others stay pending; with no entry, or one of a divergence, it
traps ILLEGAL_CONVERGENCE, here in user mode to an enabled handler. EXIT in both forms in user mode (R118): its lanes have exited; the
fragment goes on with those that remain; when none remains its slot becomes free and the chain of its entries, here all on chip and with
no FRAG entry to load, is walked: entries without anything to do are freed, a divergence all of whose live lanes have arrived and a CALLX
without a pending lane give their fragment back, a divergence with a sibling stays, and a CALLX starts its next batch. When every lane of
the group has exited, with no entry or under a chain of them, the group ends, here in a team without a stash window: its slots, control
stack and allotment are freed, and its place once its counters are zero (R106). In supervisor mode an EXIT with an active lane ends the
context with PRIV; without one an EXIT has no effect in either mode (R130). It rests on the model's choices of log 29. -/
def Obligations.ReturnsAndExits : Prop :=
  (∀ (s : State) (c : Iss) (f : Frag), s.fragOf c = some f →
     let g := s.group c.place
     let returns (i : Instr) : Prop := Ready i s c →
       let traps : Prop := c.sup = false → handles s c 8 = true →
         ∃ t, exec i s = .next t ∧ inHandler c s t (codeOf 0 cConvergence) 0 c.mask 0 c.pc false
       (f.rsp = 0xFFFF → traps) ∧
       (∀ e, f.rsp ≠ 0xFFFF → g.chip.length = g.sp → g.chip[f.rsp.toNat]? = some e →
         let pend := e.aux &&& ~~~g.exited
         let tgt (l : Nat) : DWord := ((begun i s).group c.place).rv64 c.slot e.vreg.toNat l
         (e.kind = .div ∨ e.kind = .frag → traps) ∧
         (e.kind = .call ∨ (e.kind = .callx ∧ pend = 0) → g.fidx = [] ∨ (g.slot0 ≠ none ∧ g.slot1 ≠ none) →
           ∃ t a, exec i s = .next t ∧ t.fragOf c = some a ∧ a.mask = e.mask &&& ~~~g.exited ∧ a.pc = e.pc ∧ a.fmt = e.fmt ∧
             a.rsp = e.link ∧ a.sup = c.sup ∧ ∀ k, (t.group c.place).chip[f.rsp.toNat]? = some k → k.live = false) ∧
         (e.kind = .callx → pend ≠ 0 →
           ∃ t a, exec i s = .next t ∧ t.fragOf c = some a ∧
             (∀ l, l < 32 → (bit a.mask l = true ↔ bit pend l = true ∧ tgt l = a.pc)) ∧
             (∀ l, l < 32 → bit pend l = true → a.pc.toNat ≤ (tgt l).toNat) ∧ a.fmt = e.fmt ∧ a.rsp = f.rsp ∧
             (t.group c.place).sp = g.sp ∧ (t.group c.place).chip[f.rsp.toNat]? = some { e with aux := pend &&& ~~~a.mask }))
     (∀ h, returns (.ret h)) ∧ (∀ f1, returns (.retZ1 f1))) ∧
  (∀ (s : State) (c : Iss) (f : Frag), s.fragOf c = some f → c.sup = false →
     let g := s.group c.place
     let exits (i : Instr) : Prop := Ready i s c →
       (c.mask &&& ~~~c.act ≠ 0 → ∃ t a, exec i s = .next t ∧ t.fragOf c = some a ∧ a.mask = c.mask &&& ~~~c.act ∧ a.pc = c.npc ∧
         (t.group c.place).exited = g.exited ||| c.act) ∧
       (c.mask &&& ~~~c.act = 0 →
         let x := g.exited ||| c.act
         let stays (t : State) : Prop := exec i s = .next t ∧ t.fragOf c = none ∧ (t.group c.place).exited = x
         (f.rsp = 0xFFFF → x ≠ allLanes → g.fidx = [] → ∃ t, stays t) ∧
         let ends : Prop := ∃ t, exec i s = .next t ∧
           (g.cnt = [] → ffind t.groups c.place = none) ∧
           (g.cnt ≠ [] → ∃ k, ffind t.groups c.place = some k ∧ k.ended = true ∧ k.slot0 = none ∧ k.slot1 = none ∧ k.sp = 0 ∧ k.chip = [] ∧
             k.allot = 0 ∧ k.cnt = g.cnt)
         (f.rsp = 0xFFFF → x = allLanes → (s.team g.team).windows = [] → ends) ∧
         (∀ (ps : List (Nat × Entry)) (n : Nat) (e : Entry),
           let path := ps ++ [(n, e)]
           let live (k : Entry) : Mask := k.mask &&& ~~~x
           let pend (k : Entry) : Mask := k.aux &&& ~~~x
           let passes (k : Entry) : Prop := k.kind = .call ∨ (k.kind = .div ∧ live k = 0) ∨ (k.kind = .callx ∧ pend k = 0 ∧ live k = 0)
           let tgt (l : Nat) : DWord := ((begun i s).group c.place).rv64 c.slot e.vreg.toNat l
           let freed (t : State) (l : List (Nat × Entry)) : Prop :=
             ∀ p ∈ l, ∀ k, (t.group c.place).chip[p.1]? = some k → k.live = false
           let resumes : Prop := ∃ t a, exec i s = .next t ∧ t.fragOf c = some a ∧ a.mask = live e ∧ a.pc = e.pc ∧ a.fmt = e.fmt ∧
             a.rsp = e.link ∧ a.sup = e.sup ∧ (t.group c.place).exited = x ∧ freed t path
           g.chip.length = g.sp → g.fidx = [] → f.rsp ≠ 0xFFFF → path.head?.map (fun p => p.1) = some f.rsp.toNat →
           (∀ p ∈ path, g.chip[p.1]? = some p.2 ∧ p.2.live = true) → (∀ p ∈ ps, passes p.2) →
           (∀ j p q, path[j]? = some p → path[j + 1]? = some q → p.2.link ≠ 0xFFFF ∧ p.2.link.toNat = q.1 ∧ q.1 < p.1) →
           (e.kind = .div → live e ≠ 0 → e.aux = live e → resumes) ∧ (e.kind = .callx → pend e = 0 → live e ≠ 0 → resumes) ∧
           (e.kind = .div → live e ≠ 0 → e.aux ≠ live e → ∃ t, stays t ∧ (t.group c.place).chip[n]? = some e ∧ freed t ps) ∧
           (e.kind = .callx → pend e ≠ 0 → ∃ t a, exec i s = .next t ∧ t.fragOf c = some a ∧
             (∀ l, l < 32 → (bit a.mask l = true ↔ bit (pend e) l = true ∧ tgt l = a.pc)) ∧
             (∀ l, l < 32 → bit (pend e) l = true → a.pc.toNat ≤ (tgt l).toNat) ∧ a.fmt = e.fmt ∧ a.rsp = BitVec.ofNat 16 n ∧
             (t.group c.place).chip[n]? = some { e with aux := pend e &&& ~~~a.mask } ∧ freed t ps) ∧
           (passes e → e.link = 0xFFFF → x ≠ allLanes → ∃ t, stays t ∧ freed t path) ∧
           (passes e → e.link = 0xFFFF → x = allLanes → (s.team g.team).windows = [] → ends)))
     (∀ h, exits (.exit h)) ∧ (∀ f1, exits (.exitZ1 f1))) ∧
  (∀ (s : State) (c : Iss),
     let g := s.group c.place
     let exits (i : Instr) : Prop :=
       (c.sup = true → Ready i s c →
         let u := settleDoom (markIssued (doomGroup (begun i s) c.place c.pc (.plain (codeOf 0 cPriv) c.act))
           ((drainFor s s.cur (shapeIn i s)).group c.place))
         u.absent = false → exec i s = .next u ∧ (u.ctx g.page).state = 6) ∧
       (s.settled = true → issueOf i s = some c → c.act = 0 →
         ∃ t, exec i s = .next t ∧ wentTo c c.npc s t ∧ onlyGroups s t ∧ sameOthers c s t)
     (∀ h, exits (.exit h)) ∧ (∀ f1, exits (.exitZ1 f1)))

/-- YIELD in both forms (R123): without a FRAG entry that can be loaded it only issues; with one that is a live FRAG entry, in a handler
one of supervisor mode (R117), every entry on chip and room, the entry's fragment takes the slot and the issuing fragment becomes the top
entry. It rests on the model's choices of log 29. -/
def Obligations.YieldExchanges : Prop :=
  ∀ (s : State) (c : Iss),
    let g := s.group c.place
    let yields (i : Instr) : Prop := Ready i s c →
      (loadable g = none → ∃ t, exec i s = .next t ∧ wentTo c c.npc s t ∧ onlyGroups s t) ∧
      (∀ n e, loadable g = some n → g.chip.length = g.sp → g.chip[n]? = some e → e.kind = .frag → e.live = true →
        (g.h.slot = none ∨ e.sup = true) → g.chip.length < 6 →
        g.sp + 1 ≤ (s.ctx g.page).d.csentries →
        ∃ t a, exec i s = .next t ∧ t.fragOf c = some a ∧ a.mask = e.mask ∧ a.pc = e.pc ∧ a.fmt = e.fmt ∧ a.rsp = e.link ∧
          ∃ k, (t.group c.place).chip.getLast? = some k ∧ k.kind = .frag ∧ k.pc = c.npc ∧ k.mask = c.mask)
    (∀ h, yields (.yield h)) ∧ (∀ f1, yields (.yieldZ1 f1))

/-- TRAP (R132): without an active lane it has no effect; with one it raises its code, of engine class 0, for its active lanes. In user
mode with HNDEN bit 15 the handler is entered with EPC at the next instruction; otherwise the context ends. -/
def Obligations.TrapRaises : Prop :=
  ∀ (h : Hd) (x : WTrap) (s : State) (c : Iss),
    let i := Instr.trap h x
    let page := (s.group c.place).page
    (s.settled = true → issueOf i s = some c → c.act = 0 →
      ∃ t, exec i s = .next t ∧ wentTo c c.npc s t ∧ onlyGroups s t ∧ sameOthers c s t) ∧
    (Ready i s c →
      (c.sup = false → handles s c 15 = true →
        ∃ t, exec i s = .next t ∧ inHandler c s t (x.cause.setWidth 16) 0 c.act 0 c.npc false) ∧
      (c.sup = true ∨ handles s c 15 = false →
        let u := settleDoom (markIssued (doomGroup (begun i s) c.place c.pc (.plain (x.cause.setWidth 16) c.act))
          ((drainFor s s.cur (shapeIn i s)).group c.place))
        u.absent = false → exec i s = .next u ∧ (u.ctx page).state = 6))

/-- SVRET whose RSP check passes, with no operation to continue and no FRAG entry to load (R131): the fragment gets back the mask, FMT
and mode of the interrupted one at EPC; under REPLAY it is limited to the lanes served and left unfinished; the other slot is released.
It rests on the model's choices of log 29. -/
def Obligations.SvretReturns : Prop :=
  ∀ (f1 : F1) (s : State) (c : Iss) (f : Frag), Ready (.svret f1) s c → s.fragOf c = some f →
    let g := s.group c.place
    f.rsp = g.h.ersp → g.fwd = [] → g.h.op = none → g.h.stream = none → g.fidx = [] →
    ∃ t a, exec (.svret f1) s = .next t ∧ t.fragOf c = some a ∧ a.mask = g.h.efrag ∧ a.pc = g.h.epc ∧ a.fmt = g.h.efmt ∧ a.sup = false ∧
      a.only = (if g.h.replay then some ((g.h.emask ||| g.h.erest) &&& g.h.efrag) else none) ∧ (t.group c.place).h.slot = none

/-- The supervisor instructions are SVRET, PGPOOL, PGMAP, TLBINV and APREPLAY in every form (R63), and WSR of a read-only register
(R107). In user mode each of them, and no other legal instruction, fails the mode check, and it traps PRIV, here to an enabled handler,
with the fragment's whole mask, when no fault of an accepted operation is delivered first (R30, R65). -/
def Obligations.PrivilegedTrapsInUserMode : Prop :=
  let readOnly : List Nat := [0x00, 0x01, 0x02, 0x03, 0x04, 0x05, 0x06, 0x07, 0x08, 0x09, 0x0D, 0x0E, 0x0F, 0x10, 0x11, 0x12, 0x13, 0x14,
    0x15, 0x2A, 0x2B, 0x2C]
  let supervisor (i : Instr) : Prop :=
    (∃ f, i = .svret f ∨ (i = .wsrU1 f ∧ f.b.toNat ∈ readOnly)) ∨
    (∃ h, i = .pgpoolGet h ∨ i = .pgpoolPut h ∨ i = .pgmap h ∨ i = .pgmapFwd h ∨ i = .tlbinv h ∨ i = .apreplay h ∨
      (i = .wsr h ∧ h.b.toNat ∈ readOnly))
  (∀ (i : Instr) (s : State), (shapeIn i s).ok = true → ((shapeIn i s).priv = true ↔ supervisor i)) ∧
  ∀ (i : Instr) (s : State) (r : Raw) (f : Frag) (c : Iss), rawOf i = some r → supervisor i → s.settled = true →
    (s.group s.cur.1).frag s.cur.2 = some f → mayIssue s (s.group s.cur.1) f = true → f.sup = false →
    blocked s s.cur.1 s.cur.2 (shapeIn i s) = false → asyncDue s s.cur.1 s.cur.2 = none → formFault s (s.group s.cur.1) f (shapeIn i s) = false →
    c = issOf (shapeIn i s) r.op.toNat r.len r.st.toNat s.cur.1 s.cur.2 ((drainFor s s.cur (shapeIn i s)).group s.cur.1) f →
    handles s c 5 = true →
    ∃ t, exec i s = .next t ∧ inHandler c s t (codeOf (classOf c.op) cPriv) 0 c.mask 0 c.pc false

/-! ### Special registers and register blocks -/

/-- RSR in both forms (R107, R108): LANEID gives each active lane its index and SEED its stream's state; CYCLE gives bits 31:0 of the
core's cycle counter and latches bits 63:32 in the fragment; every other uniform register the value that `sregRead` gives; FSTAT, once no
operation of the group may still raise flags, with the updates that the fragment's own instructions have still to make, and of the other
fragment's only those made (R85). What `sregRead` gives for each uniform register that R107 names (R19, R114), and zero for the SV
registers in user mode (R2). WSR in both forms (R107): FMT of the issuing fragment, FSTAT by write-1-to-clear, SEED of the active lanes
with 0 written as 1 (R96), each handler register in supervisor mode; a handler register in user mode stays as it is (R2), and a
supervisor write of a read-only register changes nothing. REGGIVE, REGCLAIM that finds its blocks and no older claim, and the grant of
the first waiting claim (R126): blocks move between the allotment and the quadrant's pool, and claimed registers read zero in every lane.
It rests on the model's choices of log 131. -/
def Obligations.SpecialRegistersAndBlocks : Prop :=
  (∀ (s : State) (c : Iss) (f : Frag), s.fragOf c = some f →
     let reads (i : Instr) (a n : Nat) : Prop := Ready i s c →
       let clk := s.clkOf (s.group c.place).core
       (n = 0x00 → ∃ s2, Completes i s c s2 ∧ ∀ l ∈ lanes c.act, (s2.group c.place).finalV a l = BitVec.ofNat 32 l) ∧
       (n = 0x0C → ∃ s2, Completes i s c s2 ∧ ∀ l ∈ lanes c.act, (s2.group c.place).finalV a l = fget (s.group c.place).seed l 0) ∧
       (n = 0x08 → ∃ s2, Completes i s c s2 ∧ (s2.group c.place).finalS a = BitVec.ofNat 32 clk ∧
         ∃ k, s2.fragOf c = some k ∧ k.chl = BitVec.ofNat 32 (clk / 2 ^ 32)) ∧
       (n = 0x0B → fstatWaits (begun i s) c.place = false → ∃ s2, Completes i s c s2 ∧
         let b := (begun i s).group c.place
         (s2.group c.place).finalS a = (b.fstat ||| pendFlags (b.pfl.filter (fun y => y.slot == c.slot))).setWidth 32) ∧
       (sregLane n = false → n ≠ 0x0B →
         ∃ s2, Completes i s c s2 ∧ (s2.group c.place).finalS a = sregRead (begun i s) ((begun i s).group c.place) f n)
     (∀ h, reads (.rsr h) h.a.toNat h.b.toNat) ∧ (∀ f1, reads (.rsrU1 f1) f1.a.toNat f1.b.toNat)) ∧
  (∀ (s : State) (g : Group) (f : Frag),
     let t := s.team g.team
     let d := (s.ctx g.page).d
     sregRead s g f 0x01 = BitVec.ofNat 32 g.role ∧ sregRead s g f 0x02 = BitVec.ofNat 32 g.idx ∧
     sregRead s g f 0x03 = BitVec.ofNat 32 t.ngroup ∧ sregRead s g f 0x04 = BitVec.ofNat 32 t.t ∧
     sregRead s g f 0x05 = BitVec.ofNat 32 (256 * t.row + t.col) ∧
     sregRead s g f 0x06 = BitVec.ofNat 32 g.core ∧ sregRead s g f 0x07 = BitVec.ofNat 32 s.sys.pkg.toNat ∧
     sregRead s g f 0x08 = BitVec.ofNat 32 (s.clkOf g.core) ∧ sregRead s g f 0x09 = f.chl ∧
     sregRead s g f 0x0A = f.fmt.setWidth 32 ∧ sregRead s g f 0x0B = g.fstat.setWidth 32 ∧ sregRead s g f 0x0D = g.seedbase ∧
     sregRead s g f 0x0E =
       BitVec.ofNat 32 (fget g.cnt 0 0 + 2 ^ 8 * fget g.cnt 1 0 + 2 ^ 16 * fget g.cnt 2 0 + 2 ^ 24 * fget g.cnt 3 0) ∧
     sregRead s g f 0x0F = BitVec.ofNat 32 (fget g.cnt 4 0 + 2 ^ 8 * fget g.cnt 5 0) ∧
     sregRead s g f 0x10 = f.mask ∧ sregRead s g f 0x11 = g.exited ∧ sregRead s g f 0x12 = BitVec.ofNat 32 g.allot ∧
     sregRead s g f 0x13 = BitVec.ofNat 32 g.sp ∧ sregRead s g f 0x14 = f.rsp.setWidth 32 ∧
     sregRead s g f 0x15 = BitVec.ofNat 32 g.gslot ∧ sregRead s g f 0x2A = g.h.ersp ++ 0#14 ++ g.h.efmt ∧
     sregRead s g f 0x2C ++ sregRead s g f 0x2B =
       d.hsavebase + BitVec.ofNat 64 (d.hsavestride.toNat * (64 * g.core + g.gslot)) ∧
     (f.sup = true → sregRead s g f 0x20 = g.h.ecause.setWidth 32 ∧ sregRead s g f 0x22 ++ sregRead s g f 0x21 = g.h.epc ∧
       sregRead s g f 0x24 ++ sregRead s g f 0x23 = g.h.enpc ∧ sregRead s g f 0x26 ++ sregRead s g f 0x25 = g.h.eaddr ∧
       sregRead s g f 0x27 = g.h.emask ∧ sregRead s g f 0x28 = g.h.efrag ∧ sregRead s g f 0x29 = (if g.h.replay then 1 else 0) ∧
       sregRead s g f 0x2D = g.h.erest) ∧
     (f.sup = false → ∀ n ∈ [0x20, 0x21, 0x22, 0x23, 0x24, 0x25, 0x26, 0x27, 0x28, 0x29, 0x2D], sregRead s g f n = 0)) ∧
  (∀ (s : State) (c : Iss),
     let writes (i : Instr) (a n : Nat) : Prop := Ready i s c →
       let b := (begun i s).group c.place
       let v := b.rs c.slot a
       ∃ s2, Completes i s c s2 ∧
         (n = 0x0A → ∃ k, s2.fragOf c = some k ∧ k.fmt = v.setWidth 2) ∧
         (n = 0x0B → (s2.group c.place).fstat = b.fstat &&& ~~~(v.setWidth 7)) ∧
         (n = 0x0C → ∀ l ∈ lanes c.act, fget (s2.group c.place).seed l 0 = (if b.rv c.slot a l = 0 then 1 else b.rv c.slot a l)) ∧
         (c.sup = true →
           let gives (m : Nat) (h : Handler) : Prop := n = m → (s2.group c.place).h = h
           gives 0x20 { b.h with ecause := v.setWidth 16 } ∧
           gives 0x21 { b.h with epc := bits b.h.epc 32 32 ++ v } ∧ gives 0x22 { b.h with epc := v ++ bits b.h.epc 0 32 } ∧
           gives 0x23 { b.h with enpc := bits b.h.enpc 32 32 ++ v } ∧ gives 0x24 { b.h with enpc := v ++ bits b.h.enpc 0 32 } ∧
           gives 0x25 { b.h with eaddr := bits b.h.eaddr 32 32 ++ v } ∧ gives 0x26 { b.h with eaddr := v ++ bits b.h.eaddr 0 32 } ∧
           gives 0x27 { b.h with emask := v } ∧ gives 0x28 { b.h with efrag := v } ∧ gives 0x29 { b.h with replay := bit v 0 } ∧
           gives 0x2D { b.h with erest := v } ∧
           (n ∉ [0x0A, 0x0B, 0x0C, 0x20, 0x21, 0x22, 0x23, 0x24, 0x25, 0x26, 0x27, 0x28, 0x29, 0x2D] → s2.group c.place = b)) ∧
         (c.sup = false → (s2.group c.place).h = (s.group c.place).h)
     (∀ h, writes (.wsr h) h.a.toNat h.b.toNat) ∧ (∀ f1, writes (.wsrU1 f1) f1.a.toNat f1.b.toNat)) ∧
  (∀ (s : State),
     (∀ h x c, Ready (.reggive h x) s c → (ffind s.teams (s.group c.place).team).isSome = true →
       c.mask = ~~~(s.group c.place).exited → 32 * x.n.toNat + 32 ≤ (s.group c.place).allot →
       pendingRegs s c.place = [] → waitWrites s (s.group c.place) c.slot = ([], []) →
       ∃ s2, Completes (.reggive h x) s c s2 ∧ (s2.group c.place).allot = (s.group c.place).allot - 32 * x.n.toNat ∧
         (s2.team (s.group c.place).team).pool (s.group c.place).quad =
           (s.team (s.group c.place).team).pool (s.group c.place).quad + x.n.toNat) ∧
     (∀ h x c, Ready (.regclaim h x) s c → (ffind s.teams (s.group c.place).team).isSome = true →
       c.mask = ~~~(s.group c.place).exited → (s.group c.place).allot + 32 * x.n.toNat ≤ 512 →
       x.n.toNat ≤ (s.team (s.group c.place).team).pool (s.group c.place).quad →
       claimsOf s (s.group c.place).team (s.group c.place).quad = [] →
       ∃ s2, Completes (.regclaim h x) s c s2 ∧ (s2.group c.place).allot = (s.group c.place).allot + 32 * x.n.toNat ∧
         (s2.team (s.group c.place).team).pool (s.group c.place).quad =
           (s.team (s.group c.place).team).pool (s.group c.place).quad - x.n.toNat ∧
         ∀ r l, (s.group c.place).allot ≤ r → l < 32 → fget (s2.group c.place).v (32 * r + l) 0 = 0) ∧
     (∀ tid quad order place slot n f, s.settled = true → (ffind s.teams tid).isSome = true →
       (claimsOf s tid quad).head? = some (order, place, slot, n) → (s.group place).team = tid → (s.group place).quad = quad →
       slot < 2 → (s.group place).frag slot = some f → n ≤ (s.team tid).pool quad →
       ∃ t k, exec (.regclaimGrant tid quad) s = .next t ∧ (t.group place).frag slot = some k ∧ k.wait = none ∧
         (t.group place).allot = (s.group place).allot + 32 * n ∧ (t.team tid).pool quad = (s.team tid).pool quad - n ∧
         ∀ r l, (s.group place).allot ≤ r → l < 32 → fget (t.group place).v (32 * r + l) 0 = 0))

/-! ### Waits and barriers -/

/-- WAITC and YIELDC (R25, R124): WAITC goes on at once when its condition holds, and otherwise leaves its fragment waiting for it;
YIELDC stops its group with the continuation PC; YIELD_RESUME makes a running group whose condition holds eligible there, and leaves one
whose condition does not hold as it is. The condition is that an engine counter is at most THRESH, or that of a chunk map all bits are
set, or any bit, of the mask read at issue, less its bits beyond the map; a map that has another generation since makes it true. A mask
offset that is no multiple of 64 traps ALIGN and a slot that is no chunk map ILLEGAL_FORM, here in user mode to an enabled handler. It
rests on the model's choices of log 17. -/
def Obligations.WaitsHold : Prop :=
  ∀ (s : State),
    (∀ h x c, Ready (.waitc h x) s c → x.kind = 0 →
      (fget (s.group c.place).cnt x.cls.toNat 0 ≤ x.thresh.toNat → ∃ t, exec (.waitc h x) s = .next t ∧ wentTo c c.npc s t) ∧
      (x.thresh.toNat < fget (s.group c.place).cnt x.cls.toNat 0 → ∃ t a, exec (.waitc h x) s = .next t ∧ t.fragOf c = some a ∧
        a.pc = c.npc ∧ a.wait = some (.cond (.counter x.cls.toNat x.thresh.toNat)))) ∧
    (∀ h x c, Ready (.yieldc h x) s c → x.kind = 0 →
      ∃ t, exec (.yieldc h x) s = .next t ∧
        (t.group c.place).yw = some { cond := .counter x.cls.toNat x.thresh.toNat, slot := c.slot,
                                      pc := c.pc + 4 * (h.d ++ h.c).signExtend 64, from_ := c.pc }) ∧
    (∀ h x c r i, i = .waitc h x ∨ i = .yieldc h x → Ready i s c → x.kind ≠ 0 →
      let b := begun i s
      let tid := (s.group c.place).team
      let off := (b.group c.place).rs c.slot h.b.toNat
      let sl := slotAt b r
      slotRef b tid (x.slot.toNat, x.cl, x.cpos.toNat) = some r → invBusy b r = false →
      (sl.kind ≠ 2 → c.sup = false → handles s c 3 = true → c.act = c.full →
        ∃ t, exec i s = .next t ∧ inHandler c s t 0x0003 0 c.act 0 c.pc false) ∧
      (sl.kind = 2 → off.toNat % 64 ≠ 0 → c.sup = false → handles s c 10 = true → c.act = c.full →
        ∃ t, exec i s = .next t ∧ inHandler c s t 0x0012 (off.setWidth 64) c.act 0 c.pc false) ∧
      (sl.kind = 2 → off.toNat % 64 = 0 → ∀ by_ u, locAccess b 0 kRead tid off.toNat 64 (off.setWidth 64) none = .ok by_ u →
        u.settled = true → u.groups = b.groups → slotAt u r = sl → (ffind u.teams r.team).map (fun t => t.ended) = some false →
        let m : BitVec 512 := BitVec.ofNat 512 (leVal by_ % 2 ^ sl.expect)
        let cd : Cond := .chunk r sl.gen (x.kind == 2) m
        let holds : Prop := if x.kind = 1 then sl.bits &&& m = m else sl.bits &&& m ≠ 0
        (i = .waitc h x → holds → ∃ t, exec i s = .next t ∧ wentTo c c.npc s t) ∧
        (i = .waitc h x → ¬ holds → ∃ t a, exec i s = .next t ∧ t.fragOf c = some a ∧ a.pc = c.npc ∧ a.wait = some (.cond cd)) ∧
        (i = .yieldc h x → ∃ t y, exec i s = .next t ∧ (t.group c.place).yw = some y ∧ y.cond = cd ∧ y.slot = c.slot ∧
          y.pc = c.pc + 4 * (h.d ++ h.c).signExtend 64 ∧ y.from_ = c.pc))) ∧
    (∀ g r gen any m, (slotAt s r).gen ≠ gen → condTrue s g (.chunk r gen any m) = true) ∧
    (∀ place g y, s.settled = true → ffind s.groups place = some g → g.yw = some y → (s.ctx g.page).state = 2 → g.park = none →
      (condTrue s g y.cond = true → ∃ t, exec (.yieldResume place) s = .next t ∧ (t.group place).yw = none ∧
        ∀ f, g.frag y.slot = some f → ∃ a, (t.group place).frag y.slot = some a ∧ a.pc = y.pc ∧ a.mask = f.mask) ∧
      (condTrue s g y.cond = false → exec (.yieldResume place) s = .next s))

/-- BARINIT that is no matching initialisation, with no waiter and nothing pending or with .force, and no operation that carries the next
tag: the slot gets its kind, EXPECT and PART, the next generation, and every count at zero (R239, R245). BARINV frees the slot and
advances its generation when no operation carries the next tag; while one does, the fragment waits and the generation stays (R239, R249).
It rests on the model's choices of log 17, 80. -/
def Obligations.BarrierSlotsPrepared : Prop :=
  (∀ (h : Hd) (x : WSlot) (s : State) (c : Iss) (r : SlotRef), Ready (.barinit h x) s c → namesSlot (.barinit h x) s c x r →
     let b := begun (.barinit h x) s
     let map := bit h.mod 0
     let force := bit h.mod 1
     let v := ((b.group c.place).rs c.slot h.b.toNat).toNat
     let part : Word := if map then 0 else (b.group c.place).rs c.slot h.c.toNat
     let kind := if map then 2 else 1
     v ≠ 0 → v ≤ (if map then 512 else 4095) →
     (force = true ∨ (¬ ((slotAt b r).kind = kind ∧ (slotAt b r).expect = v ∧ (map = true ∨ (slotAt b r).part = part)) ∧ nwait b r = 0 ∧
       (slotAt b r).pend = 0)) → genBusy b r = false →
     ∃ s2, Completes (.barinit h x) s c s2 ∧
       slotAt s2 r = { kind := kind, gen := (slotAt b r).gen + 1, phase := 0, expect := v, arrived := 0, part := part, arrmask := 0,
                       tx := 0, bits := 0, pend := 0, age := 0, latest := (slotAt b r).latest }) ∧
  (∀ (h : Hd) (x : WSlot) (s : State) (c : Iss) (r : SlotRef), Ready (.barinv h x) s c → namesSlot (.barinv h x) s c x r →
     let b := begun (.barinv h x) s
     (genBusy b r = false →
       ∃ s2, Completes (.barinv h x) s c s2 ∧ (slotAt s2 r).kind = 0 ∧ (slotAt s2 r).gen = (slotAt b r).gen + 1 ∧ (slotAt s2 r).pend = 0) ∧
     (genBusy b r = true →
       ∃ s2 a, Completes (.barinv h x) s c s2 ∧ s2.fragOf c = some a ∧ a.wait = some (.inval r 0 0 0) ∧
         (slotAt s2 r).gen = (slotAt b r).gen))

/-- BAREXP (R246): s[B] is added to TX and Complete() applied; a slot that is no counting barrier traps ILLEGAL_FORM; a sum above 2^39 −
1 traps BARRIER_BUSY and changes no slot; a value of 0 has no effect. The traps are shown in user mode to an enabled handler. -/
def Obligations.BarexpExpects : Prop :=
  ∀ (h : Hd) (x : WSlot) (s : State) (c : Iss) (r : SlotRef), Ready (.barexp h x) s c → namesSlot (.barexp h x) s c x r →
    let b := begun (.barexp h x) s
    let v := ((b.group c.place).rs c.slot h.b.toNat).toNat
    ((slotAt b r).kind = 1 → (slotAt b r).tx + v < 2 ^ 39 → v ≠ 0 →
      ∃ s2, Completes (.barexp h x) s c s2 ∧ slotAt s2 r = { slotAt b r with tx := (slotAt b r).tx + v }.settled) ∧
    ((slotAt b r).kind = 1 → (slotAt b r).tx < 2 ^ 39 → v = 0 → Completes (.barexp h x) s c b) ∧
    ((slotAt b r).kind ≠ 1 → c.sup = false → handles s c 3 = true → c.act = c.full →
      ∃ t, exec (.barexp h x) s = .next t ∧ inHandler c s t 0x4003 0 c.act 0 c.pc false ∧ t.teams = s.teams) ∧
    ((slotAt b r).kind = 1 → 2 ^ 39 ≤ (slotAt b r).tx + v → c.sup = false → handles s c 14 = true → c.act = c.full →
      ∃ t, exec (.barexp h x) s = .next t ∧ inHandler c s t 0x4040 0 c.act 0 c.pc false ∧ t.teams = s.teams)

/-- Tokens (R235). BARARV's token is Concat(GEN, PHASE) as the slot held them before its arrival. A BARWAIT on a token ends at once with
failure when the generation differs, at once with success when only the phase differs, and otherwise waits; the wait ends with success
when the phase completes and with failure when an invalidation releases the slot's waiters. It rests on the model's choices of log 17. -/
def Obligations.TokensEndWaits : Prop :=
  (∀ (h : Hd) (x : WSlot) (s : State) (c : Iss) (r : SlotRef),
     (Ready (.bararv h x) s c → namesSlot (.bararv h x) s c x r → h.mod = 0 →
       let sl := slotAt (begun (.bararv h x) s) r
       sl.kind = 1 → sl.arrived + 1 ≤ sl.expect →
       ∃ s2, Completes (.bararv h x) s c s2 ∧ (s2.group c.place).finalS h.a.toNat = sl.gen ++ sl.phase) ∧
     (Ready (.barwait h x) s c → namesSlot (.barwait h x) s c x r → h.a ≠ 7 →
       let b := begun (.barwait h x) s
       let sl := slotAt b r
       let t := (b.group c.place).rs c.slot h.b.toNat
       (bits t 16 16 ≠ sl.gen → ∃ s2, Completes (.barwait h x) s c s2 ∧ ∀ l ∈ lanes c.act, (s2.group c.place).heldP h.a.toNat l = false) ∧
       (bits t 16 16 = sl.gen → sl.kind = 1 → bits t 0 16 ≠ sl.phase →
         ∃ s2, Completes (.barwait h x) s c s2 ∧ ∀ l ∈ lanes c.act, (s2.group c.place).heldP h.a.toNat l = true) ∧
       (bits t 16 16 = sl.gen → sl.kind = 1 → bits t 0 16 = sl.phase →
         ∃ s2 a, Completes (.barwait h x) s c s2 ∧ s2.fragOf c = some a ∧ a.wait = some (.bar r t h.a.toNat c.act)))) ∧
  (∀ (s : State) (r : SlotRef) (place slot pd : Nat) (t : Word) (m : Mask) (f : Frag),
     let ends (u : State) (ok : Bool) : Prop := ∃ a, (u.group place).frag slot = some a ∧ a.wait = none ∧
       ∀ l, bit m l = true → (u.group place).heldP pd l = ok
     slot < 2 → pd < 7 → (s.group place).frag slot = some f → f.wait = some (.bar r t pd m) →
     ((slotAt s r).kind = 1 → (slotAt s r).arrived = (slotAt s r).expect → (slotAt s r).tx = 0 →
       t = (slotAt s r).gen ++ (slotAt s r).phase → ends (slotComplete s r) true) ∧
     ends (slotRelease s r) false)

/-- Arrivals of BARARV and BARARW on a counting barrier, with a count for .n, apply Complete() after them; BARARW then waits on its own
token unless its arrival completed the phase; BARARV.bit sets one bit of a chunk map (R247). BARTEST never waits (R248): in token mode A
is true when the generation is the token's and the phase is not, D is true when the generation is another; on a chunk map A is true when
all bits (.all), or any bit (.any), of the mask below EXPECT are set; a slot that is no chunk map traps ILLEGAL_FORM and a mask offset
that is no multiple of 64 ALIGN, here in user mode to an enabled handler. It rests on the model's choices of log 17. -/
def Obligations.ArrivalsCount : Prop :=
  (∀ (h : Hd) (x : WSlot) (s : State) (c : Iss) (r : SlotRef),
     let after (b : State) (n : Nat) : Slot :=
       { slotAt b r with arrived := (slotAt b r).arrived + n, age := 0,
                         arrmask := if r.team = (b.group c.place).team then setBit (slotAt b r).arrmask (b.group c.place).idx true
                                    else (slotAt b r).arrmask }
     let fits (b : State) (n : Nat) : Prop := (slotAt b r).kind = 1 ∧ 1 ≤ n ∧ n ≤ 4095 ∧ (slotAt b r).arrived + n ≤ (slotAt b r).expect
     (Ready (.bararv h x) s c → namesSlot (.bararv h x) s c x r →
       let b := begun (.bararv h x) s
       let v := ((b.group c.place).rs c.slot h.b.toNat).toNat
       let n := if bit h.mod 0 then v else 1
       (bit h.mod 1 = false → fits b n → ∃ s2, Completes (.bararv h x) s c s2 ∧ slotAt s2 r = (after b n).settled) ∧
       (bit h.mod 1 = true → (slotAt b r).kind = 2 → v < (slotAt b r).expect →
         ∃ s2, Completes (.bararv h x) s c s2 ∧ slotAt s2 r = { slotAt b r with bits := setBit (slotAt b r).bits v true, age := 0 })) ∧
     (Ready (.bararw h x) s c → namesSlot (.bararw h x) s c x r →
       let b := begun (.bararw h x) s
       let n := if bit h.mod 0 then ((b.group c.place).rs c.slot h.b.toNat).toNat else 1
       fits b n →
       ∃ s2, Completes (.bararw h x) s c s2 ∧ slotAt s2 r = (after b n).settled ∧
         ((after b n).settled.phase = (slotAt b r).phase → ∃ a, s2.fragOf c = some a ∧
           a.wait = some (.bar r ((slotAt b r).gen ++ (slotAt b r).phase) h.a.toNat c.act)) ∧
         ((after b n).settled.phase ≠ (slotAt b r).phase → h.a ≠ 7 → ∀ l ∈ lanes c.act, (s2.group c.place).heldP h.a.toNat l = true))) ∧
  (∀ (h : Hd) (x : WSlot) (s : State) (c : Iss) (r : SlotRef), Ready (.bartest h x) s c → namesSlot (.bartest h x) s c x r → h.mod = 0 →
     let b := begun (.bartest h x) s
     let sl := slotAt b r
     let t := (b.group c.place).rs c.slot h.b.toNat
     (bits t 16 16 = sl.gen → sl.kind = 1) →
     ∃ s2, Completes (.bartest h x) s c s2 ∧ ∀ l ∈ lanes c.act,
       (h.a ≠ 7 → h.a ≠ h.d → (s2.group c.place).finalP h.a.toNat l = (bits t 16 16 == sl.gen && bits t 0 16 != sl.phase)) ∧
       (h.d ≠ 7 → (s2.group c.place).finalP h.d.toNat l = (bits t 16 16 != sl.gen))) ∧
  (∀ (h : Hd) (x : WSlot) (s : State) (c : Iss) (r : SlotRef), Ready (.bartest h x) s c → namesSlot (.bartest h x) s c x r → h.mod ≠ 0 →
     let i := Instr.bartest h x
     let b := begun i s
     let sl := slotAt b r
     let off := (b.group c.place).rs c.slot h.b.toNat
     let enters (cause : Nat) : Prop := c.sup = false → c.act = c.full → handles s c cause = true →
       ∃ t, exec i s = .next t ∧ inHandler c s t (codeOf 4 cause) (if cause = cAlign then off.setWidth 64 else 0) c.act 0 c.pc false
     (sl.kind ≠ 2 → enters cIllegalForm) ∧ (sl.kind = 2 → off.toNat % 64 ≠ 0 → enters cAlign) ∧
     (sl.kind = 2 → off.toNat % 64 = 0 →
       ∀ by_ u, locAccess b 4 kRead (s.group c.place).team off.toNat 64 (off.setWidth 64) none = .ok by_ u →
       u.settled = true → u.groups = b.groups → slotAt u r = sl → (ffind u.teams r.team).map (fun t => t.ended) = some false →
       let m : BitVec 512 := BitVec.ofNat 512 (leVal by_ % 2 ^ sl.expect)
       let holds : Prop := if h.mod = 1 then sl.bits &&& m = m else sl.bits &&& m ≠ 0
       ∃ t, exec i s = .next t ∧ wentTo c c.npc s t ∧
         (h.a ≠ 7 → ∀ l ∈ lanes c.act, ((t.group c.place).finalP h.a.toNat l = true ↔ holds))))

/-- An arrival on its way reaches its slot when the order of the cycle lets it (R238, R240) and no invalidation of the slot waits: with
another tag it changes no slot; at a chunk map it sets its bit; at a counting barrier it takes its bytes from TX and applies Complete();
the last arrival of its operation takes its registration from PEND. It rests on the model's choices of log 54, 77. -/
def Obligations.EngineArrivals : Prop :=
  ∀ (s : State) (n : Nat) (a : Arrival), s.settled = true → s.arrivals[n]? = some a → (ffind s.teams a.slot.team).isSome = true →
    (s.team a.slot.team).ended = false → arriveNow s a = true → invBusy s a.slot = false →
    let sl := slotAt s a.slot
    let last := a.final && !((s.arrivals.eraseIdx n).any (fun b => b.op == a.op))
    let pend := if last then sl.pend - 1 else sl.pend
    let now := (s.clkOf (s.team a.slot.team).core + 1, a.cls, a.op)
    (a.tag ≠ sl.gen → ∃ t, exec (.engineArrival n) s = .next t ∧ slotAt t a.slot = sl) ∧
    (a.tag = sl.gen → sl.kind = 2 → ∃ t, exec (.engineArrival n) s = .next t ∧
      slotAt t a.slot = { sl with age := 0, pend := pend, latest := now, bits := match a.bit with
        | some i => setBit sl.bits i true
        | none => sl.bits }) ∧
    (a.tag = sl.gen → sl.kind = 1 → -(2 ^ 39) ≤ sl.tx - a.bytes → ∃ t, exec (.engineArrival n) s = .next t ∧
      slotAt t a.slot = { sl with tx := sl.tx - a.bytes, age := 0, pend := pend, latest := now }.settled)

/-! ### Memory -/

/-- LD, LDL, LDC and LDA in both forms, every active lane aligned and its access made (R190, R196): each lane's registers receive the
bytes read at the address of R190, as many as SIZE says and extended as R189 says. SLDK with an aligned address whose access is made
loads its s-register, or pair, with the bytes there (R138). It rests on the model's choices of log 1, 2, 43. -/
def Obligations.LoadsRead : Prop :=
  (∀ (s : State) (c : Iss) (h : Hd) (x : WMem) (l : BitVec 60),
     let reads (i : Instr) (w : Where) (lit : Option (BitVec 60)) : Prop := Ready i s c →
       let b := begun i s
       let n := bytesOfSize x.size.toNat
       let ea := laneAddr (w == .loc) (b.group c.place) c.slot h.b x.ub x.off lit
       let r := runLanes b (lanes c.act) (fun l => lsAccess w c kRead n (ea l) none)
       (∀ l ∈ lanes c.act, (ea l).toNat % n = 0) → r.faults = [] → r.wait = none → r.absent = false →
       r.s.settled = true →
       ∃ s2, Completes i s c s2 ∧ s2.mem = r.s.mem ∧ r.got.map (fun p => p.1) = lanes c.act ∧
         ∀ p ∈ r.got, p.2.length = n ∧
           ∀ j < (n + 3) / 4, (s2.group c.place).finalV (h.a.toNat + j) p.1 = wordOfSize x.size.toNat (leVal p.2) j
     reads (.ld h x) .gen none ∧ reads (.ld5w h x l) .gen (some l) ∧ reads (.ldl h x) .loc none ∧ reads (.ldl5w h x l) .loc (some l) ∧
     reads (.ldc h x) .const none ∧ reads (.ldc5w h x l) .const (some l) ∧ reads (.lda h x) .gen none ∧ reads (.lda5w h x l) .gen (some l)) ∧
  (∀ (s : State) (c : Iss) (h : Hd) (x : WSldk), Ready (.sldk h x) s c →
     let b := begun (.sldk h x) s
     let g := b.group c.place
     let ea := g.rs64 c.slot h.b.toNat + x.off.signExtend 64
     let n := tyBits x.ty / 8
     ea.toNat % n = 0 → ∀ bs u, genAccess b g.page g.team c.sup 0 kRead n ea none = .ok bs u → u.settled = true →
     ∃ s2, Completes (.sldk h x) s c s2 ∧ (s2.group c.place).finalS h.a.toNat = BitVec.ofNat 32 (leVal bs) ∧
       (n = 8 → (s2.group c.place).finalS (h.a.toNat + 1) = BitVec.ofNat 32 (leVal bs / 2 ^ 32)))

/-- ST, STL and STREL in both forms, every active lane aligned and its access made (R190, R196): memory is what the lanes' accesses, in
ascending order, leave, each writing the low bytes of its data registers, as many as SIZE says (R189), at the address of R190; no
register changes. STL's frame: when its active lanes are aligned, within the allocation and outside every stash window, STL and its
five-word form complete; every byte outside the lanes' ranges, which start at the addresses R190 gives, reads as before, and every
register keeps its value. It rests on the model's choices of log 22. -/
def Obligations.StoresWrite : Prop :=
  (∀ (s : State) (c : Iss) (h : Hd) (x : WMem) (l : BitVec 60),
     let writes (i : Instr) (w : Where) (lit : Option (BitVec 60)) : Prop := Ready i s c →
       let b := begun i s
       let g := b.group c.place
       let n := bytesOfSize x.size.toNat
       let ea := laneAddr (w == .loc) g c.slot h.b x.ub x.off lit
       let data (l i : Nat) : Byte := BitVec.ofNat 8 ((g.rv c.slot (h.c.toNat + i / 4) l).toNat / 2 ^ (8 * (i % 4)))
       let r := runLanes b (lanes c.act) (fun l => lsAccess w c kWrite n (ea l) (some (fun _ => (List.range n).map (data l))))
       (∀ l ∈ lanes c.act, (ea l).toNat % n = 0) → r.faults = [] → r.wait = none → r.absent = false →
       r.s.settled = true → Completes i s c r.s
     writes (.st h x) .gen none ∧ writes (.st5w h x l) .gen (some l) ∧ writes (.stl h x) .loc none ∧ writes (.stl5w h x l) .loc (some l) ∧
     writes (.strel h x) .gen none ∧ writes (.strel5w h x l) .gen (some l)) ∧
  (∀ (s : State) (c : Iss) (h : Hd) (x : WMem) (l : BitVec 60),
     let frame (i : Instr) (lit : Option (BitVec 60)) : Prop := Ready i s c →
       let g := (begun i s).group c.place
       let t := s.team g.team
       let n := bytesOfSize x.size.toNat
       let ea := laneAddr true g c.slot h.b x.ub x.off lit
       (∀ l ∈ lanes c.act, (ea l).toNat % n = 0 ∧ (ea l).toNat + n ≤ t.size ∧ windowAt t (ea l).toNat = none) →
       ∃ s2, Completes i s c s2 ∧ (s2.group c.place).v = g.v ∧ (s2.group c.place).s = g.s ∧ (s2.group c.place).p = g.p ∧
         (s2.group c.place).k = g.k ∧ (s2.group c.place).fstat = g.fstat ∧ (s2.group c.place).pend = g.pend ∧
         ∀ j, (∀ l ∈ lanes c.act, j < localKey t.core (t.base + (ea l).toNat) ∨ localKey t.core (t.base + (ea l).toNat) + n ≤ j) →
           s2.byteAt j = s.byteAt j
     frame (.stl h x) none ∧ frame (.stl5w h x l) (some l))

/-- ATOM, ATOML and RED in both forms, every active lane aligned and its access made: each lane in ascending order replaces what it reads
by the operation's value, and ATOM and ATOML write the old value to their destination (R191). The new value of an integer atomic on 32
bits (R191). It rests on the model's choices of log 22. -/
def Obligations.AtomicsReplace : Prop :=
  (∀ (s : State) (c : Iss) (h : Hd) (x : WAtom) (l : BitVec 60),
     let replaces (i : Instr) (w : Where) (red : Bool) (lit : Option (BitVec 60)) : Prop := Ready i s c →
       let b := begun i s
       let g := b.group c.place
       let n := tyBits x.ty / 8
       let ea := laneAddr (w == .loc) g c.slot h.b x.ub x.off lit
       let src := fun (q : BitVec 9) (l : Nat) => srcLane g c.slot l (tyRegs x.ty) (.v q.toNat)
       let r := runLanes b (lanes c.act) (fun l => lsAccess w c kAtomic n (ea l) (some (fun old =>
         leBytes n (atomVal (bits h.mod 0 3).toNat x.ty (BitVec.ofNat 64 (leVal old)) (src h.c l) (src h.d l)).toNat)))
       (∀ l ∈ lanes c.act, (ea l).toNat % n = 0) → r.faults = [] → r.wait = none → r.absent = false → r.s.settled = true →
       ∃ s2, Completes i s c s2 ∧ s2.mem = r.s.mem ∧
         (red = false → ∀ p ∈ r.got, ∀ j < n / 4, (s2.group c.place).finalV (h.a.toNat + j) p.1 = BitVec.ofNat 32 (leVal p.2 / 2 ^ (32 * j)))
     replaces (.atom h x) .gen false none ∧ replaces (.atom5w h x l) .gen false (some l) ∧ replaces (.atoml h x) .loc false none ∧
     replaces (.atoml5w h x l) .loc false (some l) ∧ replaces (.red h x) .gen true none ∧ replaces (.red5w h x l) .gen true (some l)) ∧
  (∀ (old b c : Word),
     lo32 (atomVal 0 .n32 (zx old) (zx b) (zx c)) = old + b ∧
     lo32 (atomVal 1 .n32 (zx old) (zx b) (zx c)) = (if b < old then b else old) ∧
     lo32 (atomVal 1 .i32 (zx old) (zx b) (zx c)) = (if b.slt old then b else old) ∧
     lo32 (atomVal 2 .n32 (zx old) (zx b) (zx c)) = (if old < b then b else old) ∧
     lo32 (atomVal 2 .i32 (zx old) (zx b) (zx c)) = (if old.slt b then b else old) ∧
     lo32 (atomVal 3 .n32 (zx old) (zx b) (zx c)) = old &&& b ∧ lo32 (atomVal 4 .n32 (zx old) (zx b) (zx c)) = old ||| b ∧
     lo32 (atomVal 5 .n32 (zx old) (zx b) (zx c)) = old ^^^ b ∧ lo32 (atomVal 6 .n32 (zx old) (zx b) (zx c)) = b ∧
     lo32 (atomVal 7 .n32 (zx old) (zx b) (zx c)) = (if old = b then c else old))

/-- One lane's access to local memory outside every stash window (R175): within the allocation it reads the bytes there and a write
outside every queue area of a live stream replaces exactly those; beyond it it faults PAGE_PROT of class 0x2 and reads and writes
nothing. One lane's access to generic addresses (R172 to R174): the self window is the same access to local memory; an address of a
reserved region, of the aperture in user mode, or of the cluster window in a team of no cluster faults PAGE_PROT; LDC's access faults so
outside translated memory (R190). One lane's access to translated memory (R212): with a leaf that allows it, with no stash window live
and the hot-page tracker off, it reads the bytes at the translation, and a write replaces exactly those; a leaf that does not allow it
faults PAGE_PROT, an absent page PAGE_ABSENT, and a read of a line with an uncorrectable error ENGINE_ERROR (R422); a page that is DEAD
reads as zeros whatever its frame holds (R223). It rests on the model's choices of log 1, 2, 21, 38, 127. -/
def Obligations.LaneAccesses : Prop :=
  (∀ (s : State) (c : Iss) (kind n : Nat) (ea : DWord) (f : Option (List Byte → List Byte)), classOf c.op = 2 →
     let t := s.team (s.group c.place).team
     let k := localKey t.core (t.base + ea.toNat)
     (ea.toNat + n ≤ t.size → windowAt t ea.toNat = none →
       ∃ u, lsAccess .loc c kind n ea f s = .ok (s.bytesAt k n) u ∧
         (f = none → u = s) ∧
         (∀ g, f = some g → (g (s.bytesAt k n)).length = n → (∀ x ∈ t.streams, x.2.touched ea.toNat n = []) →
           (∀ i, i < n → u.byteAt (k + i) = (g (s.bytesAt k n)).getD i 0) ∧ (∀ j, j < k ∨ k + n ≤ j → u.byteAt j = s.byteAt j))) ∧
     (t.size < ea.toNat + n → ∃ fi, lsAccess .loc c kind n ea f s = .fault fi ∧ fi.code = 0x2011 ∧ fi.addr = ea)) ∧
  (∀ (s : State) (c : Iss) (kind n : Nat) (ea : DWord) (f : Option (List Byte → List Byte)), classOf c.op = 2 →
     let prot : Prop := ∃ fi, lsAccess .gen c kind n ea f s = .fault fi ∧ fi.code = 0x2011 ∧ fi.addr = ea
     (0x00F8000000000000 ≤ ea.toNat → ea.toNat < 0x00F8000000200000 →
       lsAccess .gen c kind n ea f s =
         locAccess s 2 kind (s.group c.place).team (ea.toNat - 0x00F8000000000000) n ea f) ∧
     (0x00F0000000000000 ≤ ea.toNat → ea.toNat < 0x00F0000010000000 → c.sup = false → prot) ∧
     (0x00F0000010000000 ≤ ea.toNat → ea.toNat < 0x00F8000000000000 → prot) ∧
     (0x00F8000000200000 ≤ ea.toNat → ea.toNat < 0x00F8000001A00000 → (s.team (s.group c.place).team).clu = none → prot) ∧
     (0x00F8000001A00000 ≤ ea.toNat → prot) ∧
     (ea.toNat < 0x00F0000000000000 → lsAccess .const c kind n ea f s = lsAccess .gen c kind n ea f s) ∧
     (0x00F0000000000000 ≤ ea.toNat → ∃ fi, lsAccess .const c kind n ea f s = .fault fi ∧ fi.code = 0x2011 ∧ fi.addr = ea)) ∧
  (∀ (s : State) (c : Iss) (kind n : Nat) (ea : DWord) (f : Option (List Byte → List Byte)), classOf c.op = 2 →
     ea.toNat + n ≤ 0x00F0000000000000 → ea.toNat < 0x00F0000000000000 →
     let d := (s.ctx (s.group c.place).page).d
     let need : Need := if f.isSome then .w else .r
     d.hoten = false → walkSnoop s d ea.toNat need = (true, s) →
     (∀ k e base units, translate s d ea.toNat need = .ok k e base units → f = none → deadNow s d ea.toNat e = false → s.badAt k n = true →
       ∃ fi, lsAccess .gen c kind n ea f s = .fault fi ∧ fi.code = 0x20F0 ∧ fi.addr = ea) ∧
     (∀ k e base units, translate s d ea.toNat need = .ok k e base units → f = none → deadNow s d ea.toNat e = true →
       (∀ t ∈ s.teams, t.2.windows = []) →
       ∃ u, lsAccess .gen c kind n ea f s = .ok (List.replicate n 0) u ∧ (∀ j, u.byteAt j = s.byteAt j) ∧ u.out = s.out) ∧
     (∀ k e base units, translate s d ea.toNat need = .ok k e base units → bit e pteDead = false → s.badAt k n = false →
       (∀ t ∈ s.teams, t.2.windows = []) →
       ∃ u, lsAccess .gen c kind n ea f s = .ok (s.bytesAt k n) u ∧
         (f = none → ∀ j, u.byteAt j = s.byteAt j) ∧
         (∀ g, f = some g → (g (s.bytesAt k n)).length = n →
           (∀ i, i < n → u.byteAt (k + i) = (g (s.bytesAt k n)).getD i 0) ∧ (∀ j, j < k ∨ k + n ≤ j → u.byteAt j = s.byteAt j))) ∧
     (translate s d ea.toNat need = .prot → ∃ fi, lsAccess .gen c kind n ea f s = .fault fi ∧ fi.code = 0x2011 ∧ fi.addr = ea) ∧
     (∀ first, translate s d ea.toNat need = .absentPage first →
       ∃ fi, lsAccess .gen c kind n ea f s = .fault fi ∧ fi.code = 0x2010 ∧ fi.addr = ea ∧ fi.first = first))

/-- A load, store or atomic, in every form, with a misaligned active lane in user mode, ALIGN's handler enabled: ALIGN for exactly the
misaligned lanes, at the lowest one's address, REPLAY 0, and memory untouched (R129, R196); here for an issue that is no replay. It rests
on the model's choices of log 19. -/
def Obligations.MisalignedTrapsAlign : Prop :=
  ∀ (s : State) (c : Iss) (h : Hd) (x : WMem) (y : WAtom) (m : BitVec 60),
    let traps (i : Instr) (w : Where) (n : Nat) (ub : Bool) (off : BitVec 20) (lit : Option (BitVec 60)) : Prop :=
      Ready i s c → c.sup = false → c.act = c.full → handles s c 10 = true →
      let ea := laneAddr (w == .loc) ((begun i s).group c.place) c.slot h.b ub off lit
      let bad := (lanes c.act).filter (fun l => (ea l).toNat % n != 0)
      ∀ l, bad.head? = some l →
        ∃ t, exec i s = .next t ∧ inHandler c s t 0x2012 (ea l) (maskOfList bad) 0 c.pc false ∧ t.mem = s.mem ∧ t.undef = s.undef
    let mem (i j : Instr) (w : Where) : Prop :=
      traps i w (bytesOfSize x.size.toNat) x.ub x.off none ∧ traps j w (bytesOfSize x.size.toNat) x.ub x.off (some m)
    let atom (i j : Instr) (w : Where) : Prop :=
      traps i w (tyBits y.ty / 8) y.ub y.off none ∧ traps j w (tyBits y.ty / 8) y.ub y.off (some m)
    mem (.ld h x) (.ld5w h x m) .gen ∧ mem (.st h x) (.st5w h x m) .gen ∧ mem (.ldl h x) (.ldl5w h x m) .loc ∧
    mem (.stl h x) (.stl5w h x m) .loc ∧ mem (.ldc h x) (.ldc5w h x m) .const ∧ mem (.lda h x) (.lda5w h x m) .gen ∧
    mem (.strel h x) (.strel5w h x m) .gen ∧ atom (.atom h y) (.atom5w h y m) .gen ∧ atom (.atoml h y) (.atoml5w h y m) .loc ∧
    atom (.red h y) (.red5w h y m) .gen

/-! ### Stash windows and the map unit -/

/-- STASHMAP whose checks pass sets its window live with every line Invalid (R194). STASHUNMAP, STASHSYNC and STASHINV of a live window,
and STASHSYNC.all (R195): the first two once every write-back has been made; STASHUNMAP leaves no window, STASHSYNC what the write-backs
leave, and STASHINV a window of Invalid lines with no byte of memory changed. It rests on the model's choices of log 41, 42. -/
def Obligations.StashWindowsSync : Prop :=
  (∀ (h : Hd) (x : WStash) (s : State) (c : Iss), Ready (.stashmap h x) s c →
     let g := (begun (.stashmap h x) s).group c.place
     let t := s.team g.team
     let loff := (g.rs c.slot h.b.toNat).toNat
     let gbase := g.rs64 c.slot h.c.toNat
     let size := (g.rs c.slot h.d.toNat).toNat
     loff % 256 = 0 → size % 256 = 0 → gbase.toNat % 256 = 0 → size ≠ 0 → loff + size ≤ t.size →
     gbase.toNat + size ≤ 0x00F0000000000000 → ffind t.windows x.win.toNat = none → stashOverlap t loff size gbase.toNat = false →
     ∃ s2, Completes (.stashmap h x) s c s2 ∧
       ffind (s2.team g.team).windows x.win.toNat = some { rw := x.flag, loff := loff, size := size, gbase := gbase, lines := [] } ∧
       ∀ j, (j < localKey t.core (t.base + loff) ∨ localKey t.core (t.base + loff) + size ≤ j) → s2.byteAt j = s.byteAt j) ∧
  (∀ (h : Hd) (x : WStash) (s : State) (c : Iss) (w : Window),
     let tid := (s.group c.place).team
     let t := s.team tid
     ffind t.windows x.win.toNat = some w →
     (Ready (.stashunmap h x) s c →
       let r := syncLines (begun (.stashunmap h x) s) tid c.act (linesOf t x.win.toNat)
       r.faults = [] → r.absent = false → r.s.settled = true →
       ∃ s2, Completes (.stashunmap h x) s c s2 ∧ ffind (s2.team tid).windows x.win.toNat = none) ∧
     (Ready (.stashsync h x) s c →
       let r := syncLines (begun (.stashsync h x) s) tid c.act
         (if x.flag then t.windows.flatMap (fun w => linesOf t w.1) else linesOf t x.win.toNat)
       r.faults = [] → r.absent = false → r.s.settled = true → Completes (.stashsync h x) s c r.s) ∧
     (Ready (.stashinv h x) s c → ∃ s2, Completes (.stashinv h x) s c s2 ∧
       ffind (s2.team tid).windows x.win.toNat = some { w with lines := [] } ∧ ∀ j, s2.byteAt j = s.byteAt j))

/-- A write-back (R181): with a translation that allows it, no tracker, and a page that is not DEAD, the dirty bytes of the local copy go
to the global line and no other byte changes; the line keeps its state with an empty mask. The events of stash lines and of L2 (R179 to
R181, R186): a fill that can be made brings the line in, Owned in a read-write window; a write-back that can be made is the state it
leaves; a recall or a remote write makes the line Invalid, an Owned one after the write-back of its dirty bytes, and a remote read makes
an Owned line Shared after it; a device line goes to the slice that the event names. It rests on the model's choices of log 39. -/
def Obligations.StashLineEvents : Prop :=
  (∀ (s : State) (tid win ln : Nat) (t : Team) (w : Window) (l : Line) (k : Nat) (e : DWord) (base units : Nat),
     ffind s.teams tid = some t → ffind t.windows win = some w → ffind w.lines ln = some l → l.owned = true → l.dirty ≠ 0 →
     (s.ctx t.page).d.hoten = false → bit e pteDead = false → k + 256 ≤ 2 ^ 64 →
     translate s (s.ctx t.page).d (lineVa w ln).toNat .w = .ok k e base units →
     let lo := localKey t.core (t.base + w.loff + 256 * ln)
     ∃ u, tryWriteBack s tid win ln = .done u ∧ lineOf u tid win ln = some { l with dirty := 0, key := k } ∧
       (∀ i, i < 256 → u.byteAt (k + i) = if bit l.dirty i then s.byteAt (lo + i) else s.byteAt (k + i)) ∧
       ∀ j, j < k ∨ k + 256 ≤ j → u.byteAt j = s.byteAt j) ∧
  (∀ (s : State) (team win line : Nat) (w : Window) (l : Line), s.settled = true → ffind (s.team team).windows win = some w →
     (256 * line < w.size → ffind w.lines line = none → ∀ u, fillLine s 2 team win line = .ok () u → u.settled = true →
       exec (.stashFill team win line) s = .next u ∧ ∃ k, lineOf u team win line = some k ∧ k.owned = w.rw ∧ k.dirty = 0) ∧
     (∀ u, tryWriteBack s team win line = .done u → u.settled = true → exec (.stashWriteBack team win line) s = .next u) ∧
     (lineOf s team win line = some l → l.owned = false →
       (∃ t, exec (.l2Recall team win line) s = .next t ∧ lineOf t team win line = none) ∧
       (∃ t, exec (.remoteLineRequest true team win line) s = .next t ∧ lineOf t team win line = none)) ∧
     (lineOf s team win line = some l → l.owned = true → ∀ u, tryWriteBack s team win line = .done u → u.settled = true →
       (∃ t, exec (.l2Recall team win line) s = .next t ∧ lineOf t team win line = none ∧ t.mem = u.mem) ∧
       (∃ t, exec (.remoteLineRequest true team win line) s = .next t ∧ lineOf t team win line = none ∧ t.mem = u.mem) ∧
       (∃ t k, exec (.remoteLineRequest false team win line) s = .next t ∧ lineOf t team win line = some k ∧ k.owned = false ∧ k.dirty = 0 ∧
         t.mem = u.mem)) ∧
     (∀ n slice, n < 2 ^ 31 → ∃ t, exec (.lineMigration n slice) s = .next t ∧ fget t.forward n (homeSlice (256 * n)).toNat = slice.toNat))

/-- DISCARD (R222) of no page has no effect; of one 64 KiB page whose leaf has W and DISC, with no stash window live, it sets DEAD in the
leaf and drops its cached translation, after which reads of the page are zeros. PGHINT (R228): no effect for an empty range or one
outside the translated region; otherwise a hint record is posted. PGMAP.fwd posts the handler's fault as a record and keeps its ticket;
TLBINV, with no stash line of the context in the range and no quantiser operation of it writing, removes every cached translation of the
context in it; the expiry of a tracker window clears the counts (R220, R226, R229). It rests on the model's choices of log 44, 45, 46,
51. -/
def Obligations.MapUnitServices : Prop :=
  (∀ (h : Hd) (s : State) (c : Iss), Ready (.discard h) s c →
     let b := begun (.discard h) s
     let g := b.group c.place
     let base := g.rs64 c.slot h.b.toNat
     let n := (g.rs c.slot h.c.toNat).toNat
     let d := (s.ctx g.page).d
     (n = 0 → Completes (.discard h) s c b) ∧
     (∀ k e, n = 1 → base.toNat % 65536 = 0 → base.toNat + 65536 ≤ 0x00F0000000000000 → walk b d base.toNat = .leaf 0 k e →
       bit e pteW = true → bit e pteDisc = true → anyWindow s = false → b.gone k = false → b.gone (k + 7) = false →
       ∃ s2, Completes (.discard h) s c s2 ∧ s2.dwordAtKey k = e ||| 0x800 ∧ tlbFind s2 d.asid base.toNat = none) ∧
     ∀ (va lv k e : _) (key m : Nat), bit e pteDead = true → walk s d va = .leaf lv k e → leafBytes s d va e key m = List.replicate m 0) ∧
  (∀ (h : Hd) (x : WHint) (s : State) (c : Iss), Ready (.pghint h x) s c →
     let b := begun (.pghint h x) s
     let g := b.group c.place
     let base := g.rs64 c.slot h.b.toNat
     let n := (g.rs c.slot h.c.toNat).toNat
     (n = 0 ∨ 0x00F0000000000000 < base.toNat + 65536 * n → Completes (.pghint h x) s c b) ∧
     (n ≠ 0 → base.toNat + 65536 * n ≤ 0x00F0000000000000 →
       let u := postHint b g.page (hintRec b c.place c.pc base n x.kind.toNat x.prio.toNat)
       u.settled = true → Completes (.pghint h x) s c u)) ∧
  (∀ (h : Hd) (s : State) (c : Iss),
     (Ready (.pgmapFwd h) s c →
       let b := begun (.pgmapFwd h) s
       let g := b.group c.place
       let r : FRec := { recOf b c.place g.h.epc with code := g.h.ecause, kind := g.h.kind, va := g.h.eaddr, mask := g.h.emask,
                                                      flags := flFwd ||| flLast }
       let p := postWaiting b g.page r false (some c.place) none none
       p.2.settled = true → ∃ s2, Completes (.pgmapFwd h) s c s2 ∧ (s2.group c.place).fwd = g.fwd ++ [p.1] ∧ s2.mem = p.2.mem) ∧
     (Ready (.tlbinv h) s c →
       let g := (begun (.tlbinv h) s).group c.place
       let base := g.rs64 c.slot h.b.toNat
       let n := (g.rs c.slot h.c.toNat).toNat
       let asid := (s.ctx g.page).d.asid
       (bit h.mod 0 = true → base.toNat % 65536 = 0) → linesIn s g.page none = [] → quantWrites s g.page = false →
       ∃ s2, Completes (.tlbinv h) s c s2 ∧ (bit h.mod 0 = false → ∀ va, tlbFind s2 asid va = none) ∧
         (bit h.mod 0 = true → ∀ va, base.toNat ≤ va → va < base.toNat + 65536 * n → tlbFind s2 asid va = none)) ∧
     (s.settled = true → s.sys.hotwin < s.sys.fab / 2 ^ 20 →
       ∃ t, exec .hotWindowExpiry s = .next t ∧ t.hot = [] ∧ t.sys.hotwin = s.sys.fab / 2 ^ 20))

/-- PGPOOL.get and PGPOOL.put with no stash window live and the pool in device memory in service (R219, R220): an empty pool gives false,
and so does a put into a full one; otherwise get takes the frame at HEAD and advances HEAD, and put stores the frame below HEAD and
lowers it. PGMAP of an entry with V and LEAF and no bit that R220 forbids, with no stash window live (R220): status 1 where a leaf is, 2
where the walk stops above the last level, and 0 where it stops at the last level, whose entry is then written, the frame zeroed first
under .zero. It rests on the model's choices of log 47. -/
def Obligations.PagesInstalled : Prop :=
  (∀ (h : Hd) (s : State) (c : Iss), anyWindow s = false → h.c.toNat ≠ 3 →
     let d := (s.ctx (s.group c.place).page).d
     let head := s.wordAtKey d.poolhdr.toNat
     let tail := s.wordAtKey (d.poolhdr.toNat + 4)
     s.gone d.poolhdr.toNat = false → s.gone (d.poolhdr.toNat + 3) = false → d.poolsize ≠ 0 →
     (Ready (.pgpoolGet h) s c →
       (tail = head → ∃ s2, Completes (.pgpoolGet h) s c s2 ∧ (s2.group c.place).finalK h.c.toNat = false) ∧
       (tail ≠ head → s.gone (poolKey d head) = false → frameOk (s.dwordAtKey (poolKey d head)) = true →
         ∃ s2, Completes (.pgpoolGet h) s c s2 ∧ (s2.group c.place).finalK h.c.toNat = true ∧
           (s2.group c.place).finalS h.a.toNat = lo32 (s.dwordAtKey (poolKey d head)) ∧
           (s2.group c.place).finalS (h.a.toNat + 1) = hi32 (s.dwordAtKey (poolKey d head)) ∧
           s2.wordAtKey d.poolhdr.toNat = head + 1)) ∧
     (Ready (.pgpoolPut h) s c →
       let e := ((begun (.pgpoolPut h) s).group c.place).rs64 c.slot h.b.toNat
       let k := poolKey d (head - 1)
       ((tail - head).toNat = d.poolsize → ∃ s2, Completes (.pgpoolPut h) s c s2 ∧ (s2.group c.place).finalK h.c.toNat = false) ∧
       ((tail - head).toNat ≠ d.poolsize → frameOk e = true → s.gone k = false → s.gone (k + 7) = false →
         ∃ s2, Completes (.pgpoolPut h) s c s2 ∧ (s2.group c.place).finalK h.c.toNat = true ∧ s2.dwordAtKey k = e ∧
           s2.wordAtKey d.poolhdr.toNat = head - 1))) ∧
  (∀ (h : Hd) (s : State) (c : Iss), Ready (.pgmap h) s c → anyWindow s = false →
     let b := begun (.pgmap h) s
     let g := b.group c.place
     let va := g.rs64 c.slot h.b.toNat
     let e := g.rs64 c.slot h.c.toNat
     let d := (s.ctx g.page).d
     bit e 0 = true → bit e 1 = true → bits e 52 12 = 0 → bits e 9 7 = 0 →
     (∀ lv k o, walk b d va.toNat = .leaf lv k o → ∃ s2, Completes (.pgmap h) s c s2 ∧ (s2.group c.place).finalS h.a.toNat = 1) ∧
     (∀ lv k o, lv ≠ 0 → walk b d va.toNat = .invalid lv k o → ∃ s2, Completes (.pgmap h) s c s2 ∧ (s2.group c.place).finalS h.a.toNat = 2) ∧
     (∀ k o, walk b d va.toNat = .invalid 0 k o → s.gone k = false → s.gone (k + 7) = false → s.gone (ptePa e) = false →
       (bit h.mod 0 = true → k + 8 ≤ ptePa e ∨ ptePa e + 65536 ≤ k) →
       ∃ s2, Completes (.pgmap h) s c s2 ∧ (s2.group c.place).finalS h.a.toNat = 0 ∧ s2.dwordAtKey k = e ∧
         (bit h.mod 0 = true → ∀ i, i < 65536 → s2.byteAt (ptePa e + i) = 0)))

/-! ### The copy engine -/

/-- CPY, CPY2D and CPYS that pass the checks of R257, name no slot whose invalidation waits, and find room are accepted with both copy
classes, and registered at their slot (R20, R237, R239, R254, R255). It rests on the model's choices of log 56. -/
def Obligations.CopiesAccepted : Prop :=
  ∀ (h : Hd) (x : WCpy) (s : State) (c : Iss),
    let accepted (i : Instr) (a : CopyArgs) : Prop := Ready i s c →
      let b := begun i s
      copyFault (s.team (s.group c.place).team) a (registerAt b c x.rep (x.slot.toNat, x.cl, x.cpos.toNat)
        (fun sl => (sl.kind == 1 && x.cbit == 0) ||
          (sl.kind == 2 && decide (x.cbit.toNat + chunksOf (a.rows * a.rowBytes) ≤ sl.expect)))).isSome = none →
      freeSlot b c x.rep (x.slot.toNat, x.cl, x.cpos.toNat) → slotRoom b c [0, 1] = none →
      Accepts i s c [0, 1] (.copy { src := a.src, srcLocal := a.srcLocal, dst := a.dst, dstLocal := a.dstLocal, rows := a.rows,
                                    rowBytes := a.rowBytes, spitch := a.spitch, dpitch := a.dpitch, zws := a.zws, bound := a.bound,
                                    scope := x.scope, rep := x.rep, cbit := x.cbit.toNat, finished := [], held := [], zoff := [0],
                                    rem := none, late := [] }) ∧
      Registers i s c x.rep (x.slot.toNat, x.cl, x.cpos.toNat)
    let g (i : Instr) := (begun i s).group c.place
    let q (i : Instr) (n : Nat) := ((g i).rs c.slot n).toNat
    accepted (.cpy h x) { src := (g (.cpy h x)).rs64 c.slot h.b.toNat, srcLocal := false, dst := copyDst h (g (.cpy h x)) c.slot,
                          dstLocal := bit h.mod 1, rows := 1, rowBytes := q (.cpy h x) h.c.toNat, spitch := 0, dpitch := 0,
                          zws := bit h.mod 0, bound := if bit h.mod 0 then q (.cpy h x) h.d.toNat else 0 } ∧
    accepted (.cpy2d h x) { src := (g (.cpy2d h x)).rs64 c.slot h.b.toNat, srcLocal := false, dst := copyDst h (g (.cpy2d h x)) c.slot,
                            dstLocal := bit h.mod 1, rows := q (.cpy2d h x) h.c.toNat, rowBytes := q (.cpy2d h x) (h.c.toNat + 1),
                            spitch := q (.cpy2d h x) (h.c.toNat + 2), dpitch := q (.cpy2d h x) (h.c.toNat + 3), zws := false, bound := 0 } ∧
    accepted (.cpys h x) { src := zx ((g (.cpys h x)).rs c.slot h.b.toNat), srcLocal := true, dst := (g (.cpys h x)).rs64 c.slot h.a.toNat,
                           dstLocal := false, rows := 1, rowBytes := q (.cpys h x) h.c.toNat, spitch := 0, dpitch := 0, zws := false,
                           bound := 0 }

/-- The events of a copy in a running context that is not stopped (R258 to R260, R266): a chunk whose source can be read and destination
translates is held, and the last one completes copy-read; a held chunk that can be written is finished, and the last one completes
copy-visible; a chunk that meets a translation fault stops the copy on a first touch and is handed to Skesunal otherwise. Once the driver
has answered, the remainder service reads ahead in ascending order while the next chunk can be read, and otherwise moves the lowest chunk
that it can (R266). Skesunal answers a part whose page has been filled meanwhile, leaves one whose entry is no longer a CFILL entry to
the driver, and otherwise fills the page (R221): in a package without a stash window the frame that the pool's HEAD names receives the
page that the image holds, HEAD advances, the entry becomes a valid leaf of that frame with ATTR, and the record is posted and its part
answered; a reserved bit in the descriptor, a short image or an empty pool leaves the part waiting for the driver with its record posted.
It rests on the model's choices of log 53, 57, 58, 59, 134, 135. -/
def Obligations.CopiesProgress : Prop :=
  (∀ (s : State) (id i : Nat) (o : Op) (c : CopyOp), s.settled = true → copyOf s id = some (o, c) → opRuns s o = true → o.stop = none →
     o.id = id → c.rem = none →
     (∀ b next u, c.unread i = true → readChunk (o.eng s 5) c i s = .ok b next u → u.settled = true → u.ops = s.ops →
       ∃ t o' c', exec (.copyChunkDone id i) s = .next t ∧ copyOf t id = some (o', c') ∧ c'.held = c.held ++ [(i, b)] ∧
         c'.finished = c.finished ∧ t.mem = u.mem ∧ (c'.allRead = true → 0 ∈ o.todo → 0 ∈ o'.ripe)) ∧
     (∀ b u, c.held.find? (fun h => h.1 == i) = some (i, b) → writeChunk (o.eng s 5) c i b s = .ok () u → u.ops = s.ops → o.reg = none →
       u.settled = true →
       ∃ t o' c', exec (.copyChunkDone id i) s = .next t ∧ copyOf t id = some (o', c') ∧ c'.finished = c.finished ++ [i] ∧
         t.mem = u.mem ∧ (c'.finished.length = c'.chunks → 1 ∈ o.todo → 1 ∈ o'.ripe)) ∧
     (∀ f, moveChunk s o c i false = .fault f → causeOf f.code ≠ cEngine →
       (f.first = true → opOrphan s o = false → ∃ t o', exec (.copyFault id i) s = .next t ∧ opById t id = some o' ∧
         o'.stop = some { faults := [f], sent := false, tickets := [] }) ∧
       (f.first = false → (handOff s o f).settled = true → ∃ t o' c' n, exec (.copyFault id i) s = .next t ∧ copyOf t id = some (o', c') ∧
         c'.rem = some (n, false) ∧ o'.stop = none))) ∧
  (∀ (s : State), s.settled = true →
     (∀ id o c n, copyOf s id = some (o, c) → opRuns s o = true → c.rem = some (n, true) →
       let next := (List.range c.chunks).find? c.unread
       let read := (List.range c.chunks).find? (fun i => c.held.any (fun h => h.1 == i))
       let moves (i : Nat) : Prop := ∀ u, moveChunk s o c i true = .done u → u.settled = true → exec (.remainderChunk id) s = .next u
       (∀ i b z v, next = some i → readChunk (o.eng s 5) c i s = .ok b z v → moves i) ∧
       (∀ i, next = some i → read = none → moves i) ∧
       (∀ i k, next = some i → read = some k → (∀ b z v, readChunk (o.eng s 5) c i s ≠ .ok b z v) → moves (min i k)) ∧
       (∀ k, next = none → read = some k → moves k)) ∧
     (∀ page seq p, (s.ctx page).waiting.find? (fun p => p.ticket == seq.toNat && p.frec.seq == 0 && p.frec.flags &&& flCfill != 0) = some p →
       (∀ lv k e, walk s (s.ctx page).d p.frec.va.toNat = .leaf lv k e →
         let u := answerPart (postRec s page p.frec).2 page p
         u.settled = true → exec (.cfillService page seq) s = .next u) ∧
       (∀ lv k e, walk s (s.ctx page).d p.frec.va.toNat = .invalid lv k e → bit e pteCfill = false ∨ bit e ptePool = true →
         (leaveToDriver s page p).settled = true → exec (.cfillService page seq) s = .next (leaveToDriver s page p)) ∧
       (∀ lv k e, walk s (s.ctx page).d p.frec.va.toNat = .invalid lv k e → bit e pteCfill = true → bit e ptePool = false →
         s.gone ((bits e 12 46).toNat * 64) = false → (fillPage s page p lv k ((bits e 12 46).toNat * 64)).settled = true →
         exec (.cfillService page seq) s = .next (fillPage s page p lv k ((bits e 12 46).toNat * 64)) ∧
         (anyWindow s = false →
           let desc := (bits e 12 46).toNat * 64
           let d := (s.ctx page).d
           let b := viewBytes s desc 64
           let attr := wordAt b 0x0C
           let span := 2 ^ levelShift lv
           let image := unpackImage s (dwordAt b 0).toNat (wordAt b 8).toNat (span / 512) 0
           let t := fillPage s page p lv k desc
           ((attr &&& ~~~0x1C#32 ≠ 0 ∨ (∃ x ∈ b.drop 0x10, x ≠ 0) ∨ image = none ∨ takeFrame s d span = none) →
             Posts s t page p.frec ∧ t.groups = s.groups ∧ t.ops = s.ops ∧
             ∃ q ∈ (t.ctx page).waiting, q = { p with frec := { p.frec with seq := (s.ctx page).seq } }) ∧
           (∀ img frame head, attr &&& ~~~0x1C#32 = 0 → (∀ x ∈ b.drop 0x10, x = 0) → lv < 3 → image = some img →
             takeFrame s d span = some (frame, head) → frameOk frame = true →
             let u := ((s.setBytes d.poolhdr.toNat (leBytes 4 (head + 1).toNat)).setBytes frame.toNat img).setBytes k
               (leBytes 8 (frame ||| attr.setWidth 64 ||| 3#64).toNat)
             let w := (postRec u page p.frec).2
             img.length = span ∧ (∀ i, i < span → frame.toNat + i < k ∨ k + 8 ≤ frame.toNat + i → u.byteAt (frame.toNat + i) = img.getD i 0) ∧
             u.bytesAt k 8 = leBytes 8 (frame ||| attr.setWidth 64 ||| 3#64).toNat ∧ Posts u w page p.frec ∧ t = answerPart w page p ∧
             (∀ pl x g, p.place = some pl → p.op = none → p.line = none → ffind s.groups pl = some g → g.fwd = [] → g.park = some x →
               x.tickets = [p.ticket] → x.dead = false → x.svret = false → x.op = none → x.stream = none →
               (t.group pl).park = none ∧ ∀ q ∈ (t.ctx page).waiting, q.ticket ≠ p.ticket))))))

/-- PFX of a legal range in a queue with room adds its entry, PFXCANCEL removes the entries of its tag, or all with .all, of its context
and core, and a line of the first entry moves it on: an earlier line leaves the entry at its next line, the last one takes it out of the
queue, and the first page that is skipped posts the entry's hint (R269 to R272). It rests on the model's choices of log 61. -/
def Obligations.PrefetchQueue : Prop :=
  ∀ (s : State) (c : Iss),
    (∀ h x, Ready (.pfx h x) s c →
      let b := begun (.pfx h x) s
      let g := b.group c.place
      let base := g.rs64 c.slot h.b.toNat
      let len := (g.rs c.slot h.c.toNat).toNat
      len ≠ 0 → len ≤ 2 ^ 24 → base.toNat + len ≤ 0x00F0000000000000 → (b.pfx.filter (fun p => p.core == g.core)).length < 64 →
      ∃ s2 p, Completes (.pfx h x) s c s2 ∧ s2.pfx = (prunePfx b).pfx ++ [p] ∧ p.core = g.core ∧ p.page = g.page ∧ p.base = base ∧ p.len = len ∧
        p.next = 0 ∧ p.prio = x.prio.toNat ∧ p.tag = (g.rs c.slot h.d.toNat).setWidth 16) ∧
    (∀ h, Ready (.pfxcancel h) s c →
      let g := (begun (.pfxcancel h) s).group c.place
      ∃ s2, Completes (.pfxcancel h) s c s2 ∧ s2.mem = s.mem ∧
        ∀ p, p ∈ s2.pfx ↔ p ∈ s.pfx ∧ ¬ (p.core = g.core ∧ p.page = g.page ∧ (bit h.mod 0 = true ∨ p.tag = (g.rs c.slot h.b.toNat).setWidth 16))) ∧
    (∀ core p l, s.settled = true → copyBusy (prunePfx s) core = false → pfxOrder (prunePfx s) core = p :: l →
      let b := prunePfx s
      let first := p.base.toNat / 256
      let last := (p.base.toNat + p.len - 1) / 256
      let skip := pfxSkips b (b.ctx p.page).d (256 * (first + p.next))
      let moved (q : List Pfx) : Prop :=
        if first + p.next < last then
          ∃ l1 l2, b.pfx = l1 ++ p :: l2 ∧ p ∉ l1 ∧ q = l1 ++ { p with next := p.next + 1, hint := if skip then none else p.hint } :: l2
        else q = b.pfx.erase p
      (p.hint = none ∨ skip = false → ∃ t, exec (.prefetchLine core) s = .next t ∧ moved t.pfx ∧ t.mem = s.mem) ∧
      (∀ r, p.hint = some r → skip = true → ∃ q, moved q ∧
        let u := postHint { b with pfx := q } p.page r
        u.settled = true → exec (.prefetchLine core) s = .next u))

/-! ### The access processor -/

/-- AGATH and ASCAT whose registration and alignment pass (R279) and that find room are accepted with the access class, the lanes'
indices and data as read at issue, and registered at their slot (R20, R237). APREPLAY in a handler entered for a stopped operation
(R292): DONE and the active mask, and with .give the named lanes given up; for a held entry its delivered positions and those that it
has. Streams (R284 to R288): APSTART that passes its checks makes the stream its descriptor describes; APPOP gives fill values after the
last entry, a ready entry's values, and otherwise waits; APPUSH with room is accepted; APSTAT packs R287's fields; APSTOP stops the
stream. It rests on the model's choices of log 17, 62, 65, 67. -/
def Obligations.AccessInstructions : Prop :=
  (∀ (h : Hd) (x : WAg) (s : State) (c : Iss),
     let accepted (i : Instr) (gather : Bool) : Prop := Ready i s c →
       let b := begun i s
       let d := directOf h x gather (b.group c.place) c
       (registerAt b c x.rep (x.slot.toNat, x.cl, x.cpos.toNat) (fun sl => sl.kind == 1)).isSome = true → misLanes d = [] →
       freeSlot b c x.rep (x.slot.toNat, x.cl, x.cpos.toNat) → slotRoom b c [2] = none →
       Accepts i s c [2] (.direct d) ∧ Registers i s c x.rep (x.slot.toNat, x.cl, x.cpos.toNat)
     accepted (.agath h x) true ∧ accepted (.ascat h x) false) ∧
  (∀ (h : Hd) (s : State) (c : Iss) (id : Nat) (o : Op) (d : DirectOp), Ready (.apreplay h) s c → (s.group c.place).h.slot ≠ none →
     (s.group c.place).h.op = some id → directAt (begun (.apreplay h) s) id = some (o, d) →
     let give := ((begun (.apreplay h) s).group c.place).rs c.slot h.b.toNat
     ∃ s2 o' d', Completes (.apreplay h) s c s2 ∧ (s2.group c.place).finalS h.a.toNat = d.done ∧
       (s2.group c.place).finalS (h.a.toNat + 1) = d.active ∧ directAt s2 id = some (o', d') ∧
       d'.done = (if bit h.mod 0 then d.done ||| (give &&& d.active) else d.done)) ∧
  (∀ (h : Hd) (s : State) (c : Iss) (n : Nat) (st : Stream) (e : SEntry), Ready (.apreplay h) s c →
     let x := (s.group c.place).h
     x.slot ≠ none → x.op = none → x.stream = some n → streamAt s (s.group c.place).team n = some st → st.sid = x.sid →
     st.entries.find? (fun e => e.n == x.entry) = some e →
     ∃ s2, Completes (.apreplay h) s c s2 ∧ (s2.group c.place).finalS h.a.toNat = e.del ∧ (s2.group c.place).finalS (h.a.toNat + 1) = x.pos) ∧
  (∀ (h : Hd) (x : WAp) (s : State) (c : Iss),
     let tid := (s.group c.place).team
     let n := x.snum.toNat
     (Ready (.apstart h x) s c →
       let b := begun (.apstart h x) s
       let off := ((b.group c.place).rs c.slot h.b.toNat).toNat
       ∀ bs u, off % 64 = 0 → locAccess b 6 kEngRead tid off 64 (BitVec.ofNat 64 off) none = .ok bs u →
       let st := streamOf bs
       st.qoff + st.area ≤ (s.team tid).size → hitsWindow (s.team tid) st.qoff st.area = false → streamOk bs st = true →
       ffind (s.team tid).streams n = none → contextsUsed s (s.group c.place).core < 8 → longerStalled b c 2 = false → u.settled = true →
       ∃ s2 k, Completes (.apstart h x) s c s2 ∧ streamAt s2 tid n = some { st with sid := k }) ∧
     (Ready (.appop h x) s c → ∀ st, liveStream s c x false = some st →
       let writes (s2 : State) (ok flt : Mask) (word : Nat → Nat → Word) : Prop := ∀ l ∈ lanes c.act,
         (h.c ≠ 7 → h.c ≠ h.d → (s2.group c.place).heldP h.c.toNat l = bit ok l) ∧
         (h.d ≠ 7 → (s2.group c.place).heldP h.d.toNat l = bit flt l) ∧
         ∀ j < sizeRegs st.size, fget (s2.group c.place).v (32 * (h.a.toNat + j) + l) 0 = word l j
       (takeEntry st = none → ∃ s2, Completes (.appop h x) s c s2 ∧ writes s2 0 0 (fun _ _ => st.fill)) ∧
       (∀ k st' e, takeEntry st = some (k, st') → st.entries.find? (fun e => e.n == k && e.ready) = some e →
         st'.isSpoilt k = false →
         ∃ s2, Completes (.appop h x) s c s2 ∧ writes s2 e.ok e.flt (fun l j =>
           if bit e.ok l then loadWord st.size (leBytes (sizeBytes st.size) ((ffind e.data l).getD 0).toNat) j else st.fill)) ∧
       (∀ k st', takeEntry st = some (k, st') → st.entries.find? (fun e => e.n == k && e.ready) = none →
         ∃ s2 a, Completes (.appop h x) s c s2 ∧ s2.fragOf c = some a ∧ a.wait = some (.appop n k h.a.toNat h.c.toNat h.d.toNat c.act (begun (.appop h x) s).serial))) ∧
     (Ready (.appush h x) s c → ∀ st, liveStream s c x true = some st → pushed s tid n < st.qdepth →
       slotRoom (begun (.appush h x) s) c [2] = none →
       ∃ d, Accepts (.appush h x) s c [2] (.direct d) ∧ d.entry = some (n, st.taken) ∧ d.active = c.act ∧ d.size = st.size ∧ d.base = st.base) ∧
     (Ready (.apstat h x) s c → ∃ s2, Completes (.apstat h x) s c s2 ∧
       let w := (s2.group c.place).finalS h.a.toNat
       (streamAt s tid n = none → w = 0) ∧
       (∀ st, streamAt s tid n = some st → st.state < 4 → st.qdepth < 16 → (st.entries.filter (fun e => e.ready)).length < 16 →
         (bits w 30 2).toNat = st.state ∧ bit w 29 = st.scatter ∧ (bits w 0 24).toNat = (st.taken - st.back.length) % 2 ^ 24 ∧
         (bits w 24 4).toNat = (if st.scatter then st.qdepth - pushed s tid n else (st.entries.filter (fun e => e.ready)).length))) ∧
     (Ready (.apstop h x) s c → ∃ s2, Completes (.apstop h x) s c s2 ∧ ∀ st, streamAt s2 tid n = some st → st.state = 3))

/-- The events of the access processor (R279, R284, R288 to R290): a lane that is out of bounds or has no element is finished with the
fill value, one whose element is accessed leaves the memory that access leaves; an operation all of whose unfinished lanes have faulted
stops with its faults in the order of the lanes; a gather stream's next entry becomes ready, or holds at a fault; a stopped stream
without entries frees its context. It rests on the model's choices of log 62, 63, 64, 65. -/
def Obligations.AccessEvents : Prop :=
  ∀ (s : State), s.settled = true →
    (∀ id lane o d, directAt s id = some (o, d) → opRuns s o = true → o.stop = none → o.todo ≠ [] → d.entry = none → d.full = false →
      bit d.active lane = true → bit d.done lane = false → d.faulted.any (fun f => f.1 == lane) = false →
      let u := laneMove s o d lane
      (u.settled = true → ∃ t, exec (.accessElementDone id lane) s = .next t ∧ t.mem = u.mem ∧ t.groups = u.groups ∧ t.ops = u.ops) ∧
      (d.cls lane = .none ∨ d.cls lane = .oob → ∃ o' d', directAt u id = some (o', d') ∧ bit d'.done lane = true ∧
        ∀ g, ffind s.groups o.place = some g → g.ended = false → d.gather = true → ∀ j < sizeRegs d.size, bit (fget d.vskip (d.vd + j) 0) lane = false →
          fget (u.group o.place).v (32 * (d.vd + j) + lane) 0 = d.fill) ∧
      (∀ ea b v, d.cls lane = .access ea →
        elemAccess (o.eng s 6) ea d.es (if d.gather then none else some (leBytes d.es ((ffind d.data lane).getD 0).toNat))
          (fun i => storedAbove s o d lane (plus ea i)) (bit d.lower lane) s = .ok b v →
        u.mem = v.mem ∧ ∀ g, ffind v.groups o.place = some g → g.ended = false → d.gather = true → ∀ j < sizeRegs d.size,
          bit (fget d.vskip (d.vd + j) 0) lane = false → fget (u.group o.place).v (32 * (d.vd + j) + lane) 0 = loadWord d.size b j)) ∧
    (∀ id o d, directAt s id = some (o, d) → opRuns s o = true → o.stop = none → d.faulted ≠ [] →
      d.active &&& ~~~d.done &&& ~~~maskOfList (d.faulted.map (fun f => f.1)) = 0 →
      ∃ t o' st, exec (.accessOperationStop id) s = .next t ∧ opById t id = some o' ∧ o'.stop = some st ∧ st.sent = false ∧
        st.faults.map (fun f => (f.code, f.mask, f.addr)) =
          (sortBy (fun a b => decide (a.1 ≤ b.1)) d.faulted).map (fun f => (f.2.code, f.2.mask, f.2.addr))) ∧
    (∀ team n x new r, streamRun s team n = some (x, new, r) → r.absent = false → r.wait = none →
      (ffind r.s.teams team).isSome = true →
      (r.e.held = [] → r.e.ready = true ∧
        let v := setStream r.s team n (putEntry x new r.e)
        streamAt v team n = some (putEntry x new r.e) ∧ Occurs (.streamEntryReady team n) s (servePop v team n r.e.n)) ∧
      (r.e.held ≠ [] → r.s.settled = true → ∃ t y, exec (.streamFaultHold team n) s = .next t ∧ streamAt t team n = some y ∧ y.state = 2)) ∧
    (∀ team n t x, ffind s.teams team = some t → ffind t.streams n = some x → x.state = 3 → pushed s team n = 0 →
      ∃ u, exec (.streamContextFree team n) s = .next u ∧ streamAt u team n = none)

/-! ### The matrix engine and the quantiser -/

/-- Matrix operations that pass R310's checks and find room are accepted with the matrix class; ACCST is registered at its slot (R309 to
R320). MMA and MMAS carry what their descriptors in local memory say. MSTAT (R296, R321): bits 1 and 0 are the tile's NAN and INF;
without an unfinished operation on the tile every other bit is 0. It rests on the model's choices of log 70, 72. -/
def Obligations.MatrixAccepted : Prop :=
  (∀ (s : State) (c : Iss) (h : Hd),
     let g (i : Instr) := (begun i s).group c.place
     let v (i : Instr) (n : Nat) := (g i).rs c.slot n
     let room (i : Instr) : Prop := Ready i s c ∧ slotRoom (begun i s) c [3] = none
     let tid := (s.group c.place).team
     (room (.mzero h) → Accepts (.mzero h) s c [3] (.matrix h.a.toNat .mzero)) ∧
     (room (.mld h) →
       let base := (g (.mld h)).rs64 c.slot h.b.toNat
       base.toNat % 16 = 0 → rangeThere s tid base 2048 = true → Accepts (.mld h) s c [3] (.matrix 0 (.mld h.a.toNat base))) ∧
     (∀ x, room (.accrd h x) →
       let p := v (.accrd h x) h.c.toNat
       bit p 7 = false → bits p 10 22 = 0 →
       Accepts (.accrd h x) s c [3] (.matrix h.b.toNat
         (.accrd h.a.toNat (bits p 0 7).toNat (bits p 8 2).toNat (bit h.mod 0) x.ty x.rnd x.sat x.wide))) ∧
     (∀ x, room (.accwr h x) →
       let p := v (.accwr h x) h.c.toNat
       bit p 7 = false → bits p 10 22 = 0 →
       Accepts (.accwr h x) s c [3] (.matrix h.a.toNat (.accwr (bits p 0 7).toNat (bits p 8 2).toNat (bit h.mod 0) (bit h.mod 1)
         ((List.range 32).map (fun l => (accSource (g (.accwr h x)) c.slot h.b.toNat x l).1))))) ∧
     (∀ x, room (.accst h x) →
       let base := (g (.accst h x)).rs64 c.slot h.b.toNat
       let pitch := (v (.accst h x) h.c.toNat).toNat
       let r := v (.accst h x) h.d.toNat
       let es := accSize x.ty x.wide x.pad
       bit r 7 = false → bits r 15 17 = 0 → (bits r 0 7).toNat + (bits r 8 7).toNat + 1 ≤ 128 → 128 * es ≤ pitch →
       (registerAt (begun (.accst h x) s) c x.rep (x.slot.toNat, x.cl, x.cpos.toNat) (fun sl => sl.kind == 1)).isSome = true →
       freeSlot (begun (.accst h x) s) c x.rep (x.slot.toNat, x.cl, x.cpos.toNat) →
       base.toNat % (if es = 12 then 4 else es) = 0 → pitch % (if es = 12 then 4 else es) = 0 →
       (∀ i, i ≤ (bits r 8 7).toNat → rangeThere s tid (plus base (i * pitch)) (128 * es) = true) →
       Accepts (.accst h x) s c [3] (.matrix h.a.toNat (.accst base (bits r 0 7).toNat ((bits r 8 7).toNat + 1) pitch x.ty x.rnd x.sat x.wide
         x.pad x.scope x.rep 0)) ∧ Registers (.accst h x) s c x.rep (x.slot.toNat, x.cl, x.cpos.toNat)) ∧
     (∀ x sparse i, (i = .mma h x ∧ sparse = false) ∨ (i = .mmas h x ∧ sparse = true) → room i →
       let sh := v i h.d.toNat
       let offA := (v i h.b.toNat).toNat
       let offB := (v i h.c.toNat).toNat
       let k := (bits sh 0 5).toNat + 1
       let m := (bits sh 8 7).toNat + 1
       let n := (bits sh 16 7).toNat + 1
       bits sh 23 9 = 0 → bit sh 15 = false → bits sh 5 3 = 0 → (sparse = true → k = 1) → offA % 32 = 0 → offB % 32 = 0 →
       offA + 32 ≤ (s.team tid).size → offB + 32 ≤ (s.team tid).size →
       ∀ a u b w, locAccess (begun i s) 7 kEngRead tid offA 32 (BitVec.ofNat 64 offA) none = .ok a u →
         locAccess u 7 kEngRead tid offB 32 (BitVec.ofNat 64 offB) none = .ok b w → w.settled = true → w.ops = (begun i s).ops →
         w.groups = (begun i s).groups → slotRoom w c [3] = none →
         tileFits a (tileOf a) x.aty false k = true → tileFits b (tileOf b) x.bty true k = true → tileAligned (tileOf a) = true →
         tileAligned (tileOf b) = true → tileThere s tid (tileOf a) false m k = true → tileThere s tid (tileOf b) true n k = true →
         Accepts i s c [3] (.matrix h.a.toNat (.mma (tileOf a) (tileOf b) m n k sparse x.pat (bits h.mod 3 3).toNat (bits h.mod 0 3).toNat 0)))) ∧
  (∀ (h : Hd) (s : State) (c : Iss), Ready (.mstat h) s c → ∃ s2, Completes (.mstat h) s c s2 ∧
     let w := (s2.group c.place).finalS h.a.toNat
     let tid := (s.group c.place).team
     let x := (s.team tid).tile h.b.toNat
     (onTile s tid h.b.toNat = [] → w = BitVec.ofNat 32 (2 * natOf x.nan + natOf x.inf)) ∧
     (onTile s tid h.b.toNat ≠ [] → bit w 1 = x.nan ∧ bit w 0 = x.inf))

/-- The completion of matrix operations that may act (R305, R313 to R324): MZERO empties its tile; ACCWR puts what R317 gives; ACCRD
writes the converted elements; a segment of MMA adds to every element at once what R97 gives from the operands' elements, scales and
outliers, an element of a NaN keeping it, quiet (R98); sums and products of finite values there are exact, and Round64 is to the nearest
of 64 bits, ties to even; MLD inverts its image into the register; ACCST stores a row; a fault stops the operation. The last act of each
completes its class. It rests on the model's choices of log 53, 71, 72, 73. -/
def Obligations.MatrixEvents : Prop :=
  (∀ (sx sy : Bool) (m n : Nat) (e k : Int),
    let x := Machine.Num.fin sx m e
    let y := Machine.Num.fin sy n k
    (mulExact x y).rat = x.rat * y.rat ∧ (addExact x y).rat = x.rat + y.rat ∧
    ∃ z j, round64 x = .fin sx z j ∧ z ≤ 2 ^ 64 ∧ |x.rat - (round64 x).rat| * 2 ≤ (2 : ℚ) ^ j ∧
      (|x.rat - (round64 x).rat| * 2 = (2 : ℚ) ^ j → z % 2 = 0)) ∧
  (∀ (s : State) (id : Nat) (o : Op) (tile : Nat) (m : MatKind), s.settled = true → matAt s id = some (o, tile, m) →
    (ffind s.teams o.team).isSome = true →
    let x := (s.team o.team).tile tile
    let ripe (t : State) : Prop := ∃ o', opById t id = some o' ∧ (3 ∈ o.todo → 3 ∈ o'.ripe)
    (m = .mzero → ∃ t, exec (.mzeroDone id) s = .next t ∧ (t.team o.team).tile tile = Tile.zero ∧ ripe t) ∧
    (∀ pos qtr col add vals, m = .accwr pos qtr col add vals → ∃ t, exec (.accwrDone id) s = .next t ∧ ripe t ∧
      (t.team o.team).tile tile = x.put (((List.range 32).zip vals).map (fun p => (elemNo pos qtr col p.1,
        if add then BitVec.ofNat 96 (fAdd .acc .rn false (accVal (fget x.el (elemNo pos qtr col p.1) 0)) (accVal p.2)).1 else p.2)))) ∧
    (∀ vd pos qtr col ty rnd sat wide g, m = .accrd vd pos qtr col ty rnd sat wide → ffind s.groups o.place = some g → g.ended = false →
      ∃ t, exec (.accrdDone id) s = .next t ∧ ripe t ∧ ∀ l < 32, ∀ j < accRegs ty wide, fget (t.group o.place).v (32 * (vd + j) + l) 0 =
        BitVec.ofNat 32 ((accOut o ty rnd sat wide (fget x.el (elemNo pos qtr col l) 0)).1 / 2 ^ (32 * j))) ∧
    (∀ a b mm n k sp pat ma mb prog l u, m = .mma a b mm n k sp pat ma mb prog → segAttempt s o tile a b mm n prog sp pat ma mb = .ok l u →
      u.settled = true → u.teams = s.teams → u.ops = s.ops → ∃ t, exec (.mmaSegmentDone id) s = .next t ∧
        (t.team o.team).tile tile = x.put l ∧ (prog + 1 = k → ripe t) ∧
        let ga := absentBy (s.team o.team) (sp && bit pat 0) ma
        let gb := absentBy (s.team o.team) (sp && bit pat 1) mb
        ∀ xa v xb w, readSide (o.eng s 7) a false mm prog ga s = .ok xa v → readSide (o.eng s 7) b true n prog gb v = .ok xb w →
        ∀ i j, i < mm → j < n → n ≤ 128 →
          let code (y : Side) (r q : Nat) : Nat := (y.el.getD r []).getD q 0
          let elem (ty : Ty) (c : Nat) : Machine.Num := ((fmOf ty).value false c).1
          let there (q : Nat) : Bool := !ga i q && !gb j q
          let escA (q : Nat) : Bool := isEscape a.fmt (code xa i q)
          let escB (q : Nat) : Bool := isEscape b.fmt (code xb j q)
          let ea (q : Nat) : Nat := (xa.micro.getD i []).getD q 0
          let eb (q : Nat) : Nat := (xb.micro.getD j []).getD q 0
          let scaled (c : Machine.Num) (z : Nat) : Machine.Num := if z = 0xFF then .cnan else scaleBy c ((z : Int) - 127)
          let out (l : List DWord) (r q : Nat) : Machine.Num :=
            ((l.find? (fun z => bit z 63 && (bits z 39 7).toNat == r && (bits z 32 7).toNat == q)).map (fun z => f32Val (lo32 z))).getD .cnan
          let term (q : Nat) : Machine.Num :=
            if ea q = 0xFF ∨ eb q = 0xFF then .cnan
            else match ((rangeFrom (4 * q) 4).filter (fun y => there y && !escA y && !escB y)).map
                (fun y => mulExact (elem a.fmt (code xa i y)) (elem b.fmt (code xb j y))) with
              | [] => .zero
              | z :: zs => scaleBy (zs.foldl addExact z) ((ea q : Int) + eb q - 254)
          let dense := (treeFold (fun y z => round64 (addExact y z)) 5 ((List.range 32).map term)).getD .zero
          let sum := ((List.range 128).filter (fun q => there q && (escA q || escB q))).foldl (fun acc q => round64 (addExact acc (mulExact
            (if escA q then out (xa.lists.getD i []) i q else scaled (elem a.fmt (code xa i q)) (ea (q / 4)))
            (if escB q then out (xb.lists.getD 0 []) j q else scaled (elem b.fmt (code xb j q)) (eb (q / 4)))))) dense
          let p := accRound (mulExact sum (mulExact (f32Val (xa.macros.getD i 0)) (f32Val (xb.macros.getD 0 0))))
          let old := fget x.el (128 * i + j) 0
          fget ((t.team o.team).tile tile).el (128 * i + j) 0 =
            if accNan old then old ||| (1#96 <<< 79) else accRound (addExact (accVal old) (accVal p))) ∧
    (∀ reg addr b u, m = .mld reg addr → engRead (o.eng s 7) false kEngRead addr 2048 s = .ok b u → u.settled = true → u.teams = s.teams →
      u.ops = s.ops → ∃ t, exec (.mldDone id) s = .next t ∧ ripe t ∧
        ∀ i < 16384, bit (fget (t.team o.team).metan reg 0) i = !(leVal b).testBit i) ∧
    (∀ base row0 n pitch ty rnd sat wide pad scope rep rows u, m = .accst base row0 n pitch ty rnd sat wide pad scope rep rows →
      engWrite (o.eng s 7) false kEngWrite (plus base (rows * pitch)) (rowBytes o x (row0 + rows) ty rnd sat wide pad).1 s = .ok () u →
      u.settled = true → u.ops = s.ops → o.reg = none → ∃ t, exec (.accstRowDone id) s = .next t ∧ t.mem = u.mem ∧
        (rows + 1 = n → ripe t)) ∧
    (∀ f, matFaultOf s o tile m = some f → causeOf f.code ≠ cEngine →
      ∃ t o', exec (.matrixFault id) s = .next t ∧ opById t id = some o' ∧ o'.stop = some { faults := [f], sent := false, tickets := [] }))

/-- The quantiser (R328 to R344): an instruction whose descriptor passes R341 and finds room is accepted with the quantiser class; an
operation that may act and whose attempt succeeds leaves what the attempt wrote, the writes of each of its units, and completes; a fault
stops it. What a unit writes: QHIST the counts of R330; QCLIP the clip record of R331; QPACK the macro-scale, the status word, the
micro-scales and the elected elements of R332 and R333; QOLST the status word of R338; QRST zeros (R339). It rests on the model's choices
of log 74, 75, 76. -/
def Obligations.QuantiserOperates : Prop :=
  ∀ (s : State),
    (∀ (h : Hd) (x : WQ) (c : Iss) (i : Instr) (clip tile lists : Bool),
      (i = .qhist h x ∧ clip = false ∧ tile = false ∧ lists = false) ∨ (i = .qclip h x ∧ clip = true ∧ tile = true ∧ lists = false) ∨
      (i = .qpack h x ∧ clip = false ∧ tile = true ∧ lists = true) ∨ (i = .qolst h x ∧ clip = false ∧ tile = true ∧ lists = false) ∨
      (i = .qrst h x ∧ clip = false ∧ tile = false ∧ lists = false) → Ready i s c →
      let b := begun i s
      let tid := (s.group c.place).team
      let off := ((b.group c.place).rs c.slot h.b.toNat).toNat
      off % 64 = 0 → off + 64 ≤ (s.team tid).size →
      ∀ by_ tb u w, locAccess b 8 kEngRead tid off 64 (BitVec.ofNat 64 off) none = .ok by_ u → w.settled = true → w.ops = b.ops →
      w.groups = b.groups → slotRoom w c [4] = none →
      let d := qdescOf by_
      qdescOk by_ d clip = true →
      (tile = true → d.toff % 32 = 0 ∧ d.toff + 32 ≤ (s.team tid).size ∧
        locAccess u 8 kEngRead tid d.toff 32 (BitVec.ofNat 64 d.toff) none = .ok tb w ∧ qtileOk tb d (tileOf tb) = true) →
      (tile = false → tb = [] ∧ w = u) → qAligned d (tileOf tb) tile lists = true →
      (∀ q : QuantOp, q.code = c.op.toNat → q.d = d → q.td = tileOf tb → q.acc = x.acc → q.strict = x.strict → (qRanges q).all (qRangeOk s tid) = true) →
      ∃ q, Accepts i s c [4] (.quant q) ∧ q.code = c.op.toNat ∧ q.d = d ∧ q.td = tileOf tb ∧ q.strict = x.strict ∧ q.acc = x.acc) ∧
    (∀ id o q, s.settled = true → quantAt s id = some (o, q) →
      (∀ w f u, quantAttempt s o q = .ok (.out w f) u → u.settled = true → u.ops = s.ops →
        ∃ t o', exec (.quantOpDone id) s = .next t ∧ t.mem = u.mem ∧ opById t id = some o' ∧ (4 ∈ o.todo → 4 ∈ o'.ripe) ∧
          o'.flags = o.flags ||| f ∧
          let tm := s.team o.team
          (anyWindow s = false → tm.streams = [] → (s.ctx o.page).d.hoten = false → ∀ y ∈ w, y.1 = true →
            (∀ z ∈ w, z = y ∨ (z.1 = true ∧ (z.2.1.toNat + z.2.2.length ≤ y.2.1.toNat ∨ y.2.1.toNat + y.2.2.length ≤ z.2.1.toNat))) →
            t.bytesAt (localKey tm.core (tm.base + y.2.1.toNat)) y.2.2.length = y.2.2) ∧
          ∀ un < q.d.units, ∃ st st' ws fl, quantUnit (o.eng s 8) q un st = .ok (.out ws fl) st' ∧ (∀ y ∈ ws, y ∈ w) ∧
            (anyWindow s = false → tm.streams = [] → (s.ctx o.page).d.hoten = false → st.mem = s.mem)) ∧
      (∀ f, quantAttempt s o q = .fault f → causeOf f.code ≠ cEngine →
        ∃ t o' st, exec (.quantFault id) s = .next t ∧ opById t id = some o' ∧ o'.stop = some st ∧
          st.faults.map (fun y => (y.code, y.addr)) = [(f.code, f.addr)]) ∧
      (∀ unit n u, quantAttempt s o q = .ok (.overflow unit n) u →
        ∃ t o' st, exec (.quantFault id) s = .next t ∧ opById t id = some o' ∧ o'.stop = some st ∧
          st.faults.map (fun y => y.code) = [codeOf 8 cOutOverflow])) ∧
    (∀ (e : Eng) (q : QuantOp) (un : Nat) (st st' : State) (ws : List (Bool × DWord × List Byte)) (fl : Flags),
      quantUnit e q un st = .ok (.out ws fl) st' →
      let d := q.d
      let at_ (b : List Byte) (off n : Nat) : Nat := leVal ((b.drop off).take n)
      let codes (ls : List (Nat × List Byte)) : List Nat := ls.flatMap (fun l => (List.range 128).map (fun k =>
        if d.bf16 then 65536 * at_ l.2 (2 * k) 2 else at_ l.2 (4 * k) 4))
      let mag (c : Nat) : Nat := c % 2 ^ 31
      -- QHIST: the saturating counts of the unit's elements by exponent, of its zeros and of its NaNs
      (q.code = 0xD8 → ∀ ls v old v', readLines e d un (128 * d.ses) d.line st = .ok ls v →
        (if q.acc then engRead e true kEngRead (d.block un) 576 v = .ok old v' else old = List.replicate 576 0) →
        ∃ bs, ws = [(true, d.block un, bs)] ∧ bs.length = 576 ∧
          (∀ x < 256, at_ bs (2 * x) 2 = min 0xFFFF (at_ old (2 * x) 2 +
            ((codes ls).filter (fun c => decide (mag c / 2 ^ 23 = x ∧ mag c ≠ 0 ∧ mag c ≤ 0x7F800000))).length)) ∧
          at_ bs 0x200 2 = min 0xFFFF (at_ old 0x200 2 + ((codes ls).filter (fun c => decide (mag c = 0))).length) ∧
          at_ bs 0x202 2 = min 0xFFFF (at_ old 0x202 2 + ((codes ls).filter (fun c => decide (0x7F800000 < mag c))).length) ∧
          bs.drop 0x204 = List.replicate 60 0) ∧
      -- QCLIP: the least exponent up to which PCT 1,024ths of the finite elements lie, and the macro-scale of it
      (q.code = 0xD9 → 1 ≤ d.pct → d.pct ≤ 1024 → ∀ b v, engRead e true kEngRead (d.block un) 576 st = .ok b v →
        let upTo (x : Nat) : Nat := ((List.range (x + 1)).map (fun y => at_ b (2 * y) 2)).sum
        ∃ bs, ws = [(true, d.clip un, bs)] ∧ bs.length = 8 ∧
          (upTo 254 = 0 → at_ bs 0 4 = 0x100 ∧ at_ bs 4 4 = 0x3F800000) ∧
          (upTo 254 ≠ 0 → ∃ ce < 255, at_ bs 0 4 = ce ∧ d.pct * upTo 254 ≤ 1024 * upTo ce ∧ (∀ x < ce, 1024 * upTo x < d.pct * upTo 254) ∧
            (f32Val (BitVec.ofNat 32 (at_ bs 4 4))).rat = (2 : ℚ) ^ (max ((ce : Int) - 126 - ebOf q.td.fmt) (-126)))) ∧
      -- QPACK: the status word, the macro-scale, every micro-scale of a block without a candidate, the codes of elected positions
      (q.code = 0xDA → [Ty.e4m3, .e5m2, .e2m1].contains q.td.fmt = true → q.td.ocap ≤ 256 →
        ∀ cb v cl ls v', engRead e true kEngRead (d.clip un) 8 st = .ok cb v → clipOf cb = some cl →
        readLines e d un (128 * d.ses) d.line v = .ok ls v' →
        let code (l k : Nat) : Nat := (lineCodes d ((ls.find? (fun x => x.1 == l)).elim [] (fun x => x.2))).getD k 0
        let cand (l k : Nat) : Prop := (mag (code l k) ≤ 0x7F800000 ∧ cl.ce < mag (code l k) / 2 ^ 23) ∨
          (q.td.fmt = .e2m1 ∧ 0x7F800000 < mag (code l k))
        let n := (candidates q.td.fmt cl.ce (ls.flatMap (fun l => (List.range 128).map (fun k => ⟨l.1, k, code l.1 k⟩)))).length
        (false, q.td.macroAddr d.sideB un d.seg, leBytes 4 cl.ma) ∈ ws ∧
        (∃ w : Word, (true, d.status un, leBytes 4 w.toNat) ∈ ws ∧ (bits w 0 16).toNat = min n q.td.ocap ∧ bit w 30 = decide (q.td.ocap < n) ∧
          (bit w 31 = true ↔ ∃ c ∈ codes ls, 0x7F800000 < mag c) ∧ (bit w 28 = true ↔ ∀ c ∈ codes ls, mag c = 0) ∧ bit w 27 = cl.empty) ∧
        ∀ l ∈ d.linesOf un, ∃ row elems, (false, q.td.microAddr l d.seg, row) ∈ ws ∧
          (false, q.td.elemAddr l d.seg, codeBytes q.td.fmt elems) ∈ ws ∧ elems.length = 128 ∧
          (∀ k < 128, cand l k → n ≤ q.td.ocap → elems.getD k 0 = escapeOf q.td.fmt) ∧
          ∀ b < 32, (∀ k, 4 * b ≤ k → k < 4 * b + 4 → ¬ cand l k ∧ mag (code l k) ≤ 0x7F800000) →
            let ea := (row.getD b 0).toNat
            let size (k : Nat) : ℚ := |(f32Val (BitVec.ofNat 32 (code l k))).rat|
            let top (z : Int) : ℚ := (fmaxOf q.td.fmt).rat * (f32Val (BitVec.ofNat 32 cl.ma)).rat * (2 : ℚ) ^ z
            ((∀ k, 4 * b ≤ k → k < 4 * b + 4 → size k = 0) → ea = 127) ∧
            ((∃ k, 4 * b ≤ k ∧ k < 4 * b + 4 ∧ size k ≠ 0) → ea ≤ 254 ∧
              (ea < 254 → ∀ k, 4 * b ≤ k → k < 4 * b + 4 → size k ≤ top ((ea : Int) - 127)) ∧
              (0 < ea → ∃ k, 4 * b ≤ k ∧ k < 4 * b + 4 ∧ top ((ea : Int) - 128) < size k))) ∧
      -- QOLST: how many entries are valid, how many escapes there are, whether the lists fit the elements
      (q.code = 0xDB → d.lines ≤ 128 → q.td.ocount ≤ 256 → ∀ ls v b v', readLines e d un (lineBytes q.td.fmt) (fun l => q.td.elemAddr l d.seg) st = .ok ls v →
        (if q.td.ocount = 0 then b = [] else engRead e false kEngRead (q.td.listAddr d.sideB un d.seg) (8 * q.td.ocount) v = .ok b v') →
        let ent (i : Nat) : DWord := dwordAt b (8 * i)
        let esc (x : Nat × List Byte) : List Nat := (List.range 128).filter (fun k => isEscape q.td.fmt ((elemCodes q.td.fmt x.2).getD k 0))
        let isEsc (l k : Nat) : Bool := ls.any (fun x => x.1 == l && (esc x).contains k)
        ∃ w : Word, ws = [(true, d.status un, leBytes 4 w.toNat)] ∧
          (bits w 0 9).toNat = ((List.range q.td.ocount).filter (fun i => bit (ent i) 63)).length ∧
          (bits w 16 15).toNat = (ls.map (fun x => (esc x).length)).sum ∧ bits w 9 7 = 0 ∧
          (bit w 31 = true ↔ (∃ x ∈ ls, ∃ k ∈ esc x, ∀ i < q.td.ocount, ¬ (bit (ent i) 63 = true ∧ (bits (ent i) 39 7).toNat = x.1 ∧ (bits (ent i) 32 7).toNat = k)) ∨
            listFailures (if d.sideB then none else some un) 128 isEsc ((List.range q.td.ocount).map ent) ≠ [])) ∧
      -- QRST: the block and the status word cleared
      (q.code = 0xDC → ws = [(true, d.block un, List.replicate 576 0), (true, d.status un, List.replicate 4 0)]))

/-! ### Asynchronous faults, answers and retirement -/

/-- Stopped operations and streams (R28 to R30): a fault of disposition Handler enters the handler of the fragment that holds its lowest
live lane, here one that waits for nothing, with the PC of the next issue in EPC, and delivers that fragment's faulting lanes, all 32 of
a collective operation; one of disposition Park parks the group; Terminate ends the context. Of an ended group: the records of a page
fault alone, a copy's chunks going to Skesunal, and the end of the context for another fault of a collective operation. A held stream's
fault reaches the APPOP that waits for the entry (R290): the handler's EMASK is its lanes and EPC its PC, or the group parks, and the
APPOP is to issue again; in supervisor mode it ends the context (R130). A completed class of an operation retires once older ones have:
its counter falls by one, and with the last class the operation's slot is free; it comes before the instructions of its cycle (R18, R20,
R21, R85). It rests on the model's choices of log 17, 18, 50, 78, 79, 125. -/
def Obligations.AsynchronousFaultsReach : Prop :=
  (∀ (s : State) (place : Nat) (g : Group), s.settled = true → ffind s.groups place = some g →
     let ends (page : Nat) : Prop := (s.ctx page).state = 2 ∨ (s.ctx page).state = 3 → ∀ t, exec (.asyncFaultDelivery place) s = .next t →
       (t.ctx page).state = 6
     (∀ o st f, nextStopped s place = some (o, st) → st.faults = [f] → o.place = place → o.page = g.page → opById s o.id = some o →
       let d := (s.ctx g.page).d
       (g.ended = true →
         let pageFault : Prop := f.code.toNat % 4096 = 0x010 ∨ f.code.toNat % 4096 = 0x011
         let waits (t : State) (p : Pending) : Prop := p ∈ (t.ctx o.page).waiting ∧ p.op = some o.id ∧ p.frec.code = f.code ∧
           p.frec.va = f.addr ∧ p.frec.mask = f.mask ∧ p.frec.parts = 1
         ((copyOf s o.id).isNone = true → pageFault → ∃ t o' st' p, exec (.asyncFaultDelivery place) s = .next t ∧ opById t o.id = some o' ∧
           o'.stop = some st' ∧ st'.faults = [f] ∧ st'.sent = true ∧ st'.tickets = [p.ticket] ∧ waits t p) ∧
         ((copyOf s o.id).isSome = true → pageFault → ∃ t o' c p, exec (.asyncFaultDelivery place) s = .next t ∧
           copyOf t o.id = some (o', c) ∧ o'.stop = none ∧ c.rem = some (p.ticket, false) ∧ p ∈ (t.ctx o.page).waiting ∧
           p.op = some o.id ∧ p.frec.code = f.code ∧ p.frec.va = f.addr) ∧
         (¬ pageFault → o.collective = true → ends o.page)) ∧
       (atBoundary s g = true → heldPop s g = none → f.mask &&& ~~~g.exited ≠ 0 →
         (∀ slot x, dispOf d f.code f.first = .handler → g.frag slot = some x → x.only = none → x.wait = none →
           slotHolding g (if o.collective then ((g.frag 0).map (fun y => y.mask)).getD 0 ||| ((g.frag 1).map (fun y => y.mask)).getD 0
             else f.mask &&& ~~~g.exited) = some slot →
           ∃ t a, exec (.asyncFaultDelivery place) s = .next t ∧ (t.group place).frag slot = some a ∧ a.pc = d.hndbase ∧ a.sup = true ∧
             a.mask = (if o.collective then 0xFFFFFFFF else f.mask &&& ~~~g.exited &&& x.mask) ∧
             (t.group place).h.emask = a.mask ∧ (t.group place).h.ecause = f.code ∧ (t.group place).h.eaddr = f.addr ∧
             (t.group place).h.epc = (if g.yw.map (fun y => y.slot) = some slot then (g.yw.map (fun y => y.pc)).getD 0 else x.pc) ∧
             (t.group place).h.efrag = x.mask ∧ (t.group place).h.op = some o.id ∧
             (t.group place).h.replay = false) ∧
         (dispOf d f.code f.first = .park →
           let u := parkAsync s place o.pc (some o.id) none [f]
           u.settled = true → exec (.asyncFaultDelivery place) s = .next u ∧ (u.group place).park.isSome = true) ∧
         (dispOf d f.code f.first = .terminate → ends o.page))) ∧
     (∀ slot snum entry m f x, nextStopped s place = none → heldPop s g = some (slot, snum, entry, m, [f]) → g.frag slot = some x →
       let disp := dispOf (s.ctx g.page).d f.code f.first
       let back (t : State) : Prop := ∃ y, streamAt t g.team snum = some y ∧ entry ∈ y.back
       (g.h.slot ≠ none → ends g.page) ∧
       (g.h.slot = none → disp = .terminate → ends g.page) ∧
       (g.h.slot = none → disp = .handler → ∃ t a, exec (.asyncFaultDelivery place) s = .next t ∧ back t ∧
         (t.group place).frag slot = some a ∧ a.pc = (s.ctx g.page).d.hndbase ∧ a.sup = true ∧ a.mask = m ∧
         (t.group place).h.emask = m ∧ (t.group place).h.ecause = f.code ∧ (t.group place).h.eaddr = f.addr ∧
         (t.group place).h.epc = x.pc - 12 ∧ (t.group place).h.stream = some snum ∧ (t.group place).h.entry = entry) ∧
       (g.h.slot = none → disp = .park → ∃ t a, exec (.asyncFaultDelivery place) s = .next t ∧ back t ∧
         (t.group place).park.isSome = true ∧ (t.group place).frag slot = some a ∧ a.wait = none ∧ a.pc = x.pc - 12))) ∧
  (∀ (s : State) (id cls : Nat) (o : Op) (g : Group), s.settled = true → opById s id = some o → cls ∈ o.ripe → olderOpen s o cls = false →
     coreIssued s o.core = false →
     (cls = 1 → 0 ∉ o.todo ∧ 0 ∉ o.ripe) → ffind s.groups o.place = some g → g.ended = false →
     ∃ t, exec (.operationRetire id cls) s = .next t ∧ fget (t.group o.place).cnt cls 0 = fget g.cnt cls 0 - 1 ∧
       (t.group o.place).fstat = g.fstat ||| o.flags ∧
       (o.todo = [] → (∀ k ∈ o.ripe, k = cls) → opById t id = none))

/-- The driver's answers and the records (R216 to R218, R224, R230, R250, R251, R427): a resume lets go of a group parked for that one
part, and ends the claims that the driver requested from the record; a terminate and an expired barrier watchdog end the context, the
watchdog after the instructions of its cycle; a held record is posted when there is space, unless a stash line that holds the queue
refuses its write-back, that of a halted context after its restore. It rests on the model's choices of log 49, 50, 79, 126. -/
def Obligations.RecordsAreAnswered : Prop :=
  ∀ (s : State), s.settled = true →
    (∀ page seq p, unanswered s page seq = some p →
      (let u := endRecordClaims (answerPart s page p) page seq
       u.settled = true → exec (.frespResume page seq) s = .next u ∧
        ∀ pl k g, p.place = some pl → p.op = none → p.line = none → ffind s.groups pl = some g → g.fwd = [] → g.park = some k →
          k.tickets = [p.ticket] → k.dead = false → k.svret = false → k.op = none → k.stream = none → (u.group pl).park = none) ∧
      (let u := settleDoom (doom s page p.frec)
       u.absent = false → exec (.frespTerminate page seq) s = .next u ∧
        (2 ≤ (s.ctx page).state → (s.ctx page).state ≤ 4 → (u.ctx page).state = 6))) ∧
    (∀ page r l, (s.ctx page).heldRecs = r :: l → frqFull s page = false → (s.ctx page).state ∉ [0, 4] →
      (anyWindow s = false ∨ frqReady s page = true) →
      Occurs (.faultRecordPost page) s (writeRec (s.setCtx page { s.ctx page with heldRecs := l }) page r)) ∧
    (∀ team slot w, let page := (s.team team).page
      let x := slotAt s { team := team, slot := slot }
      (expired s page).head? = some ((s.team team).core, team, slot) → (waiters s { team := team, slot := slot }).head? = some w →
      coreMayIssue s (s.team team).core = false →
      ∃ r, r.code = codeOf 4 cBarTimeout ∧ r.mask = w.mask ∧ r.pc = w.pc ∧ r.d2 = (if x.kind = 2 then 0 else x.part &&& ~~~x.arrmask) ∧
        let b := doom s page r
        let u := settleDoom (if (s.ctx page).d.wddiag = 0 then b
          else b.setCtx page { b.ctx page with block := some (wdBlock s { team := team, slot := slot } (waiters s { team := team, slot := slot })) })
        (u.absent = false → exec (.barrierWatchdogExpiry team slot) s = .next u ∧
          ((s.ctx page).state = 2 → (u.ctx page).state = 6)))

/-! ### The graph scheduler -/

/-- EMIT and EMITT with every target legal (R353, R370, R371): each record goes to the package that its node's placement gives (R383,
R391), this one where there is no pod table. A record of this package joins its target's queue of the die, in ascending lane, with its
words and depth; one for another package for which a credit is held takes it, is counted in SENT and goes there, and the instruction then
counts in the link class (R16); with .nb these are the records of just the lanes whose predicate is then true, and those of this package
are granted. Records for other packages without a credit wait for one, the fragment with them; under .nb they write false and nothing
else happens. Lanes whose record would be deeper than the target's RECUR (R354) trap RECURSION_LIMIT, here in user mode to an enabled
handler, and the others emit; a lane whose placement names no package raises the Launch fault REMOTE_UNREACHABLE, with which its group
issues nothing more (R401). RECLD (R372): each word of its own input record into every active lane's registers; in the uniform form of a
node that is no lane-record node, of the team's record into s-registers. FLUSHQ (R373): the granted records of the named successors are
marked. It rests on the model's choices of log 82, 83, 84. -/
def Obligations.RecordsEmitted : Prop :=
  (∀ (i : Instr) (h : Hd) (x : WEmit) (s b : State) (c : Iss) (l : Launch) (recs : List (Nat × Nat × Nat × List Word × Nat)),
     myLaunch s c = some l → l.cancel = 0 → Ready i s c →
     let g := (begun i s).group c.place
     let t := s.team (s.group c.place).team
     let rt := x.rtype.toNat
     let die := (s.group c.place).core / 32
     let recur (n : Nat) : Nat := (l.g.node n).recur
     -- `recs` lists lane, package, target, words and depth of each record
     let emit : Prop := i = .emit h x ∧ b = begun i s ∧ recs.map (fun r => r.1) = lanes c.act ∧ ∀ r ∈ recs,
       emitTarget l t.node (if bit h.mod 0 then (g.rv c.slot h.c.toNat r.1).toNat else x.succ.toNat) rt = some r.2.2.1 ∧
       r.2.2.2.1 = (List.range (l.g.typeBytes rt / 4)).map (fun j => g.rv c.slot (h.b.toNat + j) r.1)
     let emitt : Prop := i = .emitt h x ∧ (g.rs c.slot h.b.toNat).toNat % 16 = 0 ∧ b.settled = true ∧ b.launches = s.launches ∧
       b.ctxs = s.ctxs ∧ b.link = s.link ∧ b.groups = (begun i s).groups ∧ b.teams = s.teams ∧ ∃ r bs,
       recs = [r] ∧ r.1 = lowLane c.act ∧ emitTarget l t.node x.succ.toNat rt = some r.2.2.1 ∧ r.2.2.2.1 = wordsOf bs ∧
       locAccess (begun i s) 9 kRead (s.group c.place).team (g.rs c.slot h.b.toNat).toNat (l.g.typeBytes rt)
         (BitVec.ofNat 64 (g.rs c.slot h.b.toNat).toNat) none = .ok bs b
     (emit ∨ emitt) → (∀ r ∈ recs, r.2.2.2.2 = emitDepth t r.2.2.1) →
     let nb := bit h.mod 1
     let nbOk : Prop := if i = .emit h x then h.a ≠ 7 else h.a ≠ 3
     let held (u : State) (lane : Nat) : Bool := if i = .emit h x then (u.group c.place).heldP h.a.toNat lane else (u.group c.place).finalK h.a.toNat
     let good := recs.filter (fun r => decide (r.2.2.2.2 ≤ recur r.2.2.1))
     let deep := recs.filter (fun r => decide (recur r.2.2.1 < r.2.2.2.2))
     let away := good.filter (fun r => r.2.1 != s.pkg)
     let links (u : State) : Nat := fget (u.group c.place).cnt 5 0
     ((∀ r ∈ recs, placeOf s l r.2.2.1 = some r.2.1) →
       (Funded s l (good.map (fun r => r.2)) → (away ≠ [] → slotRoom b c [5] = none) →
         let emits (u : State) (l' : Launch) : Prop :=
           (nb = false → Emitted s u l l' rt die (good.map (fun r => r.2))) ∧
           (nb = true → nbOk → Emitted s u l l' rt die ((good.filter (fun r => held u r.1)).map (fun r => r.2)) ∧
             (∀ r ∈ l'.q.drop l.q.length, r.granted = true) ∧ ∀ r ∈ away, held u r.1 = true)
         (deep = [] → ∃ s2 l', Completes i s c s2 ∧ emits s2 l' ∧ links s2 = links s + (if away = [] then 0 else 1)) ∧
         (deep ≠ [] → c.sup = false → c.act = c.full → handles s c 13 = true →
           let m := if i = .emit h x then maskOfList (deep.map (fun r => r.1)) else c.act
           ∃ u l', exec i s = .next u ∧ inHandler c s u (codeOf 9 cRecursion) 0 m 0 c.pc (decide (good ≠ [])) ∧ emits u l' ∧
             links u = links s + (if away = [] then 0 else 1))) ∧
       (deep = [] → (∀ r ∈ recs, r.2.1 ≠ s.pkg ∧ l.credit r.2.1 r.2.2.1 = 0) →
         (nb = true → nbOk → ∃ s2, Completes i s c s2 ∧ launchOf s2 l.lid = some l ∧ links s2 = links s ∧ ∀ r ∈ recs, held s2 r.1 = false) ∧
         (nb = false → slotRoom b c [5] = none → ∃ s2 l' a rids, Completes i s c s2 ∧ launchOf s2 l.lid = some l' ∧ l'.q = l.q ∧ l'.sent = l.sent ∧
           l'.rq.map (fun r => (r.pkg, r.node, r.data, r.depth)) = l.rq.map (fun r => (r.pkg, r.node, r.data, r.depth)) ++ recs.map (fun r => r.2) ∧
           links s2 = links s + 1 ∧ s2.fragOf c = some a ∧ a.wait = some (.emit rids) ∧ rids = (l'.rq.drop l.rq.length).map (fun r => r.rid)))) ∧
     (deep = [] → (∀ r ∈ recs, placeOf s l r.2.2.1 = none) → c.sup = false →
       (byWaves l = true ∨ l.home ≠ s.pkg ∨ (l.phase = 1 ∧ (∀ k ∈ s.launches, k.parent ≠ some l.lid) ∧
         ∀ k ∈ s.teams, k.2.lid = l.lid → k.2.windows = [])) →
       ∃ u, exec i s = .next u ∧ (∀ k, ffind u.groups c.place = some k → k.ended = true ∨ ∃ p, k.park = some p ∧ p.dead = true) ∧
         ∀ l', launchOf u l.lid = some l' → l'.q.length ≤ l.q.length ∧ l'.sent = l.sent ∧ l'.fcount = l.fcount + 1 ∧
           (l.fcount = 0 → l'.fcode = 0xA050 ∧ l'.fnode = t.node ∧ l'.fpkg = s.pkg))) ∧
  (∀ (s : State) (c : Iss) (h : Hd),
     let t := s.team (s.group c.place).team
     let idx := (s.group c.place).idx
     (Ready (.recld h) s c →
       let n := inRegs s (s.group c.place)
       (bit h.mod 0 = false → ∃ s2, Completes (.recld h) s c s2 ∧ ∀ l ∈ lanes c.act, ∀ i < n,
         (s2.group c.place).finalV (h.a.toNat + i) l = (inputOf t idx l).getD i 0) ∧
       (bit h.mod 0 = true → t.kind ≠ 0 → ∃ s2, Completes (.recld h) s c s2 ∧ ∀ i < n,
         (s2.group c.place).finalS (h.a.toNat + i) = (inputOf t idx 0).getD i 0)) ∧
     (∀ x l, Ready (.flushq h x) s c → myLaunch s c = some l →
       let succ := (l.g.node t.node).succ
       (bit h.mod 0 = true ∨ x.succ.toNat < succ.length) →
       ∃ s2 l', Completes (.flushq h x) s c s2 ∧ launchOf s2 l.lid = some l' ∧ l'.q = l.q.map (fun r =>
         if r.granted ∧ r.empty = none ∧ r.node ∈ (if bit h.mod 0 then succ else [succ.getD x.succ.toNat 0]) then { r with flush := true } else r)))

/-- GLAUNCH (R365, R374): an accepted child's LSEQ, the context's next one, and the child among the launches when its graph passes; one
whose graph is refused takes its LSEQ all the same; with .nb and 4,096 live launches (R351), zero. GCANCEL (R366, R375): a running launch
of this package alone, which has not met its end, is cancelled in the form's kind, one that has met it is left alone, and no launch is
touched when none has the number. GWAIT (R376): a completed launch's status, 0xF for an unknown one, 0 for a live one with .test, else a
wait. It rests on the model's choices of log 17, 81. -/
def Obligations.LaunchInstructions : Prop :=
  ∀ (s : State) (c : Iss) (h : Hd),
    let page := (s.group c.place).page
    (Ready (.glaunch h) s c → ∀ l, myLaunch s c = some l → l.level < 31 →
      let b := begun (.glaunch h) s
      let off := ((b.group c.place).rs c.slot h.b.toNat).toNat
      off % 64 = 0 → ∀ bs u, locAccess b 9 kRead (s.group c.place).team off 64 (BitVec.ofNat 64 off) none = .ok bs u → u.settled = true →
      (liveLaunches s < 4096 → ∀ w,
        (∀ gr, checkLaunch u l.page bs = .ok (.inl gr) w → w.settled = true → ∃ s2 k, Completes (.glaunch h) s c s2 ∧
          (s2.group c.place).finalS h.a.toNat = (w.ctx l.page).nextLseq ∧ (bit h.mod 1 = true → h.c ≠ 3 → (s2.group c.place).finalK h.c.toNat = true) ∧
          s2.launches = w.launches ++ [k] ∧ k.parent = some l.lid ∧ k.level = l.level + 1 ∧ k.lseq = (w.ctx l.page).nextLseq ∧
          k.home = w.pkg ∧ k.phase = 0 ∧ k.g = gr) ∧
        (∀ why v, checkLaunch u l.page bs = .ok (.inr why) w → cplClear w (Launch.blank 0 l.page 0 w.pkg (lrecOf bs)) = (true, v) →
          let y := (enterLaunch v l.page (lrecOf bs) (some l) (.inr why)).2
          y.settled = true → ∃ s2, Completes (.glaunch h) s c s2 ∧ (s2.group c.place).finalS h.a.toNat = (v.ctx l.page).nextLseq ∧
            s2.launches = y.launches)) ∧
      (4096 ≤ liveLaunches s → bit h.mod 1 = true → h.c ≠ 3 → ∃ s2, Completes (.glaunch h) s c s2 ∧
        (s2.group c.place).finalS h.a.toNat = 0 ∧ (s2.group c.place).finalK h.c.toNat = false)) ∧
    (Ready (.gcancel h) s c →
      let b := begun (.gcancel h) s
      let q := (b.group c.place).rs c.slot h.b.toNat
      (launchBy s page q s.pkg = none → Completes (.gcancel h) s c b) ∧
      (∀ l, launchBy s page q s.pkg = some l →
        let u := cancelLaunch b l.lid (bit h.mod 0)
        (u.settled = true → Completes (.gcancel h) s c u) ∧
        (launchOf s l.lid = some l → l.r.pod = false → l.sent = 0 → l.phase = 1 → l.cancel = 0 → metEnd b l = false →
          ∃ l', launchOf u l.lid = some l' ∧ l'.cancel = (if bit h.mod 0 then 2 else 1) ∧ l'.q = [] ∧ l'.code = (if bit h.mod 0 then 3 else 2)) ∧
        (launchOf s l.lid = some l → l.r.pod = false → byWaves l = false → l.home = s.pkg → quiescent b l = true → l.lent = [] →
          (∀ k ∈ s.launches, k.parent ≠ some l.lid) → u = b))) ∧
    (Ready (.gwait h) s c →
      let q := ((begun (.gwait h) s).group c.place).rs c.slot h.b.toNat
      (launchBy s page q s.pkg = none → ∃ s2, Completes (.gwait h) s c s2 ∧
        (s2.group c.place).finalS h.a.toNat = (((s.ctx page).closed.find? (fun k => k.1 == q)).map (fun k => k.2.1)).getD 0xF) ∧
      (launchBy s page q s.pkg ≠ none → bit h.mod 0 = true → ∃ s2, Completes (.gwait h) s c s2 ∧ (s2.group c.place).finalS h.a.toNat = 0) ∧
      (launchBy s page q s.pkg ≠ none → bit h.mod 0 = false → ∃ s2 a, Completes (.gwait h) s c s2 ∧ s2.fragOf c = some a ∧
        a.wait = some (.gwait q h.a.toNat)))

/-- Starts, formation and dispatch (R351, R353, R355 to R361): a launch that may start is running; a segment's oldest records form a
team; a grid record makes a grid job, and each formation takes its next teams in ascending T; a formed team that is admitted starts at
its node's entry with its records. It rests on the model's choices of log 81, 82, 83, 87, 88. -/
def Obligations.SchedulerForms : Prop :=
  ∀ (s : State), s.settled = true →
    (∀ page lseq l, s.launches.find? (fun l => l.page == page && l.lseq == lseq && mayStart s l) = some l → launchOf s l.lid = some l →
      let u := startLaunch s l
      u.settled = true → exec (.launchStart page lseq) s = .next u ∧ ∃ l', launchOf u l.lid = some l' ∧ l'.phase = 1) ∧
    (∀ lid node seg die l, launchOf s lid = some l → l.phase = 1 → (s.ctx l.page).state = 2 → dieServes s die = true → seg < 4 →
      node < l.g.nodes.length →
      let n := l.g.node node
      let rs := (l.pending node seg).take (formCount s l node seg)
      (n.kind ≠ 2 → rs ≠ [] → (die = seg ∨ dieAdmits s l node die (if n.kind = 1 then n.k else 1) = true) →
        ∃ t l' f, exec (.teamForm lid node seg die) s = .next t ∧ t.formed = s.formed ++ [f] ∧ f.lid = lid ∧ f.node = node ∧ f.seg = seg ∧
          f.die = die ∧ f.seeds = seedsOf n rs ∧ launchOf t lid = some l' ∧ ∀ r ∈ l'.q, ∀ k ∈ rs, r.rid ≠ k.rid) ∧
      (∀ r nt, n.kind = 2 → l.grids.any (fun j => j.node == node) = false → rs = [r] → gridTeams r.data = some nt →
        (die = seg ∨ dieAdmits s l node die 1 = true) → l.r.nrec.toNat ≤ l.init →
        ∃ t l' j, exec (.teamForm lid node seg die) s = .next t ∧ launchOf t lid = some l' ∧ l'.grids = l.grids ++ [j] ∧ j.node = node ∧
          j.next = 0 ∧ j.last = nt ∧ j.data = r.data ∧ l'.nrecs = l.nrecs + 1) ∧
      (∀ j, n.kind = 2 → l.grids.find? (fun j => j.node == node) = some j →
        ∃ t f, exec (.teamForm lid node seg die) s = .next t ∧ t.formed = s.formed ++ [f] ∧ f.lid = lid ∧ f.node = node ∧ f.die = die ∧
          f.seeds = (List.range (min n.k (j.last - j.next))).map (fun i => { t := j.next + i, depth := 0, recs := [(0, j.data)] }))) ∧
    (∀ fid core f l x p, s.formed.find? (fun f => f.fid == fid) = some f → launchOf s f.lid = some l → f.seeds = [x] →
      let n := l.g.node f.node
      n.cluster = false → (s.ctx l.page).state = 2 → core / 32 = f.die → dieServes s f.die = true → fitAll s l f.node core 1 = true →
      olderFirst s f = false → l.r.nrec.toNat ≤ l.init → n.roleOfs ≠ [] → (n.kind ≠ 0 ∨ x.recs ≠ []) →
      n.groups ≤ (freePlaces s core).length → (freePlaces s core).head? = some p →
      ∃ t tid tm g a, exec (.teamDispatch fid core) s = .next t ∧ ffind t.teams tid = some tm ∧ tm.core = core ∧ tm.lid = f.lid ∧
        tm.node = f.node ∧ tm.recs = x.recs ∧ tm.t = (if n.kind = 2 then x.t else fget l.nextT f.node 0) ∧
        ffind t.groups (64 * core + p) = some g ∧ g.team = tid ∧ g.idx = 0 ∧ g.frag 0 = some a ∧ a.pc = n.entry ∧ a.mask ≠ 0 ∧
        t.formed = s.formed.filter (fun y => y.fid != fid))

/-- Grants, overflow and completion (R353, R363, R364, R377): the oldest waiting reservation of a running context is granted and the EMIT
that waits for it alone goes on; an overflow that has lasted ends a launch of this package alone with QUEUE_OVERFLOW; a launch of this
package alone without work closes. It rests on the model's choices of log 85, 89. -/
def Obligations.SchedulerCompletes : Prop :=
  ∀ (s : State) (lid : Nat) (l : Launch), s.settled = true → launchOf s lid = some l →
    (∀ node die r sp, (s.ctx l.page).state = 2 → (l.waits node die).head? = some r → (node = l.g.root → die = 0 → l.r.nrec.toNat ≤ l.init) →
      roomIn s l node die = some sp → (grantRec s lid r.rid sp).settled = true → r.empty = none → l.q.find? (fun q => q.rid == r.rid) = some r →
      ∃ t l' k, exec (.reservationGrant lid node die) s = .next t ∧ launchOf t lid = some l' ∧ k ∈ l'.q ∧ k.rid = r.rid ∧ k.granted = true ∧
        k.spilled = sp ∧ k.data = r.data ∧ ∀ place slot, Waits s place slot (.emit [r.rid]) → Wakes t place slot) ∧
    (l.ovf = 65536 → overflowing s l = true →
      let u := launchFault (modLaunch s lid (fun k => { k with ovf := 65537 })) lid (codeOf 9 cQueueOverflow) ((waitingNodes l).headD 0)
      u.settled = true → exec (.queueOverflow lid) s = .next u ∧ (byWaves l = false → l.home = s.pkg → l.fcount = 0 →
        ∃ l', launchOf u lid = some l' ∧ l'.fcode = codeOf 9 cQueueOverflow ∧ l'.cancel = 2 ∧ l'.fnode = (waitingNodes l).headD 0)) ∧
    (∀ v, quiescent s l = true → l.wave = none → l.home = s.pkg → l.r.pod = false → l.sent = 0 → cplClear s l = (true, v) →
      launchOf v lid = some l →
      let u := finishLaunch v lid
      u.settled = true → exec (.launchComplete lid) s = .next u ∧ (∀ k ∈ u.launches, k.lid ≠ lid) ∧
        (u.ctx l.page).closed.head?.map (fun k => (k.1, k.2.1)) = some (l.lseq, statusWord (if l.code = 0 then 1 else l.code) l.reason l.fcode))

/-! ### Pods and the link -/

/-- PODBAR (R405, R408) on the package that holds the barrier, in a launch that is not cancelled and with a legal expectation: an arrival
gives the phase as its token, and completes the phase with the last one; a wait on an old phase ends true; a wait on the present one
waits. On another package an arrival waits for its token, a wait on a phase that is known to have passed ends true, one on the latest
phase heard of waits, and one ahead of it does either; the arrival's envelope is on its way to the holder. PODQRY (R409): what every
package knows is answered at once, the rest at once on the wave root; elsewhere the query queues up behind the launch's others, the first
of them on its way to the wave root, and its fragment waits. PODFLT (R410): the status or one item of a report, 0 and 0xF of what does
not exist. It rests on the model's choices of log 17, 95, 130. -/
def Obligations.PodInstructions : Prop :=
  (∀ (h : Hd) (x : WNib) (s : State) (c : Iss) (l : Launch), Ready (.podbar h x) s c → myLaunch s c = some l → l.cancel = 0 →
     let v := ((begun (.podbar h x) s).group c.place).rs c.slot h.b.toNat
     let mode := (bits h.mod 0 2).toNat
     let y := l.bar x.n.toNat
     let e : BitVec 24 := v.setWidth 24
     let tok : Word := y.phase.setWidth 32
     let waits (s2 : State) (w : Wait) : Prop := ∃ a, s2.fragOf c = some a ∧ a.wait = some w
     (mode ≠ 2 → v ≠ 0 → v.toNat < 2 ^ 24 → holderOf s l = s.pkg → (y.expect = 0 ∨ y.expect = e) → ∃ s2 l', Completes (.podbar h x) s c s2 ∧
       launchOf s2 l.lid = some l' ∧
       l'.bar x.n.toNat = (if y.arrived + 1 = e then { phase := y.phase + 1, expect := 0, arrived := 0 }
                           else { y with expect := e, arrived := y.arrived + 1 }) ∧
       (mode = 1 → (s2.group c.place).finalS h.a.toNat = tok) ∧
       (mode ≠ 1 → y.arrived + 1 = e → h.a ≠ 7 → ∀ i ∈ lanes c.act, (s2.group c.place).heldP h.a.toNat i = true) ∧
       (mode ≠ 1 → y.arrived + 1 ≠ e → waits s2 (.podbar l.lid x.n.toNat tok h.a.toNat c.act))) ∧
     (mode ≠ 2 → v ≠ 0 → v.toNat < 2 ^ 24 → holderOf s l ≠ s.pkg → ∃ s2, Completes (.podbar h x) s c s2 ∧
       waits s2 (.podtok s.link.nextArr l.lid x.n.toNat (mode == 1) h.a.toNat c.act) ∧
       ∃ k, OnItsWay s2 (holderOf s l) k ∧ IsControl s l.page 11 l.lseq l.home k ∧ k.arg0 = BitVec.ofNat 32 x.n.toNat ∧ k.arg1 = v ∧
         k.arg2 = s.link.nextArr.setWidth 64) ∧
     (mode = 2 → holderOf s l = s.pkg →
       (v = tok → ∃ s2, Completes (.podbar h x) s c s2 ∧ waits s2 (.podbar l.lid x.n.toNat v h.a.toNat c.act)) ∧
       (bits v 16 16 = 0 → v ≠ tok → h.a ≠ 7 → ∃ s2, Completes (.podbar h x) s c s2 ∧
         ∀ i ∈ lanes c.act, (s2.group c.place).heldP h.a.toNat i = true) ∧
       (bits v 16 16 ≠ 0 → h.a ≠ 7 → ∃ s2, Completes (.podbar h x) s c s2 ∧
         ∀ i ∈ lanes c.act, (s2.group c.place).heldP h.a.toNat i = false)) ∧
     (mode = 2 → holderOf s l ≠ s.pkg →
       let ends (s2 : State) (ok : Bool) : Prop := ∀ i ∈ lanes c.act, (s2.group c.place).heldP h.a.toNat i = ok
       let wait : Wait := .podbar l.lid x.n.toNat v h.a.toNat c.act
       (bits v 16 16 ≠ 0 → h.a ≠ 7 → ∃ s2, Completes (.podbar h x) s c s2 ∧ ends s2 false) ∧
       (bits v 16 16 = 0 → (y.phase - bits v 0 16 - 1).toNat < 2 ^ 15 → h.a ≠ 7 → ∃ s2, Completes (.podbar h x) s c s2 ∧ ends s2 true) ∧
       (v = tok → ∃ s2, Completes (.podbar h x) s c s2 ∧ waits s2 wait) ∧
       (bits v 16 16 = 0 → h.a ≠ 7 → ∃ s2, Completes (.podbar h x) s c s2 ∧ (ends s2 true ∨ waits s2 wait)))) ∧
  (∀ (h : Hd) (s : State) (c : Iss) (l : Launch), myLaunch s c = some l →
     (∀ x, Ready (.podqry h x) s c →
       let sel := x.n.toNat
       let cx := s.ctx l.page
       let gives (v : Word) : Prop := ∃ s2, Completes (.podqry h x) s c s2 ∧ (s2.group c.place).finalS h.a.toNat = v
       let asked := ((begun (.podqry h x) s).group c.place).rs c.slot h.b.toNat
       (∀ p, sel = 0 → s.link.root = some p → gives (BitVec.ofNat 32 p)) ∧
       (sel = 0 → s.link.root = none → gives 0xFFFFFFFF) ∧
       (sel = 1 → gives (BitVec.ofNat 32 (if cx.d.podtab = 0 then 1 else cx.members.length))) ∧
       (sel = 2 → gives (BitVec.ofNat 32 l.home)) ∧
       (sel = 3 → gives (if l.r.pod then l.pseq.getD 0 else 0)) ∧
       (sel = 4 → gives (BitVec.ofNat 32 (if l.r.pod then l.nr else 0))) ∧
       (4 < sel → waveRootOf s l = s.pkg →
         gives (podValue s l.page (rootOf s l.page l.lseq l.home) sel (if sel = 7 then asked.toNat else 0) s.pkg)) ∧
       (4 < sel → waveRootOf s l ≠ s.pkg → ∃ s2 a l', Completes (.podqry h x) s c s2 ∧ s2.fragOf c = some a ∧
         a.wait = some (.podqry s.link.nextArr h.a.toNat) ∧ launchOf s2 l.lid = some l' ∧
         l'.queries = l.queries ++ [(s.link.nextArr, BitVec.ofNat 32 sel, if sel = 7 then asked else 0)] ∧
         (l.queries = [] → ∃ k, OnItsWay s2 (waveRootOf s l) k ∧ IsControl s l.page 14 l.lseq l.home k ∧ k.arg0 = BitVec.ofNat 32 sel ∧
           k.arg1 = if sel = 7 then asked else 0))) ∧
     (∀ x, Ready (.podflt h x) s c →
       let v := ((begun (.podflt h x) s).group c.place).rs c.slot h.b.toNat
       let sel := x.sel.toNat
       let gives (w : Word) : Prop := ∃ s2, Completes (.podflt h x) s c s2 ∧ (s2.group c.place).finalS h.a.toNat = w
       let live := if v = 0 then some l else launchBy s l.page v s.pkg
       let map (l : List Nat) : Word := BitVec.ofNat 32 ((leVal (bitmap l) / 2 ^ (32 * x.word.toNat)) % 2 ^ 32)
       (sel = 0 → live.isSome = true → gives 0) ∧
       (∀ k, live = some k → sel = 6 → gives (map (liveReport s k).2)) ∧
       (∀ k, live = some k → 0 < sel → sel < 6 → gives (BitVec.ofNat 32 ((liveReport s k).1.getD (sel - 1) 0))) ∧
       (∀ k, live = none → (s.ctx l.page).closed.find? (fun k => k.1 == v) = some k →
         (sel = 0 → gives k.2.1) ∧ (0 < sel → sel < 6 → gives (BitVec.ofNat 32 (k.2.2.1.getD (sel - 1) 0))) ∧ (sel = 6 → gives (map k.2.2.2))) ∧
       (live = none → (s.ctx l.page).closed.find? (fun k => k.1 == v) = none → gives (if sel = 0 then 0xF else 0))))

/-- Record transport (R384 to R391): an envelope to another package is numbered, sent and retained, and waits while 256 are; a record
envelope fills the reservation that its credit holds and is counted; a credit request makes reservations and sends back the grant of as
many, or leaves one waiting; a grant adds credits; an acknowledgement frees what it covers, and what waited behind 256 envelopes is
transmitted. An envelope of a reserved ETYPE, a wrong length or an unknown PODCTX is dropped and counted. The link's other events (R379,
R380, R388, R393): a timeout sends the envelope again or gives the destination up; a reload writes the pod table's entries and takes
them; a port's failure; a peer's access in stage 3 to the package's own memory, with an answer when it reads; a peer's write of an
envelope's bytes at its place in the ingress window is that envelope's event (R384, R385). It rests on the model's choices of log 87, 92,
97, 98, 109, 129. -/
def Obligations.RecordsTravel : Prop :=
  (∀ (src : Nat) (e : Envelope) (s u : State) (page : Nat), s.settled = true →
     let home := e.home.toNat
     let node := e.node.toNat
     (s.sys.stage = 3 → (etypeReserved e = true ∨ (e.etype.toNat = 1 ∧ (lenOk e = false ∨ pageOfPod (wakeUp s) e.podctx = none))) →
       ∃ t, exec (.recordEnvelope src e) s = .next t ∧ t.link.drops = s.link.drops + 1) ∧
     (∀ l r, Takes 1 0 src e s page u → launchBy u page e.lseq home = some l →
       l.q.find? (fun r => r.granted && r.empty == some src && r.node == node) = some r → l.cancel = 0 → e.payload.length = l.g.size node →
       ∃ t l' k, exec (.recordEnvelope src e) s = .next t ∧ launchBy t page e.lseq home = some l' ∧ l'.recv = l.recv + 1 ∧ k ∈ l'.q ∧
         k.rid = r.rid ∧ k.empty = none ∧ k.data = wordsOf e.payload ∧ k.depth = e.depth.toNat) ∧
     (∀ l, Takes 1 0 src e s page u → launchBy u page e.lseq home = some l →
       l.q.find? (fun r => r.granted && r.empty == some src && r.node == node) = none →
       ∃ t l', exec (.recordEnvelope src e) s = .next t ∧ launchBy t page e.lseq home = some l' ∧ l'.recv = l.recv + 1 ∧
         l'.dropped = l.dropped + 1 ∧ l'.q = l.q) ∧
     (∀ l got v, Takes 3 0 src e s page u → launchBy u page e.lseq home = some l → launchOf u l.lid = some l → l.cancel = 0 →
       node < l.g.nodes.length → e.arg0 ≠ 0 → makeCredits (min e.arg0.toNat 16) l.lid node src 0 u = (got, v) → v.settled = true → got ≤ 16 ∧
       (got ≠ 0 → ∃ k l', exec (.creditRequest src e) s = .next (sendEnv v src l.lid k) ∧ k.etype = 3 ∧ k.sub = 1 ∧ k.lseq = e.lseq ∧
         k.home = e.home ∧ k.node = e.node ∧ k.podctx = e.podctx ∧ k.arg0 = BitVec.ofNat 32 got ∧ k.payload = [] ∧
         launchOf v l.lid = some l' ∧ l'.q.length = l.q.length + got) ∧
       (got = 0 → ∃ t l', exec (.creditRequest src e) s = .next t ∧ launchOf t l.lid = some l' ∧ l'.q.length = l.q.length + 1)) ∧
     (∀ lid k, src ≠ s.pkg →
       let x := txOf s src k.podctx
       let t := sendEnv s src lid k
       let sent : Envelope := { k with tag := BitVec.ofNat 32 (s.pkg * 2 ^ 22 + x.next.toNat) }
       (x.kept.length < 256 → x.backlog = [] → t.out = s.out ++ [.envelope src sent] ∧ (txOf t src k.podctx).next = x.next + 1 ∧
         ∃ r, (txOf t src k.podctx).kept = x.kept ++ [r] ∧ r.seq = x.next ∧ r.e = sent ∧ r.tries = 0 ∧ r.lid = lid) ∧
       ((256 ≤ x.kept.length ∨ x.backlog ≠ []) → t.out = s.out ∧ (txOf t src k.podctx).backlog = x.backlog ++ [(k, lid, 0)])) ∧
     (∀ l, Takes 3 1 src e s page u → launchBy u page e.lseq home = some l → launchOf u l.lid = some l → l.cancel = 0 → l.rq = [] →
       ∃ t l', exec (.creditGrant src e) s = .next t ∧ launchOf t l.lid = some l' ∧ l'.credit src node = l.credit src node + e.arg0.toNat) ∧
     (let x := txOf s src e.podctx
      let left := x.kept.filter (fun r =>
        let d := (r.seq - bits e.arg0 0 22).toNat
        !(decide (2 ^ 21 ≤ d) || (decide (d < 256) && (leVal e.payload).testBit d)))
      Takes 2 0 src e s page u → (∀ b ∈ x.backlog, b.1.podctx = e.podctx) →
       ∃ t more, exec (.acknowledgement src e) s = .next t ∧ (txOf t src e.podctx).kept = left ++ more ∧
         more.length = min x.backlog.length (256 - left.length) ∧ (txOf t src e.podctx).backlog = x.backlog.drop more.length)) ∧
  (∀ (s : State), s.settled = true →
     (∀ dst podctx seq page r, pageOfPod s podctx = some page → (txOf s dst podctx).kept.find? (fun r => r.seq == seq) = some r →
       (txOf s dst podctx).unreach = false → r.timer + 1024 * (s.ctx page).d.rto ≤ s.sys.fab →
       (r.tries < (s.ctx page).d.nretry → ∃ t k, exec (.retransmitTimeout dst podctx seq) s = .next t ∧ t.out = s.out ++ [.envelope dst r.e] ∧
         k ∈ (txOf t dst podctx).kept ∧ k.seq = seq ∧ k.tries = r.tries + 1 ∧ k.timer = s.sys.fab) ∧
       ((s.ctx page).d.nretry ≤ r.tries → let u := giveUpDst s dst podctx
         u.settled = true → exec (.retransmitTimeout dst podctx seq) s = .next u ∧ (txOf u dst podctx).unreach = true)) ∧
     (∀ page es, 2 ≤ (s.ctx page).state → (s.ctx page).state ≤ 4 → (s.ctx page).d.podtab ≠ 0 → (∀ x ∈ es, x.1 < 48 * 4096) →
       (es.map (fun x => x.1)).Nodup → ∀ u, (putPlaces (s.ctx page).d es s).2 = u → u.settled = true →
       ((putPlaces (s.ctx page).d es s).1 = false → exec (.placementReload page es) s = .next u) ∧
       (anyWindow s = false → ∃ t, exec (.placementReload page es) s = .next t ∧ ∀ x ∈ es,
         t.valAt (placeKey (s.ctx page).d x.1) 2 = x.2.toNat ∧
         ((s.ctx page).dir.any (fun y => y.1 == x.1 / 4096) = true → fget (t.ctx page).place x.1 0 = x.2))) ∧
     (∀ port, port < 16 → ∃ t, exec (.ualinkPortFailure port) s = .next t ∧ ∀ n, n < 16 →
       bit t.sys.ports n = (bit s.sys.ports n && decide (n ≠ port))) ∧
     (∀ (a : PeerAcc) n, n = (match a.kind with
         | .atomic _ ty => tyBits ty / 8
         | .write => a.data.length
         | .read => a.bytes) → s.sys.stage = 3 → n ≠ 0 → a.pa.toNat % 256 + n ≤ 256 → inIngress a.pa = false → a.pa.toNat + n ≤ 2 ^ 39 →
       ∀ u, snoopRange s (devKey a.pa.toNat) n (match a.kind with
         | .read => false
         | _ => true) = (true, u) → u.settled = true →
       let k := devKey a.pa.toNat
       let old := u.bytesAt k n
       ∃ t, exec (.peerAccess a) s = .next t ∧
         (a.kind = .read → t.mem = u.mem ∧ t.out = u.out ++ [.answer a.src old (!u.badAt k n)]) ∧
         (a.kind = .write → t.bytesAt k n = a.data ∧ t.out = u.out) ∧
         (∀ op ty, a.kind = .atomic op ty →
           t.bytesAt k n = leBytes n (atomVal op.toNat ty (BitVec.ofNat 64 (leVal old)) a.b a.c).toNat ∧
           t.out = u.out ++ [.answer a.src old (!u.badAt k n)])) ∧
     (∀ (a : PeerAcc) src e i, s.sys.stage = 3 → src < 1024 → a.kind = .write → a.pa = ingressAddr src → a.data = envBytes e →
       eventOf src e = some i → payloadOf s e (wireLen e.payload.length) = some e.payload.length → exec (.peerAccess a) s = exec i s))

/-- Pod-scope launches at the pod root and at a member (R394 to R398): LAUNCH gives the next PSEQ and sends START to every member; START
is answered with the check's result, to the pod root wherever it is, and a launch that passed it knows its PSEQ; the last STARTED deals
the first ranges, or rejects; DEAL makes a grid job of its range; RDONE of a dealt range deals the one 2N further. What goes to another
package is an envelope on its way there, what goes to this one an event that it owes itself. It rests on the model's choices of log 93,
94, 95. -/
def Obligations.PodLaunchesDeal : Prop :=
  ∀ (src : Nat) (e : Envelope) (s u : State) (page : Nat), s.settled = true →
    let home := e.home.toNat
    let n := e.arg1.toNat
    (Takes 4 1 src e s page u → u.link.root = some u.pkg → u.link.cancels = [] →
      ∃ t r, exec (.launch src e) s = .next t ∧ t.link.roots = u.link.roots ++ [r] ∧ r.pseq = some u.link.pseq ∧ r.lseq = e.lseq ∧
        r.home = home ∧ t.link.pseq = nextSeq u.link.pseq ∧
        (u.pkg ∈ (u.ctx page).members → Owes t (.start u.pkg) (fun k => k.arg0 = u.link.pseq ∧ k.payload = e.payload)) ∧
        ∀ m ∈ (u.ctx page).members, m ≠ u.pkg → ∃ k, OnItsWay t m k ∧ IsControl u page 2 e.lseq home k ∧ k.arg0 = u.link.pseq ∧
          k.payload = e.payload) ∧
    (Takes 4 2 src e s page u → (launchBy u page e.lseq home).isSome = true ∨ liveLaunches u < 4096 →
      (∀ g w b v, checkLaunch u page e.payload = .ok (.inl g) w →
        dispRead w (w.ctx page).d (lrecOf e.payload).recs (g.size g.root) = .ok b v → v.settled = true → v.link.cancels = [] →
        ∃ t l, exec (.start src e) s = .next t ∧ launchBy t page e.lseq home = some l ∧ l.pseq = some e.arg0 ∧ l.podroot = src ∧
          l.nt = (gridTeams (wordsOf b)).getD 0 ∧ (l.rlen, l.nr) = gridRanges l.nt (g.node g.root).k ∧
          (src = v.pkg → Owes t (.started src) (fun k => k.arg0 = e.arg0 ∧ k.arg1 = 0)) ∧
          (src ≠ v.pkg → ∃ y k, t = sendEnv y src 0 k ∧ y.out = v.out ∧ y.link.tx = v.link.tx ∧ IsControl v page 3 e.lseq home k ∧
            k.arg0 = e.arg0 ∧ k.arg1 = 0 ∧ k.payload = [])) ∧
      (∀ why w, checkLaunch u page e.payload = .ok (.inr why) w → w.settled = true → ∃ t, exec (.start src e) s = .next t ∧
        (src = w.pkg → Owes t (.started src) (fun k => k.arg0 = e.arg0 ∧ k.arg1 = BitVec.ofNat 32 why)) ∧
        (src ≠ w.pkg → ∃ y k, t = sendEnv y src 0 k ∧ y.out = w.out ∧ y.link.tx = w.link.tx ∧ IsControl w page 3 e.lseq home k ∧
          k.arg0 = e.arg0 ∧ k.arg1 = BitVec.ofNat 32 why ∧ k.payload = []))) ∧
    (∀ r, Takes 4 3 src e s page u → rootOf u page e.lseq home = some r → r.pseq = some e.arg0 → r.heard = false →
      r.started.any (fun x => x.1 == src) = false →
      let r' := { r with started := r.started ++ [(src, n)] }
      ∃ t q, exec (.started src e) s = .next t ∧ rootOf t page e.lseq home = some q ∧ q.started = r'.started ∧
        (r'.heard = true → r'.started.any (fun x => x.2 != 0) = true → q.finished = true) ∧
        (∀ l, r'.heard = true → r'.started.any (fun x => x.2 != 0) = false → launchBy u page e.lseq home = some l → r.cancel = 0 →
          r.dealt = [] → q.nr = l.nr ∧ q.dealt = List.range (min l.nr (2 * r.members.length)))) ∧
    (∀ l, Takes 4 4 src e s page u → launchBy u page e.lseq home = some l → l.pseq = some e.arg0 → l.cancel ≠ 2 → n < l.nr →
      ∃ t l' j, exec (.deal src e) s = .next t ∧ launchBy t page e.lseq home = some l' ∧ l'.grids = l.grids ++ [j] ∧ j.node = l.g.root ∧
        j.next = n * l.rlen ∧ j.last = min l.nt ((n + 1) * l.rlen) ∧ j.range = some n) ∧
    (∀ r, Takes 4 5 src e s page u → rootOf u page e.lseq home = some r → r.pseq = some e.arg0 → n ∈ r.dealt → n ∉ r.done →
      r.finished = false → ∃ t q, exec (.rdone src e) s = .next t ∧ rootOf t page e.lseq home = some q ∧ q.done = r.done ++ [n] ∧
        q.dealt = r.dealt ++ (if n + 2 * r.members.length < r.nr ∧ r.cancel = 0 then [n + 2 * r.members.length] else []) ∧
        let m := n + 2 * r.members.length
        ∀ p, r.members[m % r.members.length]? = some p → p ≠ u.pkg → m < r.nr → r.cancel = 0 →
          ∃ k, OnItsWay t p k ∧ IsControl u page 4 e.lseq home k ∧ some k.arg0 = r.pseq ∧ k.arg1 = BitVec.ofNat 32 m)

/-- Faults, cancels, waves and the report (R399 to R403): a fault is kept at the wave root, whose first starts a hard cancel; CANCEL acts
on a member's part; a quiescent member replies to a wave and another one when it becomes so; the last reply ends the launch on two equal
waves and begins the next wave otherwise; a part of the report is kept, the last one closes the launch. Pod barriers and queries between
packages (R405, R408, R409): PBARV arrives and is answered with its token; PBRES gives a PODBAR.arv its token; PBREL ends the waits on
the phase it names; QUERY is answered with the pod quantity; ANSWER ends the launch's first query. An answer to another package is an
envelope to it. It rests on the model's choices of log 93, 94, 146. -/
def Obligations.PodLaunchesEnd : Prop :=
  (∀ (src : Nat) (e : Envelope) (s u : State) (page : Nat), s.settled = true →
     let home := e.home.toNat
     (∀ r, Takes 4 6 src e s page u → rootOf u page e.lseq home = some r →
       let r' := { r with faults := r.faults ++ [(src, e.arg0.setWidth 16, e.node.toNat)] }
       let v := rootCancel (modRoot u r (fun _ => r')) r' true
       v.settled = true → exec (.fault src e) s = .next v ∧ ∃ q, rootOf v page e.lseq home = some q ∧ q.faults = r'.faults ∧
         (r.finished = false → r.pseq.isSome = true → r.cancel ≤ 2 → q.cancel = 2)) ∧
     (Takes 4 7 src e s page u → rootOf u page e.lseq home = none →
       let v := cancelPart u page e.lseq home (bit e.arg0 0)
       v.settled = true → exec (.cancel src e) s = .next v ∧
         ∀ l, launchBy u page e.lseq home = some l → launchOf u l.lid = some l → l.phase = 1 → l.cancel = 0 →
           ∃ l', launchBy v page e.lseq home = some l' ∧ l'.cancel = (if bit e.arg0 0 then 2 else 1) ∧ l'.q = []) ∧
     (∀ r, Takes 4 7 src e s page u → rootOf u page e.lseq home = some r → r.pseq.isSome = true →
       let v := rootCancel u r (bit e.arg0 0)
       v.settled = true → exec (.cancel src e) s = .next v) ∧
     (∀ l, Takes 4 8 src e s page u → launchBy u page e.lseq home = some l →
       (quiescent u l = true → src = u.pkg → ∃ t, exec (.wave src e) s = .next t ∧
         Owes t (.reply src) (fun k => k.arg0 = e.arg0 ∧ k.arg1 = BitVec.ofNat 32 (sat32 l.fcount))) ∧
       (quiescent u l = true → src ≠ u.pkg → ∃ k, exec (.wave src e) s = .next (sendEnv u src l.lid k) ∧ IsControl u page 9 e.lseq home k ∧
         k.arg0 = e.arg0 ∧ k.arg1 = BitVec.ofNat 32 (sat32 l.fcount) ∧ k.arg2 = cat (BitVec.ofNat 32 l.sent) (BitVec.ofNat 32 l.recv) ∧
         k.payload = leBytes 4 (l.fcode.toNat * 65536 + l.fnode) ++ leBytes 4 l.nteams ++ leBytes 4 l.nrecs ++ leBytes 4 l.dropped ++
           leBytes 4 l.spillmax ++ leBytes 12 0) ∧
       (quiescent u l = false → ∃ t l', exec (.wave src e) s = .next t ∧ launchBy t page e.lseq home = some l' ∧
         l'.wave = some e.arg0.toNat)) ∧
     (∀ r, Takes 4 9 src e s page u → rootOf u page e.lseq home = some r → r.finished = false → e.arg0.toNat = r.wave →
       r.replies.any (fun x => x.1 == src) = false →
       let rs := r.replies ++ [(src, e)]
       let sums := ((rs.map (fun x => (hi32 x.2.arg2).toNat)).sum, (rs.map (fun x => (lo32 x.2.arg2).toNat)).sum)
       ∃ t q, exec (.reply src e) s = .next t ∧ rootOf t page e.lseq home = some q ∧
         ((∃ p ∈ r.members, ∀ x ∈ rs, x.1 ≠ p) → q.replies = rs ∧ q.wave = r.wave) ∧
         ((∀ p ∈ r.members, ∃ x ∈ rs, x.1 = p) → r.prev = some sums → sums.1 = sums.2 → q.finished = true) ∧
         ((∀ p ∈ r.members, ∃ x ∈ rs, x.1 = p) → r.prev ≠ some sums → q.wave = r.wave + 1 ∧ q.prev = some sums ∧ q.replies = [])) ∧
     (∀ l, Takes 4 10 src e s page u → launchBy u page e.lseq home = some l →
       let n := e.arg0.toNat
       let l' := { l with final := l.final ++ [n], totals := if n = 0 then wordsOf (e.payload.take 64) else l.totals,
                          fpkgs := if n = 3 then (List.range 1024).filter (fun i => (leVal e.payload).testBit i) else l.fpkgs }
       let put (y : State) := if n = 0 ∨ l.r.cpl = 0 ∨ l.r.pod = false then y else
         dispWrite y (y.ctx page).d (l.r.cpl + BitVec.ofNat 64 (64 + [0, 0x40, 0xC0, 0x140, 0].getD n 0)) (if n = 4 then e.payload.take 64 else e.payload)
       (∀ y, home = u.pkg → n ≤ 4 → n ∉ l.final → cplClear u l = (true, y) → y.pkg = u.pkg →
         let w := modLaunch (put y) l.lid (fun _ => l')
         (l.final.length < 4 → w.settled = true → exec (.final src e) s = .next w) ∧
         (l.final.length = 4 → (closeHome w l').settled = true →
           exec (.final src e) s = .next (closeHome w l') ∧ ∀ k ∈ (closeHome w l').launches, k.lid ≠ l.lid)) ∧
       (home ≠ u.pkg →
         let x := closeLaunch (killTeams (dropRetained u l.lid) true (fun _ t => t.lid == l.lid)) l.lid 0 [] []
         x.settled = true → exec (.final src e) s = .next x ∧ ∀ k ∈ x.launches, k.lid ≠ l.lid))) ∧
  (∀ (src : Nat) (e : Envelope) (s u : State) (page : Nat) (l : Launch), s.settled = true →
     let home := e.home.toNat
     (∀ tok v, Takes 4 11 src e s page u → launchBy u page e.lseq home = some l →
       podArrive u l (e.arg0.toNat % 16) (bits e.arg1 0 24) = (tok, v) → src = v.pkg → ∃ t, exec (.pbarv src e) s = .next t ∧
         t.launches = v.launches ∧ t.groups = v.groups ∧ Owes t (.pbres src) (fun k => k.arg0 = lo32 e.arg2 ∧ k.arg1 = tok)) ∧
     (∀ tok v, Takes 4 11 src e s page u → launchBy u page e.lseq home = some l →
       podArrive u l (e.arg0.toNat % 16) (bits e.arg1 0 24) = (tok, v) → src ≠ v.pkg → ∃ k, exec (.pbarv src e) s = .next (sendEnv v src 0 k) ∧
         IsControl u page 12 e.lseq home k ∧ k.arg0 = lo32 e.arg2 ∧ k.arg1 = tok ∧ k.payload = []) ∧
     (∀ place slot n dst m, Takes 4 12 src e s page u → launchBy u page e.lseq home = some l →
       Waits u place slot (.podtok e.arg0 l.lid n true dst m) →
       ∃ t, exec (.pbres src e) s = .next t ∧ Wakes t place slot ∧ fget (t.group place).s dst 0 = e.arg1) ∧
     (∀ place slot pd m, Takes 4 13 src e s page u → launchBy u page e.lseq home = some l → launchOf u l.lid = some l → l.cancel = 0 →
       holderOf u l ≠ u.pkg → bit e.arg2 0 = false → pd ≠ 7 →
       (u.group place).h.wait = none → (∀ f, (u.group place).frag (1 - slot) = some f → f.wait = none) →
       Waits u place slot (.podbar l.lid (e.arg0.toNat % 16) ((bits e.arg1 0 16).setWidth 32) pd m) →
       ∃ t, exec (.pbrel src e) s = .next t ∧ Wakes t place slot ∧ ∀ i < 32, bit m i = true → (t.group place).heldP pd i = true) ∧
     (Takes 4 14 src e s page u → src = u.pkg → ∃ t, exec (.query src e) s = .next t ∧ Owes t (.answer src) (fun k =>
       k.arg0 = podValue u page (rootOf u page e.lseq home) e.arg0.toNat e.arg1.toNat src)) ∧
     (Takes 4 14 src e s page u → src ≠ u.pkg → ∃ k, exec (.query src e) s = .next (sendEnv u src 0 k) ∧
       IsControl u page 15 e.lseq home k ∧ k.arg0 = podValue u page (rootOf u page e.lseq home) e.arg0.toNat e.arg1.toNat src ∧ k.payload = []) ∧
     (∀ q rest place slot sd, Takes 4 15 src e s page u → launchBy u page e.lseq home = some l → launchOf u l.lid = some l →
       l.queries = q :: rest → Waits u place slot (.podqry q.1 sd) →
       ∃ t l', exec (.answer src e) s = .next t ∧ Wakes t place slot ∧ fget (t.group place).s sd 0 = e.arg0 ∧ launchOf t l.lid = some l' ∧
         l'.queries = rest))

/-! ### Contexts and the system controller -/

/-- A context's life on its page (R31 to R34, R414 to R416): LOAD of a descriptor that passes every check runs it, and one that does not
is refused with the lowest failing field; HALT, PREEMPTION_SAVE, RESUME, TERM and UNLOAD move STATE as R414 says. The host launch queue
(R415): the doorbell is taken when no more than QSIZE records then wait, else QERR is set; a record consumed advances QHEAD and takes an
LSEQ. It rests on the model's choices of log 103, 105, 106, 107. -/
def Obligations.ContextsChangeState : Prop :=
  (∀ (s : State) (page : Nat), s.settled = true →
     let c := s.ctx page
     (page < 4096 → s.sys.stage ≠ 0 → (c.state = 0 ∨ c.state = 5) →
       let b := viewBytes s c.descAddr.toNat 256
       let fails := descFails (wakeUp s) page b
       (bits c.descAddr 0 8 ≠ 0 → ∃ t, exec (.load page) s = .next t ∧ (t.ctx page).state = 5 ∧ (t.ctx page).reason = 0x100) ∧
       (bits c.descAddr 0 8 = 0 → s.gone c.descAddr.toNat = false → ∀ r, minBy id fails = some r →
         ∃ t, exec (.load page) s = .next t ∧ (t.ctx page).state = 5 ∧ (t.ctx page).reason = BitVec.ofNat 16 r) ∧
       (bits c.descAddr 0 8 = 0 → s.gone c.descAddr.toNat = false → fails = [] → s.gone (descOf b).frqbase.toNat = false →
         ∃ t, exec (.load page) s = .next t ∧ (t.ctx page).state = 2 ∧ (t.ctx page).d = descOf b ∧ (t.ctx page).seq = 1 ∧
           (t.ctx page).nextLseq = 1 ∧ (t.ctx page).qerr = c.qerr)) ∧
     (c.state = 2 → ∃ t, exec (.halt page) s = .next t ∧ (t.ctx page).state = 3 ∧ t.groups = s.groups) ∧
     (c.state = 3 → ∀ u, saveContext s page = (true, u) → u.settled = true →
       exec (.preemptionSave page) s = .next u ∧ (u.ctx page).state = 4 ∧ ∀ p ∈ u.pfx, p.page ≠ page) ∧
     (c.state = 4 → let u := doResume s page
       u.settled = true → exec (.resume page) s = .next u ∧ (u.ctx page).state = 2) ∧
     (2 ≤ c.state → c.state ≤ 4 → let u := settleDoom (doom s page termRec)
       u.settled = true → exec (.term page) s = .next u ∧ (u.ctx page).state = 6) ∧
     (c.state = 4 → let v := endContext s page termRec
       let u := freePage v page
       (v.owed = [] → u.settled = true → exec (.unload page) s = .next u ∧ (u.ctx page).state = 0) ∧
       (v.owed ≠ [] → v.settled = true → ∃ t, exec (.unload page) s = .next t ∧ (t.ctx page).state = 6 ∧ t.owed = v.owed ++ [.unload page])) ∧
     (c.state = 6 → ∃ t, exec (.unload page) s = .next t ∧ (t.ctx page).state = 0 ∧ ∀ x ∈ t.launches, x.page ≠ page) ∧
     (c.state = 5 → ∃ t, exec (.unload page) s = .next t ∧ (t.ctx page).state = 0)) ∧
  (∀ (s : State) (page : Nat), s.settled = true →
     let c := s.ctx page
     (∀ v, hostUp s = true → page < 4096 → (v - c.qhead).toNat ≤ c.qsize.toNat → ∃ t, exec (.qtailWrite page v) s = .next t ∧ (t.ctx page).qtail = v ∧
       (t.ctx page).qerr = c.qerr) ∧
     (∀ v, hostUp s = true → page < 4096 → c.qsize.toNat < (v - c.qhead).toNat → ∃ t, exec (.qtailWrite page v) s = .next t ∧ (t.ctx page).qtail = c.qtail ∧
       (t.ctx page).qerr = true) ∧
     (mayConsume s page = true →
       let r := dispRead s c.d (c.qbase + BitVec.ofNat 64 (64 * (c.qhead.toNat % max c.qsize.toNat 1))) 64
       (∀ b v q w, r = .ok b v → acceptLaunch v page (some b) none = (some q, w) →
         let u := ringTaken w page
         u.settled = true → exec (.hostQueueRecordConsume page) s = .next u ∧ (u.ctx page).qhead = (w.ctx page).qhead + 1 ∧
           ∀ x y, checkLaunch v page b = .ok (.inl x) y → q = (y.ctx page).nextLseq ∧ (w.ctx page).nextLseq = nextSeq q) ∧
       (r = .unusable →
         let u := (acceptLaunch (ringTaken s page) page none none).2
         u.settled = true → exec (.hostQueueRecordConsume page) s = .next u)))

/-- Staged start, reset and the pod root's loss (R394, R412, R423): each entry without an error raises STAGE and clears ERR, stage 3
takes PKG and the lowest joined package as the pod root; a failure is reported in ERR and STAGE stays; a host reset leaves the package as
after reset. Power states and attestation (R420, R424): PCEIL takes effect on the budget at once, clocks fall when the charges fit, the
idle states are entered and left as LATTOL and work say; the attestation command leaves in the mailbox the measurement of the images'
digests, CAPS, the key, the signature over nonce, measurement and CAPS, and status 2. It rests on the model's choices of log 3, 96, 99,
100, 101, 102, 147. -/
def Obligations.StagesAdvance : Prop :=
  (∀ (s : State), s.settled = true →
     (∀ v, s.sys.going = 0 → ∃ t, exec (.pcieLinkUp v) s = .next t ∧ t.sys.going = 1 ∧ t.sys.stage = s.sys.stage ∧
       (v.length = 9 → (∀ i ∈ v, Image.ok i = true) → t.sys.err = 0) ∧ (v.length ≠ 9 ∨ (∃ i ∈ v, Image.ok i = false) → t.sys.err = 1) ∧ t.sys.digests = v.map (fun i => i.digest)) ∧
     (∃ t, exec .hostReset s = .next t ∧ t.sys = State.reset.sys ∧ t.ctxs = [] ∧ t.launches = [] ∧ t.groups = [] ∧ t.teams = [] ∧
       ∀ k, 2 ^ 52 ≤ k → k < 2 ^ 64 → ffind t.mem k = ffind s.mem k) ∧
     (s.sys.stage = 0 → s.sys.going = 1 → s.sys.err ≠ 1 →
       (∃ t, exec (.stage1Entry 0) s = .next t ∧ t.sys.stage = 1 ∧ t.sys.err = 0) ∧
       (∀ e, e = 2 ∨ e = 3 → ∃ t, exec (.stage1Entry e) s = .next t ∧ t.sys.stage = 0 ∧ t.sys.err = e)) ∧
     (s.sys.stage = 1 → anyLoaded s = false → ∃ t, exec .go2 s = .next t ∧ t.sys.going = 2 ∧ t.sys.stage = 1) ∧
     (s.sys.stage = 1 → s.sys.going = 2 → anyLoaded s = false →
       (∃ t, exec (.stage2Entry 0) s = .next t ∧ t.sys.stage = 2 ∧ t.sys.err = 0) ∧
       (∀ e, e = 2 ∨ e = 3 → ∃ t, exec (.stage2Entry e) s = .next t ∧ t.sys.stage = 1 ∧ t.sys.err = e)) ∧
     (s.sys.stage = 2 → ∃ t, exec .go3 s = .next t ∧ t.sys.going = 3 ∧ t.sys.stage = 2) ∧
     (∀ ports pkg joined, s.sys.stage = 2 → s.sys.going = 3 → s.owed = [] → pkg.toNat ∈ joined →
       (ports ≠ 0 → ∃ t, exec (.stage3Entry ports pkg joined) s = .next t ∧ t.sys.stage = 3 ∧ t.sys.pkg = pkg ∧ t.sys.ports = ports ∧
         t.sys.err = 0 ∧ t.link.root = minBy id joined ∧ t.link.joined = joined) ∧
       (ports = 0 → ∃ t, exec (.stage3Entry ports pkg joined) s = .next t ∧ t.sys.stage = 2 ∧ t.sys.err = 4)) ∧
     (∀ joined p, s.sys.stage = 3 → s.pkg ∈ joined → s.link.root = some p → p ∉ joined →
       (∀ l ∈ s.launches, l.r.pod = true → l.r.cpl = 0 ∧ ∀ t ∈ s.teams, t.2.lid ≠ l.lid) →
       ∃ t, exec (.podRootLeaves joined) s = .next t ∧ t.link.root = minBy (fun p => p) joined ∧ t.link.joined = joined ∧
         t.link.pseq = nextSeq s.link.started ∧ ∀ l ∈ t.launches, l.r.pod = false)) ∧
  (∀ (s : State), s.settled = true →
     (∀ v, hostUp s = true → bits v 0 2 ≠ 3 → s.sys.pstate < 3 → ∃ t, exec (.pceilWrite v) s = .next t ∧ t.sys.pceil = bits v 0 2 ∧
       t.sys.budget = budgetOf (bits v 0 2).toNat ∧ t.sys.pstate = min s.sys.pstate (bits v 0 2).toNat) ∧
     (s.sys.pstate < s.sys.pceil.toNat → (∀ core < 128, (coreUse s core).charge ≤ s.sys.budget) →
       ∃ t, exec .clockLower s = .next t ∧ t.sys.pstate = s.sys.pceil.toNat ∧ t.sys.budget = s.sys.budget) ∧
     (∀ p, hasWork s = false → s.sys.wake = false → idleState s.sys.lattol = some p → p ≠ s.sys.pstate →
       ∃ t, exec .idleEntry s = .next t ∧ t.sys.pstate = p ∧ t.sys.budget = 0) ∧
     (3 ≤ s.sys.pstate → (s.sys.wake = true ∨ hasWork s = true ∨ idleState s.sys.lattol = none) →
       ∃ t, exec .idleExit s = .next t ∧ t.sys.pstate = s.sys.pceil.toNat ∧ t.sys.budget = budgetOf s.sys.pceil.toNat ∧ t.sys.wake = false) ∧
     (s.sys.going ≠ 0 → ∃ t, exec .attestCommand s = .next t ∧ getAttest t 0x80 4 = leBytes 4 (caps s).toNat ∧
       getAttest t 0x1FC 4 = leBytes 4 2 ∧ getAttest t 0 32 = getAttest s 0 32 ∧
       getAttest t 0x40 64 = sha512Bytes (s.sys.digests.flatMap (fun d => leBytes 64 d.toNat)) ∧
       getAttest t 0xC0 32 = leBytes 32 (ed25519Public Config.identitySeed).toNat ∧
       getAttest t 0x100 64 = leBytes 64 (ed25519Sign Config.identitySeed (getAttest t 0 32 ++ getAttest t 0x40 64 ++ getAttest t 0x80 4)).toNat))

/-- Invalidation, migration and the monitors (R418, R419, R421, R422, R224, R225): INVGO stays busy until its lines have been given up; a
page claim of the host or of the driver waits, is granted or answered RETRY, and ends; where claims of both wait for one page every one
of the side that HOME does not name is answered RETRY; CLR, samples, scrubbing and row remapping leave what those rules say. It rests on
the model's choices of log 52, 110, 111, 112. -/
def Obligations.ControllerServices : Prop :=
  ∀ (s : State), s.settled = true →
    (∀ ok u, hostUp s = true → s.sys.inv = none → bits s.sys.invbase 0 16 = 0 → bits s.sys.invasid 12 20 = 0 →
      let r := (bits s.sys.invasid 0 12, if s.sys.invcnt = 0 then none else some (s.sys.invbase.toNat, 65536 * s.sys.invcnt.toNat))
      tryInvalidate (s.modSys (fun y => { y with inv := some r })) r = (ok, u) → u.settled = true →
      ∃ t, exec .invgo s = .next t ∧ t.mem = u.mem ∧ t.tlb = u.tlb ∧ t.sys.inv = (if ok then none else u.sys.inv)) ∧
    (hostUp s = true → s.sys.mig ≠ 1 → s.sys.mig ≠ 2 → ∃ t c, exec .migRequest s = .next t ∧ t.claims = s.claims ++ [c] ∧ c.host = true ∧
      c.asid = bits s.sys.migasid 0 12 ∧ c.unit = s.sys.migva.toNat / 65536 ∧ c.granted = false ∧ t.sys.mig = 1) ∧
    (∀ c, s.claims.find? (fun c => !c.granted && !s.claims.any (fun x => x.granted && samePage s x c)) = some c →
      (s.claims.find? (fun x => !x.granted && x.host != c.host && samePage s x c) = none →
        let told (t : State) (granted : Bool) : Prop := (c.host = true → t.sys.mig = (if granted then 2 else 3)) ∧
          (c.host = false → t.out = s.out ++ [.claim ((pageOfAsid s c.asid).getD 0) c.seq granted])
        (pageOfAsid s c.asid = none → ∃ t, exec .moveClaimGrant s = .next t ∧ told t false ∧ t.claims = s.claims.erase c) ∧
        (∀ k e b, claimLeaf s c = some (k, e, b) →
          (bit e pteShr = true → ∃ t, exec .moveClaimGrant s = .next t ∧ told t false ∧ t.claims = s.claims.erase c) ∧
          (bit e pteShr = false → ∃ t c', exec .moveClaimGrant s = .next t ∧ told t true ∧ c' ∈ t.claims ∧ c'.granted = true ∧
            c'.asid = c.asid ∧ c'.unit = c.unit ∧ c'.loc = some (pteLoc e)))) ∧
      (∀ x k e b, s.claims.find? (fun x => !x.granted && x.host != c.host && samePage s x c) = some x → claimLeaf s c = some (k, e, b) →
        ∃ t, exec .moveClaimGrant s = .next t ∧ ∀ y ∈ s.claims, y.granted = false → y.host ≠ bit e pteHome → samePage s y c = true →
          y ∉ t.claims ∧ (y.host = true → t.sys.mig = 3) ∧
          (y.host = false → .claim ((pageOfAsid s c.asid).getD 0) y.seq false ∈ t.out))) ∧
    (∀ c, hostUp s = true → s.claims.find? (fun c => c.granted && c.host) = some c → claimLeaf s c = none →
      ∃ t, exec .migDone s = .next t ∧ t.sys.mig = 0 ∧ t.claims = s.claims.erase c) ∧
    (∀ c k e b was, hostUp s = true → s.claims.find? (fun c => c.granted && c.host) = some c → claimLeaf s c = some (k, e, b) → c.loc = some was →
      pteLoc e = 1 → was = 0 → (∀ m ∈ s.moves, m.page ≠ b) →
      ∃ t m, exec .migDone s = .next t ∧ t.sys.mig = 0 ∧ m ∈ t.moves ∧ m.page = b ∧ m.asid = c.asid ∧ m.toHost = some true ∧ m.revs = 0) ∧
    (∀ blk, blk < 64 → hostUp s = true → ∃ t, exec (.monitorClr blk) s = .next t ∧ t.mon blk = (s.mon blk).cleared s.monNow) ∧
    (∀ w, s.sys.fabpow < s.sys.fab / 2 ^ 20 → ∃ t, exec (.powerSampleTimer w) s = .next t ∧ t.sys.fabpow = s.sys.fab / 2 ^ 20 ∧
      ∀ blk m, ffind s.sys.mons blk = some m → m.hears 8 0 = true → ffind t.sys.mons blk = some (m.note s.monNow w)) ∧
    (∀ stack temp errs, stackUp s stack = true → fget s.sys.scrubs stack 0 ≤ s.sys.fab / 2 ^ 36 →
      ∃ t, exec (.scrubPass stack temp errs) s = .next t ∧ fget t.sys.scrubs stack 0 = s.sys.fab / 2 ^ 36 + 1 ∧
        fget t.sys.temps stack 0 = temp ∧ t.mem = s.mem) ∧
    (∀ stack row, 16 ≤ fget s.sys.corrected (rowKey stack row) 0 → ∃ t, exec (.rowRemap stack row) s = .next t ∧
      fget t.sys.corrected (rowKey stack row) 0 = 0 ∧ t.sys.remapped = s.sys.remapped ++ [rowKey stack row] ∧ t.mem = s.mem)

/-- The host's accesses (R413): a register write does what the register space says of its address, here of LATTOL and of a page's QSIZE
in STATE 0; a byte of the aperture that an allocation holds outside every window and queue area is local memory's; memory is accessed at
its translation. It rests on the model's choices of log 37, 108. -/
def Obligations.HostAccesses : Prop :=
  ∀ (s : State), s.settled = true →
    (∀ off n v, (barWrite s off n v).settled = true → exec (.registerWrite off n v) s = .next (barWrite s off n v)) ∧
    (∀ v, (hostUp s = true → (barWrite s 0x0C 4 v).sys.lattol = lo32 v) ∧
      (s.sys.going = 0 → barWrite s 0x0C 4 v = s) ∧
      (∀ page, page < 4096 → hostUp s = true → (s.ctx page).state = 0 →
        ((barWrite s (0x100000 + 4096 * page + 0x18) 4 v).ctx page).qsize = lo32 v)) ∧
    (∀ write off v core tid, hostUp s = true → core < 128 → off < 2 ^ 21 → holderOfByte s core off = some tid →
      (s.team tid).core = core → (s.team tid).base ≤ off → off < (s.team tid).base + (s.team tid).size →
      windowAt (s.team tid) (off - (s.team tid).base) = none → (∀ x ∈ (s.team tid).streams, x.2.touched (off - (s.team tid).base) 1 = []) →
      ∃ t, exec (.hostApertureAccess write (0x10000000 + 2 ^ 21 * core + off) 1 v) s = .next t ∧
        (write = true → t.byteAt (localKey core off) = bits v 0 8 ∧ ∀ k, k ≠ localKey core off → t.byteAt k = s.byteAt k) ∧
        (write = false → t.mem = s.mem ∧ t.out = s.out ++ [.hostData (BitVec.ofNat 64 (s.byteAt (localKey core off)).toNat)])) ∧
    (∀ write page va n v b u, 2 ≤ (s.ctx page).state → (s.ctx page).state ≤ 4 → 1 ≤ n → n ≤ 8 → inTranslated va n = true →
      va.toNat % 65536 + n ≤ 65536 → hostAccess s (s.ctx page).d va n (if write then some (leBytes n v.toNat) else none) = .ok b u →
      u.settled = true → ∃ t, exec (.hostMemoryAccess write page va n v) s = .next t ∧ t.mem = u.mem ∧
        (write = false → t.out = u.out ++ [.hostData (BitVec.ofNat 64 (leVal b))]))
end

