-- ==== Sys2Proof/Laws/Map.lean ====
section
/-! SUPPORT. Finite maps: what a key reads after an update, and that updates keep the canonical form. -/
namespace Sys2Proof.Machine

variable {β : Type}

/-! ### Reading -/

@[simp] theorem ffind_nil (k : Nat) : ffind ([] : FMap β) k = none := rfl

/-- A key reads what was put there. -/
@[simp] theorem ffind_fput_self (m : FMap β) (k : Nat) (v : β) : ffind (fput m k v) k = some v := by
  induction m with
  | nil => simp [fput, ffind]
  | cons x m ih =>
    obtain ⟨i, u⟩ := x
    simp only [fput]
    split
    · simp [ffind]
    · split
      · simp [ffind]
      · rename_i h1 h2
        have : (i == k) = false := by simp; omega
        simp [ffind, this, ih]

/-- Another key reads as before. -/
theorem ffind_fput_ne (m : FMap β) {k j : Nat} (v : β) (h : j ≠ k) : ffind (fput m k v) j = ffind m j := by
  induction m with
  | nil =>
    have : (k == j) = false := by simp; omega
    simp [fput, ffind, this]
  | cons x m ih =>
    obtain ⟨i, u⟩ := x
    simp only [fput]
    have hk : (k == j) = false := by simp; omega
    split
    · simp [ffind, hk]
    · split
      · rename_i h1 h2
        subst h2
        simp [ffind, hk]
      · simp [ffind, ih]

/-! ### The canonical form -/

variable [DecidableEq β]

theorem fwfFrom_mono {d : β} {a b : Nat} (h : a ≤ b) {m : FMap β} (hm : fwfFrom d b m = true) : fwfFrom d a m = true := by
  cases m with
  | nil => rfl
  | cons x m =>
    obtain ⟨k, v⟩ := x
    simp only [fwfFrom, Bool.and_eq_true, decide_eq_true_eq] at *
    exact ⟨⟨by omega, hm.1.2⟩, hm.2⟩

theorem fwfFrom_fput {d v : β} (hv : v ≠ d) {k : Nat} : ∀ {lo : Nat} {m : FMap β}, lo ≤ k → fwfFrom d lo m = true →
    fwfFrom d lo (fput m k v) = true
  | lo, [], hk, _ => by simp [fput, fwfFrom, hk, hv]
  | lo, (i, u) :: m, hk, hm => by
    simp only [fwfFrom, Bool.and_eq_true, decide_eq_true_eq] at hm
    simp only [fput]
    split
    · simp only [fwfFrom, Bool.and_eq_true, decide_eq_true_eq]
      exact ⟨⟨hk, hv⟩, ⟨by omega, hm.1.2⟩, hm.2⟩
    · split
      · rename_i h1 h2
        subst h2
        simp only [fwfFrom, Bool.and_eq_true, decide_eq_true_eq]
        exact ⟨⟨hk, hv⟩, hm.2⟩
      · simp only [fwfFrom, Bool.and_eq_true, decide_eq_true_eq]
        exact ⟨hm.1, fwfFrom_fput hv (by omega) hm.2⟩

theorem fwfFrom_filter {d : β} (f : Nat × β → Bool) : ∀ {lo : Nat} {m : FMap β}, fwfFrom d lo m = true →
    fwfFrom d lo (m.filter f) = true
  | _, [], _ => rfl
  | lo, (i, u) :: m, hm => by
    simp only [fwfFrom, Bool.and_eq_true, decide_eq_true_eq] at hm
    simp only [List.filter_cons]
    split
    · simp only [fwfFrom, Bool.and_eq_true, decide_eq_true_eq]
      exact ⟨hm.1, fwfFrom_filter f hm.2⟩
    · exact fwfFrom_mono (by omega) (fwfFrom_filter f hm.2)

theorem fwfFrom_fdel {d : β} {k lo : Nat} {m : FMap β} (hm : fwfFrom d lo m = true) : fwfFrom d lo (fdel m k) = true :=
  fwfFrom_filter _ hm

/-- A write keeps the canonical form. -/
theorem fwf_fset {d v : β} {k : Nat} {m : FMap β} (hm : fwf d m = true) : fwf d (fset m k d v) = true := by
  unfold fset fwf at *
  split
  · exact fwfFrom_fdel hm
  · exact fwfFrom_fput (by assumption) (by omega) hm

/-- Leaving entries out keeps the canonical form. -/
theorem fwf_filter {d : β} (f : Nat × β → Bool) {m : FMap β} (hm : fwf d m = true) : fwf d (m.filter f) = true := fwfFrom_filter f hm

theorem ffind_none_of_fwfFrom {d : β} {k : Nat} : ∀ {lo : Nat} {m : FMap β}, fwfFrom d lo m = true → k < lo → ffind m k = none
  | _, [], _, _ => rfl
  | lo, (i, u) :: m, hm, hk => by
    simp only [fwfFrom, Bool.and_eq_true, decide_eq_true_eq] at hm
    have hi : (i == k) = false := by simp; omega
    simp only [ffind, hi]
    exact ffind_none_of_fwfFrom hm.2 (by omega)

omit [DecidableEq β] in
/-- A removed key is not found. -/
@[simp] theorem ffind_fdel_self (m : FMap β) (k : Nat) : ffind (fdel m k) k = none := by
  induction m with
  | nil => rfl
  | cons x m ih =>
    obtain ⟨i, u⟩ := x
    unfold fdel at ih ⊢
    simp only [List.filter_cons]
    split
    · rename_i h
      have hi : (i == k) = false := by simpa using h
      simp only [ffind, hi]
      exact ih
    · exact ih

omit [DecidableEq β] in
theorem ffind_fdel_ne {k j : Nat} (h : j ≠ k) (m : FMap β) : ffind (fdel m k) j = ffind m j := by
  induction m with
  | nil => rfl
  | cons x m ih =>
    obtain ⟨i, u⟩ := x
    unfold fdel at ih ⊢
    simp only [List.filter_cons]
    split
    · simp only [ffind]
      split
      · rfl
      · exact ih
    · rename_i hc
      have hik : i = k := by simpa using hc
      have hi : (i == j) = false := by simp; omega
      simp only [ffind, hi]
      exact ih

/-- A value written at a key is read there, the default included. -/
@[simp] theorem fget_fset_self (m : FMap β) (k : Nat) (d v : β) : fget (fset m k d v) k d = v := by
  unfold fget fset
  split
  · rename_i h
    rw [ffind_fdel_self, h]; rfl
  · simp

/-- Another key reads as before. -/
theorem fget_fset_ne {d v : β} {k j : Nat} (m : FMap β) (h : j ≠ k) : fget (fset m k d v) j d = fget m j d := by
  unfold fget fset
  split
  · rw [ffind_fdel_ne h m]
  · rw [ffind_fput_ne m v h]

end Sys2Proof.Machine
end

