-- ==== Sys2Proof/Laws/State.lean ====
section
/-! SUPPORT. The fields of State after each of its updates, one lemma each. -/
namespace Sys2Proof.Machine

/-! ### setCtx -/

@[simp] theorem State.setCtx_mem (s : State) (p : Nat) (c : Ctx) : (s.setCtx p c).mem = s.mem := rfl
@[simp] theorem State.setCtx_undef (s : State) (p : Nat) (c : Ctx) : (s.setCtx p c).undef = s.undef := rfl
@[simp] theorem State.setCtx_groups (s : State) (p : Nat) (c : Ctx) : (s.setCtx p c).groups = s.groups := rfl
@[simp] theorem State.setCtx_teams (s : State) (p : Nat) (c : Ctx) : (s.setCtx p c).teams = s.teams := rfl
@[simp] theorem State.setCtx_ops (s : State) (p : Nat) (c : Ctx) : (s.setCtx p c).ops = s.ops := rfl
@[simp] theorem State.setCtx_arrivals (s : State) (p : Nat) (c : Ctx) : (s.setCtx p c).arrivals = s.arrivals := rfl
@[simp] theorem State.setCtx_launches (s : State) (p : Nat) (c : Ctx) : (s.setCtx p c).launches = s.launches := rfl
@[simp] theorem State.setCtx_formed (s : State) (p : Nat) (c : Ctx) : (s.setCtx p c).formed = s.formed := rfl
@[simp] theorem State.setCtx_tlb (s : State) (p : Nat) (c : Ctx) : (s.setCtx p c).tlb = s.tlb := rfl
@[simp] theorem State.setCtx_claims (s : State) (p : Nat) (c : Ctx) : (s.setCtx p c).claims = s.claims := rfl
@[simp] theorem State.setCtx_moves (s : State) (p : Nat) (c : Ctx) : (s.setCtx p c).moves = s.moves := rfl
@[simp] theorem State.setCtx_hot (s : State) (p : Nat) (c : Ctx) : (s.setCtx p c).hot = s.hot := rfl
@[simp] theorem State.setCtx_pfx (s : State) (p : Nat) (c : Ctx) : (s.setCtx p c).pfx = s.pfx := rfl
@[simp] theorem State.setCtx_clk (s : State) (p : Nat) (c : Ctx) : (s.setCtx p c).clk = s.clk := rfl
@[simp] theorem State.setCtx_skew (s : State) (p : Nat) (c : Ctx) : (s.setCtx p c).skew = s.skew := rfl
@[simp] theorem State.setCtx_bad (s : State) (p : Nat) (c : Ctx) : (s.setCtx p c).bad = s.bad := rfl
@[simp] theorem State.setCtx_issued (s : State) (p : Nat) (c : Ctx) : (s.setCtx p c).issued = s.issued := rfl
@[simp] theorem State.setCtx_locUse (s : State) (p : Nat) (c : Ctx) : (s.setCtx p c).locUse = s.locUse := rfl
@[simp] theorem State.setCtx_forward (s : State) (p : Nat) (c : Ctx) : (s.setCtx p c).forward = s.forward := rfl
@[simp] theorem State.setCtx_sys (s : State) (p : Nat) (c : Ctx) : (s.setCtx p c).sys = s.sys := rfl
@[simp] theorem State.setCtx_link (s : State) (p : Nat) (c : Ctx) : (s.setCtx p c).link = s.link := rfl
@[simp] theorem State.setCtx_out (s : State) (p : Nat) (c : Ctx) : (s.setCtx p c).out = s.out := rfl
@[simp] theorem State.setCtx_cur (s : State) (p : Nat) (c : Ctx) : (s.setCtx p c).cur = s.cur := rfl
@[simp] theorem State.setCtx_agenda (s : State) (p : Nat) (c : Ctx) : (s.setCtx p c).agenda = s.agenda := rfl
@[simp] theorem State.setCtx_owed (s : State) (p : Nat) (c : Ctx) : (s.setCtx p c).owed = s.owed := rfl
@[simp] theorem State.setCtx_serial (s : State) (p : Nat) (c : Ctx) : (s.setCtx p c).serial = s.serial := rfl
@[simp] theorem State.setCtx_turn (s : State) (p : Nat) (c : Ctx) : (s.setCtx p c).turn = s.turn := rfl
@[simp] theorem State.setCtx_fresh (s : State) (p : Nat) (c : Ctx) : (s.setCtx p c).fresh = s.fresh := rfl
@[simp] theorem State.setCtx_absent (s : State) (p : Nat) (c : Ctx) : (s.setCtx p c).absent = s.absent := rfl

/-! ### setTeam -/

@[simp] theorem State.setTeam_mem (s : State) (i : Nat) (x : Team) : (s.setTeam i x).mem = s.mem := rfl
@[simp] theorem State.setTeam_undef (s : State) (i : Nat) (x : Team) : (s.setTeam i x).undef = s.undef := rfl
@[simp] theorem State.setTeam_groups (s : State) (i : Nat) (x : Team) : (s.setTeam i x).groups = s.groups := rfl
@[simp] theorem State.setTeam_ops (s : State) (i : Nat) (x : Team) : (s.setTeam i x).ops = s.ops := rfl
@[simp] theorem State.setTeam_arrivals (s : State) (i : Nat) (x : Team) : (s.setTeam i x).arrivals = s.arrivals := rfl
@[simp] theorem State.setTeam_launches (s : State) (i : Nat) (x : Team) : (s.setTeam i x).launches = s.launches := rfl
@[simp] theorem State.setTeam_formed (s : State) (i : Nat) (x : Team) : (s.setTeam i x).formed = s.formed := rfl
@[simp] theorem State.setTeam_ctxs (s : State) (i : Nat) (x : Team) : (s.setTeam i x).ctxs = s.ctxs := rfl
@[simp] theorem State.setTeam_tlb (s : State) (i : Nat) (x : Team) : (s.setTeam i x).tlb = s.tlb := rfl
@[simp] theorem State.setTeam_claims (s : State) (i : Nat) (x : Team) : (s.setTeam i x).claims = s.claims := rfl
@[simp] theorem State.setTeam_moves (s : State) (i : Nat) (x : Team) : (s.setTeam i x).moves = s.moves := rfl
@[simp] theorem State.setTeam_hot (s : State) (i : Nat) (x : Team) : (s.setTeam i x).hot = s.hot := rfl
@[simp] theorem State.setTeam_pfx (s : State) (i : Nat) (x : Team) : (s.setTeam i x).pfx = s.pfx := rfl
@[simp] theorem State.setTeam_clk (s : State) (i : Nat) (x : Team) : (s.setTeam i x).clk = s.clk := rfl
@[simp] theorem State.setTeam_skew (s : State) (i : Nat) (x : Team) : (s.setTeam i x).skew = s.skew := rfl
@[simp] theorem State.setTeam_bad (s : State) (i : Nat) (x : Team) : (s.setTeam i x).bad = s.bad := rfl
@[simp] theorem State.setTeam_issued (s : State) (i : Nat) (x : Team) : (s.setTeam i x).issued = s.issued := rfl
@[simp] theorem State.setTeam_locUse (s : State) (i : Nat) (x : Team) : (s.setTeam i x).locUse = s.locUse := rfl
@[simp] theorem State.setTeam_forward (s : State) (i : Nat) (x : Team) : (s.setTeam i x).forward = s.forward := rfl
@[simp] theorem State.setTeam_sys (s : State) (i : Nat) (x : Team) : (s.setTeam i x).sys = s.sys := rfl
@[simp] theorem State.setTeam_link (s : State) (i : Nat) (x : Team) : (s.setTeam i x).link = s.link := rfl
@[simp] theorem State.setTeam_out (s : State) (i : Nat) (x : Team) : (s.setTeam i x).out = s.out := rfl
@[simp] theorem State.setTeam_cur (s : State) (i : Nat) (x : Team) : (s.setTeam i x).cur = s.cur := rfl
@[simp] theorem State.setTeam_agenda (s : State) (i : Nat) (x : Team) : (s.setTeam i x).agenda = s.agenda := rfl
@[simp] theorem State.setTeam_owed (s : State) (i : Nat) (x : Team) : (s.setTeam i x).owed = s.owed := rfl
@[simp] theorem State.setTeam_serial (s : State) (i : Nat) (x : Team) : (s.setTeam i x).serial = s.serial := rfl
@[simp] theorem State.setTeam_turn (s : State) (i : Nat) (x : Team) : (s.setTeam i x).turn = s.turn := rfl
@[simp] theorem State.setTeam_fresh (s : State) (i : Nat) (x : Team) : (s.setTeam i x).fresh = s.fresh := rfl
@[simp] theorem State.setTeam_absent (s : State) (i : Nat) (x : Team) : (s.setTeam i x).absent = s.absent := rfl

/-! ### setGroup -/

@[simp] theorem State.setGroup_mem (s : State) (p : Nat) (g : Group) : (s.setGroup p g).mem = s.mem := rfl
@[simp] theorem State.setGroup_undef (s : State) (p : Nat) (g : Group) : (s.setGroup p g).undef = s.undef := rfl
@[simp] theorem State.setGroup_teams (s : State) (p : Nat) (g : Group) : (s.setGroup p g).teams = s.teams := rfl
@[simp] theorem State.setGroup_ops (s : State) (p : Nat) (g : Group) : (s.setGroup p g).ops = s.ops := rfl
@[simp] theorem State.setGroup_arrivals (s : State) (p : Nat) (g : Group) : (s.setGroup p g).arrivals = s.arrivals := rfl
@[simp] theorem State.setGroup_launches (s : State) (p : Nat) (g : Group) : (s.setGroup p g).launches = s.launches := rfl
@[simp] theorem State.setGroup_formed (s : State) (p : Nat) (g : Group) : (s.setGroup p g).formed = s.formed := rfl
@[simp] theorem State.setGroup_ctxs (s : State) (p : Nat) (g : Group) : (s.setGroup p g).ctxs = s.ctxs := rfl
@[simp] theorem State.setGroup_tlb (s : State) (p : Nat) (g : Group) : (s.setGroup p g).tlb = s.tlb := rfl
@[simp] theorem State.setGroup_claims (s : State) (p : Nat) (g : Group) : (s.setGroup p g).claims = s.claims := rfl
@[simp] theorem State.setGroup_moves (s : State) (p : Nat) (g : Group) : (s.setGroup p g).moves = s.moves := rfl
@[simp] theorem State.setGroup_hot (s : State) (p : Nat) (g : Group) : (s.setGroup p g).hot = s.hot := rfl
@[simp] theorem State.setGroup_pfx (s : State) (p : Nat) (g : Group) : (s.setGroup p g).pfx = s.pfx := rfl
@[simp] theorem State.setGroup_clk (s : State) (p : Nat) (g : Group) : (s.setGroup p g).clk = s.clk := rfl
@[simp] theorem State.setGroup_skew (s : State) (p : Nat) (g : Group) : (s.setGroup p g).skew = s.skew := rfl
@[simp] theorem State.setGroup_bad (s : State) (p : Nat) (g : Group) : (s.setGroup p g).bad = s.bad := rfl
@[simp] theorem State.setGroup_issued (s : State) (p : Nat) (g : Group) : (s.setGroup p g).issued = s.issued := rfl
@[simp] theorem State.setGroup_locUse (s : State) (p : Nat) (g : Group) : (s.setGroup p g).locUse = s.locUse := rfl
@[simp] theorem State.setGroup_forward (s : State) (p : Nat) (g : Group) : (s.setGroup p g).forward = s.forward := rfl
@[simp] theorem State.setGroup_sys (s : State) (p : Nat) (g : Group) : (s.setGroup p g).sys = s.sys := rfl
@[simp] theorem State.setGroup_link (s : State) (p : Nat) (g : Group) : (s.setGroup p g).link = s.link := rfl
@[simp] theorem State.setGroup_out (s : State) (p : Nat) (g : Group) : (s.setGroup p g).out = s.out := rfl
@[simp] theorem State.setGroup_cur (s : State) (p : Nat) (g : Group) : (s.setGroup p g).cur = s.cur := rfl
@[simp] theorem State.setGroup_agenda (s : State) (p : Nat) (g : Group) : (s.setGroup p g).agenda = s.agenda := rfl
@[simp] theorem State.setGroup_owed (s : State) (p : Nat) (g : Group) : (s.setGroup p g).owed = s.owed := rfl
@[simp] theorem State.setGroup_serial (s : State) (p : Nat) (g : Group) : (s.setGroup p g).serial = s.serial := rfl
@[simp] theorem State.setGroup_turn (s : State) (p : Nat) (g : Group) : (s.setGroup p g).turn = s.turn := rfl
@[simp] theorem State.setGroup_fresh (s : State) (p : Nat) (g : Group) : (s.setGroup p g).fresh = s.fresh := rfl
@[simp] theorem State.setGroup_absent (s : State) (p : Nat) (g : Group) : (s.setGroup p g).absent = s.absent := rfl

/-! ### setByte -/

@[simp] theorem State.setByte_groups (s : State) (k : Nat) (b : Byte) : (s.setByte k b).groups = s.groups := rfl
@[simp] theorem State.setByte_teams (s : State) (k : Nat) (b : Byte) : (s.setByte k b).teams = s.teams := rfl
@[simp] theorem State.setByte_ops (s : State) (k : Nat) (b : Byte) : (s.setByte k b).ops = s.ops := rfl
@[simp] theorem State.setByte_arrivals (s : State) (k : Nat) (b : Byte) : (s.setByte k b).arrivals = s.arrivals := rfl
@[simp] theorem State.setByte_launches (s : State) (k : Nat) (b : Byte) : (s.setByte k b).launches = s.launches := rfl
@[simp] theorem State.setByte_formed (s : State) (k : Nat) (b : Byte) : (s.setByte k b).formed = s.formed := rfl
@[simp] theorem State.setByte_ctxs (s : State) (k : Nat) (b : Byte) : (s.setByte k b).ctxs = s.ctxs := rfl
@[simp] theorem State.setByte_tlb (s : State) (k : Nat) (b : Byte) : (s.setByte k b).tlb = s.tlb := rfl
@[simp] theorem State.setByte_claims (s : State) (k : Nat) (b : Byte) : (s.setByte k b).claims = s.claims := rfl
@[simp] theorem State.setByte_moves (s : State) (k : Nat) (b : Byte) : (s.setByte k b).moves = s.moves := rfl
@[simp] theorem State.setByte_hot (s : State) (k : Nat) (b : Byte) : (s.setByte k b).hot = s.hot := rfl
@[simp] theorem State.setByte_pfx (s : State) (k : Nat) (b : Byte) : (s.setByte k b).pfx = s.pfx := rfl
@[simp] theorem State.setByte_clk (s : State) (k : Nat) (b : Byte) : (s.setByte k b).clk = s.clk := rfl
@[simp] theorem State.setByte_skew (s : State) (k : Nat) (b : Byte) : (s.setByte k b).skew = s.skew := rfl
@[simp] theorem State.setByte_bad (s : State) (k : Nat) (b : Byte) : (s.setByte k b).bad = s.bad := rfl
@[simp] theorem State.setByte_issued (s : State) (k : Nat) (b : Byte) : (s.setByte k b).issued = s.issued := rfl
@[simp] theorem State.setByte_locUse (s : State) (k : Nat) (b : Byte) : (s.setByte k b).locUse = s.locUse := rfl
@[simp] theorem State.setByte_forward (s : State) (k : Nat) (b : Byte) : (s.setByte k b).forward = s.forward := rfl
@[simp] theorem State.setByte_sys (s : State) (k : Nat) (b : Byte) : (s.setByte k b).sys = s.sys := rfl
@[simp] theorem State.setByte_link (s : State) (k : Nat) (b : Byte) : (s.setByte k b).link = s.link := rfl
@[simp] theorem State.setByte_out (s : State) (k : Nat) (b : Byte) : (s.setByte k b).out = s.out := rfl
@[simp] theorem State.setByte_cur (s : State) (k : Nat) (b : Byte) : (s.setByte k b).cur = s.cur := rfl
@[simp] theorem State.setByte_agenda (s : State) (k : Nat) (b : Byte) : (s.setByte k b).agenda = s.agenda := rfl
@[simp] theorem State.setByte_owed (s : State) (k : Nat) (b : Byte) : (s.setByte k b).owed = s.owed := rfl
@[simp] theorem State.setByte_serial (s : State) (k : Nat) (b : Byte) : (s.setByte k b).serial = s.serial := rfl
@[simp] theorem State.setByte_turn (s : State) (k : Nat) (b : Byte) : (s.setByte k b).turn = s.turn := rfl
@[simp] theorem State.setByte_fresh (s : State) (k : Nat) (b : Byte) : (s.setByte k b).fresh = s.fresh := rfl

/-! ### zeroRange -/

@[simp] theorem State.zeroRange_groups (s : State) (lo hi : Nat) : (s.zeroRange lo hi).groups = s.groups := rfl
@[simp] theorem State.zeroRange_teams (s : State) (lo hi : Nat) : (s.zeroRange lo hi).teams = s.teams := rfl
@[simp] theorem State.zeroRange_ops (s : State) (lo hi : Nat) : (s.zeroRange lo hi).ops = s.ops := rfl
@[simp] theorem State.zeroRange_arrivals (s : State) (lo hi : Nat) : (s.zeroRange lo hi).arrivals = s.arrivals := rfl
@[simp] theorem State.zeroRange_launches (s : State) (lo hi : Nat) : (s.zeroRange lo hi).launches = s.launches := rfl
@[simp] theorem State.zeroRange_formed (s : State) (lo hi : Nat) : (s.zeroRange lo hi).formed = s.formed := rfl
@[simp] theorem State.zeroRange_ctxs (s : State) (lo hi : Nat) : (s.zeroRange lo hi).ctxs = s.ctxs := rfl
@[simp] theorem State.zeroRange_tlb (s : State) (lo hi : Nat) : (s.zeroRange lo hi).tlb = s.tlb := rfl
@[simp] theorem State.zeroRange_claims (s : State) (lo hi : Nat) : (s.zeroRange lo hi).claims = s.claims := rfl
@[simp] theorem State.zeroRange_moves (s : State) (lo hi : Nat) : (s.zeroRange lo hi).moves = s.moves := rfl
@[simp] theorem State.zeroRange_hot (s : State) (lo hi : Nat) : (s.zeroRange lo hi).hot = s.hot := rfl
@[simp] theorem State.zeroRange_pfx (s : State) (lo hi : Nat) : (s.zeroRange lo hi).pfx = s.pfx := rfl
@[simp] theorem State.zeroRange_clk (s : State) (lo hi : Nat) : (s.zeroRange lo hi).clk = s.clk := rfl
@[simp] theorem State.zeroRange_skew (s : State) (lo hi : Nat) : (s.zeroRange lo hi).skew = s.skew := rfl
@[simp] theorem State.zeroRange_bad (s : State) (lo hi : Nat) : (s.zeroRange lo hi).bad = s.bad := rfl
@[simp] theorem State.zeroRange_issued (s : State) (lo hi : Nat) : (s.zeroRange lo hi).issued = s.issued := rfl
@[simp] theorem State.zeroRange_locUse (s : State) (lo hi : Nat) : (s.zeroRange lo hi).locUse = s.locUse := rfl
@[simp] theorem State.zeroRange_forward (s : State) (lo hi : Nat) : (s.zeroRange lo hi).forward = s.forward := rfl
@[simp] theorem State.zeroRange_sys (s : State) (lo hi : Nat) : (s.zeroRange lo hi).sys = s.sys := rfl
@[simp] theorem State.zeroRange_link (s : State) (lo hi : Nat) : (s.zeroRange lo hi).link = s.link := rfl
@[simp] theorem State.zeroRange_out (s : State) (lo hi : Nat) : (s.zeroRange lo hi).out = s.out := rfl
@[simp] theorem State.zeroRange_cur (s : State) (lo hi : Nat) : (s.zeroRange lo hi).cur = s.cur := rfl
@[simp] theorem State.zeroRange_agenda (s : State) (lo hi : Nat) : (s.zeroRange lo hi).agenda = s.agenda := rfl
@[simp] theorem State.zeroRange_owed (s : State) (lo hi : Nat) : (s.zeroRange lo hi).owed = s.owed := rfl
@[simp] theorem State.zeroRange_serial (s : State) (lo hi : Nat) : (s.zeroRange lo hi).serial = s.serial := rfl
@[simp] theorem State.zeroRange_turn (s : State) (lo hi : Nat) : (s.zeroRange lo hi).turn = s.turn := rfl
@[simp] theorem State.zeroRange_fresh (s : State) (lo hi : Nat) : (s.zeroRange lo hi).fresh = s.fresh := rfl

/-! ### undefRange -/

@[simp] theorem State.undefRange_groups (s : State) (lo hi : Nat) : (s.undefRange lo hi).groups = s.groups := rfl
@[simp] theorem State.undefRange_teams (s : State) (lo hi : Nat) : (s.undefRange lo hi).teams = s.teams := rfl
@[simp] theorem State.undefRange_ops (s : State) (lo hi : Nat) : (s.undefRange lo hi).ops = s.ops := rfl
@[simp] theorem State.undefRange_arrivals (s : State) (lo hi : Nat) : (s.undefRange lo hi).arrivals = s.arrivals := rfl
@[simp] theorem State.undefRange_launches (s : State) (lo hi : Nat) : (s.undefRange lo hi).launches = s.launches := rfl
@[simp] theorem State.undefRange_formed (s : State) (lo hi : Nat) : (s.undefRange lo hi).formed = s.formed := rfl
@[simp] theorem State.undefRange_ctxs (s : State) (lo hi : Nat) : (s.undefRange lo hi).ctxs = s.ctxs := rfl
@[simp] theorem State.undefRange_tlb (s : State) (lo hi : Nat) : (s.undefRange lo hi).tlb = s.tlb := rfl
@[simp] theorem State.undefRange_claims (s : State) (lo hi : Nat) : (s.undefRange lo hi).claims = s.claims := rfl
@[simp] theorem State.undefRange_moves (s : State) (lo hi : Nat) : (s.undefRange lo hi).moves = s.moves := rfl
@[simp] theorem State.undefRange_hot (s : State) (lo hi : Nat) : (s.undefRange lo hi).hot = s.hot := rfl
@[simp] theorem State.undefRange_pfx (s : State) (lo hi : Nat) : (s.undefRange lo hi).pfx = s.pfx := rfl
@[simp] theorem State.undefRange_clk (s : State) (lo hi : Nat) : (s.undefRange lo hi).clk = s.clk := rfl
@[simp] theorem State.undefRange_skew (s : State) (lo hi : Nat) : (s.undefRange lo hi).skew = s.skew := rfl
@[simp] theorem State.undefRange_bad (s : State) (lo hi : Nat) : (s.undefRange lo hi).bad = s.bad := rfl
@[simp] theorem State.undefRange_issued (s : State) (lo hi : Nat) : (s.undefRange lo hi).issued = s.issued := rfl
@[simp] theorem State.undefRange_locUse (s : State) (lo hi : Nat) : (s.undefRange lo hi).locUse = s.locUse := rfl
@[simp] theorem State.undefRange_forward (s : State) (lo hi : Nat) : (s.undefRange lo hi).forward = s.forward := rfl
@[simp] theorem State.undefRange_sys (s : State) (lo hi : Nat) : (s.undefRange lo hi).sys = s.sys := rfl
@[simp] theorem State.undefRange_link (s : State) (lo hi : Nat) : (s.undefRange lo hi).link = s.link := rfl
@[simp] theorem State.undefRange_out (s : State) (lo hi : Nat) : (s.undefRange lo hi).out = s.out := rfl
@[simp] theorem State.undefRange_cur (s : State) (lo hi : Nat) : (s.undefRange lo hi).cur = s.cur := rfl
@[simp] theorem State.undefRange_agenda (s : State) (lo hi : Nat) : (s.undefRange lo hi).agenda = s.agenda := rfl
@[simp] theorem State.undefRange_owed (s : State) (lo hi : Nat) : (s.undefRange lo hi).owed = s.owed := rfl
@[simp] theorem State.undefRange_serial (s : State) (lo hi : Nat) : (s.undefRange lo hi).serial = s.serial := rfl
@[simp] theorem State.undefRange_turn (s : State) (lo hi : Nat) : (s.undefRange lo hi).turn = s.turn := rfl

/-! ### touch -/

@[simp] theorem State.touch_mem (s : State) (k : Nat) : (s.touch k).mem = s.mem := rfl
@[simp] theorem State.touch_undef (s : State) (k : Nat) : (s.touch k).undef = s.undef := rfl
@[simp] theorem State.touch_groups (s : State) (k : Nat) : (s.touch k).groups = s.groups := rfl
@[simp] theorem State.touch_teams (s : State) (k : Nat) : (s.touch k).teams = s.teams := rfl
@[simp] theorem State.touch_ops (s : State) (k : Nat) : (s.touch k).ops = s.ops := rfl
@[simp] theorem State.touch_arrivals (s : State) (k : Nat) : (s.touch k).arrivals = s.arrivals := rfl
@[simp] theorem State.touch_launches (s : State) (k : Nat) : (s.touch k).launches = s.launches := rfl
@[simp] theorem State.touch_formed (s : State) (k : Nat) : (s.touch k).formed = s.formed := rfl
@[simp] theorem State.touch_ctxs (s : State) (k : Nat) : (s.touch k).ctxs = s.ctxs := rfl
@[simp] theorem State.touch_tlb (s : State) (k : Nat) : (s.touch k).tlb = s.tlb := rfl
@[simp] theorem State.touch_claims (s : State) (k : Nat) : (s.touch k).claims = s.claims := rfl
@[simp] theorem State.touch_moves (s : State) (k : Nat) : (s.touch k).moves = s.moves := rfl
@[simp] theorem State.touch_hot (s : State) (k : Nat) : (s.touch k).hot = s.hot := rfl
@[simp] theorem State.touch_pfx (s : State) (k : Nat) : (s.touch k).pfx = s.pfx := rfl
@[simp] theorem State.touch_clk (s : State) (k : Nat) : (s.touch k).clk = s.clk := rfl
@[simp] theorem State.touch_skew (s : State) (k : Nat) : (s.touch k).skew = s.skew := rfl
@[simp] theorem State.touch_bad (s : State) (k : Nat) : (s.touch k).bad = s.bad := rfl
@[simp] theorem State.touch_issued (s : State) (k : Nat) : (s.touch k).issued = s.issued := rfl
@[simp] theorem State.touch_locUse (s : State) (k : Nat) : (s.touch k).locUse = s.locUse := rfl
@[simp] theorem State.touch_forward (s : State) (k : Nat) : (s.touch k).forward = s.forward := rfl
@[simp] theorem State.touch_sys (s : State) (k : Nat) : (s.touch k).sys = s.sys := rfl
@[simp] theorem State.touch_link (s : State) (k : Nat) : (s.touch k).link = s.link := rfl
@[simp] theorem State.touch_out (s : State) (k : Nat) : (s.touch k).out = s.out := rfl
@[simp] theorem State.touch_cur (s : State) (k : Nat) : (s.touch k).cur = s.cur := rfl
@[simp] theorem State.touch_agenda (s : State) (k : Nat) : (s.touch k).agenda = s.agenda := rfl
@[simp] theorem State.touch_owed (s : State) (k : Nat) : (s.touch k).owed = s.owed := rfl
@[simp] theorem State.touch_serial (s : State) (k : Nat) : (s.touch k).serial = s.serial := rfl
@[simp] theorem State.touch_turn (s : State) (k : Nat) : (s.touch k).turn = s.turn := rfl
@[simp] theorem State.touch_fresh (s : State) (k : Nat) : (s.touch k).fresh = s.fresh := rfl

/-! ### dropTlb -/

@[simp] theorem State.dropTlb_mem (s : State) (a : BitVec 12) (r : Option (Nat × Nat)) : (s.dropTlb a r).mem = s.mem := rfl
@[simp] theorem State.dropTlb_undef (s : State) (a : BitVec 12) (r : Option (Nat × Nat)) : (s.dropTlb a r).undef = s.undef := rfl
@[simp] theorem State.dropTlb_groups (s : State) (a : BitVec 12) (r : Option (Nat × Nat)) : (s.dropTlb a r).groups = s.groups := rfl
@[simp] theorem State.dropTlb_teams (s : State) (a : BitVec 12) (r : Option (Nat × Nat)) : (s.dropTlb a r).teams = s.teams := rfl
@[simp] theorem State.dropTlb_ops (s : State) (a : BitVec 12) (r : Option (Nat × Nat)) : (s.dropTlb a r).ops = s.ops := rfl
@[simp] theorem State.dropTlb_arrivals (s : State) (a : BitVec 12) (r : Option (Nat × Nat)) : (s.dropTlb a r).arrivals = s.arrivals := rfl
@[simp] theorem State.dropTlb_launches (s : State) (a : BitVec 12) (r : Option (Nat × Nat)) : (s.dropTlb a r).launches = s.launches := rfl
@[simp] theorem State.dropTlb_formed (s : State) (a : BitVec 12) (r : Option (Nat × Nat)) : (s.dropTlb a r).formed = s.formed := rfl
@[simp] theorem State.dropTlb_ctxs (s : State) (a : BitVec 12) (r : Option (Nat × Nat)) : (s.dropTlb a r).ctxs = s.ctxs := rfl
@[simp] theorem State.dropTlb_claims (s : State) (a : BitVec 12) (r : Option (Nat × Nat)) : (s.dropTlb a r).claims = s.claims := rfl
@[simp] theorem State.dropTlb_moves (s : State) (a : BitVec 12) (r : Option (Nat × Nat)) : (s.dropTlb a r).moves = s.moves := rfl
@[simp] theorem State.dropTlb_hot (s : State) (a : BitVec 12) (r : Option (Nat × Nat)) : (s.dropTlb a r).hot = s.hot := rfl
@[simp] theorem State.dropTlb_pfx (s : State) (a : BitVec 12) (r : Option (Nat × Nat)) : (s.dropTlb a r).pfx = s.pfx := rfl
@[simp] theorem State.dropTlb_clk (s : State) (a : BitVec 12) (r : Option (Nat × Nat)) : (s.dropTlb a r).clk = s.clk := rfl
@[simp] theorem State.dropTlb_skew (s : State) (a : BitVec 12) (r : Option (Nat × Nat)) : (s.dropTlb a r).skew = s.skew := rfl
@[simp] theorem State.dropTlb_bad (s : State) (a : BitVec 12) (r : Option (Nat × Nat)) : (s.dropTlb a r).bad = s.bad := rfl
@[simp] theorem State.dropTlb_issued (s : State) (a : BitVec 12) (r : Option (Nat × Nat)) : (s.dropTlb a r).issued = s.issued := rfl
@[simp] theorem State.dropTlb_locUse (s : State) (a : BitVec 12) (r : Option (Nat × Nat)) : (s.dropTlb a r).locUse = s.locUse := rfl
@[simp] theorem State.dropTlb_forward (s : State) (a : BitVec 12) (r : Option (Nat × Nat)) : (s.dropTlb a r).forward = s.forward := rfl
@[simp] theorem State.dropTlb_sys (s : State) (a : BitVec 12) (r : Option (Nat × Nat)) : (s.dropTlb a r).sys = s.sys := rfl
@[simp] theorem State.dropTlb_link (s : State) (a : BitVec 12) (r : Option (Nat × Nat)) : (s.dropTlb a r).link = s.link := rfl
@[simp] theorem State.dropTlb_out (s : State) (a : BitVec 12) (r : Option (Nat × Nat)) : (s.dropTlb a r).out = s.out := rfl
@[simp] theorem State.dropTlb_cur (s : State) (a : BitVec 12) (r : Option (Nat × Nat)) : (s.dropTlb a r).cur = s.cur := rfl
@[simp] theorem State.dropTlb_agenda (s : State) (a : BitVec 12) (r : Option (Nat × Nat)) : (s.dropTlb a r).agenda = s.agenda := rfl
@[simp] theorem State.dropTlb_owed (s : State) (a : BitVec 12) (r : Option (Nat × Nat)) : (s.dropTlb a r).owed = s.owed := rfl
@[simp] theorem State.dropTlb_serial (s : State) (a : BitVec 12) (r : Option (Nat × Nat)) : (s.dropTlb a r).serial = s.serial := rfl
@[simp] theorem State.dropTlb_turn (s : State) (a : BitVec 12) (r : Option (Nat × Nat)) : (s.dropTlb a r).turn = s.turn := rfl
@[simp] theorem State.dropTlb_fresh (s : State) (a : BitVec 12) (r : Option (Nat × Nat)) : (s.dropTlb a r).fresh = s.fresh := rfl
@[simp] theorem State.dropTlb_absent (s : State) (a : BitVec 12) (r : Option (Nat × Nat)) : (s.dropTlb a r).absent = s.absent := rfl

/-! ### modSys -/

@[simp] theorem State.modSys_mem (s : State) (f : Sys → Sys) : (s.modSys f).mem = s.mem := rfl
@[simp] theorem State.modSys_undef (s : State) (f : Sys → Sys) : (s.modSys f).undef = s.undef := rfl
@[simp] theorem State.modSys_groups (s : State) (f : Sys → Sys) : (s.modSys f).groups = s.groups := rfl
@[simp] theorem State.modSys_teams (s : State) (f : Sys → Sys) : (s.modSys f).teams = s.teams := rfl
@[simp] theorem State.modSys_ops (s : State) (f : Sys → Sys) : (s.modSys f).ops = s.ops := rfl
@[simp] theorem State.modSys_arrivals (s : State) (f : Sys → Sys) : (s.modSys f).arrivals = s.arrivals := rfl
@[simp] theorem State.modSys_launches (s : State) (f : Sys → Sys) : (s.modSys f).launches = s.launches := rfl
@[simp] theorem State.modSys_formed (s : State) (f : Sys → Sys) : (s.modSys f).formed = s.formed := rfl
@[simp] theorem State.modSys_ctxs (s : State) (f : Sys → Sys) : (s.modSys f).ctxs = s.ctxs := rfl
@[simp] theorem State.modSys_tlb (s : State) (f : Sys → Sys) : (s.modSys f).tlb = s.tlb := rfl
@[simp] theorem State.modSys_claims (s : State) (f : Sys → Sys) : (s.modSys f).claims = s.claims := rfl
@[simp] theorem State.modSys_moves (s : State) (f : Sys → Sys) : (s.modSys f).moves = s.moves := rfl
@[simp] theorem State.modSys_hot (s : State) (f : Sys → Sys) : (s.modSys f).hot = s.hot := rfl
@[simp] theorem State.modSys_pfx (s : State) (f : Sys → Sys) : (s.modSys f).pfx = s.pfx := rfl
@[simp] theorem State.modSys_clk (s : State) (f : Sys → Sys) : (s.modSys f).clk = s.clk := rfl
@[simp] theorem State.modSys_skew (s : State) (f : Sys → Sys) : (s.modSys f).skew = s.skew := rfl
@[simp] theorem State.modSys_bad (s : State) (f : Sys → Sys) : (s.modSys f).bad = s.bad := rfl
@[simp] theorem State.modSys_issued (s : State) (f : Sys → Sys) : (s.modSys f).issued = s.issued := rfl
@[simp] theorem State.modSys_locUse (s : State) (f : Sys → Sys) : (s.modSys f).locUse = s.locUse := rfl
@[simp] theorem State.modSys_forward (s : State) (f : Sys → Sys) : (s.modSys f).forward = s.forward := rfl
@[simp] theorem State.modSys_link (s : State) (f : Sys → Sys) : (s.modSys f).link = s.link := rfl
@[simp] theorem State.modSys_out (s : State) (f : Sys → Sys) : (s.modSys f).out = s.out := rfl
@[simp] theorem State.modSys_cur (s : State) (f : Sys → Sys) : (s.modSys f).cur = s.cur := rfl
@[simp] theorem State.modSys_agenda (s : State) (f : Sys → Sys) : (s.modSys f).agenda = s.agenda := rfl
@[simp] theorem State.modSys_owed (s : State) (f : Sys → Sys) : (s.modSys f).owed = s.owed := rfl
@[simp] theorem State.modSys_serial (s : State) (f : Sys → Sys) : (s.modSys f).serial = s.serial := rfl
@[simp] theorem State.modSys_turn (s : State) (f : Sys → Sys) : (s.modSys f).turn = s.turn := rfl
@[simp] theorem State.modSys_fresh (s : State) (f : Sys → Sys) : (s.modSys f).fresh = s.fresh := rfl
@[simp] theorem State.modSys_absent (s : State) (f : Sys → Sys) : (s.modSys f).absent = s.absent := rfl

@[simp] theorem State.setCtx_ctxs (s : State) (p : Nat) (c : Ctx) : (s.setCtx p c).ctxs = fput s.ctxs p c := rfl
@[simp] theorem State.setTeam_teams (s : State) (i : Nat) (x : Team) : (s.setTeam i x).teams = fput s.teams i x := rfl
@[simp] theorem State.setGroup_groups (s : State) (p : Nat) (g : Group) : (s.setGroup p g).groups = fput s.groups p g := rfl
@[simp] theorem State.setByte_mem (s : State) (k : Nat) (b : Byte) : (s.setByte k b).mem = fset s.mem k 0 b := rfl
@[simp] theorem State.modSys_sys (s : State) (f : Sys → Sys) : (s.modSys f).sys = f s.sys := rfl

/-! ### modGroup -/

@[simp] theorem State.modGroup_mem (s : State) (p : Nat) (f : Group → Group) : (s.modGroup p f).mem = s.mem := by
  unfold State.modGroup; split <;> rfl
@[simp] theorem State.modGroup_undef (s : State) (p : Nat) (f : Group → Group) : (s.modGroup p f).undef = s.undef := by
  unfold State.modGroup; split <;> rfl
@[simp] theorem State.modGroup_teams (s : State) (p : Nat) (f : Group → Group) : (s.modGroup p f).teams = s.teams := by
  unfold State.modGroup; split <;> rfl
@[simp] theorem State.modGroup_ops (s : State) (p : Nat) (f : Group → Group) : (s.modGroup p f).ops = s.ops := by
  unfold State.modGroup; split <;> rfl
@[simp] theorem State.modGroup_arrivals (s : State) (p : Nat) (f : Group → Group) : (s.modGroup p f).arrivals = s.arrivals := by
  unfold State.modGroup; split <;> rfl
@[simp] theorem State.modGroup_launches (s : State) (p : Nat) (f : Group → Group) : (s.modGroup p f).launches = s.launches := by
  unfold State.modGroup; split <;> rfl
@[simp] theorem State.modGroup_formed (s : State) (p : Nat) (f : Group → Group) : (s.modGroup p f).formed = s.formed := by
  unfold State.modGroup; split <;> rfl
@[simp] theorem State.modGroup_ctxs (s : State) (p : Nat) (f : Group → Group) : (s.modGroup p f).ctxs = s.ctxs := by
  unfold State.modGroup; split <;> rfl
@[simp] theorem State.modGroup_tlb (s : State) (p : Nat) (f : Group → Group) : (s.modGroup p f).tlb = s.tlb := by
  unfold State.modGroup; split <;> rfl
@[simp] theorem State.modGroup_claims (s : State) (p : Nat) (f : Group → Group) : (s.modGroup p f).claims = s.claims := by
  unfold State.modGroup; split <;> rfl
@[simp] theorem State.modGroup_moves (s : State) (p : Nat) (f : Group → Group) : (s.modGroup p f).moves = s.moves := by
  unfold State.modGroup; split <;> rfl
@[simp] theorem State.modGroup_hot (s : State) (p : Nat) (f : Group → Group) : (s.modGroup p f).hot = s.hot := by
  unfold State.modGroup; split <;> rfl
@[simp] theorem State.modGroup_pfx (s : State) (p : Nat) (f : Group → Group) : (s.modGroup p f).pfx = s.pfx := by
  unfold State.modGroup; split <;> rfl
@[simp] theorem State.modGroup_clk (s : State) (p : Nat) (f : Group → Group) : (s.modGroup p f).clk = s.clk := by
  unfold State.modGroup; split <;> rfl
@[simp] theorem State.modGroup_skew (s : State) (p : Nat) (f : Group → Group) : (s.modGroup p f).skew = s.skew := by
  unfold State.modGroup; split <;> rfl
@[simp] theorem State.modGroup_bad (s : State) (p : Nat) (f : Group → Group) : (s.modGroup p f).bad = s.bad := by
  unfold State.modGroup; split <;> rfl
@[simp] theorem State.modGroup_issued (s : State) (p : Nat) (f : Group → Group) : (s.modGroup p f).issued = s.issued := by
  unfold State.modGroup; split <;> rfl
@[simp] theorem State.modGroup_locUse (s : State) (p : Nat) (f : Group → Group) : (s.modGroup p f).locUse = s.locUse := by
  unfold State.modGroup; split <;> rfl
@[simp] theorem State.modGroup_forward (s : State) (p : Nat) (f : Group → Group) : (s.modGroup p f).forward = s.forward := by
  unfold State.modGroup; split <;> rfl
@[simp] theorem State.modGroup_sys (s : State) (p : Nat) (f : Group → Group) : (s.modGroup p f).sys = s.sys := by
  unfold State.modGroup; split <;> rfl
@[simp] theorem State.modGroup_link (s : State) (p : Nat) (f : Group → Group) : (s.modGroup p f).link = s.link := by
  unfold State.modGroup; split <;> rfl
@[simp] theorem State.modGroup_out (s : State) (p : Nat) (f : Group → Group) : (s.modGroup p f).out = s.out := by
  unfold State.modGroup; split <;> rfl
@[simp] theorem State.modGroup_cur (s : State) (p : Nat) (f : Group → Group) : (s.modGroup p f).cur = s.cur := by
  unfold State.modGroup; split <;> rfl
@[simp] theorem State.modGroup_agenda (s : State) (p : Nat) (f : Group → Group) : (s.modGroup p f).agenda = s.agenda := by
  unfold State.modGroup; split <;> rfl
@[simp] theorem State.modGroup_owed (s : State) (p : Nat) (f : Group → Group) : (s.modGroup p f).owed = s.owed := by
  unfold State.modGroup; split <;> rfl
@[simp] theorem State.modGroup_serial (s : State) (p : Nat) (f : Group → Group) : (s.modGroup p f).serial = s.serial := by
  unfold State.modGroup; split <;> rfl
@[simp] theorem State.modGroup_turn (s : State) (p : Nat) (f : Group → Group) : (s.modGroup p f).turn = s.turn := by
  unfold State.modGroup; split <;> rfl
@[simp] theorem State.modGroup_fresh (s : State) (p : Nat) (f : Group → Group) : (s.modGroup p f).fresh = s.fresh := by
  unfold State.modGroup; split <;> rfl
@[simp] theorem State.modGroup_absent (s : State) (p : Nat) (f : Group → Group) : (s.modGroup p f).absent = s.absent := by
  unfold State.modGroup; split <;> rfl

/-! ### keepTlb -/

@[simp] theorem State.keepTlb_mem (s : State) (a : BitVec 12) (e : DWord) (b u : Nat) : (s.keepTlb a e b u).mem = s.mem := by
  unfold State.keepTlb; split <;> rfl
@[simp] theorem State.keepTlb_undef (s : State) (a : BitVec 12) (e : DWord) (b u : Nat) : (s.keepTlb a e b u).undef = s.undef := by
  unfold State.keepTlb; split <;> rfl
@[simp] theorem State.keepTlb_groups (s : State) (a : BitVec 12) (e : DWord) (b u : Nat) : (s.keepTlb a e b u).groups = s.groups := by
  unfold State.keepTlb; split <;> rfl
@[simp] theorem State.keepTlb_teams (s : State) (a : BitVec 12) (e : DWord) (b u : Nat) : (s.keepTlb a e b u).teams = s.teams := by
  unfold State.keepTlb; split <;> rfl
@[simp] theorem State.keepTlb_ops (s : State) (a : BitVec 12) (e : DWord) (b u : Nat) : (s.keepTlb a e b u).ops = s.ops := by
  unfold State.keepTlb; split <;> rfl
@[simp] theorem State.keepTlb_arrivals (s : State) (a : BitVec 12) (e : DWord) (b u : Nat) : (s.keepTlb a e b u).arrivals = s.arrivals := by
  unfold State.keepTlb; split <;> rfl
@[simp] theorem State.keepTlb_launches (s : State) (a : BitVec 12) (e : DWord) (b u : Nat) : (s.keepTlb a e b u).launches = s.launches := by
  unfold State.keepTlb; split <;> rfl
@[simp] theorem State.keepTlb_formed (s : State) (a : BitVec 12) (e : DWord) (b u : Nat) : (s.keepTlb a e b u).formed = s.formed := by
  unfold State.keepTlb; split <;> rfl
@[simp] theorem State.keepTlb_ctxs (s : State) (a : BitVec 12) (e : DWord) (b u : Nat) : (s.keepTlb a e b u).ctxs = s.ctxs := by
  unfold State.keepTlb; split <;> rfl
@[simp] theorem State.keepTlb_claims (s : State) (a : BitVec 12) (e : DWord) (b u : Nat) : (s.keepTlb a e b u).claims = s.claims := by
  unfold State.keepTlb; split <;> rfl
@[simp] theorem State.keepTlb_moves (s : State) (a : BitVec 12) (e : DWord) (b u : Nat) : (s.keepTlb a e b u).moves = s.moves := by
  unfold State.keepTlb; split <;> rfl
@[simp] theorem State.keepTlb_hot (s : State) (a : BitVec 12) (e : DWord) (b u : Nat) : (s.keepTlb a e b u).hot = s.hot := by
  unfold State.keepTlb; split <;> rfl
@[simp] theorem State.keepTlb_pfx (s : State) (a : BitVec 12) (e : DWord) (b u : Nat) : (s.keepTlb a e b u).pfx = s.pfx := by
  unfold State.keepTlb; split <;> rfl
@[simp] theorem State.keepTlb_clk (s : State) (a : BitVec 12) (e : DWord) (b u : Nat) : (s.keepTlb a e b u).clk = s.clk := by
  unfold State.keepTlb; split <;> rfl
@[simp] theorem State.keepTlb_skew (s : State) (a : BitVec 12) (e : DWord) (b u : Nat) : (s.keepTlb a e b u).skew = s.skew := by
  unfold State.keepTlb; split <;> rfl
@[simp] theorem State.keepTlb_bad (s : State) (a : BitVec 12) (e : DWord) (b u : Nat) : (s.keepTlb a e b u).bad = s.bad := by
  unfold State.keepTlb; split <;> rfl
@[simp] theorem State.keepTlb_issued (s : State) (a : BitVec 12) (e : DWord) (b u : Nat) : (s.keepTlb a e b u).issued = s.issued := by
  unfold State.keepTlb; split <;> rfl
@[simp] theorem State.keepTlb_locUse (s : State) (a : BitVec 12) (e : DWord) (b u : Nat) : (s.keepTlb a e b u).locUse = s.locUse := by
  unfold State.keepTlb; split <;> rfl
@[simp] theorem State.keepTlb_forward (s : State) (a : BitVec 12) (e : DWord) (b u : Nat) : (s.keepTlb a e b u).forward = s.forward := by
  unfold State.keepTlb; split <;> rfl
@[simp] theorem State.keepTlb_sys (s : State) (a : BitVec 12) (e : DWord) (b u : Nat) : (s.keepTlb a e b u).sys = s.sys := by
  unfold State.keepTlb; split <;> rfl
@[simp] theorem State.keepTlb_link (s : State) (a : BitVec 12) (e : DWord) (b u : Nat) : (s.keepTlb a e b u).link = s.link := by
  unfold State.keepTlb; split <;> rfl
@[simp] theorem State.keepTlb_out (s : State) (a : BitVec 12) (e : DWord) (b u : Nat) : (s.keepTlb a e b u).out = s.out := by
  unfold State.keepTlb; split <;> rfl
@[simp] theorem State.keepTlb_cur (s : State) (a : BitVec 12) (e : DWord) (b u : Nat) : (s.keepTlb a e b u).cur = s.cur := by
  unfold State.keepTlb; split <;> rfl
@[simp] theorem State.keepTlb_agenda (s : State) (a : BitVec 12) (e : DWord) (b u : Nat) : (s.keepTlb a e b u).agenda = s.agenda := by
  unfold State.keepTlb; split <;> rfl
@[simp] theorem State.keepTlb_owed (s : State) (a : BitVec 12) (e : DWord) (b u : Nat) : (s.keepTlb a e b u).owed = s.owed := by
  unfold State.keepTlb; split <;> rfl
@[simp] theorem State.keepTlb_serial (s : State) (a : BitVec 12) (e : DWord) (b u : Nat) : (s.keepTlb a e b u).serial = s.serial := by
  unfold State.keepTlb; split <;> rfl
@[simp] theorem State.keepTlb_turn (s : State) (a : BitVec 12) (e : DWord) (b u : Nat) : (s.keepTlb a e b u).turn = s.turn := by
  unfold State.keepTlb; split <;> rfl
@[simp] theorem State.keepTlb_fresh (s : State) (a : BitVec 12) (e : DWord) (b u : Nat) : (s.keepTlb a e b u).fresh = s.fresh := by
  unfold State.keepTlb; split <;> rfl
@[simp] theorem State.keepTlb_absent (s : State) (a : BitVec 12) (e : DWord) (b u : Nat) : (s.keepTlb a e b u).absent = s.absent := by
  unfold State.keepTlb; split <;> rfl

/-! ### setBytes -/

@[simp] theorem State.setBytes_groups (s : State) (k : Nat) (l : List Byte) : (s.setBytes k l).groups = s.groups := by
  induction l generalizing s k with
  | nil => rfl
  | cons b l ih => simp [State.setBytes, ih]
@[simp] theorem State.setBytes_teams (s : State) (k : Nat) (l : List Byte) : (s.setBytes k l).teams = s.teams := by
  induction l generalizing s k with
  | nil => rfl
  | cons b l ih => simp [State.setBytes, ih]
@[simp] theorem State.setBytes_ops (s : State) (k : Nat) (l : List Byte) : (s.setBytes k l).ops = s.ops := by
  induction l generalizing s k with
  | nil => rfl
  | cons b l ih => simp [State.setBytes, ih]
@[simp] theorem State.setBytes_arrivals (s : State) (k : Nat) (l : List Byte) : (s.setBytes k l).arrivals = s.arrivals := by
  induction l generalizing s k with
  | nil => rfl
  | cons b l ih => simp [State.setBytes, ih]
@[simp] theorem State.setBytes_launches (s : State) (k : Nat) (l : List Byte) : (s.setBytes k l).launches = s.launches := by
  induction l generalizing s k with
  | nil => rfl
  | cons b l ih => simp [State.setBytes, ih]
@[simp] theorem State.setBytes_formed (s : State) (k : Nat) (l : List Byte) : (s.setBytes k l).formed = s.formed := by
  induction l generalizing s k with
  | nil => rfl
  | cons b l ih => simp [State.setBytes, ih]
@[simp] theorem State.setBytes_ctxs (s : State) (k : Nat) (l : List Byte) : (s.setBytes k l).ctxs = s.ctxs := by
  induction l generalizing s k with
  | nil => rfl
  | cons b l ih => simp [State.setBytes, ih]
@[simp] theorem State.setBytes_tlb (s : State) (k : Nat) (l : List Byte) : (s.setBytes k l).tlb = s.tlb := by
  induction l generalizing s k with
  | nil => rfl
  | cons b l ih => simp [State.setBytes, ih]
@[simp] theorem State.setBytes_claims (s : State) (k : Nat) (l : List Byte) : (s.setBytes k l).claims = s.claims := by
  induction l generalizing s k with
  | nil => rfl
  | cons b l ih => simp [State.setBytes, ih]
@[simp] theorem State.setBytes_moves (s : State) (k : Nat) (l : List Byte) : (s.setBytes k l).moves = s.moves := by
  induction l generalizing s k with
  | nil => rfl
  | cons b l ih => simp [State.setBytes, ih]
@[simp] theorem State.setBytes_hot (s : State) (k : Nat) (l : List Byte) : (s.setBytes k l).hot = s.hot := by
  induction l generalizing s k with
  | nil => rfl
  | cons b l ih => simp [State.setBytes, ih]
@[simp] theorem State.setBytes_pfx (s : State) (k : Nat) (l : List Byte) : (s.setBytes k l).pfx = s.pfx := by
  induction l generalizing s k with
  | nil => rfl
  | cons b l ih => simp [State.setBytes, ih]
@[simp] theorem State.setBytes_clk (s : State) (k : Nat) (l : List Byte) : (s.setBytes k l).clk = s.clk := by
  induction l generalizing s k with
  | nil => rfl
  | cons b l ih => simp [State.setBytes, ih]
@[simp] theorem State.setBytes_skew (s : State) (k : Nat) (l : List Byte) : (s.setBytes k l).skew = s.skew := by
  induction l generalizing s k with
  | nil => rfl
  | cons b l ih => simp [State.setBytes, ih]
@[simp] theorem State.setBytes_bad (s : State) (k : Nat) (l : List Byte) : (s.setBytes k l).bad = s.bad := by
  induction l generalizing s k with
  | nil => rfl
  | cons b l ih => simp [State.setBytes, ih]
@[simp] theorem State.setBytes_issued (s : State) (k : Nat) (l : List Byte) : (s.setBytes k l).issued = s.issued := by
  induction l generalizing s k with
  | nil => rfl
  | cons b l ih => simp [State.setBytes, ih]
@[simp] theorem State.setBytes_locUse (s : State) (k : Nat) (l : List Byte) : (s.setBytes k l).locUse = s.locUse := by
  induction l generalizing s k with
  | nil => rfl
  | cons b l ih => simp [State.setBytes, ih]
@[simp] theorem State.setBytes_forward (s : State) (k : Nat) (l : List Byte) : (s.setBytes k l).forward = s.forward := by
  induction l generalizing s k with
  | nil => rfl
  | cons b l ih => simp [State.setBytes, ih]
@[simp] theorem State.setBytes_sys (s : State) (k : Nat) (l : List Byte) : (s.setBytes k l).sys = s.sys := by
  induction l generalizing s k with
  | nil => rfl
  | cons b l ih => simp [State.setBytes, ih]
@[simp] theorem State.setBytes_link (s : State) (k : Nat) (l : List Byte) : (s.setBytes k l).link = s.link := by
  induction l generalizing s k with
  | nil => rfl
  | cons b l ih => simp [State.setBytes, ih]
@[simp] theorem State.setBytes_out (s : State) (k : Nat) (l : List Byte) : (s.setBytes k l).out = s.out := by
  induction l generalizing s k with
  | nil => rfl
  | cons b l ih => simp [State.setBytes, ih]
@[simp] theorem State.setBytes_cur (s : State) (k : Nat) (l : List Byte) : (s.setBytes k l).cur = s.cur := by
  induction l generalizing s k with
  | nil => rfl
  | cons b l ih => simp [State.setBytes, ih]
@[simp] theorem State.setBytes_agenda (s : State) (k : Nat) (l : List Byte) : (s.setBytes k l).agenda = s.agenda := by
  induction l generalizing s k with
  | nil => rfl
  | cons b l ih => simp [State.setBytes, ih]
@[simp] theorem State.setBytes_owed (s : State) (k : Nat) (l : List Byte) : (s.setBytes k l).owed = s.owed := by
  induction l generalizing s k with
  | nil => rfl
  | cons b l ih => simp [State.setBytes, ih]
@[simp] theorem State.setBytes_serial (s : State) (k : Nat) (l : List Byte) : (s.setBytes k l).serial = s.serial := by
  induction l generalizing s k with
  | nil => rfl
  | cons b l ih => simp [State.setBytes, ih]
@[simp] theorem State.setBytes_turn (s : State) (k : Nat) (l : List Byte) : (s.setBytes k l).turn = s.turn := by
  induction l generalizing s k with
  | nil => rfl
  | cons b l ih => simp [State.setBytes, ih]
@[simp] theorem State.setBytes_fresh (s : State) (k : Nat) (l : List Byte) : (s.setBytes k l).fresh = s.fresh := by
  induction l generalizing s k with
  | nil => rfl
  | cons b l ih => simp [State.setBytes, ih]

/-! ### Reading back -/

@[simp] theorem State.group_setGroup (s : State) (p : Nat) (g : Group) : (s.setGroup p g).group p = g := by
  simp [State.group, fget]
@[simp] theorem State.ctx_setCtx (s : State) (p : Nat) (c : Ctx) : (s.setCtx p c).ctx p = c := by
  simp [State.ctx, fget]
@[simp] theorem State.team_setTeam (s : State) (i : Nat) (x : Team) : (s.setTeam i x).team i = x := by
  simp [State.team, fget]

theorem State.group_of_find {s : State} {p : Nat} {g : Group} (h : ffind s.groups p = some g) : s.group p = g := by
  simp [State.group, fget, h]

/-- A resident group after a change. -/
theorem State.find_modGroup {s : State} {p : Nat} {g : Group} (f : Group → Group) (h : ffind s.groups p = some g) :
    ffind (s.modGroup p f).groups p = some (f g) := by
  simp [State.modGroup, h]

/-- Another group is as before. -/
theorem State.find_modGroup_ne (s : State) {p q : Nat} (f : Group → Group) (h : q ≠ p) :
    ffind (s.modGroup p f).groups q = ffind s.groups q := by
  unfold State.modGroup
  split
  · exact ffind_fput_ne _ _ h
  · rfl

end Sys2Proof.Machine
end

