-- ==== Sys2Proof/Laws/Group.lean ====
section
/-! SUPPORT. What the operations on a group's registers leave alone: everything but the registers, the pending writes, FSTAT with its
pending updates, and the random seeds. -/
namespace Sys2Proof.Machine

/-- A group that differs from another in registers, pending writes, seeds, FSTAT and its pending updates at most. -/
def Group.regsOf (g g' : Group) : Prop :=
  g' = { g with v := g'.v, s := g'.s, p := g'.p, k := g'.k, seed := g'.seed, fstat := g'.fstat, pend := g'.pend, pfl := g'.pfl }

theorem Group.regsOf_refl (g : Group) : g.regsOf g := rfl

theorem Group.regsOf_trans {a b c : Group} (h1 : a.regsOf b) (h2 : b.regsOf c) : a.regsOf c := by
  unfold Group.regsOf at *
  rw [h2, h1]

theorem Group.regsOf_foldl {α : Type} {f : Group → α → Group} (h : ∀ (g : Group) (x : α), g.regsOf (f g x)) (l : List α) (g : Group) :
    g.regsOf (l.foldl f g) := by
  induction l generalizing g with
  | nil => exact regsOf_refl g
  | cons x l ih => exact regsOf_trans (h g x) (ih (f g x))

theorem Group.commit_regsOf (g : Group) (r : RegName) (l : Nat) (v : Word) : g.regsOf (g.commit r l v) := by
  cases r with
  | v n => rfl
  | s n => rfl
  | p n =>
    show g.regsOf (g.setP n _ _)
    unfold setP; split <;> rfl
  | k n =>
    show g.regsOf (g.setK n _)
    unfold setK; split <;> rfl

theorem Group.commitW_regsOf (g : Group) (w : PWrite) : g.regsOf (g.commitW w) :=
  regsOf_foldl (f := fun g (x : Nat × Word) => g.commit w.reg x.1 x.2) (fun g x => commit_regsOf g w.reg x.1 x.2) w.vals g

theorem Group.setPend_regsOf {g g' : Group} (h : g.regsOf g') (l : List PWrite) : g.regsOf { g' with pend := l } := by
  unfold Group.regsOf at *
  rw [h]

theorem Group.drain_regsOf (g : Group) (f : PWrite → Bool) : g.regsOf (g.drain f) :=
  setPend_regsOf (regsOf_foldl commitW_regsOf _ g) _

theorem Group.mergeFlags_regsOf (g : Group) (f : PFlag → Bool) : g.regsOf (g.mergeFlags f) := rfl

theorem Group.drainAll_regsOf (g : Group) : g.regsOf g.drainAll :=
  setPend_regsOf (regsOf_trans (regsOf_foldl commitW_regsOf _ g) (mergeFlags_regsOf _ _)) _

/-- A group with empty operand buffers. -/
def Group.unbuffered (g : Group) : Group :=
  { g with slot0 := g.slot0.map (fun f => { f with buf := none }), slot1 := g.slot1.map (fun f => { f with buf := none }) }

/-- A group that differs from another in what `regsOf` names and in the fragments' operand buffers at most. -/
def Group.nearOf (g g' : Group) : Prop := g.unbuffered.regsOf g'.unbuffered

theorem Group.nearOf_refl (g : Group) : g.nearOf g := rfl

theorem Group.nearOf_trans {a b c : Group} (h1 : a.nearOf b) (h2 : b.nearOf c) : a.nearOf c := regsOf_trans h1 h2

theorem Group.regsOf_nearOf {g g' : Group} (h : g.regsOf g') : g.nearOf g' := by
  unfold Group.nearOf Group.unbuffered
  unfold Group.regsOf at *
  rw [h]

theorem Group.unbuffered_idem (g : Group) : g.unbuffered.unbuffered = g.unbuffered := by
  unfold Group.unbuffered
  simp [Option.map_map, Function.comp_def]

/-- A drain point changes registers and operand buffers only (R51, R55). -/
theorem Group.drainPoint_nearOf (g : Group) : g.nearOf g.drainPoint := by
  have h : g.nearOf g.drainAll := regsOf_nearOf (drainAll_regsOf g)
  have e : g.drainPoint.unbuffered = g.drainAll.unbuffered := unbuffered_idem g.drainAll
  unfold Group.nearOf
  rw [e]
  exact h

theorem settlePend_regsOf (g : Group) (kept l : List PWrite) : g.regsOf (settlePend g kept l) := by
  induction l generalizing g kept with
  | nil => exact Group.setPend_regsOf (Group.regsOf_refl g) kept
  | cons w l ih =>
    unfold settlePend
    split
    · exact Group.regsOf_trans (Group.commitW_regsOf g w) (ih _ _)
    · exact ih _ _

theorem Group.setPfl_regsOf (g : Group) (l : List PFlag) : g.regsOf { g with pfl := l } := rfl

theorem Group.travel_regsOf (g : Group) (slot d : Nat) : g.regsOf (g.travel slot d) :=
  regsOf_trans (setPfl_regsOf g _) (regsOf_trans (settlePend_regsOf _ _ _) (mergeFlags_regsOf _ _))

theorem Group.forget_regsOf (g : Group) (r : RegName) (l : List Nat) : g.regsOf (g.forget r l) := rfl

theorem Group.arrive_regsOf (g : Group) (r : RegName) (l : List (Nat × Word)) : g.regsOf (g.arrive r l) :=
  regsOf_trans (forget_regsOf g r _) (regsOf_foldl (fun g x => commit_regsOf g r x.1 x.2) l _)

theorem Group.write_regsOf (g : Group) (slot : Nat) (r : RegName) (l : List (Nat × Word)) (lat : Nat) :
    g.regsOf (g.write slot r l lat) := by
  unfold write
  split
  · exact regsOf_refl g
  · split
    · exact arrive_regsOf g r l
    · rfl

theorem Group.ripen_regsOf (g : Group) (slot : Nat) (r : RegName) (m : Mask) : g.regsOf (g.ripen slot r m) :=
  setPend_regsOf (regsOf_foldl (fun g (_ : PWrite) => regsOf_foldl (fun g (x : Nat × Word) => commit_regsOf g r x.1 x.2) _ g) _ g) _

theorem Group.put_regsOf (g : Group) (slot : Nat) (dst : List (RegName × Nat)) (l : List (Nat × DWord)) :
    g.regsOf (g.put slot dst l) := by
  unfold put
  split
  · exact regsOf_refl g
  · exact write_regsOf g _ _ _ _
  · exact regsOf_trans (write_regsOf g _ _ _ _) (write_regsOf _ _ _ _ _)

theorem Group.flags_regsOf (g : Group) (slot lat : Nat) (f : Flags) : g.regsOf (g.flags slot lat f) := by
  unfold flags; split <;> rfl

/-- However its flags come, an instruction adds them to what FSTAT finally holds (R85). -/
theorem Group.flags_finalFlags (g : Group) (slot lat : Nat) (f : Flags) : (g.flags slot lat f).finalFlags = g.finalFlags ||| f := by
  unfold flags
  split
  · show (g.fstat ||| f) ||| pendFlags g.pfl = (g.fstat ||| pendFlags g.pfl) ||| f
    rw [BitVec.or_assoc, BitVec.or_comm f, ← BitVec.or_assoc]
  · show g.fstat ||| pendFlags (g.pfl ++ _) = (g.fstat ||| pendFlags g.pfl) ||| f
    simp [pendFlags, List.foldl_append, BitVec.or_assoc]

theorem Group.advanceSeeds_regsOf (g : Group) (m : Mask) : g.regsOf (g.advanceSeeds m) := rfl

theorem vecGroup_regsOf (dst : List (RegName × Nat)) (args : List (Src × Nat)) (sr : Bool) (f : LaneFn) (slot : Nat) (act : Mask)
    (g : Group) : g.regsOf (vecGroup dst args sr f slot act g) := by
  unfold vecGroup
  refine Group.regsOf_trans ?_ (Group.flags_regsOf _ _ _ _)
  split
  · exact Group.regsOf_trans (Group.advanceSeeds_regsOf g act) (Group.put_regsOf _ _ _ _)
  · exact Group.put_regsOf _ _ _ _

theorem uniGroup_regsOf (dst : List (RegName × Nat)) (args : List (Src × Nat)) (f : LaneFn) (slot : Nat) (g : Group) :
    g.regsOf (uniGroup dst args f slot g) := Group.regsOf_trans (Group.put_regsOf _ _ _ _) (Group.flags_regsOf _ _ _ _)

/-! ### What the frame gives -/

theorem Group.regsOf_frag {g g' : Group} (h : g.regsOf g') (n : Nat) : g'.frag n = g.frag n := by rw [h]; rfl
theorem Group.regsOf_h {g g' : Group} (h : g.regsOf g') : g'.h = g.h := by rw [h]
theorem Group.regsOf_park {g g' : Group} (h : g.regsOf g') : g'.park = g.park := by rw [h]
theorem Group.regsOf_yw {g g' : Group} (h : g.regsOf g') : g'.yw = g.yw := by rw [h]
theorem Group.regsOf_core {g g' : Group} (h : g.regsOf g') : g'.core = g.core := by rw [h]
theorem Group.regsOf_page {g g' : Group} (h : g.regsOf g') : g'.page = g.page := by rw [h]
theorem Group.regsOf_team {g g' : Group} (h : g.regsOf g') : g'.team = g.team := by rw [h]

theorem Group.nearOf_h {g g' : Group} (h : g.nearOf g') : g'.h = g.h := regsOf_h (g := g.unbuffered) (g' := g'.unbuffered) h
theorem Group.nearOf_park {g g' : Group} (h : g.nearOf g') : g'.park = g.park := regsOf_park (g := g.unbuffered) (g' := g'.unbuffered) h
theorem Group.nearOf_core {g g' : Group} (h : g.nearOf g') : g'.core = g.core := regsOf_core (g := g.unbuffered) (g' := g'.unbuffered) h

theorem Group.frag_unbuffered (g : Group) (n : Nat) : g.unbuffered.frag n = (g.frag n).map (fun f => { f with buf := none }) := by
  unfold frag unbuffered
  split <;> rfl

/-- Each fragment is there, and differs in its operand buffer at most. -/
theorem Group.nearOf_frag {g g' : Group} (h : g.nearOf g') {n : Nat} {f : Frag} (hf : g.frag n = some f) :
    ∃ b, g'.frag n = some { f with buf := b } := by
  have e := regsOf_frag (g := g.unbuffered) (g' := g'.unbuffered) h n
  rw [frag_unbuffered, frag_unbuffered, hf] at e
  cases hx : g'.frag n with
  | none => simp [hx] at e
  | some x =>
    simp only [hx, Option.map_some, Option.some.injEq] at e
    refine ⟨x.buf, ?_⟩
    cases x; cases f
    simp_all

/-! ### Fragments -/

@[simp] theorem Group.frag_setFrag (g : Group) (n : Nat) (f : Option Frag) : (g.setFrag n f).frag n = f := by
  unfold frag setFrag
  split <;> simp_all

@[simp] theorem Group.frag_modFrag (g : Group) (n : Nat) (u : Frag → Frag) : (g.modFrag n u).frag n = (g.frag n).map u := by
  simp [modFrag]

@[simp] theorem Group.setFrag_h (g : Group) (n : Nat) (f : Option Frag) : (g.setFrag n f).h = g.h := by
  unfold setFrag; split <;> rfl
@[simp] theorem Group.setFrag_park (g : Group) (n : Nat) (f : Option Frag) : (g.setFrag n f).park = g.park := by
  unfold setFrag; split <;> rfl
@[simp] theorem Group.modFrag_h (g : Group) (n : Nat) (u : Frag → Frag) : (g.modFrag n u).h = g.h := setFrag_h g n _
@[simp] theorem Group.modFrag_park (g : Group) (n : Nat) (u : Frag → Frag) : (g.modFrag n u).park = g.park := setFrag_park g n _

end Sys2Proof.Machine
end

