-- ==== Sys2Proof/Laws/Issue.lean ====
section
/-! SUPPORT. What the end of a step and an issue come to: one lemma for each, which statements about instructions cite. -/
namespace Sys2Proof.Machine

/-! ### The end of a step -/

/-- A settled state is the next state. -/
theorem finish_settled {s : State} (h : s.settled = true) : finish s = .next s := by
  simp only [State.settled, Bool.and_eq_true, Bool.not_eq_true', List.all_eq_true] at h
  have hd : s.ctxs.any (fun c => c.2.doom.isSome) = false := by
    rw [List.any_eq_false]
    intro c hc
    have := h.2 c hc
    cases hx : c.2.doom <;> simp_all
  simp [finish, hd, h.1]

/-- An event ends as a step does. -/
theorem event_settled {s : State} (h : s.settled = true) : event s = .next s := finish_settled h

/-- The end of a step never refuses. -/
theorem finish_not_refused (s : State) (r : Refusal) : finish s ≠ .refused r := by
  unfold finish
  dsimp only
  split <;> split <;> simp

/-- A next state at the end of a step has met no absent device memory. -/
theorem finish_next_absent {s t : State} (h : finish s = .next t) : t.absent = false := by
  unfold finish at h
  dsimp only at h
  generalize (if (s.ctxs.any fun c => c.2.doom.isSome) = true then settleDoom s else s) = u at h
  cases hu : u.absent
  · rw [hu] at h
    cases h
    exact hu
  · rw [hu] at h
    cases h

/-! ### An instruction that can issue -/

/-- What `canIssue` says, taken apart. -/
theorem canIssue_some {sh : Shape} {op len st : Nat} {s : State} {c : Iss} (h : canIssue sh op len st s = some c) :
    ∃ g0 f, ffind s.groups s.cur.1 = some g0 ∧ g0.frag s.cur.2 = some f ∧ mayIssue s g0 f = true ∧
      blocked s s.cur.1 s.cur.2 sh = false ∧ asyncDue s s.cur.1 s.cur.2 = none ∧ c = issOf sh op len st s.cur.1 s.cur.2 ((drainFor s s.cur sh).group s.cur.1) f ∧ issueFault s g0 f c sh = none := by
  unfold canIssue at h
  cases hg : ffind s.groups s.cur.1 with
  | none => simp [hg] at h
  | some g0 =>
    simp only [hg] at h
    cases hf : g0.frag s.cur.2 with
    | none => simp [hf] at h
    | some f =>
      simp only [hf] at h
      split at h
      · rename_i hc
        simp only [Bool.and_eq_true, Bool.not_eq_true', Option.isNone_iff_eq_none] at hc
        cases h
        exact ⟨g0, f, rfl, hf, hc.1.1.1, hc.1.1.2, hc.1.2, rfl, hc.2⟩
      · cases h

/-- ISSUING, once it can: the effect, or nothing when no lane is active, then the advance. -/
theorem issueWith_ready {sh : Shape} {op len st : Nat} {always : Bool} {body : Iss → State → Eff} {s : State} {c : Iss}
    (h : canIssue sh op len st s = some c) :
    ∃ buf, issueWith sh op len st always body s =
      settleEff c buf ((drainFor s s.cur sh).group s.cur.1)
        (if neverRuns ((drainFor s s.cur sh).group s.cur.1) s.cur.2 sh || (c.act == 0 && !always) then
           .go (pendNone (drainFor s s.cur sh) s.cur.1 s.cur.2 sh)
         else (body c (drainFor s s.cur sh)).takes s.serial s.cur.1 s.cur.2 sh c.act) := by
  obtain ⟨g0, f, hg, hf, hm, hb, hd, hc, hi⟩ := canIssue_some h
  subst hc
  refine ⟨bufAfter ((drainFor s s.cur sh).group s.cur.1) (pendingRegs (drainFor s s.cur sh) s.cur.1 ++
    (waitWrites (drainFor s s.cur sh) ((drainFor s s.cur sh).group s.cur.1) s.cur.2).1 ++
    (waitWrites (drainFor s s.cur sh) ((drainFor s s.cur sh).group s.cur.1) s.cur.2).2) s.cur.2 f sh, ?_⟩
  simp only [issueWith, hg, hf, hm, hb, hd, hi, Eff.gate, Bool.not_true, Bool.or_self, Bool.false_eq_true, if_false]

/-- The effect of an instruction that can issue and has active lanes, whose effect goes on. -/
theorem issueWith_go {sh : Shape} {op len st : Nat} {always : Bool} {body : Iss → State → Eff} {s s' : State} {c : Iss}
    (h : canIssue sh op len st s = some c)
    (hn : neverRuns ((drainFor s s.cur sh).group s.cur.1) s.cur.2 sh = false) (ha : c.act ≠ 0 ∨ always = true)
    (hb : body c (drainFor s s.cur sh) = .go s') :
    ∃ buf, issueWith sh op len st always body s =
      finish (markIssued (advance (if popWaits s' s.cur.1 s.cur.2 then s'
        else supersede s' s.serial s.cur.1 (sh.dst.map (fun x => x.1)) c.act) c buf) ((drainFor s s.cur sh).group s.cur.1)) := by
  obtain ⟨buf, h1⟩ := issueWith_ready (always := always) (body := body) h
  refine ⟨buf, ?_⟩
  have : (c.act == 0 && !always) = false := by
    rcases ha with h | h
    · have hz : (c.act == 0) = false := beq_eq_false_iff_ne.mpr h
      rw [hz]; rfl
    · simp [h]
  rw [h1, hn, this, hb]
  rfl

/-! ### Effects that stay in the issuing group's registers -/

theorem supersede_groups (s : State) (old p : Nat) (wv : List RegName) (m : Mask) : (supersede s old p wv m).groups = s.groups := by
  unfold supersede; split <;> rfl

theorem advance_find {s : State} {c : Iss} {g : Group} (buf : Option Nat) (h : ffind s.groups c.place = some g) :
    ffind (advance s c buf).groups c.place = some ((g.travel c.slot (1 + c.st)).modFrag c.slot (fun f =>
      f.after (nowAt s c.place) c (buf.filter (fun n => decide (n < g.allot))))) :=
  State.find_modGroup _ h


theorem canIssue_fields {sh : Shape} {op len st : Nat} {s : State} {c : Iss} (h : canIssue sh op len st s = some c) :
    c.place = s.cur.1 ∧ c.slot = s.cur.2 ∧ c.st = st ∧ c.npc = c.pc + BitVec.ofNat 64 (4 * len) := by
  obtain ⟨g0, f, -, -, -, -, -, rfl, -⟩ := canIssue_some h
  exact ⟨rfl, rfl, rfl, rfl⟩

/-- The states in which a plain effect happens: one resident group's registers and operand buffers differ from `s`, and bookkeeping of operations. -/
structure Near (s : State) (p : Nat) (s' : State) : Prop where
  only : onlyGroups s s'
  absent : s'.absent = s.absent
  others : ∀ q, q ≠ p → ffind s'.groups q = ffind s.groups q
  own : ∀ g, ffind s.groups p = some g → ∃ g', ffind s'.groups p = some g' ∧ g.nearOf g'

theorem Near.refl (s : State) (p : Nat) : Near s p s :=
  ⟨⟨rfl, rfl, rfl, rfl, rfl, rfl, rfl, rfl, rfl, rfl, rfl, rfl, rfl, rfl, rfl⟩, rfl, fun _ _ => rfl, fun g h => ⟨g, h, Group.nearOf_refl g⟩⟩

theorem Near.trans {a b d : State} {p : Nat} (h1 : Near a p b) (h2 : Near b p d) : Near a p d := by
  obtain ⟨⟨x1, x2, x3, x4, x5, x6, x7, x8, x9, x10, x11, x12, x13, x14, x15⟩, xa, xo, xg⟩ := h1
  obtain ⟨⟨y1, y2, y3, y4, y5, y6, y7, y8, y9, y10, y11, y12, y13, y14, y15⟩, ya, yo, yg⟩ := h2
  refine ⟨⟨y1.trans x1, y2.trans x2, y3.trans x3, y4.trans x4, y5.trans x5, y6.trans x6, y7.trans x7, y8.trans x8, y9.trans x9,
    y10.trans x10, y11.trans x11, y12.trans x12, y13.trans x13, y14.trans x14, y15.trans x15⟩, ya.trans xa, fun q hq => (yo q hq).trans (xo q hq), fun g hg => ?_⟩
  obtain ⟨g', hg', r1⟩ := xg g hg
  obtain ⟨g'', hg'', r2⟩ := yg g' hg'
  exact ⟨g'', hg'', Group.nearOf_trans r1 r2⟩

theorem Near.modGroup (s : State) (p : Nat) {f : Group → Group} (h : ∀ g : Group, g.nearOf (f g)) : Near s p (s.modGroup p f) :=
  ⟨by simp [onlyGroups], by simp, fun _ hq => State.find_modGroup_ne s f hq, fun g hg => ⟨f g, State.find_modGroup f hg, h g⟩⟩

theorem Near.drainFor (s : State) (sh : Shape) : Near s s.cur.1 (drainFor s s.cur sh) := by
  unfold Machine.drainFor
  split
  · exact Near.modGroup s _ Group.drainPoint_nearOf
  · exact Near.refl s _

theorem Near.supersede (s : State) (old p q : Nat) (wv : List RegName) (m : Mask) : Near s q (supersede s old p wv m) := by
  unfold Machine.supersede
  split
  · exact Near.refl s q
  · exact ⟨⟨rfl, rfl, rfl, rfl, rfl, rfl, rfl, rfl, rfl, rfl, rfl, rfl, rfl, rfl, rfl⟩, rfl, fun _ _ => rfl, fun g h => ⟨g, h, Group.nearOf_refl g⟩⟩

theorem Near.pendNone (s : State) (p slot : Nat) (sh : Shape) : Near s p (pendNone s p slot sh) := by
  unfold Machine.pendNone
  dsimp only
  split
  · exact Near.refl s p
  · exact Near.modGroup s p (fun g => rfl)

/-- The end of an issue whose effect stayed near: the fragment is at the next instruction. -/
theorem near_completes {s s' : State} {c : Iss} {g : Group} {f : Frag} {buf : Option Nat} {x : Group} (hs : s.settled = true)
    (hg : ffind s.groups c.place = some g) (hf : g.frag c.slot = some f) (hm : c.mask = f.mask) (hu : c.sup = f.sup)
    (hn : Near s c.place s') :
    ∃ t, finish (markIssued (advance s' c buf) x) = .next t ∧ wentTo c c.npc s t ∧ onlyGroups s t ∧ sameOthers c s t := by
  obtain ⟨g', hg', hr⟩ := hn.own g hg
  have hset : (markIssued (advance s' c buf) x).settled = true := by
    have h1 : (markIssued (advance s' c buf) x).absent = s.absent := by
      show (advance s' c buf).absent = _
      simp [advance, hn.absent]
    have h2 : (markIssued (advance s' c buf) x).ctxs = s.ctxs := by
      show (advance s' c buf).ctxs = _
      simp [advance, hn.only.2.2.2.1]
    simpa [State.settled, h1, h2] using hs
  have hfind : ffind (markIssued (advance s' c buf) x).groups c.place =
      some ((g'.travel c.slot (1 + c.st)).modFrag c.slot (fun f =>
        f.after (nowAt s' c.place) c (buf.filter (fun n => decide (n < g'.allot))))) := advance_find buf hg'
  have hr2 : g.nearOf (g'.travel c.slot (1 + c.st)) := Group.nearOf_trans hr (Group.regsOf_nearOf (Group.travel_regsOf g' _ _))
  obtain ⟨b, hb⟩ := Group.nearOf_frag hr2 hf
  refine ⟨_, finish_settled hset, ⟨⟨{ f with buf := b }.after (nowAt s' c.place) c (buf.filter (fun n => decide (n < g'.allot))), ?_, rfl, ?_, ?_⟩, ?_, ?_⟩, ?_, ?_⟩
  · simp [State.fragOf, State.group_of_find hfind, hb]
  · exact hm.symm
  · exact hu.symm
  · rw [State.group_of_find hfind, State.group_of_find hg]
    simp [Group.nearOf_h hr2]
  · rw [State.group_of_find hfind, State.group_of_find hg]
    simp [Group.nearOf_park hr2]
  · obtain ⟨x1, x2, x3, x4, x5, x6, x7, x8, x9, x10, x11, x12, x13, x14, x15⟩ := hn.only
    simp only [onlyGroups, markIssued, advance, State.modGroup_mem, State.modGroup_undef, State.modGroup_teams, State.modGroup_ctxs,
      State.modGroup_launches, State.modGroup_formed, State.modGroup_arrivals, State.modGroup_pfx, State.modGroup_tlb,
      State.modGroup_link, State.modGroup_sys, State.modGroup_clk, State.modGroup_skew, State.modGroup_bad, State.modGroup_out]
    exact ⟨x1, x2, x3, x4, x5, x6, x7, x8, x9, x10, x11, x12, x13, x14, x15⟩
  · intro p hp
    show ffind (advance s' c buf).groups p = _
    rw [advance, State.find_modGroup_ne _ _ hp, hn.others p hp]

/-- An instruction that changes its own group's registers only completes, whatever its guard. -/
theorem issueWith_near {sh : Shape} {op len st : Nat} {al : Bool} {body : Iss → State → Eff} {s : State} {c : Iss}
    (hs : s.settled = true) (h : canIssue sh op len st s = some c)
    (hb : ∀ s1, ∃ s2, body c s1 = .go s2 ∧ Near s1 c.place s2) :
    ∃ t, issueWith sh op len st al body s = .next t ∧ wentTo c c.npc s t ∧ onlyGroups s t ∧ sameOthers c s t := by
  obtain ⟨g0, f, hg, hf, -, -, -, hc, -⟩ := canIssue_some h
  obtain ⟨buf, e⟩ := issueWith_ready (always := al) (body := body) h
  rw [e]
  have hp : c.place = s.cur.1 := (canIssue_fields h).1
  have hsl : c.slot = s.cur.2 := (canIssue_fields h).2.1
  have hm : c.mask = f.mask := by rw [hc]; rfl
  have hu : c.sup = f.sup := by rw [hc]; rfl
  have h0 : Near s c.place (drainFor s s.cur sh) := hp ▸ Near.drainFor s sh
  rw [← hp] at hg
  rw [← hsl] at hf
  split
  · exact near_completes hs hg hf hm hu (h0.trans (hp ▸ Near.pendNone _ _ _ _))
  · obtain ⟨s2, e2, n2⟩ := hb (drainFor s s.cur sh)
    rw [e2]
    simp only [Eff.takes, settleEff]
    split
    · exact near_completes hs hg hf hm hu (h0.trans n2)
    · exact near_completes hs hg hf hm hu ((h0.trans n2).trans (Near.supersede _ _ _ _ _ _))

theorem goGroup_near {c : Iss} {f : Group → Group} (s : State) (h : ∀ g : Group, g.regsOf (f g)) :
    ∃ s2, goGroup s c f = .go s2 ∧ Near s c.place s2 := ⟨_, rfl, Near.modGroup s c.place (fun g => Group.regsOf_nearOf (h g))⟩

/-- The same for an instruction issued by `issue`. -/
theorem issue_near {sh : Shape} {op len : Nat} {st : BitVec 4} {body : Iss → State → Eff} {s : State} {c : Iss} (hs : s.settled = true)
    (h : canIssue sh op len st.toNat s = some c) (hb : ∀ s1, ∃ s2, body c s1 = .go s2 ∧ Near s1 c.place s2) :
    ∃ t, issue sh op len st body s = .next t ∧ wentTo c c.npc s t ∧ onlyGroups s t ∧ sameOthers c s t := by
  unfold issue
  exact issueWith_near hs h hb

/-- A vector arithmetic instruction completes. -/
theorem vec_near {sh : Shape} {op len : Nat} {st : BitVec 4} {args : List (Src × Nat)} {sr : Bool} {f : LaneFn} {s : State} {c : Iss}
    (hs : s.settled = true) (h : canIssue sh op len st.toNat s = some c) :
    ∃ t, vec sh op len st args sr f s = .next t ∧ wentTo c c.npc s t ∧ onlyGroups s t ∧ sameOthers c s t := by
  unfold vec
  exact issue_near hs h (fun s1 => goGroup_near s1 (fun g => vecGroup_regsOf _ _ _ _ _ _ g))

/-- A uniform arithmetic instruction completes. -/
theorem uni_near {sh : Shape} {op len : Nat} {st : BitVec 4} {args : List (Src × Nat)} {f : LaneFn} {s : State} {c : Iss}
    (hs : s.settled = true) (h : canIssue sh op len st.toNat s = some c) :
    ∃ t, uni sh op len st args f s = .next t ∧ wentTo c c.npc s t ∧ onlyGroups s t ∧ sameOthers c s t := by
  unfold uni
  exact issue_near hs h (fun s1 => goGroup_near s1 (fun g => uniGroup_regsOf _ _ _ _ g))

end Sys2Proof.Machine
end

