-- ==== Sys2Proof/Laws/Memory.lean ====
section
/-! SUPPORT. Memory: every operation keeps the canonical form, a byte written reads back, and other bytes read as before. -/
namespace Sys2Proof.Machine

/-! ### The canonical form -/

/-- Reset memory is canonical. -/
theorem reset_memOk : State.reset.MemOk := rfl

theorem setByte_memOk {s : State} (k : Nat) (b : Byte) (h : s.MemOk) : (s.setByte k b).MemOk := fwf_fset h

theorem setBytes_memOk {s : State} (k : Nat) (l : List Byte) (h : s.MemOk) : (s.setBytes k l).MemOk := by
  induction l generalizing s k with
  | nil => exact h
  | cons b l ih => exact ih (k + 1) (setByte_memOk k b h)

theorem setVal_memOk {s : State} (k n v : Nat) (h : s.MemOk) : (s.setVal k n v).MemOk := setBytes_memOk k _ h

theorem zeroRange_memOk {s : State} (lo hi : Nat) (h : s.MemOk) : (s.zeroRange lo hi).MemOk := fwf_filter _ h

theorem undefRange_memOk {s : State} (lo hi : Nat) (h : s.MemOk) : (s.undefRange lo hi).MemOk := zeroRange_memOk lo hi h

/-- An update that leaves the list alone keeps its form. -/
theorem memOk_of_mem_eq {s t : State} (e : t.mem = s.mem) (h : s.MemOk) : t.MemOk := by
  unfold State.MemOk at *
  rw [e]
  exact h

theorem modGroup_memOk {s : State} (p : Nat) (f : Group → Group) (h : s.MemOk) : (s.modGroup p f).MemOk :=
  memOk_of_mem_eq (State.modGroup_mem s p f) h

/-! ### Reading -/

theorem undefAt_punch_self (us : List URange) (k : Nat) : (punch us k (k + 1)).find? (fun u => decide (u.lo ≤ k) && decide (k < u.hi)) = none := by
  rw [List.find?_eq_none]
  intro u hu
  simp only [punch, List.mem_flatMap] at hu
  obtain ⟨v, -, hv⟩ := hu
  simp only [Bool.and_eq_true, decide_eq_true_eq, not_and, not_lt]
  intro h1
  split at hv
  · rename_i hc
    simp only [List.mem_singleton] at hv
    subst hv
    simp only [Bool.or_eq_true, decide_eq_true_eq] at hc
    omega
  · rename_i hc
    simp only [Bool.or_eq_true, decide_eq_true_eq] at hc
    rw [List.mem_append] at hv
    rcases hv with hv | hv
    · split at hv
      · simp only [List.mem_singleton] at hv; subst hv; simp
      · simp at hv
    · split at hv
      · simp only [List.mem_singleton] at hv; subst hv; simp at h1
      · simp at hv

/-- A byte written reads back. -/
theorem byteAt_setByte_self (s : State) (k : Nat) (b : Byte) : (s.setByte k b).byteAt k = b := by
  have hu : undefAt (s.setByte k b) k = none := undefAt_punch_self s.undef k
  unfold State.byteAt
  rw [hu]
  exact fget_fset_self _ _ _ _

theorem find_punch_ne (us : List URange) {k lo hi : Nat} (hr : lo ≤ hi) (hj : k < lo ∨ hi ≤ k) :
    ((punch us lo hi).find? (fun u => decide (u.lo ≤ k) && decide (k < u.hi))).map (fun u => u.seed) =
      (us.find? (fun u => decide (u.lo ≤ k) && decide (k < u.hi))).map (fun u => u.seed) := by
  induction us with
  | nil => rfl
  | cons u us ih =>
    have e : punch (u :: us) lo hi = (if hi ≤ u.lo || u.hi ≤ lo then [u]
        else (if u.lo < lo then [{ u with hi := lo }] else []) ++ (if hi < u.hi then [{ u with lo := hi }] else [])) ++ punch us lo hi := by
      simp [punch]
    rw [e, List.find?_append]
    by_cases hu : u.lo ≤ k ∧ k < u.hi
    · have : (List.find? (fun u => decide (u.lo ≤ k) && decide (k < u.hi)) (u :: us)) = some u := by simp [List.find?, hu.1, hu.2]
      rw [this]
      have hm : ((if hi ≤ u.lo || u.hi ≤ lo then [u]
          else (if u.lo < lo then [{ u with hi := lo }] else []) ++ (if hi < u.hi then [{ u with lo := hi }] else [])).find?
            (fun u => decide (u.lo ≤ k) && decide (k < u.hi))).map (fun u => u.seed) = some u.seed := by
        split
        · simp [hu.1, hu.2]
        · rename_i hc
          simp only [Bool.or_eq_true, decide_eq_true_eq] at hc
          rcases hj with hj | hj
          · have h1 : u.lo < lo := by omega
            simp [h1, hu.1, hj]
          · have h1 : hi < u.hi := by omega
            rw [if_pos h1, List.find?_append]
            have : ¬ k < lo := by omega
            split <;> simp [this, hj, hu.2]
      cases hf : (if hi ≤ u.lo || u.hi ≤ lo then [u]
          else (if u.lo < lo then [{ u with hi := lo }] else []) ++ (if hi < u.hi then [{ u with lo := hi }] else [])).find?
            (fun u => decide (u.lo ≤ k) && decide (k < u.hi)) with
      | none => rw [hf] at hm; simp at hm
      | some x => rw [hf] at hm; simpa using hm
    · have h2 : (List.find? (fun u => decide (u.lo ≤ k) && decide (k < u.hi)) (u :: us)) =
          List.find? (fun u => decide (u.lo ≤ k) && decide (k < u.hi)) us := by
        have : (decide (u.lo ≤ k) && decide (k < u.hi)) = false := by simpa using hu
        simp [List.find?, this]
      rw [h2]
      have hn : (if hi ≤ u.lo || u.hi ≤ lo then [u]
          else (if u.lo < lo then [{ u with hi := lo }] else []) ++ (if hi < u.hi then [{ u with lo := hi }] else [])).find?
            (fun u => decide (u.lo ≤ k) && decide (k < u.hi)) = none := by
        rw [List.find?_eq_none]
        intro v hv
        simp only [Bool.and_eq_true, decide_eq_true_eq]
        split at hv
        · simp only [List.mem_singleton] at hv; subst hv; exact hu
        · rename_i hc
          simp only [Bool.or_eq_true, decide_eq_true_eq] at hc
          rw [List.mem_append] at hv
          rcases hv with hv | hv
          · split at hv
            · simp only [List.mem_singleton] at hv; subst hv; simp only; omega
            · simp at hv
          · split at hv
            · simp only [List.mem_singleton] at hv; subst hv; simp only; omega
            · simp at hv
      rw [hn]
      simpa using ih

/-- A byte whose seed and listed value are the same reads the same. -/
theorem byteAt_congr {s t : State} {j : Nat} (hu : (undefAt t j).map (fun u => u.seed) = (undefAt s j).map (fun u => u.seed))
    (hm : fget t.mem j 0 = fget s.mem j (0 : Byte)) : t.byteAt j = s.byteAt j := by
  unfold State.byteAt
  cases h1 : undefAt t j <;> cases h2 : undefAt s j <;> simp_all

/-- Another byte reads as before. -/
theorem byteAt_setByte_ne (s : State) {k j : Nat} (b : Byte) (h : j ≠ k) : (s.setByte k b).byteAt j = s.byteAt j :=
  byteAt_congr (find_punch_ne s.undef (by omega) (by omega)) (fget_fset_ne s.mem h)

/-- Bytes outside those written read as before. -/
theorem byteAt_setBytes_ne (s : State) (k : Nat) (l : List Byte) {j : Nat} (h : j < k ∨ k + l.length ≤ j) :
    (s.setBytes k l).byteAt j = s.byteAt j := by
  induction l generalizing s k with
  | nil => rfl
  | cons b l ih =>
    simp only [List.length_cons] at h
    rw [State.setBytes, ih (s.setByte k b) (k + 1) (by omega), byteAt_setByte_ne s b (by omega)]

/-- Bytes written read back. -/
theorem byteAt_setBytes (s : State) (k : Nat) (l : List Byte) {i : Nat} (hi : i < l.length) :
    (s.setBytes k l).byteAt (k + i) = l[i] := by
  induction l generalizing s k i with
  | nil => simp at hi
  | cons b l ih =>
    rw [State.setBytes]
    cases i with
    | zero =>
      rw [byteAt_setBytes_ne _ _ _ (by omega)]
      simpa using byteAt_setByte_self s k b
    | succ i =>
      have := ih (s.setByte k b) (k + 1) (i := i) (by simpa using hi)
      rw [show k + (i + 1) = k + 1 + i by omega, this]
      rfl

end Sys2Proof.Machine
end

