-- ==== Sys2Proof/Laws/PerInstr.lean ====
section
/-! SUPPORT. Of every instruction, as syntax: the words that encode it hold an opcode that R61 assigns and a length that R36 names. -/
open Sys2Proof Sys2Proof.Machine

/-- An instruction that words encode has an assigned opcode, other than that of ZERO_WORD, and one, three or five words (R36, R61, R63). -/
def Sys2Proof.Laws.Opcode.Statement (i : Instr) : Prop :=
  ∀ r, rawOf i = some r → assigned r.op = true ∧ r.op ≠ 0 ∧ (r.len = 1 ∨ r.len = 3 ∨ r.len = 5)

/-- It holds of what no words encode. -/
theorem Sys2Proof.Laws.Opcode.of_none {i : Instr} (h : rawOf i = none) : Statement i := by
  intro r hr; rw [h] at hr; cases hr

/-- It holds of a one-word form with an assigned opcode. -/
theorem Sys2Proof.Laws.Opcode.of_one {i : Instr} {op : BitVec 8} {f : F1} (h : rawOf i = some (raw1 op f))
    (ho : assigned op = true ∧ op ≠ 0) : Statement i := by
  intro r' hr; rw [h] at hr; cases hr; exact ⟨ho.1, ho.2, .inl rfl⟩

/-- It holds of a form of three or five words with an assigned opcode. -/
theorem Sys2Proof.Laws.Opcode.of_far {i : Instr} {op : BitVec 8} {hd : Hd} {n : Nat} {x : BitVec 30} {lit : BitVec 60}
    (h : rawOf i = some (raw3 op hd n x lit)) (ho : assigned op = true ∧ op ≠ 0) (hn : n = 3 ∨ n = 5) : Statement i := by
  intro r' hr; rw [h] at hr; cases hr; exact ⟨ho.1, ho.2, .inr hn⟩

theorem Sys2Proof.Laws.Opcode.pcieLinkUp (images : List Image) : Statement (.pcieLinkUp images) := of_none rfl
theorem Sys2Proof.Laws.Opcode.hostReset : Statement (.hostReset) := of_none rfl
theorem Sys2Proof.Laws.Opcode.stage1Entry (err : BitVec 4) : Statement (.stage1Entry err) := of_none rfl
theorem Sys2Proof.Laws.Opcode.go2 : Statement (.go2) := of_none rfl
theorem Sys2Proof.Laws.Opcode.stage2Entry (err : BitVec 4) : Statement (.stage2Entry err) := of_none rfl
theorem Sys2Proof.Laws.Opcode.go3 : Statement (.go3) := of_none rfl
theorem Sys2Proof.Laws.Opcode.stage3Entry (ports : BitVec 16) (pkg : BitVec 10) (joined : List Nat) : Statement (.stage3Entry ports pkg joined) := of_none rfl
theorem Sys2Proof.Laws.Opcode.podRootLeaves (joined : List Nat) : Statement (.podRootLeaves joined) := of_none rfl
theorem Sys2Proof.Laws.Opcode.pceilWrite (v : Word) : Statement (.pceilWrite v) := of_none rfl
theorem Sys2Proof.Laws.Opcode.clockLower : Statement (.clockLower) := of_none rfl
theorem Sys2Proof.Laws.Opcode.idleEntry : Statement (.idleEntry) := of_none rfl
theorem Sys2Proof.Laws.Opcode.idleExit : Statement (.idleExit) := of_none rfl
theorem Sys2Proof.Laws.Opcode.invgo : Statement (.invgo) := of_none rfl
theorem Sys2Proof.Laws.Opcode.migRequest : Statement (.migRequest) := of_none rfl
theorem Sys2Proof.Laws.Opcode.migDone : Statement (.migDone) := of_none rfl
theorem Sys2Proof.Laws.Opcode.moveClaimGrant : Statement (.moveClaimGrant) := of_none rfl
theorem Sys2Proof.Laws.Opcode.load (page : Nat) : Statement (.load page) := of_none rfl
theorem Sys2Proof.Laws.Opcode.unload (page : Nat) : Statement (.unload page) := of_none rfl
theorem Sys2Proof.Laws.Opcode.halt (page : Nat) : Statement (.halt page) := of_none rfl
theorem Sys2Proof.Laws.Opcode.resume (page : Nat) : Statement (.resume page) := of_none rfl
theorem Sys2Proof.Laws.Opcode.term (page : Nat) : Statement (.term page) := of_none rfl
theorem Sys2Proof.Laws.Opcode.preemptionSave (page : Nat) : Statement (.preemptionSave page) := of_none rfl
theorem Sys2Proof.Laws.Opcode.qtailWrite (page : Nat) (v : Word) : Statement (.qtailWrite page v) := of_none rfl
theorem Sys2Proof.Laws.Opcode.hostQueueRecordConsume (page : Nat) : Statement (.hostQueueRecordConsume page) := of_none rfl
theorem Sys2Proof.Laws.Opcode.frespResume (page : Nat) (seq : Word) : Statement (.frespResume page seq) := of_none rfl
theorem Sys2Proof.Laws.Opcode.frespTerminate (page : Nat) (seq : Word) : Statement (.frespTerminate page seq) := of_none rfl
theorem Sys2Proof.Laws.Opcode.attestCommand : Statement (.attestCommand) := of_none rfl
theorem Sys2Proof.Laws.Opcode.monitorClr (blk : Nat) : Statement (.monitorClr blk) := of_none rfl
theorem Sys2Proof.Laws.Opcode.powerSampleTimer (watts : Word) : Statement (.powerSampleTimer watts) := of_none rfl
theorem Sys2Proof.Laws.Opcode.registerWrite (off : Nat) (bytes : Nat) (v : DWord) : Statement (.registerWrite off bytes v) := of_none rfl
theorem Sys2Proof.Laws.Opcode.hostApertureAccess (write : Bool) (off : Nat) (bytes : Nat) (v : DWord) : Statement (.hostApertureAccess write off bytes v) := of_none rfl
theorem Sys2Proof.Laws.Opcode.hostMemoryAccess (write : Bool) (page : Nat) (va : DWord) (bytes : Nat) (v : DWord) : Statement (.hostMemoryAccess write page va bytes v) := of_none rfl
theorem Sys2Proof.Laws.Opcode.scrubPass (stack : Nat) (temp : Word) (errs : List Nat) : Statement (.scrubPass stack temp errs) := of_none rfl
theorem Sys2Proof.Laws.Opcode.rowRemap (stack : Nat) (row : Nat) : Statement (.rowRemap stack row) := of_none rfl
theorem Sys2Proof.Laws.Opcode.stashFill (team : Nat) (win : Nat) (line : Nat) : Statement (.stashFill team win line) := of_none rfl
theorem Sys2Proof.Laws.Opcode.stashWriteBack (team : Nat) (win : Nat) (line : Nat) : Statement (.stashWriteBack team win line) := of_none rfl
theorem Sys2Proof.Laws.Opcode.l2Recall (team : Nat) (win : Nat) (line : Nat) : Statement (.l2Recall team win line) := of_none rfl
theorem Sys2Proof.Laws.Opcode.remoteLineRequest (write : Bool) (team : Nat) (win : Nat) (line : Nat) : Statement (.remoteLineRequest write team win line) := of_none rfl
theorem Sys2Proof.Laws.Opcode.lineMigration (line : Nat) (slice : BitVec 7) : Statement (.lineMigration line slice) := of_none rfl
theorem Sys2Proof.Laws.Opcode.faultRecordPost (page : Nat) : Statement (.faultRecordPost page) := of_none rfl
theorem Sys2Proof.Laws.Opcode.hotWindowExpiry : Statement (.hotWindowExpiry) := of_none rfl
theorem Sys2Proof.Laws.Opcode.cfillService (page : Nat) (seq : Word) : Statement (.cfillService page seq) := of_none rfl
theorem Sys2Proof.Laws.Opcode.peerAccess (a : PeerAcc) : Statement (.peerAccess a) := of_none rfl
theorem Sys2Proof.Laws.Opcode.asyncFaultDelivery (place : Nat) : Statement (.asyncFaultDelivery place) := of_none rfl
theorem Sys2Proof.Laws.Opcode.operationRetire (op : Nat) (cls : Nat) : Statement (.operationRetire op cls) := of_none rfl
theorem Sys2Proof.Laws.Opcode.yieldResume (place : Nat) : Statement (.yieldResume place) := of_none rfl
theorem Sys2Proof.Laws.Opcode.regclaimGrant (team : Nat) (quad : Nat) : Statement (.regclaimGrant team quad) := of_none rfl
theorem Sys2Proof.Laws.Opcode.engineArrival (n : Nat) : Statement (.engineArrival n) := of_none rfl
theorem Sys2Proof.Laws.Opcode.barrierWatchdogExpiry (team : Nat) (slot : Nat) : Statement (.barrierWatchdogExpiry team slot) := of_none rfl
theorem Sys2Proof.Laws.Opcode.copyChunkDone (op : Nat) (chunk : Nat) : Statement (.copyChunkDone op chunk) := of_none rfl
theorem Sys2Proof.Laws.Opcode.copyFault (op : Nat) (chunk : Nat) : Statement (.copyFault op chunk) := of_none rfl
theorem Sys2Proof.Laws.Opcode.remainderChunk (op : Nat) : Statement (.remainderChunk op) := of_none rfl
theorem Sys2Proof.Laws.Opcode.prefetchLine (core : Nat) : Statement (.prefetchLine core) := of_none rfl
theorem Sys2Proof.Laws.Opcode.accessElementDone (op : Nat) (lane : Nat) : Statement (.accessElementDone op lane) := of_none rfl
theorem Sys2Proof.Laws.Opcode.accessOperationStop (op : Nat) : Statement (.accessOperationStop op) := of_none rfl
theorem Sys2Proof.Laws.Opcode.streamEntryReady (team : Nat) (snum : Nat) : Statement (.streamEntryReady team snum) := of_none rfl
theorem Sys2Proof.Laws.Opcode.streamFaultHold (team : Nat) (snum : Nat) : Statement (.streamFaultHold team snum) := of_none rfl
theorem Sys2Proof.Laws.Opcode.streamContextFree (team : Nat) (snum : Nat) : Statement (.streamContextFree team snum) := of_none rfl
theorem Sys2Proof.Laws.Opcode.mmaSegmentDone (op : Nat) : Statement (.mmaSegmentDone op) := of_none rfl
theorem Sys2Proof.Laws.Opcode.matrixFault (op : Nat) : Statement (.matrixFault op) := of_none rfl
theorem Sys2Proof.Laws.Opcode.accstRowDone (op : Nat) : Statement (.accstRowDone op) := of_none rfl
theorem Sys2Proof.Laws.Opcode.mzeroDone (op : Nat) : Statement (.mzeroDone op) := of_none rfl
theorem Sys2Proof.Laws.Opcode.accwrDone (op : Nat) : Statement (.accwrDone op) := of_none rfl
theorem Sys2Proof.Laws.Opcode.accrdDone (op : Nat) : Statement (.accrdDone op) := of_none rfl
theorem Sys2Proof.Laws.Opcode.mldDone (op : Nat) : Statement (.mldDone op) := of_none rfl
theorem Sys2Proof.Laws.Opcode.quantOpDone (op : Nat) : Statement (.quantOpDone op) := of_none rfl
theorem Sys2Proof.Laws.Opcode.quantFault (op : Nat) : Statement (.quantFault op) := of_none rfl
theorem Sys2Proof.Laws.Opcode.launchStart (page : Nat) (lseq : Word) : Statement (.launchStart page lseq) := of_none rfl
theorem Sys2Proof.Laws.Opcode.reservationGrant (lid : Nat) (node : Nat) (die : Nat) : Statement (.reservationGrant lid node die) := of_none rfl
theorem Sys2Proof.Laws.Opcode.teamForm (lid : Nat) (node : Nat) (seg : Nat) (die : Nat) : Statement (.teamForm lid node seg die) := of_none rfl
theorem Sys2Proof.Laws.Opcode.teamDispatch (fid : Nat) (core : Nat) : Statement (.teamDispatch fid core) := of_none rfl
theorem Sys2Proof.Laws.Opcode.queueOverflow (lid : Nat) : Statement (.queueOverflow lid) := of_none rfl
theorem Sys2Proof.Laws.Opcode.launchComplete (lid : Nat) : Statement (.launchComplete lid) := of_none rfl
theorem Sys2Proof.Laws.Opcode.recordEnvelope (src : Nat) (e : Envelope) : Statement (.recordEnvelope src e) := of_none rfl
theorem Sys2Proof.Laws.Opcode.acknowledgement (src : Nat) (e : Envelope) : Statement (.acknowledgement src e) := of_none rfl
theorem Sys2Proof.Laws.Opcode.creditRequest (src : Nat) (e : Envelope) : Statement (.creditRequest src e) := of_none rfl
theorem Sys2Proof.Laws.Opcode.creditGrant (src : Nat) (e : Envelope) : Statement (.creditGrant src e) := of_none rfl
theorem Sys2Proof.Laws.Opcode.retransmitTimeout (dst : Nat) (podctx : BitVec 16) (seq : BitVec 22) : Statement (.retransmitTimeout dst podctx seq) := of_none rfl
theorem Sys2Proof.Laws.Opcode.launch (src : Nat) (e : Envelope) : Statement (.launch src e) := of_none rfl
theorem Sys2Proof.Laws.Opcode.start (src : Nat) (e : Envelope) : Statement (.start src e) := of_none rfl
theorem Sys2Proof.Laws.Opcode.started (src : Nat) (e : Envelope) : Statement (.started src e) := of_none rfl
theorem Sys2Proof.Laws.Opcode.deal (src : Nat) (e : Envelope) : Statement (.deal src e) := of_none rfl
theorem Sys2Proof.Laws.Opcode.rdone (src : Nat) (e : Envelope) : Statement (.rdone src e) := of_none rfl
theorem Sys2Proof.Laws.Opcode.fault (src : Nat) (e : Envelope) : Statement (.fault src e) := of_none rfl
theorem Sys2Proof.Laws.Opcode.cancel (src : Nat) (e : Envelope) : Statement (.cancel src e) := of_none rfl
theorem Sys2Proof.Laws.Opcode.wave (src : Nat) (e : Envelope) : Statement (.wave src e) := of_none rfl
theorem Sys2Proof.Laws.Opcode.reply (src : Nat) (e : Envelope) : Statement (.reply src e) := of_none rfl
theorem Sys2Proof.Laws.Opcode.final (src : Nat) (e : Envelope) : Statement (.final src e) := of_none rfl
theorem Sys2Proof.Laws.Opcode.pbarv (src : Nat) (e : Envelope) : Statement (.pbarv src e) := of_none rfl
theorem Sys2Proof.Laws.Opcode.pbres (src : Nat) (e : Envelope) : Statement (.pbres src e) := of_none rfl
theorem Sys2Proof.Laws.Opcode.pbrel (src : Nat) (e : Envelope) : Statement (.pbrel src e) := of_none rfl
theorem Sys2Proof.Laws.Opcode.query (src : Nat) (e : Envelope) : Statement (.query src e) := of_none rfl
theorem Sys2Proof.Laws.Opcode.answer (src : Nat) (e : Envelope) : Statement (.answer src e) := of_none rfl
theorem Sys2Proof.Laws.Opcode.zeroWord (w : Word) : Statement (.zeroWord w) := of_none rfl
theorem Sys2Proof.Laws.Opcode.unassignedOpcode (w : Word) : Statement (.unassignedOpcode w) := of_none rfl
theorem Sys2Proof.Laws.Opcode.nopZ1 (f : F1) : Statement (.nopZ1 f) := of_one rfl (by decide)
theorem Sys2Proof.Laws.Opcode.nop (h : Hd) : Statement (.nop h) := of_far rfl (by decide) (by decide)
theorem Sys2Proof.Laws.Opcode.braJ1 (f : F1) : Statement (.braJ1 f) := of_one rfl (by decide)
theorem Sys2Proof.Laws.Opcode.bra (h : Hd) (x : WOff) : Statement (.bra h x) := of_far rfl (by decide) (by decide)
theorem Sys2Proof.Laws.Opcode.brx (h : Hd) : Statement (.brx h) := of_far rfl (by decide) (by decide)
theorem Sys2Proof.Laws.Opcode.brc (h : Hd) (x : WOff) : Statement (.brc h x) := of_far rfl (by decide) (by decide)
theorem Sys2Proof.Laws.Opcode.join (h : Hd) (x : WOff) : Statement (.join h x) := of_far rfl (by decide) (by decide)
theorem Sys2Proof.Laws.Opcode.callJ1 (f : F1) : Statement (.callJ1 f) := of_one rfl (by decide)
theorem Sys2Proof.Laws.Opcode.call (h : Hd) (x : WOff) : Statement (.call h x) := of_far rfl (by decide) (by decide)
theorem Sys2Proof.Laws.Opcode.callx (h : Hd) : Statement (.callx h) := of_far rfl (by decide) (by decide)
theorem Sys2Proof.Laws.Opcode.retZ1 (f : F1) : Statement (.retZ1 f) := of_one rfl (by decide)
theorem Sys2Proof.Laws.Opcode.ret (h : Hd) : Statement (.ret h) := of_far rfl (by decide) (by decide)
theorem Sys2Proof.Laws.Opcode.exitZ1 (f : F1) : Statement (.exitZ1 f) := of_one rfl (by decide)
theorem Sys2Proof.Laws.Opcode.exit (h : Hd) : Statement (.exit h) := of_far rfl (by decide) (by decide)
theorem Sys2Proof.Laws.Opcode.yieldZ1 (f : F1) : Statement (.yieldZ1 f) := of_one rfl (by decide)
theorem Sys2Proof.Laws.Opcode.yield (h : Hd) : Statement (.yield h) := of_far rfl (by decide) (by decide)
theorem Sys2Proof.Laws.Opcode.yieldc (h : Hd) (x : WWait) : Statement (.yieldc h x) := of_far rfl (by decide) (by decide)
theorem Sys2Proof.Laws.Opcode.waitc (h : Hd) (x : WWait) : Statement (.waitc h x) := of_far rfl (by decide) (by decide)
theorem Sys2Proof.Laws.Opcode.trap (h : Hd) (x : WTrap) : Statement (.trap h x) := of_far rfl (by decide) (by decide)
theorem Sys2Proof.Laws.Opcode.svret (f : F1) : Statement (.svret f) := of_one rfl (by decide)
theorem Sys2Proof.Laws.Opcode.plop (h : Hd) (x : WLut) : Statement (.plop h x) := of_far rfl (by decide) (by decide)
theorem Sys2Proof.Laws.Opcode.saddI1 (f : F1) : Statement (.saddI1 f) := of_one rfl (by decide)
theorem Sys2Proof.Laws.Opcode.sadd (h : Hd) (x : WAlu) : Statement (.sadd h x) := of_far rfl (by decide) (by decide)
theorem Sys2Proof.Laws.Opcode.sadd5w (h : Hd) (x : WAlu) (lit : BitVec 60) : Statement (.sadd5w h x lit) := of_far rfl (by decide) (by decide)
theorem Sys2Proof.Laws.Opcode.ssubI1 (f : F1) : Statement (.ssubI1 f) := of_one rfl (by decide)
theorem Sys2Proof.Laws.Opcode.ssub (h : Hd) (x : WAlu) : Statement (.ssub h x) := of_far rfl (by decide) (by decide)
theorem Sys2Proof.Laws.Opcode.ssub5w (h : Hd) (x : WAlu) (lit : BitVec 60) : Statement (.ssub5w h x lit) := of_far rfl (by decide) (by decide)
theorem Sys2Proof.Laws.Opcode.smulI1 (f : F1) : Statement (.smulI1 f) := of_one rfl (by decide)
theorem Sys2Proof.Laws.Opcode.smul (h : Hd) (x : WAlu) : Statement (.smul h x) := of_far rfl (by decide) (by decide)
theorem Sys2Proof.Laws.Opcode.smul5w (h : Hd) (x : WAlu) (lit : BitVec 60) : Statement (.smul5w h x lit) := of_far rfl (by decide) (by decide)
theorem Sys2Proof.Laws.Opcode.smulhI1 (f : F1) : Statement (.smulhI1 f) := of_one rfl (by decide)
theorem Sys2Proof.Laws.Opcode.smulh (h : Hd) (x : WAlu) : Statement (.smulh h x) := of_far rfl (by decide) (by decide)
theorem Sys2Proof.Laws.Opcode.smulh5w (h : Hd) (x : WAlu) (lit : BitVec 60) : Statement (.smulh5w h x lit) := of_far rfl (by decide) (by decide)
theorem Sys2Proof.Laws.Opcode.sandI1 (f : F1) : Statement (.sandI1 f) := of_one rfl (by decide)
theorem Sys2Proof.Laws.Opcode.sand (h : Hd) (x : WAlu) : Statement (.sand h x) := of_far rfl (by decide) (by decide)
theorem Sys2Proof.Laws.Opcode.sand5w (h : Hd) (x : WAlu) (lit : BitVec 60) : Statement (.sand5w h x lit) := of_far rfl (by decide) (by decide)
theorem Sys2Proof.Laws.Opcode.sorI1 (f : F1) : Statement (.sorI1 f) := of_one rfl (by decide)
theorem Sys2Proof.Laws.Opcode.sor (h : Hd) (x : WAlu) : Statement (.sor h x) := of_far rfl (by decide) (by decide)
theorem Sys2Proof.Laws.Opcode.sor5w (h : Hd) (x : WAlu) (lit : BitVec 60) : Statement (.sor5w h x lit) := of_far rfl (by decide) (by decide)
theorem Sys2Proof.Laws.Opcode.sxorI1 (f : F1) : Statement (.sxorI1 f) := of_one rfl (by decide)
theorem Sys2Proof.Laws.Opcode.sxor (h : Hd) (x : WAlu) : Statement (.sxor h x) := of_far rfl (by decide) (by decide)
theorem Sys2Proof.Laws.Opcode.sxor5w (h : Hd) (x : WAlu) (lit : BitVec 60) : Statement (.sxor5w h x lit) := of_far rfl (by decide) (by decide)
theorem Sys2Proof.Laws.Opcode.sshlI1 (f : F1) : Statement (.sshlI1 f) := of_one rfl (by decide)
theorem Sys2Proof.Laws.Opcode.sshl (h : Hd) (x : WAlu) : Statement (.sshl h x) := of_far rfl (by decide) (by decide)
theorem Sys2Proof.Laws.Opcode.sshl5w (h : Hd) (x : WAlu) (lit : BitVec 60) : Statement (.sshl5w h x lit) := of_far rfl (by decide) (by decide)
theorem Sys2Proof.Laws.Opcode.sshrI1 (f : F1) : Statement (.sshrI1 f) := of_one rfl (by decide)
theorem Sys2Proof.Laws.Opcode.sshr (h : Hd) (x : WAlu) : Statement (.sshr h x) := of_far rfl (by decide) (by decide)
theorem Sys2Proof.Laws.Opcode.sshr5w (h : Hd) (x : WAlu) (lit : BitVec 60) : Statement (.sshr5w h x lit) := of_far rfl (by decide) (by decide)
theorem Sys2Proof.Laws.Opcode.ssraI1 (f : F1) : Statement (.ssraI1 f) := of_one rfl (by decide)
theorem Sys2Proof.Laws.Opcode.ssra (h : Hd) (x : WAlu) : Statement (.ssra h x) := of_far rfl (by decide) (by decide)
theorem Sys2Proof.Laws.Opcode.ssra5w (h : Hd) (x : WAlu) (lit : BitVec 60) : Statement (.ssra5w h x lit) := of_far rfl (by decide) (by decide)
theorem Sys2Proof.Laws.Opcode.sminI1 (f : F1) : Statement (.sminI1 f) := of_one rfl (by decide)
theorem Sys2Proof.Laws.Opcode.smin (h : Hd) (x : WAlu) : Statement (.smin h x) := of_far rfl (by decide) (by decide)
theorem Sys2Proof.Laws.Opcode.smin5w (h : Hd) (x : WAlu) (lit : BitVec 60) : Statement (.smin5w h x lit) := of_far rfl (by decide) (by decide)
theorem Sys2Proof.Laws.Opcode.smaxI1 (f : F1) : Statement (.smaxI1 f) := of_one rfl (by decide)
theorem Sys2Proof.Laws.Opcode.smax (h : Hd) (x : WAlu) : Statement (.smax h x) := of_far rfl (by decide) (by decide)
theorem Sys2Proof.Laws.Opcode.smax5w (h : Hd) (x : WAlu) (lit : BitVec 60) : Statement (.smax5w h x lit) := of_far rfl (by decide) (by decide)
theorem Sys2Proof.Laws.Opcode.ssel (h : Hd) (x : WAlu) : Statement (.ssel h x) := of_far rfl (by decide) (by decide)
theorem Sys2Proof.Laws.Opcode.ssel5w (h : Hd) (x : WAlu) (lit : BitVec 60) : Statement (.ssel5w h x lit) := of_far rfl (by decide) (by decide)
theorem Sys2Proof.Laws.Opcode.scmp (h : Hd) (x : WAlu) : Statement (.scmp h x) := of_far rfl (by decide) (by decide)
theorem Sys2Proof.Laws.Opcode.scmp5w (h : Hd) (x : WAlu) (lit : BitVec 60) : Statement (.scmp5w h x lit) := of_far rfl (by decide) (by decide)
theorem Sys2Proof.Laws.Opcode.smovU1 (f : F1) : Statement (.smovU1 f) := of_one rfl (by decide)
theorem Sys2Proof.Laws.Opcode.smov (h : Hd) (x : WAlu) : Statement (.smov h x) := of_far rfl (by decide) (by decide)
theorem Sys2Proof.Laws.Opcode.sldiM1 (f : F1) : Statement (.sldiM1 f) := of_one rfl (by decide)
theorem Sys2Proof.Laws.Opcode.sldi (h : Hd) (x : WAlu) : Statement (.sldi h x) := of_far rfl (by decide) (by decide)
theorem Sys2Proof.Laws.Opcode.sldi5w (h : Hd) (x : WAlu) (lit : BitVec 60) : Statement (.sldi5w h x lit) := of_far rfl (by decide) (by decide)
theorem Sys2Proof.Laws.Opcode.sldk (h : Hd) (x : WSldk) : Statement (.sldk h x) := of_far rfl (by decide) (by decide)
theorem Sys2Proof.Laws.Opcode.sffsU1 (f : F1) : Statement (.sffsU1 f) := of_one rfl (by decide)
theorem Sys2Proof.Laws.Opcode.sffs (h : Hd) (x : WTy) : Statement (.sffs h x) := of_far rfl (by decide) (by decide)
theorem Sys2Proof.Laws.Opcode.spopU1 (f : F1) : Statement (.spopU1 f) := of_one rfl (by decide)
theorem Sys2Proof.Laws.Opcode.spop (h : Hd) (x : WTy) : Statement (.spop h x) := of_far rfl (by decide) (by decide)
theorem Sys2Proof.Laws.Opcode.rsrU1 (f : F1) : Statement (.rsrU1 f) := of_one rfl (by decide)
theorem Sys2Proof.Laws.Opcode.rsr (h : Hd) : Statement (.rsr h) := of_far rfl (by decide) (by decide)
theorem Sys2Proof.Laws.Opcode.wsrU1 (f : F1) : Statement (.wsrU1 f) := of_one rfl (by decide)
theorem Sys2Proof.Laws.Opcode.wsr (h : Hd) : Statement (.wsr h) := of_far rfl (by decide) (by decide)
theorem Sys2Proof.Laws.Opcode.reggive (h : Hd) (x : WNib) : Statement (.reggive h x) := of_far rfl (by decide) (by decide)
theorem Sys2Proof.Laws.Opcode.regclaim (h : Hd) (x : WNib) : Statement (.regclaim h x) := of_far rfl (by decide) (by decide)
theorem Sys2Proof.Laws.Opcode.vtos (h : Hd) (x : WVtos) : Statement (.vtos h x) := of_far rfl (by decide) (by decide)
theorem Sys2Proof.Laws.Opcode.stov (h : Hd) (x : WTy) : Statement (.stov h x) := of_far rfl (by decide) (by decide)
theorem Sys2Proof.Laws.Opcode.klop (h : Hd) (x : WLut) : Statement (.klop h x) := of_far rfl (by decide) (by decide)
theorem Sys2Proof.Laws.Opcode.iaddI1 (f : F1) : Statement (.iaddI1 f) := of_one rfl (by decide)
theorem Sys2Proof.Laws.Opcode.iadd (h : Hd) (x : WAlu) : Statement (.iadd h x) := of_far rfl (by decide) (by decide)
theorem Sys2Proof.Laws.Opcode.iadd5w (h : Hd) (x : WAlu) (lit : BitVec 60) : Statement (.iadd5w h x lit) := of_far rfl (by decide) (by decide)
theorem Sys2Proof.Laws.Opcode.isubI1 (f : F1) : Statement (.isubI1 f) := of_one rfl (by decide)
theorem Sys2Proof.Laws.Opcode.isub (h : Hd) (x : WAlu) : Statement (.isub h x) := of_far rfl (by decide) (by decide)
theorem Sys2Proof.Laws.Opcode.isub5w (h : Hd) (x : WAlu) (lit : BitVec 60) : Statement (.isub5w h x lit) := of_far rfl (by decide) (by decide)
theorem Sys2Proof.Laws.Opcode.imulI1 (f : F1) : Statement (.imulI1 f) := of_one rfl (by decide)
theorem Sys2Proof.Laws.Opcode.imul (h : Hd) (x : WAlu) : Statement (.imul h x) := of_far rfl (by decide) (by decide)
theorem Sys2Proof.Laws.Opcode.imul5w (h : Hd) (x : WAlu) (lit : BitVec 60) : Statement (.imul5w h x lit) := of_far rfl (by decide) (by decide)
theorem Sys2Proof.Laws.Opcode.imulhI1 (f : F1) : Statement (.imulhI1 f) := of_one rfl (by decide)
theorem Sys2Proof.Laws.Opcode.imulh (h : Hd) (x : WAlu) : Statement (.imulh h x) := of_far rfl (by decide) (by decide)
theorem Sys2Proof.Laws.Opcode.imulh5w (h : Hd) (x : WAlu) (lit : BitVec 60) : Statement (.imulh5w h x lit) := of_far rfl (by decide) (by decide)
theorem Sys2Proof.Laws.Opcode.imad (h : Hd) (x : WAlu) : Statement (.imad h x) := of_far rfl (by decide) (by decide)
theorem Sys2Proof.Laws.Opcode.imad5w (h : Hd) (x : WAlu) (lit : BitVec 60) : Statement (.imad5w h x lit) := of_far rfl (by decide) (by decide)
theorem Sys2Proof.Laws.Opcode.iabsU1 (f : F1) : Statement (.iabsU1 f) := of_one rfl (by decide)
theorem Sys2Proof.Laws.Opcode.iabs (h : Hd) (x : WAlu) : Statement (.iabs h x) := of_far rfl (by decide) (by decide)
theorem Sys2Proof.Laws.Opcode.inegU1 (f : F1) : Statement (.inegU1 f) := of_one rfl (by decide)
theorem Sys2Proof.Laws.Opcode.ineg (h : Hd) (x : WAlu) : Statement (.ineg h x) := of_far rfl (by decide) (by decide)
theorem Sys2Proof.Laws.Opcode.iminI1 (f : F1) : Statement (.iminI1 f) := of_one rfl (by decide)
theorem Sys2Proof.Laws.Opcode.imin (h : Hd) (x : WAlu) : Statement (.imin h x) := of_far rfl (by decide) (by decide)
theorem Sys2Proof.Laws.Opcode.imin5w (h : Hd) (x : WAlu) (lit : BitVec 60) : Statement (.imin5w h x lit) := of_far rfl (by decide) (by decide)
theorem Sys2Proof.Laws.Opcode.imaxI1 (f : F1) : Statement (.imaxI1 f) := of_one rfl (by decide)
theorem Sys2Proof.Laws.Opcode.imax (h : Hd) (x : WAlu) : Statement (.imax h x) := of_far rfl (by decide) (by decide)
theorem Sys2Proof.Laws.Opcode.imax5w (h : Hd) (x : WAlu) (lit : BitVec 60) : Statement (.imax5w h x lit) := of_far rfl (by decide) (by decide)
theorem Sys2Proof.Laws.Opcode.icmp (h : Hd) (x : WAlu) : Statement (.icmp h x) := of_far rfl (by decide) (by decide)
theorem Sys2Proof.Laws.Opcode.icmp5w (h : Hd) (x : WAlu) (lit : BitVec 60) : Statement (.icmp5w h x lit) := of_far rfl (by decide) (by decide)
theorem Sys2Proof.Laws.Opcode.isel (h : Hd) (x : WAlu) : Statement (.isel h x) := of_far rfl (by decide) (by decide)
theorem Sys2Proof.Laws.Opcode.isel5w (h : Hd) (x : WAlu) (lit : BitVec 60) : Statement (.isel5w h x lit) := of_far rfl (by decide) (by decide)
theorem Sys2Proof.Laws.Opcode.ishlI1 (f : F1) : Statement (.ishlI1 f) := of_one rfl (by decide)
theorem Sys2Proof.Laws.Opcode.ishl (h : Hd) (x : WAlu) : Statement (.ishl h x) := of_far rfl (by decide) (by decide)
theorem Sys2Proof.Laws.Opcode.ishl5w (h : Hd) (x : WAlu) (lit : BitVec 60) : Statement (.ishl5w h x lit) := of_far rfl (by decide) (by decide)
theorem Sys2Proof.Laws.Opcode.ishrI1 (f : F1) : Statement (.ishrI1 f) := of_one rfl (by decide)
theorem Sys2Proof.Laws.Opcode.ishr (h : Hd) (x : WAlu) : Statement (.ishr h x) := of_far rfl (by decide) (by decide)
theorem Sys2Proof.Laws.Opcode.ishr5w (h : Hd) (x : WAlu) (lit : BitVec 60) : Statement (.ishr5w h x lit) := of_far rfl (by decide) (by decide)
theorem Sys2Proof.Laws.Opcode.israI1 (f : F1) : Statement (.israI1 f) := of_one rfl (by decide)
theorem Sys2Proof.Laws.Opcode.isra (h : Hd) (x : WAlu) : Statement (.isra h x) := of_far rfl (by decide) (by decide)
theorem Sys2Proof.Laws.Opcode.isra5w (h : Hd) (x : WAlu) (lit : BitVec 60) : Statement (.isra5w h x lit) := of_far rfl (by decide) (by decide)
theorem Sys2Proof.Laws.Opcode.iandI1 (f : F1) : Statement (.iandI1 f) := of_one rfl (by decide)
theorem Sys2Proof.Laws.Opcode.iand (h : Hd) (x : WAlu) : Statement (.iand h x) := of_far rfl (by decide) (by decide)
theorem Sys2Proof.Laws.Opcode.iand5w (h : Hd) (x : WAlu) (lit : BitVec 60) : Statement (.iand5w h x lit) := of_far rfl (by decide) (by decide)
theorem Sys2Proof.Laws.Opcode.iorI1 (f : F1) : Statement (.iorI1 f) := of_one rfl (by decide)
theorem Sys2Proof.Laws.Opcode.ior (h : Hd) (x : WAlu) : Statement (.ior h x) := of_far rfl (by decide) (by decide)
theorem Sys2Proof.Laws.Opcode.ior5w (h : Hd) (x : WAlu) (lit : BitVec 60) : Statement (.ior5w h x lit) := of_far rfl (by decide) (by decide)
theorem Sys2Proof.Laws.Opcode.ixorI1 (f : F1) : Statement (.ixorI1 f) := of_one rfl (by decide)
theorem Sys2Proof.Laws.Opcode.ixor (h : Hd) (x : WAlu) : Statement (.ixor h x) := of_far rfl (by decide) (by decide)
theorem Sys2Proof.Laws.Opcode.ixor5w (h : Hd) (x : WAlu) (lit : BitVec 60) : Statement (.ixor5w h x lit) := of_far rfl (by decide) (by decide)
theorem Sys2Proof.Laws.Opcode.lop3 (h : Hd) (x : WLop3) : Statement (.lop3 h x) := of_far rfl (by decide) (by decide)
theorem Sys2Proof.Laws.Opcode.lop35w (h : Hd) (x : WLop3) (lit : BitVec 60) : Statement (.lop35w h x lit) := of_far rfl (by decide) (by decide)
theorem Sys2Proof.Laws.Opcode.popcU1 (f : F1) : Statement (.popcU1 f) := of_one rfl (by decide)
theorem Sys2Proof.Laws.Opcode.popc (h : Hd) (x : WAlu) : Statement (.popc h x) := of_far rfl (by decide) (by decide)
theorem Sys2Proof.Laws.Opcode.clzU1 (f : F1) : Statement (.clzU1 f) := of_one rfl (by decide)
theorem Sys2Proof.Laws.Opcode.clz (h : Hd) (x : WAlu) : Statement (.clz h x) := of_far rfl (by decide) (by decide)
theorem Sys2Proof.Laws.Opcode.brevU1 (f : F1) : Statement (.brevU1 f) := of_one rfl (by decide)
theorem Sys2Proof.Laws.Opcode.brev (h : Hd) (x : WAlu) : Statement (.brev h x) := of_far rfl (by decide) (by decide)
theorem Sys2Proof.Laws.Opcode.bfe (h : Hd) (x : WAlu) : Statement (.bfe h x) := of_far rfl (by decide) (by decide)
theorem Sys2Proof.Laws.Opcode.bfe5w (h : Hd) (x : WAlu) (lit : BitVec 60) : Statement (.bfe5w h x lit) := of_far rfl (by decide) (by decide)
theorem Sys2Proof.Laws.Opcode.bfi (h : Hd) (x : WAlu) : Statement (.bfi h x) := of_far rfl (by decide) (by decide)
theorem Sys2Proof.Laws.Opcode.bfi5w (h : Hd) (x : WAlu) (lit : BitVec 60) : Statement (.bfi5w h x lit) := of_far rfl (by decide) (by decide)
theorem Sys2Proof.Laws.Opcode.fadd (h : Hd) (x : WAlu) : Statement (.fadd h x) := of_far rfl (by decide) (by decide)
theorem Sys2Proof.Laws.Opcode.fadd5w (h : Hd) (x : WAlu) (lit : BitVec 60) : Statement (.fadd5w h x lit) := of_far rfl (by decide) (by decide)
theorem Sys2Proof.Laws.Opcode.fsub (h : Hd) (x : WAlu) : Statement (.fsub h x) := of_far rfl (by decide) (by decide)
theorem Sys2Proof.Laws.Opcode.fsub5w (h : Hd) (x : WAlu) (lit : BitVec 60) : Statement (.fsub5w h x lit) := of_far rfl (by decide) (by decide)
theorem Sys2Proof.Laws.Opcode.fmul (h : Hd) (x : WAlu) : Statement (.fmul h x) := of_far rfl (by decide) (by decide)
theorem Sys2Proof.Laws.Opcode.fmul5w (h : Hd) (x : WAlu) (lit : BitVec 60) : Statement (.fmul5w h x lit) := of_far rfl (by decide) (by decide)
theorem Sys2Proof.Laws.Opcode.ffma (h : Hd) (x : WAlu) : Statement (.ffma h x) := of_far rfl (by decide) (by decide)
theorem Sys2Proof.Laws.Opcode.ffma5w (h : Hd) (x : WAlu) (lit : BitVec 60) : Statement (.ffma5w h x lit) := of_far rfl (by decide) (by decide)
theorem Sys2Proof.Laws.Opcode.fmin (h : Hd) (x : WAlu) : Statement (.fmin h x) := of_far rfl (by decide) (by decide)
theorem Sys2Proof.Laws.Opcode.fmin5w (h : Hd) (x : WAlu) (lit : BitVec 60) : Statement (.fmin5w h x lit) := of_far rfl (by decide) (by decide)
theorem Sys2Proof.Laws.Opcode.fmax (h : Hd) (x : WAlu) : Statement (.fmax h x) := of_far rfl (by decide) (by decide)
theorem Sys2Proof.Laws.Opcode.fmax5w (h : Hd) (x : WAlu) (lit : BitVec 60) : Statement (.fmax5w h x lit) := of_far rfl (by decide) (by decide)
theorem Sys2Proof.Laws.Opcode.fcmp (h : Hd) (x : WAlu) : Statement (.fcmp h x) := of_far rfl (by decide) (by decide)
theorem Sys2Proof.Laws.Opcode.fcmp5w (h : Hd) (x : WAlu) (lit : BitVec 60) : Statement (.fcmp5w h x lit) := of_far rfl (by decide) (by decide)
theorem Sys2Proof.Laws.Opcode.frnd (h : Hd) (x : WAlu) : Statement (.frnd h x) := of_far rfl (by decide) (by decide)
theorem Sys2Proof.Laws.Opcode.frnd5w (h : Hd) (x : WAlu) (lit : BitVec 60) : Statement (.frnd5w h x lit) := of_far rfl (by decide) (by decide)
theorem Sys2Proof.Laws.Opcode.fclass (h : Hd) (x : WAlu) : Statement (.fclass h x) := of_far rfl (by decide) (by decide)
theorem Sys2Proof.Laws.Opcode.fclass5w (h : Hd) (x : WAlu) (lit : BitVec 60) : Statement (.fclass5w h x lit) := of_far rfl (by decide) (by decide)
theorem Sys2Proof.Laws.Opcode.fscale (h : Hd) (x : WAlu) : Statement (.fscale h x) := of_far rfl (by decide) (by decide)
theorem Sys2Proof.Laws.Opcode.fscale5w (h : Hd) (x : WAlu) (lit : BitVec 60) : Statement (.fscale5w h x lit) := of_far rfl (by decide) (by decide)
theorem Sys2Proof.Laws.Opcode.frcp (h : Hd) (x : WAlu) : Statement (.frcp h x) := of_far rfl (by decide) (by decide)
theorem Sys2Proof.Laws.Opcode.frsq (h : Hd) (x : WAlu) : Statement (.frsq h x) := of_far rfl (by decide) (by decide)
theorem Sys2Proof.Laws.Opcode.fsqrt (h : Hd) (x : WAlu) : Statement (.fsqrt h x) := of_far rfl (by decide) (by decide)
theorem Sys2Proof.Laws.Opcode.fex2 (h : Hd) (x : WAlu) : Statement (.fex2 h x) := of_far rfl (by decide) (by decide)
theorem Sys2Proof.Laws.Opcode.flg2 (h : Hd) (x : WAlu) : Statement (.flg2 h x) := of_far rfl (by decide) (by decide)
theorem Sys2Proof.Laws.Opcode.fsin (h : Hd) (x : WAlu) : Statement (.fsin h x) := of_far rfl (by decide) (by decide)
theorem Sys2Proof.Laws.Opcode.fcos (h : Hd) (x : WAlu) : Statement (.fcos h x) := of_far rfl (by decide) (by decide)
theorem Sys2Proof.Laws.Opcode.ftanh (h : Hd) (x : WAlu) : Statement (.ftanh h x) := of_far rfl (by decide) (by decide)
theorem Sys2Proof.Laws.Opcode.hadd2 (h : Hd) (x : WAlu) : Statement (.hadd2 h x) := of_far rfl (by decide) (by decide)
theorem Sys2Proof.Laws.Opcode.hadd25w (h : Hd) (x : WAlu) (lit : BitVec 60) : Statement (.hadd25w h x lit) := of_far rfl (by decide) (by decide)
theorem Sys2Proof.Laws.Opcode.hmul2 (h : Hd) (x : WAlu) : Statement (.hmul2 h x) := of_far rfl (by decide) (by decide)
theorem Sys2Proof.Laws.Opcode.hmul25w (h : Hd) (x : WAlu) (lit : BitVec 60) : Statement (.hmul25w h x lit) := of_far rfl (by decide) (by decide)
theorem Sys2Proof.Laws.Opcode.hfma2 (h : Hd) (x : WAlu) : Statement (.hfma2 h x) := of_far rfl (by decide) (by decide)
theorem Sys2Proof.Laws.Opcode.hfma25w (h : Hd) (x : WAlu) (lit : BitVec 60) : Statement (.hfma25w h x lit) := of_far rfl (by decide) (by decide)
theorem Sys2Proof.Laws.Opcode.cvt (h : Hd) (x : WCvt) : Statement (.cvt h x) := of_far rfl (by decide) (by decide)
theorem Sys2Proof.Laws.Opcode.cvtn (h : Hd) (x : WCvt) : Statement (.cvtn h x) := of_far rfl (by decide) (by decide)
theorem Sys2Proof.Laws.Opcode.pack4 (h : Hd) (x : WCvt) : Statement (.pack4 h x) := of_far rfl (by decide) (by decide)
theorem Sys2Proof.Laws.Opcode.unpk4 (h : Hd) (x : WCvt) : Statement (.unpk4 h x) := of_far rfl (by decide) (by decide)
theorem Sys2Proof.Laws.Opcode.shfl (h : Hd) (x : WShfl) : Statement (.shfl h x) := of_far rfl (by decide) (by decide)
theorem Sys2Proof.Laws.Opcode.ballot (h : Hd) : Statement (.ballot h) := of_far rfl (by decide) (by decide)
theorem Sys2Proof.Laws.Opcode.vote (h : Hd) (x : WVote) : Statement (.vote h x) := of_far rfl (by decide) (by decide)
theorem Sys2Proof.Laws.Opcode.psum (h : Hd) (x : WAlu) : Statement (.psum h x) := of_far rfl (by decide) (by decide)
theorem Sys2Proof.Laws.Opcode.redux (h : Hd) (x : WRedux) : Statement (.redux h x) := of_far rfl (by decide) (by decide)
theorem Sys2Proof.Laws.Opcode.matchV (h : Hd) (x : WTy) : Statement (.matchV h x) := of_far rfl (by decide) (by decide)
theorem Sys2Proof.Laws.Opcode.movU1 (f : F1) : Statement (.movU1 f) := of_one rfl (by decide)
theorem Sys2Proof.Laws.Opcode.mov (h : Hd) (x : WAlu) : Statement (.mov h x) := of_far rfl (by decide) (by decide)
theorem Sys2Proof.Laws.Opcode.moviM1 (f : F1) : Statement (.moviM1 f) := of_one rfl (by decide)
theorem Sys2Proof.Laws.Opcode.movi (h : Hd) (x : WAlu) : Statement (.movi h x) := of_far rfl (by decide) (by decide)
theorem Sys2Proof.Laws.Opcode.movi5w (h : Hd) (x : WAlu) (lit : BitVec 60) : Statement (.movi5w h x lit) := of_far rfl (by decide) (by decide)
theorem Sys2Proof.Laws.Opcode.pair (h : Hd) (x : WPair) : Statement (.pair h x) := of_far rfl (by decide) (by decide)
theorem Sys2Proof.Laws.Opcode.ld (h : Hd) (x : WMem) : Statement (.ld h x) := of_far rfl (by decide) (by decide)
theorem Sys2Proof.Laws.Opcode.ld5w (h : Hd) (x : WMem) (lit : BitVec 60) : Statement (.ld5w h x lit) := of_far rfl (by decide) (by decide)
theorem Sys2Proof.Laws.Opcode.st (h : Hd) (x : WMem) : Statement (.st h x) := of_far rfl (by decide) (by decide)
theorem Sys2Proof.Laws.Opcode.st5w (h : Hd) (x : WMem) (lit : BitVec 60) : Statement (.st5w h x lit) := of_far rfl (by decide) (by decide)
theorem Sys2Proof.Laws.Opcode.ldl (h : Hd) (x : WMem) : Statement (.ldl h x) := of_far rfl (by decide) (by decide)
theorem Sys2Proof.Laws.Opcode.ldl5w (h : Hd) (x : WMem) (lit : BitVec 60) : Statement (.ldl5w h x lit) := of_far rfl (by decide) (by decide)
theorem Sys2Proof.Laws.Opcode.stl (h : Hd) (x : WMem) : Statement (.stl h x) := of_far rfl (by decide) (by decide)
theorem Sys2Proof.Laws.Opcode.stl5w (h : Hd) (x : WMem) (lit : BitVec 60) : Statement (.stl5w h x lit) := of_far rfl (by decide) (by decide)
theorem Sys2Proof.Laws.Opcode.ldc (h : Hd) (x : WMem) : Statement (.ldc h x) := of_far rfl (by decide) (by decide)
theorem Sys2Proof.Laws.Opcode.ldc5w (h : Hd) (x : WMem) (lit : BitVec 60) : Statement (.ldc5w h x lit) := of_far rfl (by decide) (by decide)
theorem Sys2Proof.Laws.Opcode.lda (h : Hd) (x : WMem) : Statement (.lda h x) := of_far rfl (by decide) (by decide)
theorem Sys2Proof.Laws.Opcode.lda5w (h : Hd) (x : WMem) (lit : BitVec 60) : Statement (.lda5w h x lit) := of_far rfl (by decide) (by decide)
theorem Sys2Proof.Laws.Opcode.strel (h : Hd) (x : WMem) : Statement (.strel h x) := of_far rfl (by decide) (by decide)
theorem Sys2Proof.Laws.Opcode.strel5w (h : Hd) (x : WMem) (lit : BitVec 60) : Statement (.strel5w h x lit) := of_far rfl (by decide) (by decide)
theorem Sys2Proof.Laws.Opcode.atom (h : Hd) (x : WAtom) : Statement (.atom h x) := of_far rfl (by decide) (by decide)
theorem Sys2Proof.Laws.Opcode.atom5w (h : Hd) (x : WAtom) (lit : BitVec 60) : Statement (.atom5w h x lit) := of_far rfl (by decide) (by decide)
theorem Sys2Proof.Laws.Opcode.atoml (h : Hd) (x : WAtom) : Statement (.atoml h x) := of_far rfl (by decide) (by decide)
theorem Sys2Proof.Laws.Opcode.atoml5w (h : Hd) (x : WAtom) (lit : BitVec 60) : Statement (.atoml5w h x lit) := of_far rfl (by decide) (by decide)
theorem Sys2Proof.Laws.Opcode.red (h : Hd) (x : WAtom) : Statement (.red h x) := of_far rfl (by decide) (by decide)
theorem Sys2Proof.Laws.Opcode.red5w (h : Hd) (x : WAtom) (lit : BitVec 60) : Statement (.red5w h x lit) := of_far rfl (by decide) (by decide)
theorem Sys2Proof.Laws.Opcode.fenceZ1 (f : F1) : Statement (.fenceZ1 f) := of_one rfl (by decide)
theorem Sys2Proof.Laws.Opcode.fence (h : Hd) (x : WFence) : Statement (.fence h x) := of_far rfl (by decide) (by decide)
theorem Sys2Proof.Laws.Opcode.pref (h : Hd) (x : WMem) : Statement (.pref h x) := of_far rfl (by decide) (by decide)
theorem Sys2Proof.Laws.Opcode.pref5w (h : Hd) (x : WMem) (lit : BitVec 60) : Statement (.pref5w h x lit) := of_far rfl (by decide) (by decide)
theorem Sys2Proof.Laws.Opcode.stashmap (h : Hd) (x : WStash) : Statement (.stashmap h x) := of_far rfl (by decide) (by decide)
theorem Sys2Proof.Laws.Opcode.stashunmap (h : Hd) (x : WStash) : Statement (.stashunmap h x) := of_far rfl (by decide) (by decide)
theorem Sys2Proof.Laws.Opcode.stashsync (h : Hd) (x : WStash) : Statement (.stashsync h x) := of_far rfl (by decide) (by decide)
theorem Sys2Proof.Laws.Opcode.stashinv (h : Hd) (x : WStash) : Statement (.stashinv h x) := of_far rfl (by decide) (by decide)
theorem Sys2Proof.Laws.Opcode.discard (h : Hd) : Statement (.discard h) := of_far rfl (by decide) (by decide)
theorem Sys2Proof.Laws.Opcode.pghint (h : Hd) (x : WHint) : Statement (.pghint h x) := of_far rfl (by decide) (by decide)
theorem Sys2Proof.Laws.Opcode.pgpoolGet (h : Hd) : Statement (.pgpoolGet h) := of_far rfl (by decide) (by decide)
theorem Sys2Proof.Laws.Opcode.pgpoolPut (h : Hd) : Statement (.pgpoolPut h) := of_far rfl (by decide) (by decide)
theorem Sys2Proof.Laws.Opcode.pgmap (h : Hd) : Statement (.pgmap h) := of_far rfl (by decide) (by decide)
theorem Sys2Proof.Laws.Opcode.pgmapFwd (h : Hd) : Statement (.pgmapFwd h) := of_far rfl (by decide) (by decide)
theorem Sys2Proof.Laws.Opcode.tlbinv (h : Hd) : Statement (.tlbinv h) := of_far rfl (by decide) (by decide)
theorem Sys2Proof.Laws.Opcode.barinit (h : Hd) (x : WSlot) : Statement (.barinit h x) := of_far rfl (by decide) (by decide)
theorem Sys2Proof.Laws.Opcode.barexp (h : Hd) (x : WSlot) : Statement (.barexp h x) := of_far rfl (by decide) (by decide)
theorem Sys2Proof.Laws.Opcode.bararv (h : Hd) (x : WSlot) : Statement (.bararv h x) := of_far rfl (by decide) (by decide)
theorem Sys2Proof.Laws.Opcode.barwait (h : Hd) (x : WSlot) : Statement (.barwait h x) := of_far rfl (by decide) (by decide)
theorem Sys2Proof.Laws.Opcode.bararw (h : Hd) (x : WSlot) : Statement (.bararw h x) := of_far rfl (by decide) (by decide)
theorem Sys2Proof.Laws.Opcode.bartest (h : Hd) (x : WSlot) : Statement (.bartest h x) := of_far rfl (by decide) (by decide)
theorem Sys2Proof.Laws.Opcode.barinv (h : Hd) (x : WSlot) : Statement (.barinv h x) := of_far rfl (by decide) (by decide)
theorem Sys2Proof.Laws.Opcode.cpy (h : Hd) (x : WCpy) : Statement (.cpy h x) := of_far rfl (by decide) (by decide)
theorem Sys2Proof.Laws.Opcode.cpy2d (h : Hd) (x : WCpy) : Statement (.cpy2d h x) := of_far rfl (by decide) (by decide)
theorem Sys2Proof.Laws.Opcode.cpys (h : Hd) (x : WCpy) : Statement (.cpys h x) := of_far rfl (by decide) (by decide)
theorem Sys2Proof.Laws.Opcode.pfx (h : Hd) (x : WPfx) : Statement (.pfx h x) := of_far rfl (by decide) (by decide)
theorem Sys2Proof.Laws.Opcode.pfxcancel (h : Hd) : Statement (.pfxcancel h) := of_far rfl (by decide) (by decide)
theorem Sys2Proof.Laws.Opcode.apstart (h : Hd) (x : WAp) : Statement (.apstart h x) := of_far rfl (by decide) (by decide)
theorem Sys2Proof.Laws.Opcode.appop (h : Hd) (x : WAp) : Statement (.appop h x) := of_far rfl (by decide) (by decide)
theorem Sys2Proof.Laws.Opcode.appush (h : Hd) (x : WAp) : Statement (.appush h x) := of_far rfl (by decide) (by decide)
theorem Sys2Proof.Laws.Opcode.apstat (h : Hd) (x : WAp) : Statement (.apstat h x) := of_far rfl (by decide) (by decide)
theorem Sys2Proof.Laws.Opcode.apstop (h : Hd) (x : WAp) : Statement (.apstop h x) := of_far rfl (by decide) (by decide)
theorem Sys2Proof.Laws.Opcode.agath (h : Hd) (x : WAg) : Statement (.agath h x) := of_far rfl (by decide) (by decide)
theorem Sys2Proof.Laws.Opcode.ascat (h : Hd) (x : WAg) : Statement (.ascat h x) := of_far rfl (by decide) (by decide)
theorem Sys2Proof.Laws.Opcode.apreplay (h : Hd) : Statement (.apreplay h) := of_far rfl (by decide) (by decide)
theorem Sys2Proof.Laws.Opcode.mzero (h : Hd) : Statement (.mzero h) := of_far rfl (by decide) (by decide)
theorem Sys2Proof.Laws.Opcode.mma (h : Hd) (x : WMma) : Statement (.mma h x) := of_far rfl (by decide) (by decide)
theorem Sys2Proof.Laws.Opcode.mmas (h : Hd) (x : WMma) : Statement (.mmas h x) := of_far rfl (by decide) (by decide)
theorem Sys2Proof.Laws.Opcode.mld (h : Hd) : Statement (.mld h) := of_far rfl (by decide) (by decide)
theorem Sys2Proof.Laws.Opcode.accrd (h : Hd) (x : WAcc) : Statement (.accrd h x) := of_far rfl (by decide) (by decide)
theorem Sys2Proof.Laws.Opcode.accwr (h : Hd) (x : WAcc) : Statement (.accwr h x) := of_far rfl (by decide) (by decide)
theorem Sys2Proof.Laws.Opcode.accst (h : Hd) (x : WAccst) : Statement (.accst h x) := of_far rfl (by decide) (by decide)
theorem Sys2Proof.Laws.Opcode.mstat (h : Hd) : Statement (.mstat h) := of_far rfl (by decide) (by decide)
theorem Sys2Proof.Laws.Opcode.qhist (h : Hd) (x : WQ) : Statement (.qhist h x) := of_far rfl (by decide) (by decide)
theorem Sys2Proof.Laws.Opcode.qclip (h : Hd) (x : WQ) : Statement (.qclip h x) := of_far rfl (by decide) (by decide)
theorem Sys2Proof.Laws.Opcode.qpack (h : Hd) (x : WQ) : Statement (.qpack h x) := of_far rfl (by decide) (by decide)
theorem Sys2Proof.Laws.Opcode.qolst (h : Hd) (x : WQ) : Statement (.qolst h x) := of_far rfl (by decide) (by decide)
theorem Sys2Proof.Laws.Opcode.qrst (h : Hd) (x : WQ) : Statement (.qrst h x) := of_far rfl (by decide) (by decide)
theorem Sys2Proof.Laws.Opcode.emit (h : Hd) (x : WEmit) : Statement (.emit h x) := of_far rfl (by decide) (by decide)
theorem Sys2Proof.Laws.Opcode.emitt (h : Hd) (x : WEmit) : Statement (.emitt h x) := of_far rfl (by decide) (by decide)
theorem Sys2Proof.Laws.Opcode.recld (h : Hd) : Statement (.recld h) := of_far rfl (by decide) (by decide)
theorem Sys2Proof.Laws.Opcode.flushq (h : Hd) (x : WFlush) : Statement (.flushq h x) := of_far rfl (by decide) (by decide)
theorem Sys2Proof.Laws.Opcode.glaunch (h : Hd) : Statement (.glaunch h) := of_far rfl (by decide) (by decide)
theorem Sys2Proof.Laws.Opcode.gcancel (h : Hd) : Statement (.gcancel h) := of_far rfl (by decide) (by decide)
theorem Sys2Proof.Laws.Opcode.gwait (h : Hd) : Statement (.gwait h) := of_far rfl (by decide) (by decide)
theorem Sys2Proof.Laws.Opcode.podbar (h : Hd) (x : WNib) : Statement (.podbar h x) := of_far rfl (by decide) (by decide)
theorem Sys2Proof.Laws.Opcode.podqry (h : Hd) (x : WNib) : Statement (.podqry h x) := of_far rfl (by decide) (by decide)
theorem Sys2Proof.Laws.Opcode.podflt (h : Hd) (x : WPodflt) : Statement (.podflt h x) := of_far rfl (by decide) (by decide)
theorem Sys2Proof.Laws.Opcode.placementReload (page : Nat) (entries : List (Nat × BitVec 16)) : Statement (.placementReload page entries) := of_none rfl
theorem Sys2Proof.Laws.Opcode.ualinkPortFailure (port : Nat) : Statement (.ualinkPortFailure port) := of_none rfl
end

