-- ==== Sys2Proof/Tests/Slice0.lean ====
section
/-! SUPPORT. Tests: words of the manual's encodings decoded, ill-formed terms refused, and for each statement that has hypotheses a small state that
meets them (the theorems wit_…), with fields of the next state worked out by hand from the rule that the statement cites. -/

namespace Sys2Proof.Tests
open Sys2Proof Sys2Proof.Machine
set_option Elab.async false

/-- What `issueOf` answers, or an issue of nothing. -/
def iss (i : Instr) (s : State) : Iss :=
  (issueOf i s).getD { place := 0, slot := 0, pc := 0, npc := 0, op := 0, st := 0, fmt := 0, mask := 0, full := 0, act := 0, sup := false }

/-- `Ready`, as a test. -/
def isReady (i : Instr) (s : State) : Bool := s.settled && (issueOf i s).isSome && (iss i s).live i s

theorem ready_of_isReady (i : Instr) (s : State) (h : isReady i s = true) : Ready i s (iss i s) := by
  simp only [isReady, Bool.and_eq_true] at h
  obtain ⟨⟨h1, h2⟩, h3⟩ := h
  obtain ⟨c, hc⟩ := Option.isSome_iff_exists.mp h2
  refine ⟨h1, ?_, h3⟩
  simp only [iss, hc, Option.getD_some]

/-- What `exec` answers, as a test reads it. -/
def after (i : Instr) (s : State) : State := match exec i s with
  | .next t => t
  | _ => State.reset

def h0 : Hd := { b := 0, a := 0, st := 0, mod := 0, hold := 0, guard := 7, d := 0, c := 0 }
def u0 : F1 := { b := 0, a := 0, st := 0 }

/-- Page tables from address 0 for the 32 pages at VA 0x1000000000: one with every permission at PA 0x10000, a pool-backed absent one (its
leaf bits hold nothing else), one that only reads, one absent; page 4 is in host memory, page 5 writable at PA 0x50000. -/
def tables : List (Nat × Nat) := [(0, 0x1001), (0x1000, 0x2001), (0x2200, 0x3001), (0x3000, 0x4001), (0x4000, 0x1001F), (0x4008, 0x400),
  (0x4010, 0x20007), (0x4020, 0x0010000000040000 + 0xF), (0x4028, 0x5000F)]

/-- One group of every lane at core 0 in team 1 of a running context, with HNDEN, a handler and room for eight control-stack entries. -/
def base : State :=
  let s := placeOne State.reset []
  let c := s.ctx 0
  let s := s.setCtx 0 { c with d := { c.d with hnden := 0xFFFE, hndbase := 0x1000008000, csentries := 8 } }
  let s := s.setTeam 1 { Team.empty with ended := false, ngroup := 1, size := 0x10000, nslots := 8, ntiles := 2 }
  let s := s.modGroup 0 (fun g => { g with team := 1, k := [(0, 0)], p := [(1, 0xFF#32)], s := [(1, 5#32), (2, 0x1000000#32)] })
  let s := s.modSys (fun y => { y with stage := 3, going := 3 })
  (tables.foldl (fun s e => s.setBytes e.1 (leBytes 8 e.2)) s)

/-! ### Encoding: worked examples of the manual, word for word -/

/-- Chapter 2's listing: movi v1, 5 | st=3. -/
theorem test_word_movi : decodeWords [0x02805BCC#32] = .ok (.moviM1 { b := 5, a := 1, st := 3 }) := by decide +kernel
/-- iadd v1, v1, 3. -/
theorem test_word_iadd : decodeWords [0x01804C00#32] = .ok (.iaddI1 { b := 3, a := 1, st := 0 }) := by decide +kernel
/-- ffma under !p2 with HOLD on its second source and ST 5. -/
theorem test_word_ffma : decodeWords [0x058292D5#32, 0x02A06833#32, 0x80000003#32] =
    .ok (.ffma { b := 11, a := 10, st := 5, mod := 0, hold := 2, guard := 10, d := 13, c := 12 }
      { ty := .f32, rnd := 0, sat := false, imm := false, ub := false, imm20 := 0 }) := by decide +kernel
/-- A pair of fadd and fmul. -/
theorem test_word_pair : decodeWords [0x04823FC5#32, 0x2070582B#32, 0x93060343#32] =
    .ok (.pair { b := 9, a := 8, st := 1, mod := 8, hold := 0, guard := 7, d := 11, c := 10 }
      { op0lo := true, op1 := 0x13, a1 := 12, b1 := 13 }) := by decide +kernel
/-- movi v6, 0x12345678 in five words. -/
theorem test_word_movi5 : decodeWords [0x00019BC2#32, 0x00700003#32, 0x00000003#32, 0x48D159E3#32, 0x00000003#32] =
    .ok (.movi5w { h0 with a := 6 } { ty := .i32, rnd := 0, sat := false, imm := false, ub := false, imm20 := 0 } 0x12345678) := by
  decide +kernel
/-- exit, mould Z1. -/
theorem test_word_exit : decodeWords [0x00000240#32] = .ok (.exitZ1 u0) := by decide +kernel
/-- ld.b32.dev v4, v2, 16 (chapter 6). -/
theorem test_word_ld : decodeWords [0x01012401#32, 0x10700003#32, 0x46000043#32] =
    .ok (.ld { h0 with b := 2, a := 4, mod := 4 } { size := 4, scope := 3, ub := false, off := 16 }) := by decide +kernel
/-- shfl.flip v16, v24, v17 | st=5 (chapter 5). -/
theorem test_word_shfl : decodeWords [0x0C041A15#32, 0x00703847#32, 0x12000003#32] =
    .ok (.shfl { h0 with b := 24, a := 16, st := 5, d := 7, c := 17 } { ty := .n32, mode := 1, imm := false, imm20 := 0 }) := by
  decide +kernel
/-- pgmap.zero s8, s4, s6 (chapter 7). -/
theorem test_word_pgmap : decodeWords [0x02022AC1#32, 0x0470001B#32, 0x00000003#32] =
    .ok (.pgmap { h0 with b := 4, a := 8, mod := 1, c := 6 }) := by decide +kernel
/-- barinit.cnt 0, s4, s5 and bararw p2, 0 (chapter 8). -/
theorem test_word_barrier : decodeWords [0x02002C01#32, 0x00700017#32, 0x00000003#32] =
      .ok (.barinit { h0 with b := 4, c := 5 } { slot := 0, cl := false, cpos := 0 }) ∧
    decodeWords [0x0000AD01#32, 0x00700003#32, 0x00000003#32] = .ok (.bararw { h0 with a := 2 } { slot := 0, cl := false, cpos := 0 }) := by
  decide +kernel
/-- cpy.core.dl.zws s20, s4, s10, s11, 12, 0 (chapter 9). -/
theorem test_word_cpy : decodeWords [0x02052E01#32, 0x0C70582B#32, 0x03006003#32] =
    .ok (.cpy { h0 with b := 4, a := 20, mod := 3, d := 11, c := 10 }
      { slot := 12, cl := false, cpos := 0, scope := 1, rep := true, cbit := 0 }) := by decide +kernel
/-- The worked AGATH of chapter 10. -/
theorem test_word_agath : decodeWords [0x0201B141#32, 0x0070400B#32, 0x47400003#32] =
    .ok (.agath { h0 with b := 4, a := 6, d := 8, c := 2 }
      { size := 4, scope := 3, sent := true, split := false, okp := 4, slot := 0, cl := false, cpos := 0, rep := false }) := by
  decide +kernel
/-- mma.e4m3.e4m3 at0, s4, s5, s6; mzero at0; accrd.f32 v4, at0, s7 (chapter 11). -/
theorem test_word_matrix : decodeWords [0x02003241#32, 0x00703017#32, 0xCC000003#32] =
      .ok (.mma { h0 with b := 4, d := 6, c := 5 } { aty := .e4m3, bty := .e4m3, pat := 0 }) ∧
    decodeWords [0x00003201#32, 0x00700003#32, 0x00000003#32] = .ok (.mzero h0) ∧
    decodeWords [0x00013301#32, 0x0070001F#32, 0x80000003#32] =
      .ok (.accrd { h0 with a := 4, c := 7 } { ty := .f32, rnd := 0, sat := false, wide := false }) := by decide +kernel
/-- qhist.dev s4 and qpack.rn.dev s5 (chapter 12). -/
theorem test_word_quantiser : decodeWords [0x02003601#32, 0x00700003#32, 0x60000003#32] =
      .ok (.qhist { h0 with b := 4 } { scope := 3, rnd := 0, strict := false, acc := false }) ∧
    decodeWords [0x02803681#32, 0x00700003#32, 0x60000003#32] =
      .ok (.qpack { h0 with b := 5 } { scope := 3, rnd := 0, strict := false, acc := false }) := by decide +kernel
/-- emit v8, comb and recld.s s4 (chapter 13). -/
theorem test_word_graph : decodeWords [0x04003801#32, 0x00700003#32, 0x02000003#32] =
      .ok (.emit { h0 with b := 8 } { succ := 0, rtype := 2 }) ∧
    decodeWords [0x00013881#32, 0x04700003#32, 0x00000003#32] = .ok (.recld { h0 with a := 4, mod := 1 }) := by decide +kernel
/-- podqry.done s20 and podflt.pkg s8, s10 (chapter 14). -/
theorem test_word_pod : decodeWords [0x00053B41#32, 0x00700003#32, 0x0000001B#32] = .ok (.podqry { h0 with a := 20 } { n := 6 }) ∧
    decodeWords [0x05023B81#32, 0x00700003#32, 0x0000000B#32] = .ok (.podflt { h0 with b := 10, a := 8 } { sel := 2, word := 0 }) := by
  decide +kernel
/-- sadd s3, -1 in mould I1 (OP 0x10, A 3, B 0x1FF), stl.b32 v3, v2 at offset 8 (OP 0x93, B 2, C 3, SIZE 4), stashsync.all (OP 0x9E, bit 27):
words written from R36, R39, R188 and R195. -/
theorem test_word_others : decodeWords [0xFF80C400#32] = .ok (.saddI1 { b := 0x1FF, a := 3, st := 0 }) ∧
    decodeWords [0x010024C1#32, 0x0070000F#32, 0x40000023#32] =
      .ok (.stl { h0 with b := 2, c := 3 } { size := 4, scope := 0, ub := false, off := 8 }) ∧
    decodeWords [0x00002781#32, 0x00700003#32, 0x08000003#32] = .ok (.stashsync h0 { win := 0, flag := true }) := by decide +kernel

/-! ### Well-formedness: an ill-formed term for each check -/

def alu0 : WAlu := { ty := .i32, rnd := 0, sat := false, imm := false, ub := false, imm20 := 0 }

/-- A modifier bit, a field, a HOLD or an imm20 that the instruction does not use must be zero (R3, R36, R40, R44). -/
theorem smoke_reserved : WellFormed (.iadd { h0 with mod := 1 } alu0) = false ∧ WellFormed (.iadd { h0 with d := 1 } alu0) = false ∧
    WellFormed (.sadd { h0 with hold := 1 } alu0) = false ∧ WellFormed (.iadd h0 { alu0 with imm20 := 1 }) = false ∧
    WellFormed (.svret { u0 with a := 1 }) = false := by decide +kernel
/-- A TYPE, a rounding mode or SAT that the instruction does not take (R142, R144). -/
theorem smoke_types : WellFormed (.iadd h0 { alu0 with ty := .f32 }) = false ∧ WellFormed (.imulh h0 { alu0 with ty := .i8 }) = false ∧
    WellFormed (.iadd h0 { alu0 with rnd := 1 }) = false ∧ WellFormed (.iand h0 { alu0 with sat := true }) = false := by decide +kernel
/-- A register pair must be even (R59), a uniform register below 128 and a predicate below 8 (R60). -/
theorem smoke_registers : WellFormed (.iadd { h0 with a := 3 } { alu0 with ty := .i64 }) = false ∧
    WellFormed (.sadd { h0 with a := 128 } alu0) = false ∧ WellFormed (.plop { h0 with a := 8 } ⟨0⟩) = false := by decide +kernel
/-- A literal that its type cannot hold, a uniform guard that names no k-register, a scope code 6, a TRAP cause below 0x800, PAIR's two
halves with one destination (R44, R46, R42, R132, R57). -/
theorem smoke_values : WellFormed (.movi5w { h0 with a := 6 } alu0 (2 ^ 40)) = false ∧ WellFormed (.sadd { h0 with guard := 4 } alu0) = false ∧
    WellFormed (.ld { h0 with mod := 4 } { size := 4, scope := 6, ub := false, off := 0 }) = false ∧ WellFormed (.trap h0 ⟨0x7FF⟩) = false ∧
    WellFormed (.pair { h0 with b := 9, a := 8, mod := 8, d := 8, c := 10 } { op0lo := true, op1 := 0x13, a1 := 12, b1 := 13 }) = false := by
  decide +kernel
/-- An event is no instruction word. -/
theorem smoke_event : WellFormed .hostReset = false ∧ WellFormed (.load 0) = false := by decide +kernel
/-! ### The step and the first word -/

/-- `base` with words placed where its group fetches. -/
def prog (ws : List Word) : State := base.setBytes 0x10000 (ws.flatMap (fun w => leBytes 4 w.toNat))
/-- What `startIssue` and `openFetch` leave in the turn of core 0, quadrant 0. -/
noncomputable def started (s : State) : State := (openFetch (startIssue (nextTurn s).2 0 0).2).2
/-- The state after a step, as a test reads it. -/
noncomputable def stepped (s : State) : State := match step s with
  | .next t => t
  | _ => State.reset
/-- What the group's fragment fetches as its words. -/
noncomputable def fetches (s : State) (w : Word) (ws : List Word) : Bool :=
  let s1 := started s
  match (s1.group s1.cur.1).frag s1.cur.2 with
  | none => false
  | some f => bits f.pc 0 2 == 0 && (lenOf w).isSome && (openFetch (startIssue (nextTurn s).2 0 0).2).1 &&
      (match fetchWord s1 (s1.ctx (s1.group s1.cur.1).page).d f f.pc with
        | .ok v => v == w
        | .error _ => false) &&
      (match fetchRest s1 (s1.ctx (s1.group s1.cur.1).page).d f (fetchCount w - 1) (f.pc + 4) with
        | .ok l => l == ws
        | .error _ => false)

/-- StepRunsDecoded: an issue turn that chooses the fragment, whose word is movi v1, 5 | st=3; the step leaves 5 pending for v1. -/
theorem wit_step_decoded : (nextTurn (prog [0x02805BCC#32])).1 = .issue 0 0 ∧
    (startIssue (nextTurn (prog [0x02805BCC#32])).2 0 0).1 = some (0, 0) ∧ fetches (prog [0x02805BCC#32]) 0x02805BCC#32 [] = true ∧
    decodeWords [0x02805BCC#32] = .ok (.moviM1 { b := 5, a := 1, st := 3 }) ∧
    ((stepped (prog [0x02805BCC#32])).group 0).finalV 1 31 = 5#32 := by decide +kernel
/-- StepRunsDecoded: words that are ILLEGAL_FORM (IADD with MOD bit 0); the step enters the handler with code 0x1003. -/
theorem wit_step_illegal : (startIssue (nextTurn (prog [0x00000C01#32, 0x04700003#32, 3#32])).2 0 0).1 = some (0, 0) ∧
    fetches (prog [0x00000C01#32, 0x04700003#32, 3#32]) 0x00000C01#32 [0x04700003#32, 3#32] = true ∧
    decodeWords [0x00000C01#32, 0x04700003#32, 3#32] = .error .illegalForm ∧
    ((stepped (prog [0x00000C01#32, 0x04700003#32, 3#32])).group 0).h.ecause = 0x1003#16 := by decide +kernel
/-- StepRunsDecoded: a PC that is no multiple of 4, and a continuation word: MISALIGNED, code 0x0004. -/
theorem wit_step_misaligned :
    let s := base.modGroup 0 (fun g => g.modFrag 0 (fun f => { f with pc := 0x1000000002 }))
    (startIssue (nextTurn s).2 0 0).1 = some (0, 0) ∧ (openFetch (startIssue (nextTurn s).2 0 0).2).1 = true ∧ (((started s).group 0).frag 0).map (fun f => bits f.pc 0 2) = some 2#2 ∧
    ((stepped s).group 0).h.ecause = 4#16 ∧ (startIssue (nextTurn (prog [3#32])).2 0 0).1 = some (0, 0) ∧ lenOf 3#32 = none ∧
    ((stepped (prog [3#32])).group 0).h.ecause = 4#16 := by decide +kernel
/-- StepRunsDecoded: no fragment to choose, and an event's turn. -/
theorem wit_step_idle : (startIssue (nextTurn { base with groups := [] }).2 0 0).1 = none ∧
    (nextTurn { base with agenda := [.event .clockLower] }).1 = .event .clockLower ∧ isEvent .clockLower = true := by decide +kernel
/-- FirstWordTraps: a continuation word; a zero word, in the words and in a group that issues it. -/
theorem wit_first_word : bits (7#32) 0 2 = 3#2 ∧ (bits (0x80000001#32) 0 2 ≠ 3#2 ∧ bits (0x80000001#32) 6 8 = 0#8) ∧
    base.settled = true ∧ ((base.group 0).frag 0).isSome = true ∧ base.cur = (0, 0) ∧
    ((base.group 0).frag 0).map (fun f => (mayIssue base (base.group 0) f, f.sup, handles base (bareIss base f 0 1) 1)) =
      some (true, false, true) ∧
    ((after (.zeroWord 0) base).group 0).h.ecause = 1#16 := by decide +kernel
/-- UnassignedOpcodesTrap: unassigned opcodes 0x47 in three words and 0xFE in one; the handler's code has the class of the range; without a handler the
context ends. The ranges' ends name their classes. -/
theorem wit_unassigned : bits (0x000011C1#32) 0 2 ≠ 3#2 ∧ bits (0x000011C1#32) 6 8 = 0x47#8 ∧ assigned 0x47 = false ∧
    fetchCount (0x000011C1#32) = 3 ∧ assigned 0xFE = false ∧ lenOf (0x00003F80#32) = some 1 ∧
    ((base.group 0).frag 0).map (fun f => handles base (bareIss base f 0x000011C1 3) 2) = some true ∧
    ((after (.unassignedOpcode 0x000011C1) base).group 0).h.ecause = 0x1002#16 ∧
    ((after (.unassignedOpcode 0x00003F80) base).group 0).h.ecause = 2#16 ∧
    classOf 0x2F = 0 ∧ classOf 0x30 = 1 ∧ classOf 0xEB = 9 ∧ classOf 0xEC = 0xA ∧ classOf 0xF0 = 0 ∧ classOf 0xFF = 1 := by decide +kernel
/-- `base` without handlers. -/
def bare : State := base.setCtx 0 { base.ctx 0 with d := { (base.ctx 0).d with hnden := 0 } }
theorem wit_unassigned_ends : ((bare.group 0).frag 0).map (fun f => handles bare (bareIss bare f 0x000011C1 3) 2) = some false ∧
    ((bare.group 0).frag 0).map (fun f => (settleDoom (markIssued (doomGroup bare 0 f.pc
      (.plain (codeOf (classOf 0x47) 0x002) f.mask)) (bare.group 0))).absent) = some false ∧
    ((after (.unassignedOpcode 0x000011C1) bare).ctx 0).state = 6 := by decide +kernel
/-- TrapRaises: a TRAP with lanes and a handler; one whose guard is false in every lane; one without a handler. -/
theorem wit_trap : isReady (.trap h0 ⟨0x801⟩) base = true ∧ handles base (iss (.trap h0 ⟨0x801⟩) base) 15 = true ∧
    ((after (.trap h0 ⟨0x801⟩) base).group 0).h.ecause = 0x801#16 ∧
    base.settled = true ∧ issueOf (.trap { h0 with guard := 0 } ⟨0x801⟩) base = some (iss (.trap { h0 with guard := 0 } ⟨0x801⟩) base) ∧
    (iss (.trap { h0 with guard := 0 } ⟨0x801⟩) base).act = 0 ∧
    isReady (.trap h0 ⟨0xFFF⟩) bare = true ∧ handles bare (iss (.trap h0 ⟨0xFFF⟩) bare) 15 = false ∧
    ((after (.trap h0 ⟨0xFFF⟩) bare).ctx 0).state = 6 := by decide +kernel

/-! ### The arithmetic families -/

/-- PlainCompletes and PlainFrame: an instruction of each family that issues, in a group with no pending write. -/
theorem wit_plain : [Instr.nopZ1 u0, .saddI1 u0, .iadd h0 alu0, .fadd h0 { alu0 with ty := .f32 }, .popc { h0 with c := 0 } { alu0 with ty := .n32 },
      .vote h0 ⟨0⟩, .fenceZ1 u0, .movi5w h0 alu0 7].all (fun i => isPlain i && base.settled && issueOf i base == some (iss i base)) = true ∧
    (base.group 0).pend = [] := by decide +kernel
/-- ArithmeticResults, moulds I1: v1 := 0 + −1, s1 := 5 − 1. -/
theorem wit_arith_i1 : [Instr.iaddI1, .isubI1, .imulI1, .iandI1, .iorI1, .ixorI1, .saddI1, .ssubI1, .smulI1, .sandI1, .sorI1,
      .sxorI1].all (fun i => isReady (i { b := 0x1FF, a := 1, st := 0 }) base) = true ∧
    ((after (.iaddI1 { b := 0x1FF, a := 1, st := 0 }) base).group 0).finalV 1 9 = 0xFFFFFFFF#32 ∧
    ((after (.saddI1 { b := 0x1FF, a := 1, st := 0 }) base).group 0).finalS 1 = 4#32 := by decide +kernel
/-- A group with 0x80000000, 7 and 33 in lane 2 of v1, v2, v3. -/
def vals : State := base.modGroup 0 (fun g => { g with v := [(34, 0x80000000#32), (66, 7#32), (98, 33#32)] })
/-- ArithmeticResults, three words: the second source a shift count beyond 31, and signed comparison. -/
theorem wit_arith_words : [Instr.iadd, .isub, .imul, .iand, .ior, .ixor, .ishl, .ishr].all
      (fun i => isReady (i { h0 with a := 4, b := 2, c := 3 } alu0) vals) = true ∧
    ((after (.ishl { h0 with a := 4, b := 2, c := 3 } alu0) vals).group 0).finalV 4 2 = 14#32 ∧
    isReady (.lop3 { h0 with a := 4, b := 1, c := 2, d := 3 } { ty := .n32, imm := false, ub := false, lut := 0xCA }) vals = true ∧
    isReady (.icmp { h0 with a := 2, mod := 2, b := 1, c := 2 } alu0) vals = true ∧
    ((after (.icmp { h0 with a := 2, mod := 2, b := 1, c := 2 } alu0) vals).group 0).finalP 2 2 = true := by decide +kernel
/-- ArithmeticResults: NaN operands, quiet and signalling. -/
theorem wit_nan : (bits (0x7FA00000#32) 23 8 = 0xFF#8 ∧ bits (0x7FA00000#32) 0 23 ≠ 0#23) ∧
    (fltOp .add .f32 0 0 false (zx (0x7FA00000#32)) 0).1 = 0x7FE00000#64 ∧
    (fltOp .mul .f32 0 0 false (zx (0x3F800000#32)) (zx (0xFFC00001#32))).1 = 0xFFC00001#64 := by decide +kernel
/-- Chapter 2's listing, lane 0: 1.0 × ... the FFMA of 2.0 and 3.0 with 0.5 gives 6.5 (its p2 is false there). -/
theorem test_ffma : ((after (.ffma { h0 with b := 11, a := 10, d := 13, c := 12 } { alu0 with ty := .f32 }) (base.modGroup 0 (fun g =>
    { g with v := [(352, 0x40000000#32), (384, 0x40400000#32), (416, 0x3F000000#32)] }))).group 0).finalV 10 0 = 0x40D00000#32 := by
  decide +kernel
/-- PlopTable: from p1, which holds in lanes 0 to 7, to p2, and to p7. -/
theorem wit_plop : isReady (.plop { h0 with a := 2, b := 1, c := 7, d := 0 } ⟨0x08⟩) base = true ∧
    ((after (.plop { h0 with a := 2, b := 1, c := 7, d := 0 } ⟨0x08⟩) base).group 0).finalP 2 7 = true ∧
    ((after (.plop { h0 with a := 2, b := 1, c := 7, d := 0 } ⟨0x08⟩) base).group 0).finalP 2 8 = false ∧
    isReady (.plop { h0 with a := 7, b := 1, c := 7, d := 0 } ⟨0x08⟩) base = true := by decide +kernel
/-- BallotResult: lanes 0 to 7 of p1, then no active lane under p0, and a word 2 with a bit too many. -/
theorem wit_ballot : issueOf (.ballot { h0 with a := 4, b := 1 }) base = some (iss (.ballot { h0 with a := 4, b := 1 }) base) ∧
    ((after (.ballot { h0 with a := 4, b := 1 }) base).group 0).finalS 4 = 0xFF#32 ∧
    (iss (.ballot { h0 with a := 1, b := 1, guard := 0 }) base).act = 0 ∧
    neverRuns (base.group 0) 0 (shapeIn (.ballot { h0 with a := 1, b := 1, guard := 0 }) base) = false ∧
    ((after (.ballot { h0 with a := 1, b := 1, guard := 0 }) base).group 0).finalS 1 = 0#32 ∧
    bits (0x00001A41#32) 6 8 = 0x69#8 ∧ bits (0x00001A41#32) 0 2 = 1#2 := by decide +kernel
/-! ### Control -/

def lo8 : Hd := { h0 with b := 1, c := 3 }
/-- The fragment after an instruction, in `base`'s slot. -/
def frag0 (s : State) : Option Frag := (s.group 0).frag 0
/-- BranchesTransfer: BRA in both forms backwards, BRX to s0:s1's value, BRC that all lanes and that no lane takes. -/
theorem wit_branches : isReady (.bra h0 ⟨0xFFFFF⟩) base = true ∧ isReady (.braJ1 { u0 with b := 0x1FF, a := 0x1FF }) base = true ∧
    isReady (.brx { h0 with b := 2 }) base = true ∧ isReady (.brc { h0 with b := 7 } ⟨5⟩) base = true ∧
    isReady (.brc h0 ⟨5⟩) base = true ∧
    (frag0 (after (.bra h0 ⟨0xFFFFF⟩) base)).map (fun f => f.pc) = some 0xFFFFFFFFC#64 ∧
    (frag0 (after (.brx { h0 with b := 2 }) base)).map (fun f => f.pc) = some 0x1000000#64 ∧
    brcTaken ((begun (.brc { h0 with b := 7 } ⟨5⟩) base).group 0)
      (iss (.brc { h0 with b := 7 } ⟨5⟩) base) { h0 with b := 7 } = allLanes ∧
    (frag0 (after (.brc { h0 with b := 7 } ⟨5⟩) base)).map (fun f => f.pc) = some 0x1000000014#64 ∧
    (frag0 (after (.brc h0 ⟨5⟩) base)).map (fun f => f.pc) = some 0x100000000C#64 := by decide +kernel
/-- DivergencesJoin: BRC on p1, with the other slot free and with it taken. -/
def twoFrags : State := base.modGroup 0 (fun g =>
  { g with slot0 := g.slot0.map (fun f => { f with mask := 0xFFFF }), slot1 := g.slot0.map (fun f => { f with mask := 0xFFFF0000 }) })
theorem wit_diverge : isReady (.brc lo8 ⟨5⟩) base = true ∧ (base.group 0).frag 1 = none ∧ (base.group 0).sp + 1 ≤ (base.ctx 0).d.csentries ∧
    (base.group 0).chip.length + 1 ≤ 6 ∧
    brcTaken ((begun (.brc lo8 ⟨5⟩) base).group 0) (iss (.brc lo8 ⟨5⟩) base) lo8 = 0xFF#32 ∧
    (frag0 (after (.brc lo8 ⟨5⟩) base)).map (fun f => (f.pc, f.mask, f.rsp)) = some (0x1000000014#64, 0xFF#32, 0#16) ∧
    (((after (.brc lo8 ⟨5⟩) base).group 0).frag 1).map (fun f => (f.pc, f.mask, f.rsp)) = some (0x100000000C#64, 0xFFFFFF00#32, 0#16) ∧
    isReady (.brc lo8 ⟨5⟩) twoFrags = true ∧ (twoFrags.group 0).frag 1 ≠ none ∧ (twoFrags.group 0).sp + 2 ≤ 8 ∧
    ((after (.brc lo8 ⟨5⟩) twoFrags).group 0).chip.map (fun e => (e.kind, e.mask, e.pc)) =
      [(.div, 0xFFFF#32, 0x100000000C#64 + 4 * 3 - 12), (.frag, 0xFF00#32, 0x100000000C#64)] := by decide +kernel
/-- A divergence at join point 0x1000000014 with the fragment of `base` inside, and lanes of it that have already joined. -/
def diverged (mask aux : Mask) : State := base.modGroup 0 (fun g =>
  { g with slot0 := g.slot0.map (fun f => { f with mask := mask, rsp := 0 }), sp := 1,
           chip := [{ kind := .div, pc := 0x1000000014, mask := allLanes, aux := aux, link := 0xFFFF, vreg := 0, sup := false, live := true,
                      fmt := 2 }] })
theorem wit_join : isReady (.join h0 ⟨5⟩) base = true ∧ (frag0 base).map (fun f => f.rsp) = some 0xFFFF#16 ∧
    isReady (.join h0 ⟨5⟩) (diverged 0xFF 0xFFFFFF00) = true ∧ (frag0 (diverged 0xFF 0xFFFFFF00)).map (fun f => f.rsp) = some 0#16 ∧
    (frag0 (after (.join h0 ⟨5⟩) (diverged 0xFF 0xFFFFFF00))).map (fun f => (f.mask, f.pc, f.fmt, f.rsp)) =
      some (allLanes, 0x1000000014#64, 2#2, 0xFFFF#16) ∧
    isReady (.join h0 ⟨5⟩) (diverged 0xFF 0) = true ∧ frag0 (after (.join h0 ⟨5⟩) (diverged 0xFF 0)) = none ∧
    ((after (.join h0 ⟨5⟩) (diverged 0xFF 0)).group 0).chip.map (fun e => e.aux) = [0xFF#32] := by decide +kernel
/-- CallsPush: CALL in both forms; CALLX with two targets, of which lane 31 has the lower. -/
def targets : State := base.modGroup 0 (fun g => { g with v := (List.range 32).map (fun l => (64 + l, if l = 31 then 0x40#32 else 0x80#32)) })
theorem wit_calls : isReady (.call h0 ⟨5⟩) base = true ∧ isReady (.callJ1 { u0 with a := 5 }) base = true ∧
    (base.group 0).sp + 1 ≤ (base.ctx 0).d.csentries ∧ (base.group 0).chip.length < 6 ∧
    ((after (.call h0 ⟨5⟩) base).group 0).chip.map (fun e => (e.kind, e.pc, e.link)) = [(.call, 0x100000000C#64, 0xFFFF#16)] ∧
    isReady (.callx { h0 with b := 2 }) targets = true ∧
    (frag0 (after (.callx { h0 with b := 2 }) targets)).map (fun f => (f.mask, f.pc)) = some (0x80000000#32, 0x40#64) ∧
    ((after (.callx { h0 with b := 2 }) targets).group 0).chip.map (fun e => (e.kind, e.aux, e.vreg)) =
      [(.callx, 0x7FFFFFFF#32, 2#9)] := by decide +kernel
/-- ReturnsAndExits: RET from a CALL entry and without an entry; EXIT of some lanes, and of a fragment's last lanes. -/
def called : State := base.modGroup 0 (fun g =>
  { g with slot0 := g.slot0.map (fun f => { f with rsp := 0 }), sp := 1, exited := 1,
           chip := [{ kind := .call, pc := 0x1000000040, mask := allLanes, aux := 0, link := 0xFFFF, vreg := 0, sup := false, live := true,
                      fmt := 1 }] })
theorem wit_returns : isReady (.ret h0) called = true ∧ isReady (.retZ1 u0) called = true ∧
    (frag0 (after (.ret h0) called)).map (fun f => (f.mask, f.pc, f.fmt, f.rsp)) = some (0xFFFFFFFE#32, 0x1000000040#64, 1#2, 0xFFFF#16) ∧
    isReady (.retZ1 u0) base = true ∧ handles base (iss (.retZ1 u0) base) 8 = true ∧ (iss (.retZ1 u0) base).sup = false ∧
    ((after (.retZ1 u0) base).group 0).h.ecause = 8#16 := by decide +kernel
theorem wit_exits : isReady (.exit { h0 with guard := 1 }) base = true ∧ (iss (.exit { h0 with guard := 1 }) base).act = 0xFF#32 ∧
    (frag0 (after (.exit { h0 with guard := 1 }) base)).map (fun f => f.mask) = some 0xFFFFFF00#32 ∧
    isReady (.exitZ1 u0) twoFrags = true ∧ (iss (.exitZ1 u0) twoFrags).act = 0xFFFF#32 ∧
    frag0 (after (.exitZ1 u0) twoFrags) = none ∧ ((after (.exitZ1 u0) twoFrags).group 0).exited = 0xFFFF#32 := by decide +kernel
/-- YieldExchanges: without an entry, and with a FRAG entry on top. -/
def queued : State := twoFrags.modGroup 0 (fun g =>
  { g with sp := 1, fidx := [(0, false)], slot0 := g.slot0.map (fun f => { f with mask := 0xFF }),
           chip := [{ kind := .frag, pc := 0x1000000080, mask := 0xFF00, aux := 0, link := 0xFFFF, vreg := 0, sup := false, live := true,
                      fmt := 3 }] })
theorem wit_yield : isReady (.yield h0) base = true ∧ loadable (base.group 0) = none ∧ isReady (.yieldZ1 u0) queued = true ∧
    loadable (queued.group 0) = some 0 ∧
    (frag0 (after (.yieldZ1 u0) queued)).map (fun f => (f.mask, f.pc, f.fmt)) = some (0xFF00#32, 0x1000000080#64, 3#2) ∧
    (((after (.yieldZ1 u0) queued).group 0).chip.getLast?).map (fun e => (e.kind, e.pc, e.mask)) =
      some (.frag, 0x1000000004#64, 0xFF#32) := by decide +kernel
/-- SvretReturns: from a handler entered for lanes 0 to 7 under REPLAY. -/
def handling : State := base.modGroup 0 (fun g =>
  { g with h := { g.h with slot := some 0, epc := 0x1000000020, efrag := allLanes, emask := 0xFF, replay := true, ersp := 0xFFFF, efmt := 1 },
           slot0 := g.slot0.map (fun f => { f with sup := true, mask := 0xFF, pc := 0x1000008000 }) })
theorem wit_svret : isReady (.svret u0) handling = true ∧ (frag0 handling).map (fun f => f.rsp) = some (handling.group 0).h.ersp ∧
    (handling.group 0).fwd = [] ∧ (handling.group 0).h.op = none ∧ (handling.group 0).fidx = [] ∧
    (frag0 (after (.svret u0) handling)).map (fun f => (f.mask, f.pc, f.sup, f.only, f.fmt)) =
      some (allLanes, 0x1000000020#64, false, some 0xFF#32, 1#2) := by decide +kernel
/-- PrivilegedTrapsInUserMode: SVRET and PGPOOL.get in user mode. -/
theorem wit_priv : [Instr.svret u0, .pgpoolGet { h0 with a := 2, c := 1 }].all (fun i => (rawOf i).isSome && (shapeIn i base).priv && base.settled &&
      !blocked base base.cur.1 base.cur.2 (shapeIn i base) && (asyncDue base base.cur.1 base.cur.2).isNone && (match (base.group 0).frag 0 with
        | some f => mayIssue base (base.group 0) f && !f.sup && !formFault base (base.group 0) f (shapeIn i base)
        | none => false)) = true ∧
    ((after (.svret u0) base).group 0).h.ecause = 5#16 ∧
    ((after (.pgpoolGet { h0 with a := 2, c := 1 }) base).group 0).h.ecause = 0x3005#16 := by decide +kernel
/-! ### Special registers, register blocks, waits and barriers -/

/-- SpecialRegistersAndBlocks: LANEID into a v-register, CYCLE beyond 2^32, EXITED; FSTAT in user mode with nothing outstanding. -/
def late : State := { base with clk := 5 * 2 ^ 32 + 77 }
theorem wit_rsr : isReady (.rsr { h0 with a := 3, b := 0 }) late = true ∧ isReady (.rsrU1 { u0 with a := 3, b := 8 }) late = true ∧
    ((after (.rsr { h0 with a := 3, b := 0 }) late).group 0).finalV 3 31 = 31#32 ∧
    ((after (.rsrU1 { u0 with a := 3, b := 8 }) late).group 0).finalS 3 = 77#32 ∧
    (frag0 (after (.rsrU1 { u0 with a := 3, b := 8 }) late)).map (fun f => f.chl) = some 5#32 ∧
    isReady (.rsrU1 { u0 with a := 3, b := 0x12 }) late = true ∧ sregLane 0x12 = false ∧
    ((after (.rsrU1 { u0 with a := 3, b := 0x12 }) late).group 0).finalS 3 = 512#32 ∧
    isReady (.rsrU1 { u0 with a := 3, b := 0x0B }) late = true ∧
    fstatWaits (begun (.rsrU1 { u0 with a := 3, b := 0x0B }) late) 0 = false := by
  decide +kernel
/-- SpecialRegistersAndBlocks: FMT, FSTAT and SEED in user mode, EMASK and EPC's high half in a handler. -/
theorem wit_wsr : [0x0A, 0x0B, 0x0C].all (fun n => isReady (.wsr { h0 with a := 1, b := n }) base) = true ∧
    (frag0 (after (.wsr { h0 with a := 1, b := 0x0A }) base)).map (fun f => f.fmt) = some 1#2 ∧
    fget ((after (.wsr { h0 with a := 1, b := 0x0C }) base).group 0).seed 4 0 = 1#32 ∧
    [0x27, 0x22].all (fun n => isReady (.wsrU1 { u0 with a := 1, b := n }) handling) = true ∧
    ((after (.wsrU1 { u0 with a := 1, b := 0x27 }) handling).group 0).h.emask = 5#32 ∧
    ((after (.wsrU1 { u0 with a := 1, b := 0x22 }) handling).group 0).h.epc = 0x500000020#64 := by decide +kernel
/-- SpecialRegistersAndBlocks: 15 of 16 blocks given up; a claim up to 512 registers; a waiting claim granted. -/
def given : State := (base.modGroup 0 (fun g => { g with allot := 32 })).setTeam 1 { base.team 1 with pools := [(0, 15)] }
def claiming : State := given.modGroup 0 (fun g => g.modFrag 0 (fun f => { f with wait := some (.claim 15 3) }))
theorem wit_blocks : isReady (.reggive h0 ⟨15⟩) base = true ∧ (iss (.reggive h0 ⟨15⟩) base).mask = ~~~(base.group 0).exited ∧
    32 * 15 + 32 ≤ (base.group 0).allot ∧ pendingRegs base 0 = [] ∧ ((after (.reggive h0 ⟨15⟩) base).group 0).allot = 32 ∧
    ((after (.reggive h0 ⟨15⟩) base).team 1).pool 0 = 15 ∧
    isReady (.regclaim h0 ⟨15⟩) given = true ∧ (iss (.regclaim h0 ⟨15⟩) given).mask = ~~~(given.group 0).exited ∧
    claimsOf given 1 0 = [] ∧ (given.team 1).pool 0 = 15 ∧ ((after (.regclaim h0 ⟨15⟩) given).group 0).allot = 512 ∧
    claiming.settled = true ∧ (claimsOf claiming 1 0).head? = some (3, 0, 0, 15) ∧
    ((after (.regclaimGrant 1 0) claiming).group 0).allot = 512 ∧
    (frag0 (after (.regclaimGrant 1 0) claiming)).map (fun f => f.wait) = some none := by decide +kernel
/-- WaitsHold: a counter at 2, thresholds 2 and 1; a group that yielded, its condition true and false. -/
def counting : State := base.modGroup 0 (fun g => { g with cnt := [(1, 2)] })
def wc (t : BitVec 8) : WWait := { kind := 0, slot := 0, cls := 1, thresh := t, cl := false, cpos := 0 }
def yielded (n : Nat) : State := counting.modGroup 0 (fun g => { g with yw := some { cond := .counter 1 n, slot := 0, pc := 0x1000000100, from_ := 0x1000000000 } })
theorem wit_waits : isReady (.waitc h0 (wc 2)) counting = true ∧ isReady (.waitc h0 (wc 1)) counting = true ∧
    (frag0 (after (.waitc h0 (wc 2)) counting)).map (fun f => f.wait) = some none ∧
    (frag0 (after (.waitc h0 (wc 1)) counting)).map (fun f => (f.pc, f.wait)) = some (0x100000000C#64, some (.cond (.counter 1 1))) ∧
    isReady (.yieldc { h0 with c := 64 } (wc 1)) counting = true ∧
    ((after (.yieldc { h0 with c := 64 } (wc 1)) counting).group 0).yw.map (fun y => y.pc) = some 0x1000000100#64 ∧
    (yielded 2).settled = true ∧ ((yielded 2).ctx 0).state = 2 ∧ ((yielded 2).group 0).park = none ∧
    condTrue (yielded 2) ((yielded 2).group 0) (.counter 1 2) = true ∧
    (frag0 (after (.yieldResume 0) (yielded 2))).map (fun f => f.pc) = some 0x1000000100#64 ∧
    condTrue (yielded 1) ((yielded 1).group 0) (.counter 1 1) = false := by decide +kernel
/-- A team with a counting slot 0 of GEN 7 and PHASE 3 that expects `n`, and a chunk map at slot 1. -/
def slotted (n arrived : Nat) (tx : Int) : State := base.setTeam 1 { base.team 1 with slots :=
  [(0, { Slot.free with kind := 1, gen := 7, phase := 3, expect := n, arrived := arrived, tx := tx }),
   (1, { Slot.free with kind := 2, gen := 1, expect := 512 })] }
def at0 : WSlot := { slot := 0, cl := false, cpos := 0 }
def at1 : WSlot := { at0 with slot := 1 }
def ref0 : SlotRef := { team := 1, slot := 0 }
def ref1 : SlotRef := { team := 1, slot := 1 }
/-- A slot field and what it resolves to, for `namesSlot`. -/
def names (i : Instr) (s : State) (x : WSlot) (r : SlotRef) : Bool :=
  slotRef (begun i s) ((begun i s).group (iss i s).place).team (x.slot.toNat, x.cl, x.cpos.toNat) == some r && !invBusy (begun i s) r
theorem names_spec (i : Instr) (s : State) (x : WSlot) (r : SlotRef) (h : names i s x r = true) : namesSlot i s (iss i s) x r := by
  simpa only [names, namesSlot, Bool.and_eq_true, beq_iff_eq, Bool.not_eq_true'] using h
/-- BarrierSlotsPrepared: a free slot and one with other counts initialised, a chunk map of 512 bits, a slot freed. -/
def s512 : State := base.modGroup 0 (fun g => { g with s := [(1, 512#32), (2, 4095#32)] })
theorem wit_barinit : isReady (.barinit { h0 with b := 2, c := 0 } at0) s512 = true ∧ names (.barinit { h0 with b := 2, c := 0 } at0) s512 at0 ref0 = true ∧
    (slotAt s512 ref0).kind = 0 ∧ nwait s512 ref0 = 0 ∧ (slotAt s512 ref0).pend = 0 ∧ genBusy s512 ref0 = false ∧
    (slotAt (after (.barinit { h0 with b := 2, c := 0 } at0) s512) ref0).expect = 4095 ∧
    isReady (.barinit { h0 with b := 1, mod := 3 } at0) s512 = true ∧
    (slotAt (after (.barinit { h0 with b := 1, mod := 3 } at0) s512) ref0).kind = 2 ∧
    isReady (.barinv h0 at0) (slotted 4 1 0) = true ∧ names (.barinv h0 at0) (slotted 4 1 0) at0 ref0 = true ∧
    genBusy (slotted 4 1 0) ref0 = false ∧ (slotAt (after (.barinv h0 at0) (slotted 4 1 0)) ref0).kind = 0 ∧
    (slotAt (after (.barinv h0 at0) (slotted 4 1 0)) ref0).gen = 8#16 := by decide +kernel
/-- BarexpExpects: TX just below 2^39, a value of 0, a chunk map, a sum of 2^39. -/
theorem wit_barexp : isReady (.barexp { h0 with b := 1 } at0) (slotted 4 1 (2 ^ 39 - 6)) = true ∧
    names (.barexp { h0 with b := 1 } at0) (slotted 4 1 (2 ^ 39 - 6)) at0 ref0 = true ∧
    (slotAt (after (.barexp { h0 with b := 1 } at0) (slotted 4 1 (2 ^ 39 - 6))) ref0).tx = 2 ^ 39 - 1 ∧
    isReady (.barexp h0 at0) (slotted 4 1 (2 ^ 39 - 1)) = true ∧
    (slotAt (after (.barexp h0 at0) (slotted 4 1 (2 ^ 39 - 1))) ref0).tx = 2 ^ 39 - 1 ∧
    isReady (.barexp { h0 with b := 1 } at1) (slotted 4 1 0) = true ∧ names (.barexp { h0 with b := 1 } at1) (slotted 4 1 0) at1 ref1 = true ∧
    (let c := iss (.barexp { h0 with b := 1 } at1) (slotted 4 1 0)
     c.act = c.full ∧ handles (slotted 4 1 0) c 3 = true) ∧
    ((after (.barexp { h0 with b := 1 } at1) (slotted 4 1 0)).group 0).h.ecause = 0x4003#16 ∧
    isReady (.barexp { h0 with b := 1 } at0) (slotted 4 1 (2 ^ 39 - 5)) = true ∧
    handles (slotted 4 1 (2 ^ 39 - 5)) (iss (.barexp { h0 with b := 1 } at0) (slotted 4 1 (2 ^ 39 - 5))) 14 = true ∧
    ((after (.barexp { h0 with b := 1 } at0) (slotted 4 1 (2 ^ 39 - 5))).group 0).h.ecause = 0x4040#16 := by decide +kernel
/-- A token in s1: of another generation, of a past phase, of the present phase. -/
def holding (t : Word) : State := (slotted 2 1 0).modGroup 0 (fun g => { g with s := [(1, t)] })
noncomputable def bwait : Instr := .barwait { h0 with a := 2, b := 1 } at0
/-- TokensEndWaits: BARARV's token, the three ends of BARWAIT, a wait that a completion and an invalidation end. -/
def waiting : State := (slotted 2 2 0).modGroup 0 (fun g => g.modFrag 0 (fun f => { f with wait := some (.bar ref0 0x70003 2 0xF0) }))
theorem wit_tokens : isReady (.bararv { h0 with a := 5 } at0) (slotted 2 1 0) = true ∧
    names (.bararv { h0 with a := 5 } at0) (slotted 2 1 0) at0 ref0 = true ∧
    ((after (.bararv { h0 with a := 5 } at0) (slotted 2 1 0)).group 0).finalS 5 = 0x70003#32 ∧
    (slotAt (after (.bararv { h0 with a := 5 } at0) (slotted 2 1 0)) ref0).phase = 4#16 ∧
    [0x60003#32, 0x70002, 0x70003].all (fun t => isReady bwait (holding t) && names bwait (holding t) at0 ref0) = true ∧
    ((after bwait (holding 0x60003)).group 0).heldP 2 31 = false ∧ ((after bwait (holding 0x70002)).group 0).heldP 2 31 = true ∧
    (frag0 (after bwait (holding 0x70003))).map (fun f => f.wait) = some (some (.bar ref0 0x70003 2 allLanes)) ∧
    (frag0 waiting).map (fun f => f.wait) = some (some (.bar ref0 0x70003 2 0xF0)) ∧
    (slotAt waiting ref0).gen ++ (slotAt waiting ref0).phase = (0x70003#32 : Word) ∧
    ((slotComplete waiting ref0).group 0).heldP 2 7 = true ∧ (frag0 (slotRelease waiting ref0)).map (fun f => f.wait) = some none := by
  decide +kernel
/-- ArrivalsCount: the arrival that completes a phase, one by BARARW that does not, .n with a count, .bit at the last bit; BARTEST. -/
noncomputable def atest : Instr := .bartest { h0 with a := 2, b := 1, d := 3 } at0
theorem wit_arrivals : isReady (.bararv { h0 with a := 5, b := 1, mod := 1 } at0) (slotted 5 0 0) = true ∧
    names (.bararv { h0 with a := 5, b := 1, mod := 1 } at0) (slotted 5 0 0) at0 ref0 = true ∧
    (slotAt (after (.bararv { h0 with a := 5, b := 1, mod := 1 } at0) (slotted 5 0 0)) ref0).arrived = 0 ∧
    isReady (.bararv { h0 with b := 2, mod := 2 } at1) ((slotted 5 0 0).modGroup 0 (fun g => { g with s := [(2, 511#32)] })) = true ∧
    isReady (.bararw { h0 with a := 2 } at0) (slotted 3 1 0) = true ∧ names (.bararw { h0 with a := 2 } at0) (slotted 3 1 0) at0 ref0 = true ∧
    (frag0 (after (.bararw { h0 with a := 2 } at0) (slotted 3 1 0))).map (fun f => f.wait.isSome) = some true ∧
    ((after (.bararw { h0 with a := 2 } at0) (slotted 2 1 0)).group 0).heldP 2 0 = true ∧
    isReady atest (holding 0x70002) = true ∧ names atest (holding 0x70002) at0 ref0 = true ∧
    ((after atest (holding 0x70002)).group 0).finalP 2 0 = true ∧ ((after atest (holding 0x60002)).group 0).finalP 3 0 = true := by
  decide +kernel
/-- EngineArrivals: another tag, a chunk bit, bytes that complete a phase. -/
def arriving (r : SlotRef) (tag : BitVec 16) : State :=
  { slotted 1 1 64 with arrivals := [{ op := 5, cls := 1, slot := r, tag := tag, bit := some 9, bytes := 64, final := false, frec := FRec.blank }] }
theorem wit_engine_arrivals : (arriving ref0 6).settled = true ∧ (arriving ref0 6).arrivals.length = 1 ∧
    (ffind (arriving ref0 6).teams 1).isSome = true ∧ ((arriving ref0 6).team 1).ended = false ∧ (slotAt (arriving ref0 6) ref0).gen = 7#16 ∧
    (slotAt (after (.engineArrival 0) (arriving ref0 7)) ref0).phase = 4#16 ∧
    bit (slotAt (after (.engineArrival 0) (arriving ref1 1)) ref1).bits 9 = true := by decide +kernel
/-! ### Memory -/

/-- `base` with the address 0x1000000200 in s4:s5, 0x40 in s6 and in v2 of every lane, and bytes 1 to 16 in memory there and in local memory. -/
def mem : State :=
  let s := base.modGroup 0 (fun g => { g with s := [(1, 5#32), (4, 0x200#32), (5, 0x10#32), (6, 0x40#32)],
                                              v := (List.range 8).map (fun l => (64 + l, BitVec.ofNat 32 (0x40 + 4 * l))) ++
                                                   (List.range 8).map (fun l => (96 + l, BitVec.ofNat 32 (100 + l))) })
  (s.setBytes 0x10200 ((List.range 16).map (fun n => BitVec.ofNat 8 (n + 1)))).setBytes (localKey 0 0x40) ((List.range 16).map (fun n => BitVec.ofNat 8 (n + 1)))
def hu : Hd := { h0 with guard := 1, a := 8, b := 4 }
def hs : Hd := { h0 with guard := 1, c := 3, b := 4 }
def x4 : WMem := { size := 4, scope := 0, ub := true, off := 0 }
/-- The hypotheses of LoadsRead and StoresWrite: every active lane aligned, its access made. -/
def accessed (w : Where) (kind : Nat) (i : Instr) (h : Hd) (x : WMem) (lit : Option (BitVec 60)) (s : State) : Bool :=
  let c := iss i s
  let b := begun i s
  let g := b.group c.place
  let n := bytesOfSize x.size.toNat
  let ea := laneAddr (w == .loc) g c.slot h.b x.ub x.off lit
  let data (l i : Nat) : Byte := BitVec.ofNat 8 ((g.rv c.slot (h.c.toNat + i / 4) l).toNat / 2 ^ (8 * (i % 4)))
  let r := runLanes b (lanes c.act) (fun l => lsAccess w c kind n (ea l) (if kind = kWrite then some (fun _ => (List.range n).map (data l)) else none))
  isReady i s && (lanes c.act).all (fun l => (ea l).toNat % n == 0) && r.faults.isEmpty && r.wait.isNone && !r.absent &&
    r.s.settled
theorem wit_loads : accessed .gen kRead (.ld hu x4) hu x4 none mem = true ∧ accessed .gen kRead (.ld5w hu x4 4) hu x4 (some 4) mem = true ∧
    accessed .const kRead (.ldc hu x4) hu x4 none mem = true ∧ accessed .const kRead (.ldc5w hu x4 4) hu x4 (some 4) mem = true ∧
    accessed .gen kRead (.lda hu x4) hu x4 none mem = true ∧ accessed .gen kRead (.lda5w hu x4 4) hu x4 (some 4) mem = true ∧
    accessed .loc kRead (.ldl { hu with b := 2 } { x4 with ub := false }) { hu with b := 2 } { x4 with ub := false } none mem = true ∧
    accessed .loc kRead (.ldl5w { hu with b := 6 } x4 0xFFFFFFFFFFFFFFC) { hu with b := 6 } x4 (some 0xFFFFFFFFFFFFFFC) mem = true ∧
    ((after (.ld5w hu x4 4) mem).group 0).finalV 8 7 = 0x08070605#32 ∧
    ((after (.ldl { hu with b := 2 } { x4 with ub := false }) mem).group 0).finalV 8 1 = 0x08070605#32 := by decide +kernel
theorem wit_sldk : isReady (.sldk { h0 with a := 8, b := 4 } { ty := .n64, off := 8 }) mem = true ∧
    ((after (.sldk { h0 with a := 8, b := 4 } { ty := .n64, off := 8 }) mem).group 0).finalS 9 = 0x100F0E0D#32 := by decide +kernel
/-- StoresWrite, and STL's frame (the last word of the allocation). -/
theorem wit_stores : accessed .gen kWrite (.st hs x4) hs x4 none mem = true ∧ accessed .gen kWrite (.st5w hs x4 4) hs x4 (some 4) mem = true ∧
    accessed .gen kWrite (.strel hs x4) hs x4 none mem = true ∧ accessed .gen kWrite (.strel5w hs x4 4) hs x4 (some 4) mem = true ∧
    accessed .loc kWrite (.stl { hs with b := 2 } { x4 with ub := false }) { hs with b := 2 } { x4 with ub := false } none mem = true ∧
    accessed .loc kWrite (.stl5w { hs with b := 6 } x4 0xFFBC) { hs with b := 6 } x4 (some 0xFFBC) mem = true ∧
    (after (.st hs x4) mem).bytesAt 0x101FC 12 = [0, 0, 0, 0, 107, 0, 0, 0, 5, 6, 7, 8] ∧
    (after (.stl5w { hs with b := 6 } x4 0xFFBC) mem).byteAt (localKey 0 0xFFFC) = 107 ∧
    windowAt (mem.team 1) 0xFFFC = none := by decide +kernel
/-- AtomicsReplace: eight lanes add 5 to one word, in ascending order. -/
def xa : WAtom := { ty := .n32, scope := 3, order := 0, ub := true, off := 0 }
def ha : Hd := { h0 with guard := 1, a := 8, b := 4, c := 3 }
def atomics (w : Where) (i : Instr) (h : Hd) (x : WAtom) (lit : Option (BitVec 60)) (s : State) : Bool :=
  let c := iss i s
  let b := begun i s
  let g := b.group c.place
  let ea := laneAddr (w == .loc) g c.slot h.b x.ub x.off lit
  let r := runLanes b (lanes c.act) (fun l => lsAccess w c kAtomic 4 (ea l) (some (fun old =>
    leBytes 4 (atomVal (bits h.mod 0 3).toNat x.ty (BitVec.ofNat 64 (leVal old)) (srcLane g c.slot l 1 (.v h.c.toNat)) 0).toNat)))
  isReady i s && (lanes c.act).all (fun l => (ea l).toNat % 4 == 0) && r.faults.isEmpty && r.wait.isNone && !r.absent && r.s.settled
theorem wit_atomics : atomics .gen (.atom ha xa) ha xa none mem = true ∧ atomics .gen (.atom5w ha xa 4) ha xa (some 4) mem = true ∧
    atomics .loc (.atoml { ha with b := 6 } { xa with scope := 0 }) { ha with b := 6 } { xa with scope := 0 } none mem = true ∧
    atomics .loc (.atoml5w { ha with b := 6 } { xa with scope := 0 } 4) { ha with b := 6 } { xa with scope := 0 } (some 4) mem = true ∧
    atomics .gen (.red { ha with a := 0 } xa) { ha with a := 0 } xa none mem = true ∧
    atomics .gen (.red5w { ha with a := 0 } xa 4) { ha with a := 0 } xa (some 4) mem = true ∧
    ((after (.atom ha xa) mem).group 0).finalV 8 1 = 0x04030201#32 + 100 ∧
    (after (.red { ha with a := 0 } xa) mem).bytesAt 0x10200 4 = leBytes 4 (0x04030201 + 828) := by decide +kernel
/-- LaneAccesses: the last local word and one beyond; reserved regions' ends; the leaf of `base`, an absent page. -/
theorem wit_lane_local : (let c := iss (.ld hu x4) mem
     classOf c.op = 2 ∧ 0xFFFC + 4 ≤ (mem.team (mem.group c.place).team).size ∧
     windowAt (mem.team (mem.group c.place).team) 0xFFFC = none ∧ (mem.team (mem.group c.place).team).size < 0xFFFD + 4) ∧
    (mem.team 1).clu = none ∧ (mem.ctx 0).d.hoten = false ∧ mem.teams.all (fun t => t.2.windows == []) = true ∧
    (match translate mem (mem.ctx 0).d 0x1000000200 .w with
      | .ok k e _ _ => k == 0x10200 && !bit e pteDead
      | _ => false) = true ∧
    (match translate mem (mem.ctx 0).d 0x1000030000 .r with
      | .absentPage first => !first
      | _ => false) = true ∧
    (match translate mem (mem.ctx 0).d 0x1000010000 .r with
      | .absentPage first => first
      | _ => false) = true ∧
    (match translate mem (mem.ctx 0).d 0x1000020000 .w with
      | .prot => true
      | _ => false) = true := by decide +kernel
/-- MisalignedTrapsAlign: ST at 0x1000000202, four bytes. -/
theorem wit_align : isReady (.st hs { x4 with off := 2 }) mem = true ∧ isReady (.ld hu { x4 with off := 2 }) mem = true ∧
    (iss (.st hs { x4 with off := 2 }) mem).act = (iss (.st hs { x4 with off := 2 }) mem).full ∧
    handles mem (iss (.st hs { x4 with off := 2 }) mem) 10 = true ∧
    ((after (.st hs { x4 with off := 2 }) mem).group 0).h.ecause = 0x2012#16 ∧
    ((after (.st hs { x4 with off := 2 }) mem).group 0).h.eaddr = 0x1000000202#64 ∧
    ((after (.st hs { x4 with off := 2 }) mem).group 0).h.emask = 0xFF#32 := by decide +kernel
/-! ### Stash windows and the map unit -/

/-- A state with the issuing group's s-registers replaced. -/
def withS (s : State) (l : List (Nat × Word)) : State := s.modGroup 0 (fun g => { g with s := l })
/-- Team 1 with window 3 live over VA 0x1000000200: line 0 owned with two dirty bytes, line 1 shared. -/
def stash : State :=
  let w : Window := { rw := true, loff := 0x100, size := 0x300, gbase := 0x1000000200,
                      lines := [(0, { owned := true, dirty := 3, key := 0x10200 }), (1, { owned := false, dirty := 0, key := 0x10300 })] }
  (base.setTeam 1 { base.team 1 with windows := [(3, w)] }).setBytes (localKey 0 0x100) [0xAA, 0xBB, 0xCC]
def w3 : WStash := { win := 3, flag := false }
/-- What STASHUNMAP and STASHSYNC need of their lines' write-backs. -/
def syncs (i : Instr) (s : State) (ls : List (Nat × Nat)) : Bool :=
  let r := syncLines (begun i s) 1 (iss i s).act ls
  isReady i s && r.faults.isEmpty && !r.absent && r.s.settled
theorem wit_stashmap :
    let s := withS base [(1, 0x100#32), (2, 0x300#32), (4, 0x200#32), (5, 0x10#32)]
    isReady (.stashmap { h0 with b := 1, c := 4, d := 2 } { win := 3, flag := true }) s = true ∧ 0x100 + 0x300 ≤ (s.team 1).size ∧
    ffind (s.team 1).windows 3 = none ∧ stashOverlap (s.team 1) 0x100 0x300 0x1000000200 = false ∧
    ffind ((after (.stashmap { h0 with b := 1, c := 4, d := 2 } { win := 3, flag := true }) s).team 1).windows 3 =
      some { rw := true, loff := 0x100, size := 0x300, gbase := 0x1000000200, lines := [] } := by decide +kernel
theorem wit_stash_sync : syncs (.stashunmap h0 w3) stash (linesOf (stash.team 1) 3) = true ∧
    syncs (.stashsync h0 w3) stash (linesOf (stash.team 1) 3) = true ∧
    syncs (.stashsync h0 { win := 0, flag := true }) stash ((stash.team 1).windows.flatMap (fun w => linesOf (stash.team 1) w.1)) = true ∧
    isReady (.stashinv h0 w3) stash = true ∧ (ffind (stash.team 1).windows 3).isSome = true ∧
    (after (.stashsync h0 w3) stash).bytesAt 0x10200 3 = [0xAA, 0xBB, 0] ∧
    ffind ((after (.stashunmap h0 w3) stash).team 1).windows 3 = none ∧ lineOf (after (.stashinv h0 w3) stash) 1 3 0 = none := by decide +kernel
theorem wit_write_back : (lineOf stash 1 3 0).map (fun l => (l.owned, l.dirty == 0)) = some (true, false) ∧ (stash.ctx 0).d.hoten = false ∧
    (match translate stash (stash.ctx 0).d 0x1000000200 .w with
      | .ok k e _ _ => k == 0x10200 && !bit e pteDead
      | _ => false) = true ∧
    (match tryWriteBack stash 1 3 0 with
      | .done u => u.settled && u.bytesAt 0x10200 3 == [0xAA, 0xBB, 0]
      | _ => false) = true := by decide +kernel
theorem wit_stash_events : (match fillLine stash 2 1 3 2 with
      | .ok _ u => u.settled
      | _ => false) = true ∧ lineOf stash 1 3 2 = none ∧
    (lineOf (after (.stashFill 1 3 2) stash) 1 3 2).map (fun l => l.owned) = some true ∧
    (after (.stashWriteBack 1 3 0) stash).bytesAt 0x10200 2 = [0xAA, 0xBB] ∧
    (lineOf stash 1 3 1).map (fun l => l.owned) = some false ∧ lineOf (after (.l2Recall 1 3 1) stash) 1 3 1 = none ∧
    lineOf (after (.remoteLineRequest true 1 3 1) stash) 1 3 1 = none ∧ lineOf (after (.l2Recall 1 3 0) stash) 1 3 0 = none ∧
    (lineOf (after (.remoteLineRequest false 1 3 0) stash) 1 3 0).map (fun l => (l.owned, l.dirty)) = some (false, 0) ∧
    fget (after (.lineMigration (2 ^ 31 - 1) 5) stash).forward (2 ^ 31 - 1) 0 = 5 := by decide +kernel
/-- MapUnitServices: DISCARD of no page and of page 6, whose leaf has DISC; PGHINT of no page and of one. -/
def frq (s : State) : State := s.setCtx 0 { s.ctx 0 with d := { (s.ctx 0).d with frqbase := 0x60000, frqsize := 16 } }
def disc (n : Word) : State := withS ((frq base).setBytes 0x4030 (leBytes 8 0x6010F)) [(4, 0x60000#32), (5, 0x10#32), (6, n)]
theorem wit_discard : isReady (.discard { h0 with b := 4, c := 6 }) (disc 0) = true ∧
    isReady (.discard { h0 with b := 4, c := 6 }) (disc 1) = true ∧
    walk (disc 1) ((disc 1).ctx 0).d 0x1000060000 = .leaf 0 0x4030 0x6010F ∧ anyWindow (disc 1) = false ∧ (disc 1).gone 0x4030 = false ∧
    (after (.discard { h0 with b := 4, c := 6 }) (disc 1)).dwordAtKey 0x4030 = 0x6090F#64 := by decide +kernel
theorem wit_pghint : isReady (.pghint { h0 with b := 4, c := 6 } { kind := 1, prio := 2 }) (disc 0) = true ∧
    isReady (.pghint { h0 with b := 4, c := 6 } { kind := 1, prio := 2 }) (disc 1) = true ∧
    ((after (.pghint { h0 with b := 4, c := 6 } { kind := 1, prio := 2 }) (disc 1)).ctx 0).wr = 1#32 := by decide +kernel
theorem wit_pgmap_fwd : isReady (.pgmapFwd { h0 with mod := 2 }) (frq handling) = true ∧ ((after (.pgmapFwd { h0 with mod := 2 }) (frq handling)).group 0).fwd.length = 1 ∧
    isReady (.tlbinv h0) handling = true ∧ linesIn handling 0 none = [] ∧ tlbFind (after (.tlbinv h0) handling) 0 0x1000000000 = none ∧
    (let s := withS handling [(4, 0#32), (5, 0x10#32), (6, 1#32)]
     isReady (.tlbinv { h0 with mod := 1, b := 4, c := 6 }) s = true ∧ bit (1 : BitVec 6) 0 = true ∧
     tlbFind (after (.tlbinv { h0 with mod := 1, b := 4, c := 6 }) s) 0 0x100000FFFF = none) ∧
    (let s := base.modSys (fun y => { y with fab := 2 ^ 20 })
     s.settled = true ∧ s.sys.hotwin < s.sys.fab / 2 ^ 20) := by decide +kernel
/-- PagesInstalled: a pool of four frames at 0x70000, its header with HEAD and TAIL; in a handler. -/
def pool (head tail : Nat) : State :=
  let s := withS handling [(4, 0x90000#32)]
  ((s.setCtx 0 { s.ctx 0 with d := { (s.ctx 0).d with poolhdr := 0x70000, poolsize := 4 } }).setBytes 0x70000
    (leBytes 4 head ++ leBytes 4 tail)).setBytes (poolKey { (s.ctx 0).d with poolhdr := 0x70000, poolsize := 4 } (BitVec.ofNat 32 head)) (leBytes 8 0x80000)
def put4 : Instr → State → Bool := fun i s => isReady i s && !s.gone 0x70000 && !s.gone 0x70003
theorem wit_pool : put4 (.pgpoolGet { h0 with a := 6, c := 1 }) (pool 2 2) = true ∧ put4 (.pgpoolGet { h0 with a := 6, c := 1 }) (pool 2 3) = true ∧
    anyWindow (pool 2 3) = false ∧ (pool 2 3).wordAtKey 0x70000 = 2 ∧ (pool 2 3).wordAtKey 0x70004 = 3 ∧
    frameOk ((pool 2 3).dwordAtKey (poolKey ((pool 2 3).ctx 0).d 2)) = true ∧
    ((after (.pgpoolGet { h0 with a := 6, c := 1 }) (pool 2 3)).group 0).finalS 6 = 0x80000#32 ∧
    put4 (.pgpoolPut { h0 with b := 4, mod := 1, c := 1 }) (pool 2 6) = true ∧ put4 (.pgpoolPut { h0 with b := 4, mod := 1, c := 1 }) (pool 0 3) = true ∧
    frameOk 0x90000 = true ∧ (after (.pgpoolPut { h0 with b := 4, mod := 1, c := 1 }) (pool 0 3)).wordAtKey 0x70000 = 0xFFFFFFFF#32 := by decide +kernel
/-- PGMAP of an entry for PA 0xA0000: where a leaf is, above the last level, and at the absent page 3, with .zero. -/
def mapping (va : Word) : State := withS handling [(4, va), (5, 0x10#32), (6, 0xA000F#32)]
theorem wit_pgmap : isReady (.pgmap { h0 with a := 8, b := 4, c := 6 }) (mapping 0) = true ∧
    walk (mapping 0) ((mapping 0).ctx 0).d 0x1000000000 = .leaf 0 0x4000 0x1001F ∧
    walk (mapping 0x200000) ((mapping 0).ctx 0).d 0x1000200000 = .invalid 1 0x3008 0 ∧
    walk (mapping 0x30000) ((mapping 0).ctx 0).d 0x1000030000 = .invalid 0 0x4018 0 ∧ anyWindow (mapping 0) = false ∧
    bit (0xA000F#64) 0 = true ∧ bit (0xA000F#64) 1 = true ∧ bits (0xA000F#64) 52 12 = 0#12 ∧ bits (0xA000F#64) 9 7 = 0#7 ∧
    (mapping 0).gone 0x4018 = false ∧ (mapping 0).gone (ptePa 0xA000F) = false ∧ 0x4018 + 8 ≤ ptePa 0xA000F ∧
    ((after (.pgmap { h0 with a := 8, b := 4, c := 6 }) (mapping 0)).group 0).finalS 8 = 1 ∧
    ((after (.pgmap { h0 with a := 8, b := 4, c := 6 }) (mapping 0x200000)).group 0).finalS 8 = 2 ∧
    (after (.pgmap { h0 with a := 8, b := 4, c := 6, mod := 1 }) (mapping 0x30000)).dwordAtKey 0x4018 = 0xA000F#64 := by decide +kernel
/-! ### The copy engine -/

/-- Everything of a state but its agenda carried to the next instruction: the quadrant may issue again. -/
def again (s : State) : State := { s with clk := s.clk + 1, groups := s.groups.map (fun g => (g.1, g.2.modFrag 0 (fun f => { f with ready := 0 }))) }
/-- VA 0x1000000200 in s4:s5, a local offset in s6, a length in s7, a destination VA in s8:s9, CPY2D's rows, bytes and pitches in s12 to s15. -/
def cpyS (n : Word) : State := (withS (frq base) [(4, 0x200#32), (5, 0x10#32), (6, 0x400#32), (7, n), (8, 0#32), (9, 0x10#32), (12, 2#32), (13, 256#32), (14, 300#32),
  (15, 512#32)]).setBytes 0x10200 [1, 2, 3]
def cslot : WCpy := { slot := 0, cl := false, cpos := 0, scope := 3, rep := false, cbit := 0 }
def hcpy : Hd := { h0 with b := 4, a := 6, mod := 2, c := 7 }
/-- What acceptance of an asynchronous operation shows: the operation is the youngest, and each class has gone up. -/
def accepts (i : Instr) (s : State) (classes : List Nat) : Bool :=
  isReady i s && (slotRoom (begun i s) (iss i s) classes).isNone &&
    (match (after i s).ops.getLast? with
      | some o => o.todo == classes && o.place == 0
      | none => false) && classes.all (fun n => fget ((after i s).group 0).cnt n 0 == 1)
theorem wit_copies : accepts (.cpy hcpy cslot) (cpyS 512) [0, 1] = true ∧
    accepts (.cpy2d { h0 with b := 4, a := 6, mod := 2, c := 12 } cslot) (cpyS 512) [0, 1] = true ∧
    accepts (.cpys { h0 with b := 6, a := 8, c := 7 } cslot) (cpyS (2 ^ 12)) [0, 1] = true := by decide +kernel
/-- A copy registered at a counting slot, whose PEND goes up. -/
theorem wit_copy_registered :
    let s := (cpyS 512).setTeam 1 ((slotted 4 1 0).team 1)
    accepts (.cpy hcpy { cslot with rep := true }) s [0, 1] = true ∧
    (slotAt (after (.cpy hcpy { cslot with rep := true }) s) ref0).pend = 1 := by decide +kernel
/-- CopiesProgress: 512 bytes to local memory, read, then written. -/
noncomputable def copying : State := after (.cpy hcpy cslot) (cpyS 512)
noncomputable def reading : State := after (.copyChunkDone 1 0) copying
theorem wit_copy_chunks : copying.settled = true ∧ (copying.ops.map (fun o => (o.id, o.stop.isNone, opRuns copying o, o.reg))) = [(1, true, true, none)] ∧
    (match copyOf copying 1 with
      | some (o, c) => c.unread 0 && c.rem.isNone && (match readChunk (o.eng copying 5) c 0 copying with
          | .ok _ _ u => u.settled && u.ops == copying.ops
          | _ => false)
      | none => false) = true ∧
    (match copyOf reading 1 with
      | some (o, c) => match c.held with
          | [(0, b)] => b.take 3 == [1, 2, 3] && o.ripe == [0] && (match writeChunk (o.eng reading 5) c 0 b reading with
              | .ok _ u => u.settled && u.ops == reading.ops
              | _ => false)
          | _ => false
      | none => false) = true ∧
    (after (.copyChunkDone 1 0) reading).bytesAt (localKey 0 0x400) 3 = [1, 2, 3] ∧
    ((opById (after (.copyChunkDone 1 0) reading) 1).map (fun o => o.ripe)) = some [0, 1] := by decide +kernel
/-- A copy whose source page is a first touch, and one whose page is absent. -/
noncomputable def copyAt (va : Word) : State := after (.cpy hcpy cslot) (withS (frq base) [(4, va), (5, 0x10#32), (6, 0x400#32), (7, 512#32)])
def faults0 (s : State) : Option (Nat × Bool) := match copyOf s 1 with
  | some (o, c) => match moveChunk s o c 0 false with
    | .fault f => some (causeOf f.code, f.first)
    | _ => none
  | none => none
theorem wit_copy_faults : faults0 (copyAt 0x10000) = some (cAbsent, true) ∧ faults0 (copyAt 0x30000) = some (cAbsent, false) ∧
    (copyAt 0x10000).settled = true ∧ ((copyAt 0x10000).ops.map (fun o => opOrphan (copyAt 0x10000) o)) = [false] ∧
    ((opById (after (.copyFault 1 0) (copyAt 0x10000)) 1).bind (fun o => o.stop)).map (fun x => x.sent) = some false ∧
    ((copyOf (after (.copyFault 1 0) (copyAt 0x30000)) 1).map (fun p => (p.1.stop.isNone, p.2.rem.map (fun r => r.2)))) = some (true, some false) := by
  decide +kernel
/-- The remainder, once the driver has mapped the page and answered; CFILL pages filled and left. -/
noncomputable def answered : State :=
  let s := (after (.copyFault 1 0) (copyAt 0x30000)).setBytes 0x4018 (leBytes 8 0x5000F)
  modOp s 1 (fun o => match o.kind with
    | .copy c => { o with kind := .copy { c with rem := c.rem.map (fun r => (r.1, true)) } }
    | _ => o)
theorem wit_remainder : answered.settled = true ∧ (copyOf answered 1).map (fun p => (opRuns answered p.1, p.2.rem.map (fun r => r.2), p.2.unread 0)) =
      some (true, some true, true) ∧
    (match copyOf answered 1 with
      | some (o, c) => match moveChunk answered o c 0 true with
        | .done u => u.settled
        | _ => false
      | none => false) = true ∧
    ((copyOf (after (.remainderChunk 1) answered) 1).map (fun p => p.2.held.length)) = some 1 := by decide +kernel
/-- A waiting part of an absent CFILL page 7 (raw record at PA 0xA0000), unposted, and the same of page 0, which is mapped. -/
def cfillAt (va : DWord) : State := ((frq base).setBytes 0x4038 (leBytes 8 (0x200 + 0xA0000 * 64))).setCtx 0
  { (frq base).ctx 0 with waiting := [{ ticket := 5, frec := { FRec.blank with code := 0x2010, va := va, flags := flCfill }, place := some 0, op := none, line := none }] }
theorem wit_cfill : ((cfillAt 0x1000000000).ctx 0).waiting.map (fun p => (p.ticket, p.frec.seq, p.frec.flags &&& flCfill != 0)) = [(5, 0, true)] ∧
    walk (cfillAt 0x1000000000) ((cfillAt 0x1000000000).ctx 0).d 0x1000000000 = .leaf 0 0x4000 0x1001F ∧
    (cfillAt 0x1000000000).settled = true ∧
    (match walk (cfillAt 0x1000070000) ((cfillAt 0x1000070000).ctx 0).d 0x1000070000 with
      | .invalid lv k e => lv == 0 && k == 0x4038 && bit e pteCfill && !bit e ptePool && !(cfillAt 0x1000070000).gone ((bits e 12 46).toNat * 64)
      | _ => false) = true := by decide +kernel
/-- PrefetchQueue: a prefetch of the largest range; a cancel by tag; the last line of an entry. -/
def pfS : State := withS base [(4, 0x200#32), (5, 0x10#32), (6, 0x1000000#32), (7, 0x10007#32)]
def pfx1 : State := { pfS with pfx := [{ core := 0, page := 0, base := 0x1000000200, len := 0x200, next := 1, tag := 7, prio := 1, need := none, hint := none }] }
def pfslot : WPfx := { slot := 0, cl := false, cpos := 0, prio := 7, nb := false, pg := false }
theorem wit_prefetch : isReady (.pfx { h0 with b := 4, c := 6, d := 7 } pfslot) pfS = true ∧
    (after (.pfx { h0 with b := 4, c := 6, d := 7 } pfslot) pfS).pfx.map (fun p => (p.len, p.tag, p.prio)) = [(2 ^ 24, 7#16, 7)] ∧
    isReady (.pfxcancel { h0 with b := 7 }) pfx1 = true ∧ (after (.pfxcancel { h0 with b := 7 }) pfx1).pfx = [] ∧
    copyBusy (prunePfx pfx1) 0 = false ∧ (pfxOrder (prunePfx pfx1) 0).length = 1 ∧ (after (.prefetchLine 0) pfx1).pfx = [] := by decide +kernel
/-! ### The access processor -/

/-- A gather of eight lanes from a base in s4:s5, bound 16, stride 4, fill 0xF; lane l takes element l, lane 7 element 16. -/
def accS (va : Word) : State := (withS (frq base) [(4, va), (5, 0x10#32), (12, 16#32), (14, 4#32), (15, 0xF#32)]).modGroup 0 (fun g =>
  { g with v := (List.range 8).map (fun l => (64 + l, if l = 7 then 16#32 else BitVec.ofNat 32 l)) ++ (List.range 8).map (fun l => (256 + l, 0xAB#32)) })
def hag : Hd := { h0 with guard := 1, b := 4, a := 8, d := 12, c := 2 }
def xag : WAg := { size := 4, scope := 3, sent := false, split := false, okp := 3, slot := 0, cl := false, cpos := 0, rep := false }
noncomputable def gathering (va : Word) : State := after (.agath hag xag) (accS va)
theorem wit_direct : accepts (.agath hag xag) ((accS 0x200).setBytes 0x10200 [7]) [2] = true ∧
    accepts (.ascat hag { xag with okp := 0 }) (accS 0x200) [2] = true ∧
    (misLanes (directOf hag xag true ((accS 0x200).group 0) (iss (.agath hag xag) (accS 0x200)))).length = 0 := by decide +kernel
/-- AccessEvents: an element that is accessed, one out of bounds; a gather whose lanes have all faulted stops. -/
def direct1 (s : State) : Option (Op × DirectOp) := directAt s 1
theorem wit_access_events : (direct1 (gathering 0x200)).map (fun p => opRuns (gathering 0x200) p.1 && p.1.stop.isNone && p.1.todo == [2] && p.2.entry.isNone && !p.2.full &&
        bit p.2.active 7 && !bit p.2.done 7 && p.2.faulted.isEmpty) = some true ∧
    (direct1 (gathering 0x200)).map (fun p => (p.2.cls 7 == .oob, p.2.cls 6 == .access 0x1000000218,
      (laneMove (gathering 0x200) p.1 p.2 7).settled, (laneMove (gathering 0x200) p.1 p.2 6).settled)) = some (true, true, true, true) ∧
    fget ((after (.accessElementDone 1 7) (gathering 0x200)).group 0).v (256 + 7) 0 = 0xF#32 ∧
    fget ((after (.accessElementDone 1 6) (gathering 0x200)).group 0).v (256 + 6) 0 = 0#32 := by decide +kernel
noncomputable def faultAll : State :=
  [0, 1, 2, 3, 4, 5, 6, 7].foldl (fun s l => after (.accessElementDone 1 l) s) (gathering 0x30000)
theorem wit_access_stop : faultAll.settled = true ∧ (direct1 faultAll).map (fun p => (p.1.stop.isNone, p.2.faulted.length,
      p.2.active &&& ~~~p.2.done &&& ~~~maskOfList (p.2.faulted.map (fun f => f.1)))) = some (true, 7, 0) ∧
    ((opById (after (.accessOperationStop 1) faultAll) 1).bind (fun o => o.stop)).map (fun x => x.faults.length) = some 7 := by decide +kernel
/-- APREPLAY in a handler that serves the stopped gather. -/
noncomputable def replaying : State := faultAll.modGroup 0 (fun g =>
  { g with h := { g.h with slot := some 0, op := some 1 }, slot0 := g.slot0.map (fun f => { f with sup := true, pc := 0x1000008000, wait := none }) })
theorem wit_apreplay : isReady (.apreplay { h0 with a := 20, b := 15, mod := 1 }) replaying = true ∧ (replaying.group 0).h.op = some 1 ∧
    (direct1 (begun (.apreplay { h0 with a := 20, b := 15, mod := 1 }) replaying)).isSome = true ∧
    ((after (.apreplay { h0 with a := 20, b := 15, mod := 1 }) replaying).group 0).finalS 20 = 0x80#32 ∧
    (direct1 (after (.apreplay { h0 with a := 20, b := 15, mod := 1 }) replaying)).map (fun p => p.2.done) = some 0x8F#32 := by decide +kernel
/-- A stream descriptor at team offset 0x40: base and bound as above, index array at 0x1000000300, two indices, queue area at 0x1000, depth 2,
stride 4, fill 9. -/
def sdesc (scatter : Bool) : List Byte := leBytes 8 0x1000000200 ++ leBytes 8 16 ++ leBytes 8 (if scatter then 0 else 0x1000000300) ++
  leBytes 4 (if scatter then 0 else 40) ++ leBytes 4 4 ++ leBytes 4 9 ++ leBytes 4 0x1000 ++
  leBytes 4 ((if scatter then 2 ^ 31 else 0) + 3 * 2 ^ 28 + 4 * 2 ^ 24 + 2 * 2 ^ 20) ++ List.replicate 20 0
def streamS (scatter : Bool) : State := ((accS 0x200).modGroup 0 (fun g => { g with s := fset g.s 6 0 0x40#32 })).setBytes (localKey 0 0x40) (sdesc scatter)
def xap : WAp := { snum := 1, size := 4 }
noncomputable def streaming (scatter : Bool) : State := after (.apstart { h0 with b := 6 } { xap with size := 0 }) (streamS scatter)
theorem wit_apstart : isReady (.apstart { h0 with b := 6 } { xap with size := 0 }) (streamS false) = true ∧
    (match locAccess (begun (.apstart { h0 with b := 6 } { xap with size := 0 }) (streamS false))
        6 kEngRead 1 0x40 64 0x40 none with
      | .ok bs u => u.settled && bs == sdesc false && streamOk bs (streamOf bs)
      | _ => false) = true ∧
    hitsWindow ((streamS false).team 1) 0x1000 256 = false ∧ contextsUsed (streamS false) 0 = 0 ∧
    streamAt (streaming false) 1 1 = some { streamOf (sdesc false) with sid := 1 } := by decide +kernel
noncomputable def ready1 : State := after (.streamEntryReady 1 1) (streaming false)
def hpop : Hd := { h0 with guard := 1, a := 8, c := 3, d := 4 }
def xpush : WAp := { xap with size := 4 }
/-- The stream's last entry taken, an entry ready, and none ready. -/
noncomputable def spent : State := setStream (streaming false) 1 1 { streamOf (sdesc false) with taken := 2, next := 2 }
theorem wit_appop : isReady (.appop hpop xap) spent = true ∧
    ((liveStream spent (iss (.appop hpop xap) spent) xap false).map (fun st => (takeEntry st).isNone)) = some true ∧
    isReady (.appop hpop xap) ready1 = true ∧
    ((liveStream ready1 (iss (.appop hpop xap) ready1) xap false).map (fun st => (takeEntry st).map (fun p =>
      (p.1, (st.entries.find? (fun e => e.n == p.1 && e.ready)).isSome, p.2.isSpoilt p.1)))) = some (some (0, true, false)) ∧
    ((after (.appop hpop xap) ready1).group 0).heldP 3 5 = true ∧
    isReady (.appop hpop xap) (streaming false) = true ∧
    (frag0 (after (.appop hpop xap) (streaming false))).map (fun f => f.wait) = some (some (.appop 1 0 8 3 4 0xFF 2)) := by decide +kernel
theorem wit_streams : accepts (.appush { hpop with c := 2, d := 0 } xap) (streaming true) [2] = true ∧
    ((liveStream (streaming true) (iss (.appush { hpop with c := 2, d := 0 } xap) (streaming true)) xap true).map (fun st => st.qdepth)) = some 2 ∧
    pushed (streaming true) 1 1 = 0 ∧
    isReady (.apstat { h0 with a := 20 } { xap with size := 0 }) (streaming true) = true ∧
    ((after (.apstat { h0 with a := 20 } { xap with size := 0 }) (streaming true)).group 0).finalS 20 = 0x62000000#32 ∧
    isReady (.apstop h0 { xap with size := 0 }) (streaming true) = true ∧
    (streamAt (after (.apstop h0 { xap with size := 0 }) (streaming true)) 1 1).map (fun y => y.state) = some 3 ∧
    streamAt (after (.streamContextFree 1 1) (after (.apstop h0 { xap with size := 0 }) (streaming true))) 1 1 = none := by decide +kernel
/-- A gather stream's entry that becomes ready, and one whose index array is absent. -/
noncomputable def badIdx : State := setStream (streaming false) 1 1 { streamOf (sdesc false) with idx := 0x1000030000 }
theorem wit_stream_events : (streamRun (streaming false) 1 1).map (fun p => (p.2.2.absent, p.2.2.wait.isNone, p.2.2.e.held == [], p.2.2.e.ready)) =
      some (false, true, true, true) ∧
    (streamAt ready1 1 1).map (fun y => y.entries.map (fun e => (e.n, e.ready))) = some [(0, true)] ∧
    (streamRun badIdx 1 1).map (fun p => (p.2.2.absent, p.2.2.wait.isNone, p.2.2.e.held == [], p.2.2.s.settled)) =
      some (false, true, false, true) ∧
    (streamAt (after (.streamFaultHold 1 1) badIdx) 1 1).map (fun y => y.state) = some 2 := by decide +kernel
/-! ### The matrix engine and the quantiser -/

/-- An e4m3 tile descriptor: elements at VA 0x1000000400, scales after them, one line of one segment. -/
def tdesc : List Byte := leBytes 8 0x1000000400 ++ leBytes 4 0x1000 ++ leBytes 4 0x1800 ++ leBytes 4 0 ++ leBytes 4 128 ++ leBytes 4 0xC0000000 ++ leBytes 4 0
/-- A quantiser descriptor: 128 FP32 elements of one line at VA 0x1000000800, the tile descriptor at 0x100, its blocks at 0x800, 0x2000, 0x2100. -/
def qdesc : List Byte := leBytes 8 0x1000000800 ++ leBytes 4 512 ++ leBytes 4 0x100 ++ leBytes 4 0x800 ++ leBytes 4 0x2000 ++ leBytes 4 0x2100 ++
  leBytes 4 0 ++ leBytes 4 1024 ++ List.replicate 28 0
def matS : State := (((withS (frq base) [(4, 0x100#32), (5, 0x120#32), (6, 0#32), (7, 0x305#32), (8, 0x800#32), (9, 0x10#32), (10, 512#32), (11, 0x7F#32),
  (16, 0x140#32)]).setBytes (localKey 0 0x100) tdesc).setBytes (localKey 0 0x120) tdesc).setBytes (localKey 0 0x140) qdesc
def xacc : WAcc := { ty := .f32, rnd := 0, sat := false, wide := false }
def xst : WAccst := { ty := .f32, rnd := 0, sat := false, wide := false, pad := false, scope := 3, slot := 0, cl := false, cpos := 0, rep := false }
def hm : Hd := { h0 with b := 4, c := 5, d := 6 }
def xm : WMma := { aty := .e4m3, bty := .e4m3, pat := 0 }
theorem wit_matrix : accepts (.mzero { h0 with a := 1 }) matS [3] = true ∧ accepts (.mld { h0 with a := 2, b := 8 }) matS [3] = true ∧
    rangeThere matS 1 0x1000000800 2048 = true ∧
    accepts (.accrd { h0 with a := 4, c := 7 } xacc) matS [3] = true ∧ accepts (.accwr { h0 with b := 4, c := 7 } xacc) matS [3] = true ∧
    bit (0x305#32) 7 = false ∧ bits (0x305#32) 10 22 = 0#22 ∧
    accepts (.accst { h0 with b := 8, c := 10, d := 11 } xst) matS [3] = true ∧ accSize .f32 false false = 4 := by decide +kernel
theorem wit_mma : accepts (.mma hm xm) matS [3] = true ∧ accepts (.mmas { hm with mod := 8 } { xm with pat := 1 }) matS [3] = true ∧
    (match locAccess (begun (.mma hm xm) matS) 7 kEngRead 1 0x100 32 0x100 none with
      | .ok a u => a == tdesc && (match locAccess u 7 kEngRead 1 0x120 32 0x120 none with
          | .ok b w => b == tdesc && w.settled && w.ops == matS.ops && w.groups == matS.groups
          | _ => false)
      | _ => false) = true ∧
    tileFits tdesc (tileOf tdesc) .e4m3 false 1 = true ∧ tileFits tdesc (tileOf tdesc) .e4m3 true 1 = true ∧ tileAligned (tileOf tdesc) = true ∧
    tileThere matS 1 (tileOf tdesc) false 1 1 = true ∧ tileThere matS 1 (tileOf tdesc) true 1 1 = true := by decide +kernel
theorem wit_mstat : isReady (.mstat { h0 with a := 20 }) matS = true ∧ onTile matS 1 0 = [] ∧
    ((after (.mstat { h0 with a := 20 }) (matS.setTeam 1 { matS.team 1 with tiles := [(0, { el := [], nan := true, inf := false })] })).group 0).finalS 20 =
      2#32 ∧
    onTile (after (.mzero h0) matS) 1 0 ≠ [] ∧ isReady (.mstat { h0 with a := 20 }) (again (after (.mzero h0) matS)) = true := by decide +kernel
/-- An operation accepted and ready to complete. -/
def mat1 (s : State) : Option Nat := (matAt s 1).map (fun p => p.2.1)
noncomputable def rd : State := after (.accrd { h0 with a := 4, c := 7 } xacc) (matS.setTeam 1 { matS.team 1 with tiles :=
  [(0, { el := [(elemNo 5 3 false 31, accOf (fltVal .f32 0x3FC00000))], nan := false, inf := false })] })
noncomputable def wr : State := after (.accwr { h0 with b := 4, c := 7 } xacc) (matS.modGroup 0 (fun g => { g with v := [(128 + 31, 0x3FC00000#32)] }))
theorem wit_matrix_events : mat1 (after (.mzero { h0 with a := 1 }) matS) = some 1 ∧ (after (.mzero { h0 with a := 1 }) matS).settled = true ∧
    ((opById (after (.mzeroDone 1) (after (.mzero { h0 with a := 1 }) matS)) 1).map (fun o => o.ripe)) = some [3] ∧
    mat1 rd = some 0 ∧ fget ((after (.accrdDone 1) rd).group 0).v (32 * 4 + 31) 0 = 0x3FC00000#32 ∧
    mat1 wr = some 0 ∧ fget (((after (.accwrDone 1) wr).team 1).tile 0).el (elemNo 5 3 false 31) 0 = accOf (fltVal .f32 0x3FC00000) := by
  decide +kernel
noncomputable def mul : State := after (.mma hm xm) (((matS.setBytes 0x10400 [0x38]).setBytes 0x11400 [127, 127, 127, 127]).setBytes 0x11C00 (leBytes 4 0x3F800000))
noncomputable def ldm : State := after (.mld { h0 with a := 2, b := 8 }) matS
noncomputable def sto : State := after (.accst { h0 with b := 8, c := 10, d := 11 } xst) matS
def outMat (s : State) (f : Op → Nat → MatKind → Bool) : Bool := match matAt s 1 with
  | some (o, t, m) => s.settled && f o t m
  | none => false
theorem wit_mma_event : outMat mul (fun o t m => match m with
      | .mma a b mm n 1 sp pat ma mb 0 => match segAttempt mul o t a b mm n 0 sp pat ma mb with
          | .ok _ u => u.settled && u.teams == mul.teams && u.ops == mul.ops
          | _ => false
      | _ => false) = true ∧
    fget (((after (.mmaSegmentDone 1) mul).team 1).tile 0).el 0 0 = accOf (fltVal .f32 0x3F800000) := by decide +kernel
theorem wit_mld_accst : outMat ldm (fun o _ m => match m with
      | .mld reg addr => reg == 2 && (match engRead (o.eng ldm 7) false kEngRead addr 2048 ldm with
          | .ok _ u => u.settled && u.teams == ldm.teams && u.ops == ldm.ops
          | _ => false)
      | _ => false) = true ∧
    outMat sto (fun o t m => match m with
      | .accst b r0 _ p ty rnd sat wide pad _ _ rows => o.reg.isNone &&
          (match engWrite (o.eng sto 7) false kEngWrite (plus b (rows * p)) (rowBytes o ((sto.team 1).tile t) (r0 + rows) ty rnd sat wide pad).1 sto with
          | .ok _ u => u.settled && u.ops == sto.ops
          | _ => false)
      | _ => false) = true ∧
    ((opById (after (.accstRowDone 1) sto) 1).map (fun o => o.ripe)) = some [3] := by decide +kernel
theorem wit_matrix_fault : outMat (after (.mld { h0 with a := 2, b := 8 }) (withS matS [(8, 0x30000#32), (9, 0x10#32)])) (fun o t m =>
      match matFaultOf (after (.mld { h0 with a := 2, b := 8 }) (withS matS [(8, 0x30000#32), (9, 0x10#32)])) o t m with
      | some f => causeOf f.code == cAbsent
      | none => false) = true := by decide +kernel
/-- The quantiser's instructions accepted; a histogram made; one whose source is absent. -/
def hq : Hd := { h0 with b := 16 }
def xq : WQ := { scope := 3, rnd := 0, strict := false, acc := false }
theorem wit_quantiser : [Instr.qhist, .qclip, .qpack, .qolst, .qrst].all (fun i => accepts (i hq xq) matS [4]) = true ∧ qdescOk qdesc (qdescOf qdesc) true = true ∧
    qtileOk tdesc (qdescOf qdesc) (tileOf tdesc) = true ∧ qAligned (qdescOf qdesc) (tileOf tdesc) true true = true ∧
    qAligned (qdescOf qdesc) (tileOf []) false false = true := by decide +kernel
noncomputable def hist : State := after (.qhist hq xq) matS
noncomputable def noSrc : State := modOp hist 1 (fun o => match o.kind with
  | .quant q => { o with kind := .quant { q with d := { q.d with src := 0x1000030000 } } }
  | _ => o)
theorem wit_quant_events : (match quantAt hist 1 with
      | some (o, q) => match quantAttempt hist o q with
          | .ok (.out _ _) u => u.settled && u.ops == hist.ops
          | _ => false
      | none => false) = true ∧
    ((opById (after (.quantOpDone 1) hist) 1).map (fun o => o.ripe)) = some [4] ∧
    (match quantAt noSrc 1 with
      | some (o, q) => match quantAttempt noSrc o q with
          | .fault f => causeOf f.code == cAbsent
          | _ => false
      | none => false) = true := by decide +kernel
/-- QPACK of two outliers into a list of one. -/
noncomputable def over1 : State := after (.qpack hq { xq with strict := true }) (((matS.setBytes (localKey 0 0x118) (leBytes 4 0xC0010000)).setBytes (localKey 0 0x2000)
  (leBytes 4 100 ++ leBytes 4 0x3F800000)).setBytes 0x10800 (leBytes 4 0x42C80000 ++ leBytes 4 0x42C80000))
theorem wit_quant_overflow : (match quantAt over1 1 with
      | some (o, q) => match quantAttempt over1 o q with
          | .ok (.overflow u n) _ => u == 0 && n == 1
          | _ => false
      | none => false) = true ∧
    (((opById (after (.quantFault 1) over1) 1).bind (fun o => o.stop)).map (fun x => x.faults.map (fun f => f.code))) = some [0x8021#16] := by decide +kernel
/-! ### Asynchronous faults, answers and the scheduler -/

/-- An MLD whose page is absent, stopped: at a pool-backed page the handler serves it, elsewhere the group parks. -/
noncomputable def stopped (lo : Word) : State := after (.matrixFault 1) (after (.mld { h0 with a := 2, b := 8 }) (withS matS [(8, lo), (9, 0x10#32)]))
theorem wit_async : (nextStopped (stopped 0x10000) 0).map (fun p => (p.1.id, p.2.faults.length, p.1.place, opById (stopped 0x10000) p.1.id == some p.1)) =
      some (1, 1, 0, true) ∧
    atBoundary (stopped 0x10000) ((stopped 0x10000).group 0) = true ∧ heldPop (stopped 0x10000) ((stopped 0x10000).group 0) = none ∧
    (nextStopped (stopped 0x10000) 0).map (fun p => p.2.faults.map (fun f => (dispOf ((stopped 0x10000).ctx 0).d f.code f.first == .handler, f.mask))) =
      some [(true, 0xFFFFFFFF#32)] ∧
    slotHolding ((stopped 0x10000).group 0) 0xFFFFFFFF = some 0 ∧
    (frag0 (stopped 0x10000)).map (fun f => (f.only, f.wait)) = some (none, none) ∧
    (frag0 (after (.asyncFaultDelivery 0) (stopped 0x10000))).map (fun f => (f.pc, f.sup)) = some (0x1000008000#64, true) ∧
    ((after (.asyncFaultDelivery 0) (stopped 0x10000)).group 0).h.op = some 1 ∧
    ((after (.asyncFaultDelivery 0) (stopped 0x10000)).group 0).h.eaddr = 0x1000010000#64 ∧
    ((after (.asyncFaultDelivery 0) (stopped 0x10000)).group 0).h.epc = 0x100000000C#64 := by decide +kernel
theorem wit_async_park : (nextStopped (stopped 0x30000) 0).map (fun p => p.2.faults.map (fun f => dispOf ((stopped 0x30000).ctx 0).d f.code f.first == .park)) =
      some [true] ∧
    (nextStopped (stopped 0x30000) 0).map (fun p => (parkAsync (stopped 0x30000) 0 p.1.pc (some p.1.id) none p.2.faults).settled) = some true ∧
    ((after (.asyncFaultDelivery 0) (stopped 0x30000)).ctx 0).waiting.map (fun p => (p.frec.va, p.frec.seq)) = [(0x1000030000#64, 1#32)] ∧
    (nextStopped ((stopped 0x30000).modGroup 0 (fun g => { g with ended := true })) 0).isSome = true := by decide +kernel
/-- A stream's held entry whose APPOP waits. -/
noncomputable def held1 : State := after (.appop hpop xap) (after (.streamFaultHold 1 1) badIdx)
theorem wit_async_stream : nextStopped held1 0 = none ∧ atBoundary held1 (held1.group 0) = true ∧ (heldPop held1 (held1.group 0)).isSome = true ∧
    (heldPop held1 (held1.group 0)).map (fun y => (deliverStream held1 0 y).settled) = some true ∧
    ((after (.asyncFaultDelivery 0) held1).group 0).park.isSome = true := by decide +kernel
/-- A completed MLD retires. -/
noncomputable def done1 : State := again (after (.mldDone 1) (after (.mld { h0 with a := 2, b := 8 }) matS))
theorem wit_retire : (opById done1 1).map (fun o => (o.ripe, o.todo, olderOpen done1 o 3)) = some ([3], [], false) ∧ done1.settled = true ∧
    (ffind done1.groups 0).map (fun g => (g.ended, fget g.cnt 3 0)) = some (false, 1) ∧
    fget ((after (.operationRetire 1 3) done1).group 0).cnt 3 0 = 0 ∧ opById (after (.operationRetire 1 3) done1) 1 = none := by decide +kernel
/-- A load of an absent page has parked its group; the driver answers. -/
noncomputable def parked : State := after (.ld hu x4) (withS (frq base) [(4, 0x30000#32), (5, 0x10#32)])
def rec1 : FRec := FRec.blank
def held2 : State := (frq base).setCtx 0 { (frq base).ctx 0 with heldRecs := [rec1] }
theorem wit_answers : parked.settled = true ∧ (unanswered parked 0 1).map (fun p => ((answerPart parked 0 p).settled, (settleDoom (doom parked 0 p.frec)).absent,
      p.place == some 0, p.op.isNone, p.line.isNone)) = some (true, false, true, true, true) ∧
    (parked.group 0).fwd = [] ∧ (parked.group 0).park.map (fun k => ((some k.tickets = (unanswered parked 0 1).map (fun p => [p.ticket]) : Bool), k.dead, k.svret,
      k.op.isNone, k.stream.isNone)) = some (true, false, false, true, true) ∧
    ((after (.frespResume 0 1) parked).group 0).park = none ∧ ((after (.frespTerminate 0 1) parked).ctx 0).state = 6 := by decide +kernel
theorem wit_post : held2.settled = true ∧ frqFull held2 0 = false ∧
    (writeRec (held2.setCtx 0 { held2.ctx 0 with heldRecs := [] }) 0 rec1).settled = true ∧
    ((after (.faultRecordPost 0) held2).ctx 0).heldRecs = [] := by decide +kernel
/-- A barrier whose waiter has waited as long as the watchdog allows. -/
def tired : State :=
  let s := waiting.setCtx 0 { (frq waiting).ctx 0 with d := { ((frq waiting).ctx 0).d with wdcycles := 1 } }
  s.setTeam 1 { s.team 1 with slots := (s.team 1).slots.map (fun x => (x.1, { x.2 with age := 1024 })) }
theorem wit_watchdog : tired.settled = true ∧ (expired tired 0).head? = some (0, 1, 0) ∧ ((waiters tired ref0).head?).isSome = true ∧
    (settleDoom (doom tired 0 rec1)).absent = false ∧ ((after (.barrierWatchdogExpiry 1 0) tired).ctx 0).state = 6 := by decide +kernel
/-- A graph of two lane-record nodes of one role each, four 16-byte records a die and node, node 1 listed by node 0; its bytes; a launch record. -/
def nodeB (succ : List Byte) : List Byte := leBytes 8 0x1000000000 ++ leBytes 4 (3 * 2 ^ 12) ++ leBytes 4 0 ++ leBytes 4 (2 ^ 10) ++ leBytes 12 0 ++
  leBytes 4 4 ++ leBytes 4 (succ.length / 2) ++ leBytes 24 0 ++ succ ++ List.replicate (64 - succ.length) 0
def graphB : List Byte := leBytes 4 2 ++ leBytes 4 0 ++ leBytes 4 1 ++ List.replicate 244 0 ++ nodeB (leBytes 2 1) ++ nodeB []
def lrecB : List Byte := leBytes 8 0x1000001000 ++ leBytes 8 0x1000001800 ++ leBytes 4 1 ++ List.replicate 44 0
def gr2 : Graph := { root := 0, types := [16], nodes := [nodeOf (nodeB (leBytes 2 1)), nodeOf (nodeB [])] }
def launch7 : Launch := { Launch.blank 7 0 1 0 (lrecOf lrecB) with phase := 1, init := 1, g := gr2 }
/-- The base state whose team is one of a running launch of that graph; a launch record at team offset 0x40; values in v4 to v7. -/
def gOf (graph recs : List Byte) : State :=
  let s := (((frq base).setBytes 0x11000 graph).setBytes 0x11800 recs).setBytes (localKey 0 0x40) lrecB
  let s := { s with launches := [launch7] }
  let s := s.setCtx 0 { s.ctx 0 with nextLseq := 2 }
  let s := s.setTeam 1 { s.team 1 with lid := 7, recs := [(3, [0x11, 0x22, 0x33, 0x44])] }
  s.modGroup 0 (fun g => { g with s := [(4, 0x40#32), (5, 1#32), (6, 9#32)], v := (List.range 128).map (fun i => (128 + i, BitVec.ofNat 32 i)) })
def gS : State := gOf graphB (leBytes 16 5)
def xe : WEmit := { succ := 0, rtype := 0 }
def he : Hd := { h0 with guard := 1, b := 4 }
def queue (s : State) : Option (List (Nat × Nat × Bool × List Word)) := (launchOf s 7).map (fun l => l.q.map (fun r => (r.node, r.die, r.granted, r.data)))
theorem wit_emit : isReady (.emit he xe) gS = true ∧ isReady (.emit { he with mod := 2, a := 2 } xe) gS = true ∧
    (myLaunch gS (iss (.emit he xe) gS)).map (fun l => (l.lid, l.cancel, (gS.ctx l.page).d.podtab)) = some (7, 0, 0) ∧
    emitTarget launch7 0 0 0 = some 1 ∧ emitDepth (gS.team 1) 1 ≤ (launch7.g.node 1).recur ∧
    -- four of eight records are granted at once, the rest wait
    (queue (after (.emit he xe) gS)).map (fun q => q.map (fun r => r.2.2.1)) = some [true, true, true, true, false, false, false, false] ∧
    (queue (after (.emit he xe) gS)).map (fun q => (q.headD (0, 0, false, [])).2.2.2) = some [0#32, 32#32, 64#32, 96#32] ∧
    ((after (.emit { he with mod := 2, a := 2 } xe) gS).group 0).heldP 2 3 = true ∧
    ((after (.emit { he with mod := 2, a := 2 } xe) gS).group 0).heldP 2 4 = false := by decide +kernel
def het : Hd := { h0 with b := 4 }
theorem wit_emitt : isReady (.emitt het xe) gS = true ∧ (match locAccess (begun (.emitt het xe) gS) 9 kRead 1 0x40 16 0x40 none with
      | .ok b u => b == lrecB.take 16 && u.settled && u.launches == gS.launches && u.groups == (begun (.emitt het xe) gS).groups
      | _ => false) = true ∧
    (queue (after (.emitt het xe) gS)) = some [(1, 0, true, [0x1000#32, 0x10#32, 0x1800#32, 0x10#32])] := by decide +kernel
/-- The same state after an EMIT, with a team of a team-record node. -/
noncomputable def emitted : State := again ((after (.emit he xe) gS).modGroup 0 (fun g => g.modFrag 0 (fun f => { f with wait := none })))
theorem wit_reclds : isReady (.recld { h0 with guard := 7, a := 8 }) gS = true ∧
    ((after (.recld { h0 with guard := 7, a := 8 }) gS).group 0).finalV 9 3 = 0x22#32 ∧
    ((after (.recld { h0 with guard := 7, a := 8 }) gS).group 0).finalV 9 4 = 0#32 ∧
    isReady (.recld { h0 with a := 20, mod := 1 }) (gS.setTeam 1 { gS.team 1 with kind := 1 }) = true ∧
    isReady (.flushq h0 { succ := 0 }) emitted = true ∧
    (launchOf (after (.flushq h0 { succ := 0 }) emitted) 7).map (fun l => l.q.map (fun r => r.flush)) =
      some [true, true, true, true, false, false, false, false] := by decide +kernel
def hg : Hd := { h0 with a := 20, b := 4, mod := 2, c := 2 }
def full4096 : State := { gS with launches := gS.launches ++ List.replicate 4095 (Launch.blank 8 1 1 1 (lrecOf lrecB)) }
theorem wit_glaunch : isReady (.glaunch hg) gS = true ∧
    (match locAccess (begun (.glaunch hg) gS) 9 kRead 1 0x40 64 0x40 none with
      | .ok bs u => u.settled && (acceptLaunch u 0 (some bs) (some launch7)).2.settled &&
          (match checkLaunch u 0 bs with
           | .ok (.inl g) w => g == gr2 && w.settled
           | _ => false)
      | _ => false) = true ∧
    ((after (.glaunch hg) gS).group 0).finalS 20 = 2#32 ∧ (after (.glaunch hg) gS).launches.map (fun l => (l.lseq, l.parent)) = [(1, none), (2, some 7)] ∧
    isReady (.glaunch hg) full4096 = true ∧ ((after (.glaunch hg) full4096).group 0).finalS 20 = 0#32 := by decide +kernel
/-- GCANCEL and GWAIT of LSEQ 1 in s5, of none in s6; a completed launch. -/
def closed : State := gS.setCtx 0 { gS.ctx 0 with closed := [(9, 0x21, [], [])] }
theorem wit_cancel : isReady (.gcancel { h0 with b := 6 }) gS = true ∧ isReady (.gcancel { h0 with b := 5 }) emitted = true ∧
    (launchBy gS 0 9 gS.pkg).isNone = true ∧ (launchBy emitted 0 1 emitted.pkg).map (fun l => (l.lid, l.r.pod, l.sent, l.phase, l.cancel)) =
      some (7, false, 0, 1, 0) ∧
    (launchOf (after (.gcancel { h0 with b := 5 }) emitted) 7).map (fun l => (l.cancel, l.code, l.q.length, l.dropped)) = some (1, 2, 0, 8) ∧
    isReady (.gwait { h0 with a := 20, b := 6 }) gS = true ∧ ((after (.gwait { h0 with a := 20, b := 6 }) gS).group 0).finalS 20 = 0xF#32 ∧
    ((after (.gwait { h0 with a := 20, b := 6 }) closed).group 0).finalS 20 = 0x21#32 ∧
    isReady (.gwait { h0 with a := 20, b := 5, mod := 1 }) gS = true ∧ isReady (.gwait { h0 with a := 20, b := 5 }) gS = true ∧
    (frag0 (after (.gwait { h0 with a := 20, b := 5 }) gS)).map (fun f => f.wait) = some (some (.gwait 1 20)) := by decide +kernel
/-- A launch accepted and not started; one with pending records; one whose grid runs. -/
def fresh1 : State := { gS with launches := [{ launch7 with phase := 0, init := 0 }] }
def gridNode : Node := { nodeOf (nodeB []) with kind := 2, cluh := 0 }
def rec0 : QRec := { rid := 5, node := 1, die := 0, data := [1, 2, 3, 4], depth := 0, granted := true, spilled := false, flush := false, empty := none,
                     place := 0, order := 0 }
def gridRec : QRec := { rec0 with data := [2, 1, 1, 0, 0, 0, 0, 0] }
def gr3 : Graph := { gr2 with types := [32], nodes := [nodeOf (nodeB []), gridNode] }
def grid (grids : List GridJob) : State := { gS with launches := [{ launch7 with g := gr3, grids := grids, q := [gridRec] }] }
def job : GridJob := { node := 1, seg := some 0, next := 0, last := 2, data := [2, 1, 1, 0, 0, 0, 0, 0], order := 0, range := none }
noncomputable def formed1 : State := after (.teamForm 7 1 0 0) emitted
theorem wit_start : fresh1.settled = true ∧ ((fresh1.launches.find? (fun l => l.page == 0 && l.lseq == 1 && mayStart fresh1 l)).map (fun l => l.lid)) = some 7 ∧
    (launchOf fresh1 7).map (fun l => (startLaunch fresh1 l).settled) = some true ∧
    queue (after (.launchStart 0 1) fresh1) = some [(0, 0, true, [5#32, 0#32, 0#32, 0#32])] := by decide +kernel
theorem wit_form : emitted.settled = true ∧ (launchOf emitted 7).map (fun l => (l.phase, formCount emitted l 1 0, (l.pending 1 0).length)) = some (1, 4, 4) ∧
    (emitted.ctx 0).state = 2 ∧ dieServes emitted 0 = true ∧
    formed1.formed.map (fun f => f.seeds.map (fun x => x.recs.map (fun r => r.1))) = [[[0, 1, 2, 3]]] := by decide +kernel
theorem wit_form_queue : formed1.formed.map (fun f => (f.lid, f.node)) = [(7, 1)] ∧
    queue formed1 = some (((queue emitted).getD []).drop 4) := by decide +kernel
theorem wit_grid : (launchOf (grid []) 7).map (fun l => ((l.pending 1 0).take (formCount (grid []) l 1 0)).map (fun r => gridTeams r.data)) = some [some 2] ∧
    (launchOf (after (.teamForm 7 1 0 0) (grid [])) 7).map (fun l => (l.grids, l.nrecs)) = some ([job], 1) ∧
    (after (.teamForm 7 1 0 0) (grid [job])).formed.map (fun f => f.seeds.map (fun x => x.t)) = [[0]] ∧
    (launchOf (after (.teamForm 7 1 0 0) (grid [job])) 7).map (fun l => l.grids.map (fun j => j.next)) = some [1] := by decide +kernel
theorem wit_dispatch : formed1.settled = true ∧ formed1.formed.map (fun f => (f.die, olderFirst formed1 f, (launchOf formed1 7).map (fun l =>
      (fitAll formed1 l 1 3 1, (l.g.node 1).groups, decide (l.r.nrec.toNat ≤ l.init))))) = [(0, false, some (true, 1, true))] ∧
    (freePlaces formed1 3).head? = some 0 ∧
    (formed1.formed.head?.map (fun f => (((after (.teamDispatch f.fid 3) formed1).group 192).frag 0).map (fun x => (x.pc, x.mask)))) =
      some (some (0x1000000000#64, 0xF#32)) := by decide +kernel
/-- A reservation that waits while there is room again; one that has waited for the interval; a launch without work. -/
def waits5 : QRec := { rec0 with granted := false }
def room7 : State :=
  let s := { gS with launches := [{ launch7 with q := [waits5] }] }
  s.modGroup 0 (fun g => g.modFrag 0 (fun f => { f with wait := some (.emit [5]) }))
def gr1 : Graph := { gr2 with nodes := gr2.nodes.map (fun n => { n with qcap := 1 }) }
def stuck7 : State :=
  let s := { room7 with launches := [{ launch7 with ovf := 65536, g := gr1, q := [waits5, { rec0 with rid := 6 }] }] }
  { s.modSys (fun y => { y with budget := 0 }) with clk := 5 }
def idle7 : State := { gS with launches := [launch7], teams := [], groups := [] }
theorem wit_overflow : (launchOf stuck7 7).map (fun l => (l.ovf, overflowing stuck7 l, byWaves l, l.home, l.fcount)) = some (65536, true, false, 0, 0) ∧
    (launchFault stuck7 7 (codeOf 9 cQueueOverflow) 1).settled = true ∧
    (launchOf (after (.queueOverflow 7) stuck7) 7).map (fun l => (l.fcode, l.cancel, l.fnode)) = some (codeOf 9 cQueueOverflow, 2, 1) := by decide +kernel
theorem wit_grant : (launchOf room7 7).map (fun l => (((l.waits 1 0).head?.map (fun r => r.rid)), roomIn room7 l 1 0)) = some (some 5, some false) ∧
    queue (after (.reservationGrant 7 1 0) room7) = some [(1, 0, true, [1#32, 2#32, 3#32, 4#32])] ∧
    (frag0 (after (.reservationGrant 7 1 0) room7)).map (fun f => f.wait) = some none := by decide +kernel
theorem wit_complete : idle7.settled = true ∧ quiescent idle7 launch7 = true ∧ (finishLaunch idle7 7).settled = true ∧
    ((after (.launchComplete 7) idle7).ctx 0).closed = [(1, 1, [0, 0, 0, 0, 0], [])] := by decide +kernel
/-! ### Pods and the link -/

/-- A pod context of packages 0, this one and the root, and 1; a pod-scope grid launch of four teams, RLEN 1, at this member. -/
def podNode : Node := { nodeOf (nodeB []) with kind := 2, pod := true }
def lrecP : List Byte := leBytes 8 0x1000001000 ++ leBytes 8 0x1000001800 ++ leBytes 4 1 ++ leBytes 4 0x80000000 ++ List.replicate 40 0
def graphP : List Byte := leBytes 4 1 ++ leBytes 4 0 ++ leBytes 4 1 ++ leBytes 4 0 ++ leBytes 4 1 ++ List.replicate 236 0 ++
  (leBytes 8 0x1000000000 ++ leBytes 4 0xA0000000 ++ leBytes 4 0 ++ leBytes 4 (2 ^ 10) ++ List.replicate 108 0)
def grP : Graph := { root := 0, types := [32], nodes := [podNode] }
def podL : Launch := { launch7 with r := lrecOf lrecP, g := grP, pseq := some 3, nt := 4, rlen := 1, nr := 4, grid := [4, 1, 1] }
def podR : Root :=
  { pseq := some 3, podctx := 5, page := 0, home := 0, lseq := 1, r := lrecOf lrecP, members := [0, 1], started := [], nt := 4, rlen := 1, nr := 4,
    dealt := [], done := [], cancel := 0, faults := [], wave := 0, replies := [], prev := none, finished := false }
def podS (l : List Launch) (rs : List Root) : State :=
  let s := gOf graphP (leBytes 4 4 ++ leBytes 4 1 ++ leBytes 4 1 ++ leBytes 20 0)
  let c := s.ctx 0
  let s := s.setCtx 0 { c with d := { c.d with podtab := 0x80000, podctx := 5, rto := 1, nretry := 2 }, members := [0, 1] }
  { s with launches := l, link := { s.link with joined := [0, 1], root := some 0, pseq := 7, roots := rs } }
def pod1 : State := podS [podL] [podR]
/-- Where another package, 1, is the pod root. -/
def pod2 : State := { podS [podL] [] with link := { (podS [] []).link with root := some 1 } }
/-- An envelope of the launch, from package 1's stream. -/
def env (etype sub : Nat) (a0 a1 : Word) (p : List Byte) : Envelope :=
  { Envelope.blank with etype := BitVec.ofNat 4 etype, sub := BitVec.ofNat 8 sub, podctx := 5, tag := 0x400000, lseq := 1, arg0 := a0, arg1 := a1, payload := p }
/-- The state the link engine leaves when it takes an envelope (`Takes`). -/
def takenBy (kind sub src : Nat) (e : Envelope) (s : State) : Option State :=
  if s.sys.stage == 3 && !s.link.late.contains (src, e) && !etypeReserved e && e.etype.toNat == kind && (kind ≤ 2 || e.sub.toNat == sub) && lenOk e && pageOfPod (wakeUp s) e.podctx == some 0 then
    (if kind = 2 then some (wakeUp s) else if (takeStream (wakeUp s) 0 src e).1 then some (takeStream (wakeUp s) 0 src e).2 else none)
  else none
theorem takes_of_takenBy (kind sub src : Nat) (e : Envelope) (s u : State) (h : takenBy kind sub src e s = some u) : Takes kind sub src e s 0 u := by
  simp only [takenBy, Bool.and_eq_true, Bool.or_eq_true, Bool.not_eq_true', beq_iff_eq, decide_eq_true_eq] at h
  split at h
  · rename_i c
    obtain ⟨⟨⟨⟨⟨⟨a0, a1⟩, a2⟩, a⟩, b⟩, d⟩, f⟩ := c
    refine ⟨a0, a1, a2, a, fun hk => b.elim (fun x => absurd x (by omega)) id, d, f, ?_⟩
    split at h
    · rename_i hk; simp only [hk, if_true]; exact (Option.some.inj h).symm
    · rename_i hk
      split at h
      · rename_i ok; simp only [hk, if_false]; rw [← Option.some.inj h, ← ok]
      · exact absurd h (by simp)
  · exact absurd h (by simp)
def rootIs (s : State) (f : Root → Bool) : Bool := match rootOf s 0 1 0 with
  | some r => f r
  | none => false
def launchIs (s : State) (f : Launch → Bool) : Bool := match launchBy s 0 1 0 with
  | some l => f l
  | none => false
def owes (s : State) (sub : Nat) (f : Envelope → Bool) : Bool := s.owed.any (fun i => match i with
  | .start _ e => sub == 2 && f e
  | .started _ e => sub == 3 && f e
  | .reply _ e => sub == 9 && f e
  | .pbres _ e => sub == 0xC && f e
  | .answer _ e => sub == 0xF && f e
  | _ => false)

theorem wit_deal : pod1.settled = true ∧ (takenBy 4 1 1 (env 4 1 0 0 lrecP) (podS [] [])).map (fun u => (u.link.root, u.link.cancels.isEmpty)) = some (some 0, true) ∧
    owes (after (.launch 1 (env 4 1 0 0 lrecP)) (podS [] [])) 2 (fun k => k.arg0 == 7#32 && k.payload == lrecP) = true ∧
    (takenBy 4 2 0 (env 4 2 7 0 lrecP) (podS [] [])).map (fun u => match checkLaunch u 0 lrecP with
      | .ok (.inl g) w => (match dispRead w (w.ctx 0).d (lrecOf lrecP).recs (g.size g.root) with
          | .ok _ v => if v.settled && v.link.cancels.isEmpty then g.nodes.length else 0
          | _ => 0)
      | _ => 0) = some 1 ∧
    launchIs (after (.start 0 (env 4 2 7 0 lrecP)) (podS [] [])) (fun l => l.pseq == some 7 && l.nt == 4 && l.nr == 4) = true ∧
    owes (after (.start 0 (env 4 2 7 0 lrecP)) (podS [] [])) 3 (fun k => k.arg0 == 7#32 && k.arg1 == 0#32) = true ∧
    -- a record whose NREC is 0 is rejected with reason 1
    (takenBy 4 2 0 (env 4 2 7 0 (List.replicate 64 0)) (podS [] [])).map (fun u => match checkLaunch u 0 (List.replicate 64 0) with
      | .ok (.inr n) w => if w.settled then n else 0
      | _ => 0) = some 1 := by decide +kernel
def podHalf : State := podS [podL] [{ podR with started := [(0, 0)] }]
def podDealt : State := podS [podL] [{ podR with started := [(0, 0), (1, 0)], nr := 8, dealt := [0, 1, 2, 3] }]
theorem wit_started : (takenBy 4 3 1 (env 4 3 3 0 []) podHalf).isSome = true ∧ rootIs podHalf (fun r => r.pseq == some 3 && !r.heard && r.dealt.isEmpty) = true ∧
    rootIs (after (.started 1 (env 4 3 3 0 [])) podHalf) (fun q => q.heard && q.dealt == [0, 1, 2, 3] && q.nr == 4) = true ∧
    rootIs (after (.started 1 (env 4 3 3 5 [])) podHalf) (fun q => q.finished) = true ∧
    (takenBy 4 4 1 (env 4 4 3 2 []) pod1).map (fun u => launchIs u (fun l => l.pseq == some 3 && l.cancel == 0 && decide (2 < l.nr))) = some true ∧
    launchIs (after (.deal 1 (env 4 4 3 2 [])) pod1) (fun l => l.grids.map (fun j => (j.next, j.last, j.range)) == [(2, 3, some 2)]) = true ∧
    (takenBy 4 5 1 (env 4 5 3 1 []) podDealt).isSome = true ∧ rootIs podDealt (fun r => r.dealt.contains 1 && !r.done.contains 1 && !r.finished) = true ∧
    rootIs (after (.rdone 1 (env 4 5 3 1 [])) podDealt) (fun q => q.done == [1] && q.dealt == [0, 1, 2, 3, 5]) = true := by decide +kernel
def podWaves : State := podS [podL] [{ podR with wave := 2, prev := some (4, 4), replies := [(0, { Envelope.blank with arg2 := 0x0000000100000003 })] }]
def reply1 : Envelope := { env 4 9 2 0 (List.replicate 32 0) with arg2 := 0x0000000300000001 }
theorem wit_end : (takenBy 4 6 1 (env 4 6 0x8051 0 []) pod1).map (fun u => rootIs u (fun r =>
      (rootCancel (modRoot u r (fun _ => { r with faults := [(1, 0x8051, 0)] })) { r with faults := [(1, 0x8051, 0)] } true).settled)) = some true ∧
    rootIs (after (.fault 1 (env 4 6 0x8051 0 [])) pod1) (fun q => q.cancel == 2 && q.faults == [(1, 0x8051#16, 0)]) = true ∧
    (takenBy 4 7 1 (env 4 7 0 0 []) pod2).map (fun u => ((rootOf u 0 1 0).isNone, (cancelPart u 0 1 0 false).settled,
      launchIs u (fun l => l.phase == 1 && l.cancel == 0))) = some (true, true, true) ∧
    launchIs (after (.cancel 1 (env 4 7 0 0 [])) pod2) (fun l => l.cancel == 1 && l.q.isEmpty) = true ∧
    (takenBy 4 7 1 (env 4 7 1 0 []) pod1).map (fun u => rootIs u (fun r => r.pseq.isSome && (rootCancel u r true).settled)) = some true ∧
    (takenBy 4 8 0 (env 4 8 1 0 []) { pod1 with teams := [] }).map (fun u => launchIs u (fun l => quiescent u l)) = some true ∧
    owes (after (.wave 0 (env 4 8 1 0 [])) { pod1 with teams := [] }) 9 (fun k => k.arg0 == 1#32) = true ∧
    (takenBy 4 8 0 (env 4 8 1 0 []) pod1).map (fun u => launchIs u (fun l => quiescent u l)) = some false ∧
    launchIs (after (.wave 0 (env 4 8 1 0 [])) pod1) (fun l => l.wave == some 1) = true := by decide +kernel
theorem wit_reply : (takenBy 4 9 1 reply1 podWaves).isSome = true ∧ rootIs podWaves (fun r => !r.finished && r.wave == 2 && !r.replies.any (fun x => x.1 == 1)) = true ∧
    rootIs (after (.reply 1 reply1) podWaves) (fun q => q.finished) = true ∧
    -- one package's counts differ from the wave before: another wave
    rootIs (after (.reply 1 { reply1 with arg2 := 0 }) podWaves) (fun q => q.wave == 3 && q.prev == some (1, 3) && q.replies.isEmpty) = true ∧
    rootIs (after (.reply 1 reply1) (podS [podL] [{ podR with wave := 2 }])) (fun q => q.replies.map (fun x => x.1) == [1]) = true := by decide +kernel
def fin (n : Word) : Envelope := env 4 0xA n 0 (List.replicate 128 0)
theorem wit_final : (takenBy 4 10 1 (fin 1) pod1).map (fun u => launchIs u (fun l => l.final.isEmpty && l.home == u.pkg)) = some true ∧
    launchIs (after (.final 1 (fin 1)) pod1) (fun l => l.final == [1]) = true ∧
    (after (.final 1 (fin 0)) (podS [{ podL with final := [4, 1, 2, 3] }] [])).launches.length = 0 ∧
    (takenBy 4 10 1 { fin 0 with home := 1 } (podS [{ podL with home := 1 }] [])).map (fun u => (launchBy u 0 1 1).isSome) = some true ∧
    (after (.final 1 { fin 0 with home := 1 }) (podS [{ podL with home := 1 }] [])).launches.length = 0 := by decide +kernel
/-- Pod barriers and queries: at the holder and away from it. -/
def hbar (m : BitVec 6) : Hd := { h0 with a := 20, b := 5, mod := m }
def pw (s : State) (n : Word) : State := s.modGroup 0 (fun g => { g with s := [(4, 0#32), (5, n), (6, 0x10000#32)] })
def xn (n : BitVec 4) : WNib := { n := n }
def waitsFor (s : State) : Option Wait := (frag0 s).bind (fun f => f.wait)
theorem wit_podbar : isReady (.podbar { hbar 1 with a := 20 } (xn 2)) (pw pod1 2) = true ∧ (myLaunch (pw pod1 2) (iss (.podbar (hbar 1) (xn 2)) (pw pod1 2))).map (fun l =>
      (l.cancel, holderOf pod1 l, (l.bar 2).expect)) = some (0, 0, 0) ∧
    launchIs (after (.podbar (hbar 1) (xn 2)) (pw pod1 2)) (fun l => l.bar 2 == { phase := 0, expect := 2, arrived := 1 }) = true ∧
    isReady (.podbar { hbar 0 with a := 2 } (xn 2)) (pw pod1 1) = true ∧
    launchIs (after (.podbar { hbar 0 with a := 2 } (xn 2)) (pw pod1 1)) (fun l => l.bar 2 == { phase := 1, expect := 0, arrived := 0 }) = true ∧
    ((after (.podbar { hbar 0 with a := 2 } (xn 2)) (pw pod1 1)).group 0).heldP 2 9 = true ∧
    waitsFor (after (.podbar { hbar 0 with a := 2 } (xn 2)) (pw pod1 2)) = some (.podbar 7 2 0 2 0xFFFFFFFF) ∧
    isReady (.podbar { hbar 0 with a := 2 } (xn 2)) (pw pod2 2) = true ∧
    waitsFor (after (.podbar { hbar 0 with a := 2 } (xn 2)) (pw pod2 2)) = some (.podtok (pod2.link.nextArr) 7 2 false 2 0xFFFFFFFF) ∧
    isReady (.podbar { hbar 2 with a := 2, b := 4 } (xn 2)) (pw pod1 2) = true ∧
    waitsFor (after (.podbar { hbar 2 with a := 2, b := 4 } (xn 2)) (pw pod1 2)) = some (.podbar 7 2 0 2 0xFFFFFFFF) ∧
    ((after (.podbar { hbar 2 with a := 2, b := 5 } (xn 2)) (pw pod1 9)).group 0).heldP 2 9 = true ∧
    ((after (.podbar { hbar 2 with a := 2, b := 6 } (xn 2)) (pw pod1 9)).group 0).heldP 2 9 = false := by decide +kernel
theorem wit_podqry : isReady (.podqry { hbar 0 with b := 0 } (xn 1)) pod1 = true ∧
    ((List.range 5).map (fun i => ((after (.podqry { hbar 0 with b := 0 } (xn (BitVec.ofNat 4 i))) pod1).group 0).finalS 20)) = [0#32, 2#32, 0#32, 3#32, 4#32] ∧
    ((after (.podqry { hbar 0 with b := 0 } (xn 0)) (podS [podL] [])).group 0).finalS 20 = 0#32 ∧
    ((after (.podqry (hbar 0) (xn 7)) (pw podDealt 1)).group 0).finalS 20 = 1#32 ∧ ((after (.podqry { hbar 0 with b := 0 } (xn 5)) podDealt).group 0).finalS 20 = 4#32 ∧
    isReady (.podqry { hbar 0 with b := 0 } (xn 5)) pod2 = true ∧
    waitsFor (after (.podqry { hbar 0 with b := 0 } (xn 5)) pod2) = some (.podqry pod2.link.nextArr 20) ∧
    isReady (.podflt (hbar 0) { sel := 1, word := 0 }) (pw pod1 0) = true ∧
    ((after (.podflt (hbar 0) { sel := 1, word := 0 }) (pw (podS [podL] [{ podR with faults := [(1, 0x8051, 6)] }]) 0)).group 0).finalS 20 = 0x8051#32 ∧
    ((after (.podflt (hbar 0) { sel := 6, word := 0 }) (pw (podS [podL] [{ podR with faults := [(1, 0x8051, 6)] }]) 0)).group 0).finalS 20 = 2#32 ∧
    ((after (.podflt (hbar 0) { sel := 0, word := 0 }) (pw closed 9)).group 0).finalS 20 = 0x21#32 ∧
    ((after (.podflt (hbar 0) { sel := 0, word := 0 }) (pw closed 8)).group 0).finalS 20 = 0xF#32 := by decide +kernel
def waitW (s : State) (w : Wait) : State := s.modGroup 0 (fun g => g.modFrag 0 (fun f => { f with wait := some w }))
/-- PODQRY 4 sent and waiting, PODQRY 6 behind it. -/
def asked : State := modLaunch (waitW pod2 (.podqry 4 20)) 7 (fun l => { l with queries := [(4, 5, 0), (6, 5, 0)] })
theorem wit_pod_envelopes : (takenBy 4 11 0 (env 4 0xB 2 2 []) pod1).map (fun u => launchIs u (fun l => (podArrive u l 2 2).1 == 0)) = some true ∧
    owes (after (.pbarv 0 { env 4 0xB 2 2 [] with arg2 := 9 }) pod1) 0xC (fun k => k.arg0 == 9#32 && k.arg1 == 0#32) = true ∧
    (takenBy 4 12 1 (env 4 0xC 9 6 []) (waitW pod2 (.podtok 9 7 2 true 20 0xF))).isSome = true ∧
    ((after (.pbres 1 (env 4 0xC 9 6 [])) (waitW pod2 (.podtok 9 7 2 true 20 0xF))).group 0).finalS 20 = 6#32 ∧
    (takenBy 4 13 1 (env 4 0xD 2 6 []) (waitW pod2 (.podbar 7 2 6 2 0xF))).map (fun u => (launchIs u (fun l => holderOf u l != u.pkg && l.cancel == 0),
      (u.group 0).h.wait.isNone, ((u.group 0).frag 1).isNone)) = some (true, true, true) ∧
    ((after (.pbrel 1 (env 4 0xD 2 6 [])) (waitW pod2 (.podbar 7 2 6 2 0xF))).group 0).heldP 2 3 = true ∧
    (takenBy 4 14 0 (env 4 0xE 5 0 []) podDealt).isSome = true ∧ owes (after (.query 0 (env 4 0xE 5 0 [])) podDealt) 0xF (fun k => k.arg0 == 4#32) = true ∧
    (takenBy 4 15 1 (env 4 0xF 77 0 []) asked).map (fun u => launchIs u (fun l => l.queries.map (fun q => q.1) == [4, 6])) = some true ∧
    ((after (.answer 1 (env 4 0xF 77 0 [])) asked).group 0).finalS 20 = 77#32 ∧
    launchIs (after (.answer 1 (env 4 0xF 77 0 [])) asked) (fun l => l.queries.map (fun q => q.1) == [6]) = true := by decide +kernel
/-- Records and credits: of a launch that is not of pod scope, with a reservation held for package 1. -/
def credit1 : QRec := { rec0 with node := 0, data := [], empty := some 1 }
def plainL : Launch := { launch7 with q := [credit1] }
def rest : Launch := { launch7 with q := [] }
def recE : Envelope := { env 1 0 0 0 (leBytes 16 77) with depth := 3 }
theorem wit_records : (takenBy 1 0 1 recE (podS [plainL] [])).map (fun u => launchIs u (fun l => l.cancel == 0 && recE.payload.length == l.g.size 0)) = some true ∧
    launchIs (after (.recordEnvelope 1 recE) (podS [plainL] [])) (fun l => l.recv == 1 && l.q.map (fun k => (k.empty, k.data, k.depth)) ==
      [(none, [77#32, 0#32, 0#32, 0#32], 3)]) = true ∧
    launchIs (after (.recordEnvelope 1 recE) (podS [rest] [])) (fun l => l.recv == 1 && l.dropped == 1) = true ∧
    (after (.recordEnvelope 1 { recE with podctx := 6 }) (podS [rest] [])).link.drops = 1 ∧
    (takenBy 3 0 1 (env 3 0 2 0 []) (podS [rest] [])).map (fun u => launchIs u (fun l => l.cancel == 0 && (makeCredits 2 7 0 1 0 u).1 == 2)) = some true ∧
    launchIs (after (.creditRequest 1 (env 3 0 2 0 [])) (podS [rest] [])) (fun l => l.q.map (fun r => (r.granted, r.empty)) == [(true, some 1), (true, some 1)]) = true ∧
    (takenBy 3 1 1 (env 3 1 4 0 []) (podS [rest] [])).map (fun u => launchIs u (fun l => l.rq.isEmpty)) = some true ∧
    launchIs (after (.creditGrant 1 (env 3 1 4 0 [])) (podS [rest] [])) (fun l => l.credit 1 0 == 4) = true := by decide +kernel
/-- Two envelopes retained for package 1, of sequences 0 and 1. -/
def sending (tries : Nat) : State :=
  let k (n : BitVec 22) : Retained := { seq := n, e := { recE with node := 1 }, tries := tries, timer := 0, lid := 7 }
  let s := podS [rest] []
  let s := s.modSys (fun y => { y with fab := 5000 })
  { s with link := { s.link with tx := [{ dst := 1, podctx := 5, next := 2, kept := [k 0, k 1], backlog := [], unreach := false }] } }
theorem wit_link : (takenBy 2 0 1 (env 2 0 1 0 (List.replicate 32 0)) (sending 0)).isSome = true ∧
    ((txOf (after (.acknowledgement 1 (env 2 0 1 0 (List.replicate 32 0))) (sending 0)) 1 5).kept.map (fun r => r.seq)) = [1#22] ∧
    pageOfPod (sending 0) 5 = some 0 ∧ ((sending 0).ctx 0).d.rto = 1 ∧
    ((txOf (after (.retransmitTimeout 1 5 0) (sending 0)) 1 5).kept.map (fun r => (r.seq, r.tries))) = [(0#22, 1), (1#22, 0)] ∧
    (giveUpDst (sending 2) 1 5).settled = true ∧ (txOf (after (.retransmitTimeout 1 5 0) (sending 2)) 1 5).unreach = true := by decide +kernel
def peer (k : PeerKind) : PeerAcc := { src := 1, kind := k, pa := 0x10200, bytes := 4, data := leBytes 4 5, b := 5, c := 0 }
theorem wit_peers : (after (.placementReload 0 [(3, 0x4001#16)]) pod1).valAt 0x80406 2 = 0x4001 ∧
    bit (after (.ualinkPortFailure 3) (pod1.modSys (fun y => { y with ports := 0xFFFF }))).sys.ports 3 = false ∧
    (snoopRange pod1 (devKey 0x10200) 4 false).1 = true ∧ (snoopRange pod1 (devKey 0x10200) 4 true).1 = true ∧
    (after (.peerAccess (peer .read)) (pod1.setBytes 0x10200 [9])).out = [.answer 1 [9, 0, 0, 0] true] ∧
    (after (.peerAccess (peer .write)) pod1).valAt 0x10200 4 = 5 ∧
    (after (.peerAccess (peer (.atomic 0 .n32))) (pod1.setBytes 0x10200 [9])).valAt 0x10200 4 = 14 := by decide +kernel
/-! ### Contexts and the system controller -/

/-- A descriptor that passes every check, at device address 0x200000, with a save version of 1 (the second one has version 2). -/
def descB (ver : Nat) : List Byte := leBytes 8 0 ++ leBytes 4 0x4800 ++ leBytes 4 ver ++ List.replicate 0x78 0 ++ leBytes 4 1 ++ List.replicate 12 0 ++ leBytes 4 16 ++
  List.replicate 100 0
def loading (ver a : Nat) : State := (State.reset.setBytes 0x200000 (descB ver)).setCtx 1 { State.reset.ctx 1 with descAddr := BitVec.ofNat 64 a }
def up (s : State) : State := s.modSys (fun y => { y with stage := 3, going := 3 })
theorem wit_load : (up (loading 1 0x200000)).settled = true ∧ ((up (loading 1 0x200000)).ctx 1).state = 0 ∧ (up (loading 1 0x200000)).gone 0x200000 = false ∧
    descFails (wakeUp (up (loading 1 0x200000))) 1 (viewBytes (up (loading 1 0x200000)) 0x200000 256) = [] ∧
    ((after (.load 1) (up (loading 1 0x200000))).ctx 1).state = 2 ∧ ((after (.load 1) (up (loading 1 0x200000))).ctx 1).d.asid = 1 := by decide +kernel
theorem wit_refuse : ((after (.load 1) (up (loading 2 0x200000))).ctx 1).reason = 0x0C ∧ ((after (.load 1) (up (loading 2 0x200000))).ctx 1).state = 5 ∧
    ((after (.load 1) (up (loading 1 0x200080))).ctx 1).reason = 0x100 := by decide +kernel
def inState (n : Nat) : State := base.setCtx 0 { base.ctx 0 with state := n }
theorem wit_states : ((after (.halt 0) base).ctx 0).state = 3 ∧ (saveContext (inState 3) 0).1 = true ∧ (saveContext (inState 3) 0).2.settled = true ∧
    ((after (.preemptionSave 0) (inState 3)).ctx 0).state = 4 ∧ (doResume (inState 4) 0).settled = true ∧ ((after (.resume 0) (inState 4)).ctx 0).state = 2 ∧
    (settleDoom (doom (frq base) 0 termRec)).settled = true ∧ ((after (.term 0) (frq base)).ctx 0).state = 6 ∧
    (freePage (endContext (inState 4) 0 termRec) 0).settled = true ∧ ((after (.unload 0) (inState 4)).ctx 0).state = 0 ∧
    ((after (.unload 0) (inState 6)).ctx 0).state = 0 ∧ ((after (.unload 0) (inState 5)).ctx 0).state = 0 := by decide +kernel
/-- A ring of four records at VA 0x1000002000. -/
def ring (head tail : Word) : State :=
  let s := { gOf graphB (leBytes 16 5) with launches := [] }
  (s.setBytes 0x12000 lrecB).setCtx 0 { s.ctx 0 with qbase := 0x1000002000, qsize := 4, qhead := head, qtail := tail, nextLseq := 1 }
theorem wit_ring : ((after (.qtailWrite 0 4) (ring 0 1)).ctx 0).qtail = 4 ∧ ((after (.qtailWrite 0 5) (ring 0 1)).ctx 0).qerr = true ∧
    mayConsume (ring 0 1) 0 = true ∧ ((after (.hostQueueRecordConsume 0) (ring 0 1)).ctx 0).qhead = 1 ∧
    (after (.hostQueueRecordConsume 0) (ring 0 1)).launches.map (fun l => (l.lseq, l.phase)) = [(1, 0)] := by decide +kernel
/-- The stages, from reset. -/
def at_ (stage going : Nat) : State := State.reset.modSys (fun y => { y with stage := stage, going := going })
theorem wit_stages : State.reset.settled = true ∧ State.reset.sys.going = 0 ∧ (after (.pcieLinkUp []) State.reset).sys.going = 1 ∧
    (after (.pcieLinkUp []) State.reset).sys.err = 1 ∧ (after (.stage1Entry 0) (at_ 0 1)).sys.stage = 1 ∧ (after (.stage1Entry 2) (at_ 0 1)).sys.err = 2 ∧
    (after .go2 (at_ 1 1)).sys.going = 2 ∧ anyLoaded (at_ 1 1) = false ∧ (after (.stage2Entry 0) (at_ 1 2)).sys.stage = 2 ∧
    (after .go3 (at_ 2 2)).sys.going = 3 ∧ (after (.stage3Entry 1 5 [5, 7]) (at_ 2 3)).link.root = some 5 ∧
    (after (.stage3Entry 1 5 [5, 7]) (at_ 2 3)).sys.pkg = 5 ∧ (after (.stage3Entry 0 5 [5, 7]) (at_ 2 3)).sys.err = 4 ∧
    (after .hostReset (after (.stage3Entry 1 5 [5, 7]) (at_ 2 3))).sys.stage = 0 := by decide +kernel
def podGone : State := noteStarted ((podS [{ podL with r := { podL.r with cpl := 0 } }] [podR]).modSys (fun y => { y with pkg := 1 })) 9
theorem wit_root : podGone.settled = true ∧ podGone.link.root = some 0 ∧ (after (.podRootLeaves [1, 4]) { podGone with teams := [], groups := [] }).link.root = some 1 ∧
    (after (.podRootLeaves [1, 4]) { podGone with teams := [], groups := [] }).link.pseq = 10 ∧
    (after (.podRootLeaves [1, 4]) { podGone with teams := [], groups := [] }).launches.length = 0 := by decide +kernel
theorem wit_power : hostUp (at_ 1 1) = true ∧ (after (.pceilWrite 1) (at_ 1 1)).sys.budget = 384 ∧
    (after .clockLower (after (.pceilWrite 1) (at_ 1 1))).sys.pstate = 1 ∧ (List.range 128).all (fun c => decide ((coreUse (at_ 1 1) c).charge ≤ 384)) = true ∧
    hasWork (at_ 1 1) = false ∧ idleState 900000 = some 4 ∧ (after .idleEntry ((at_ 1 1).modSys (fun y => { y with lattol := 900000 }))).sys.pstate = 4 ∧
    (after .idleExit ((at_ 1 1).modSys (fun y => { y with pstate := 3, wake := true }))).sys.pstate = 0 ∧
    caps (at_ 1 1) = 0x44040000#32 := by decide +kernel
/-- Claims of the page at VA 0x1000000000, waiting and granted, and what the controller counts. -/
def claim (va granted : Nat) (loc : Option Nat) : State :=
  { base with claims := [{ asid := (base.ctx 0).d.asid, unit := va / 65536, host := true, seq := 0, granted := granted != 0, loc := loc }] }
theorem wit_claims : (after .migRequest (base.modSys (fun y => { y with migva := 0x1000000000 }))).claims.map (fun c => (c.unit, c.granted)) = [(0x100000, false)] ∧
    (claimLeaf (claim 0x1000000000 0 none) { asid := (base.ctx 0).d.asid, unit := 0x100000, host := true, seq := 0, granted := false, loc := none }).isSome = true ∧
    (after .moveClaimGrant (claim 0x1000000000 0 none)).claims.map (fun c => (c.granted, c.loc)) = [(true, some 0)] ∧
    (after .moveClaimGrant ((claim 0x1000000000 0 none).setCtx 0 { base.ctx 0 with state := 0 })).sys.mig = 3 ∧
    (after .migDone (claim 0x1000030000 1 none)).claims.length = 0 ∧
    (after .migDone (claim 0x1000040000 1 (some 0))).moves.map (fun m => (m.page, m.toHost, m.revs)) = [(0x100004, some true, 0)] := by decide +kernel
theorem wit_shared : (after .moveClaimGrant ((claim 0x1000000000 0 none).setBytes 0x4000 (leBytes 8 (0x1001F + 2 ^ pteShr)))).sys.mig = 3 ∧
    (let r := ((base.ctx 0).d.asid, none)
     (tryInvalidate (base.modSys (fun y => { y with inv := some r })) r).1 && (tryInvalidate (base.modSys (fun y => { y with inv := some r })) r).2.settled) = true ∧
    (after .invgo base).tlb.length = 0 ∧ (after .invgo base).sys.inv = none := by decide +kernel
def mon3 : Monitor := { Monitor.reset with en := true, event := 8, count := 5 }
def watched (fab : Nat) : State := base.modSys (fun y => { y with fab := fab, mons := [(3, mon3)], corrected := [(rowKey 1 9, 16)] })
theorem wit_monitors : ((after (.monitorClr 3) (watched 0)).mon 3).count = 0 ∧ hostUp (watched 0) = true ∧
    ((after (.powerSampleTimer 700) (watched (2 ^ 20))).mon 3).count = 6 ∧ stackUp (watched 0) 1 = true ∧
    fget (after (.scrubPass 1 55 [9]) (watched 0)).sys.temps 1 0 = 55 ∧ (after (.rowRemap 1 9) (watched 0)).sys.remapped = [rowKey 1 9] := by decide +kernel
theorem wit_host : (barWrite base 0x0C 4 7).settled = true ∧ (after (.registerWrite 0x0C 4 7) base).sys.lattol = 7 ∧
    ((barWrite base 0x102018 4 9).ctx 2).qsize = 9 ∧ (State.reset.sys.going = 0 ∧ (barWrite State.reset 0x0C 4 7).sys.lattol = 0) ∧
    holderOfByte base 0 0x40 = some 1 ∧ (base.team 1).streams = [] ∧ (after (.hostApertureAccess true 0x10000040 1 0xAB) base).byteAt (localKey 0 0x40) = 0xAB ∧
    (match hostAccess base (base.ctx 0).d 0x1000000200 4 (some (leBytes 4 77)) with
      | .ok _ u => u.settled
      | _ => false) = true ∧
    (after (.hostMemoryAccess true 0 0x1000000200 4 77) base).valAt 0x10200 4 = 77 ∧
    (after (.hostMemoryAccess false 0 0x1000000200 4 0) (base.setBytes 0x10200 [5])).out = [.hostData 5] := by decide +kernel
/-! ### Further witnesses: the other forms and clauses of the statements above -/

/-- FirstWordTraps and UnassignedOpcodesTrap: no fault of an accepted operation is due. -/
theorem wit_first_word_due : asyncDue base base.cur.1 base.cur.2 = none ∧ asyncDue bare bare.cur.1 bare.cur.2 = none := by decide +kernel
/-- PlainFrame: SEED under .sr, in the active lanes alone; x xor x << 13, then >> 17, then << 5 of 1 is 0x42021 (R95). -/
def sr : WAlu := { alu0 with ty := .f32, rnd := 5 }
def hv : Hd := { h0 with a := 4, b := 1, c := 2 }
def seeded : State := vals.modGroup 0 (fun g => { g with seed := [(7, 1#32), (8, 1#32)] })
theorem wit_seed : isPlain (.fadd { hv with guard := 1 } sr) = true ∧ isReady (.fadd { hv with guard := 1 } sr) seeded = true ∧
    srForm (.fadd { hv with guard := 1 } sr) = true ∧ (seeded.group 0).pend = [] ∧
    fget ((after (.fadd { hv with guard := 1 } sr) seeded).group 0).seed 7 0 = 0x42021#32 ∧
    fget ((after (.fadd { hv with guard := 1 } sr) seeded).group 0).seed 8 0 = 1#32 := by decide +kernel
/-- ArithmeticResults: every form issues in `vals`. -/
theorem wit_arith_forms : [Instr.imulhI1, .iminI1, .imaxI1, .ishlI1, .ishrI1, .israI1, .smulhI1, .sminI1, .smaxI1, .sshlI1, .sshrI1, .ssraI1, .movU1,
      .iabsU1, .inegU1, .popcU1, .clzU1, .brevU1, .smovU1, .spopU1, .sffsU1, .moviM1, .sldiM1].all
      (fun i => isReady (i { b := 1, a := 1, st := 0 }) vals) = true ∧
    [Instr.imulh, .isra, .imin, .imax, .bfe, .sadd, .ssub, .smul, .smulh, .sand, .sor, .sxor, .sshl, .sshr, .ssra, .smin, .smax, .scmp].all
      (fun i => isReady (i { hv with a := 2 } alu0) vals) = true ∧
    [Instr.imad, .isel, .bfi, .ssel].all (fun i => isReady (i { hv with a := 2, d := 1 } alu0) vals) = true ∧
    [Instr.iabs, .ineg].all (fun i => isReady (i { hv with c := 0 } alu0) vals) = true ∧
    [Instr.popc, .clz, .brev, .mov, .smov].all (fun i => isReady (i { hv with c := 0 } { alu0 with ty := .n32 }) vals) = true ∧
    [Instr.movi, .sldi].all (fun i => isReady (i { h0 with a := 4 } { alu0 with imm := true }) vals) = true ∧
    [Instr.iadd5w, .isub5w, .imul5w, .imulh5w, .iand5w, .ior5w, .ixor5w, .ishl5w, .ishr5w, .isra5w, .imin5w, .imax5w, .bfe5w, .sadd5w, .ssub5w, .smul5w,
      .smulh5w, .sand5w, .sor5w, .sxor5w, .sshl5w, .sshr5w, .ssra5w, .smin5w, .smax5w, .scmp5w].all
      (fun i => isReady (i { hv with a := 2, c := 0 } alu0 9) vals) = true ∧
    [Instr.imad5w, .bfi5w].all (fun i => isReady (i hv alu0 9) vals) = true ∧
    [Instr.isel5w, .ssel5w].all (fun i => isReady (i { hv with c := 0, d := 1 } alu0 9) vals) = true ∧
    [Instr.movi5w, .sldi5w].all (fun i => isReady (i { h0 with a := 4 } alu0 9) vals) = true ∧
    isReady (.spop { hv with c := 0 } ⟨.n32⟩) vals = true ∧ isReady (.sffs { hv with c := 0 } ⟨.n32⟩) vals = true ∧ isReady (.stov { hv with c := 0 } ⟨.n32⟩) vals = true ∧
    isReady (.vtos { hv with c := 0, mod := 1 } { ty := .n32, lane := 0 }) vals = true ∧ isReady (.klop { hv with a := 2 } ⟨0x80⟩) vals = true := by
  decide +kernel
/-- Their values, by hand: 0x80000000² / 2^32; the 4 bits at 28 of 0x80000000, signed; 7 in bits 8 to 15 of 33; 0x80000000 negated and clamped. -/
theorem wit_arith_values :
    let at2 (i : Instr) (s : State) : Word := ((after i s).group 0).finalV 4 2
    at2 (.imulh { hv with c := 1 } alu0) vals = 0x40000000#32 ∧ at2 (.bfe5w { hv with c := 0 } alu0 0x41C) vals = 0xFFFFFFF8#32 ∧
    at2 (.bfi5w { hv with b := 2, c := 4 } alu0 33) (vals.modGroup 0 (fun g => { g with v := g.v ++ [(130, 0x308#32)] })) = 0x721#32 ∧
    at2 (.ineg { hv with c := 0 } { alu0 with sat := true }) vals = 0x7FFFFFFF#32 ∧ at2 (.iabsU1 { b := 1, a := 4, st := 0 }) vals = 0x80000000#32 ∧
    at2 (.isra { hv with c := 3 } alu0) vals = 0xC0000000#32 ∧ at2 (.clz { hv with b := 2, c := 0 } { alu0 with ty := .n32 }) vals = 29#32 ∧
    at2 (.imad { hv with b := 2, c := 2, d := 3 } alu0) vals = 82#32 ∧ at2 (.imin hv { alu0 with ty := .n32 }) vals = 7#32 ∧
    ((after (.sffs { hv with b := 2, c := 0 } ⟨.n32⟩) base).group 0).finalS 4 = 24#32 ∧
    ((after (.scmp { hv with a := 2, mod := 4 } alu0) base).group 0).finalK 2 = false ∧
    ((after (.klop { hv with a := 2 } ⟨1⟩) base).group 0).finalK 2 = true := by decide +kernel
/-- FloatAndCrossLaneResults: every form issues in `vals`. -/
def f32 : WAlu := { alu0 with ty := .f32 }
def f16 : WAlu := { alu0 with ty := .f16 }
def xcvt : WCvt := { ty := .f32, rnd := 0, sat := false, sty := .i32 }
def xpair : WPair := { op0lo := true, op1 := 0x13, a1 := 2, b1 := 3 }
theorem wit_float_forms : [Instr.fadd, .fsub, .fmul, .fmin, .fmax, .fscale, .fcmp].all (fun i => isReady (i hv f32) vals) = true ∧
    [Instr.frnd, .fclass, .frcp, .frsq, .fsqrt, .fex2, .flg2, .fsin, .fcos, .ftanh].all (fun i => isReady (i { hv with c := 0 } f32) vals) = true ∧
    [Instr.fadd5w, .fsub5w, .fmul5w, .fmin5w, .fmax5w, .fscale5w, .fcmp5w].all (fun i => isReady (i { hv with c := 0 } f32 9) vals) = true ∧
    [Instr.frnd5w, .fclass5w].all (fun i => isReady (i { h0 with a := 4 } f32 9) vals) = true ∧
    [Instr.hadd2, .hmul2].all (fun i => isReady (i hv f16) vals) = true ∧ [Instr.hadd25w, .hmul25w].all (fun i => isReady (i { hv with c := 0 } f16 9) vals) = true ∧
    isReady (.ffma { hv with d := 3 } f32) vals = true ∧ isReady (.ffma5w hv f32 9) vals = true ∧ isReady (.hfma2 { hv with d := 3 } f16) vals = true ∧
    isReady (.hfma25w hv f16 9) vals = true ∧ isReady (.cvt { hv with c := 0 } xcvt) vals = true ∧
    isReady (.cvtn hv { ty := .f16, rnd := 0, sat := false, sty := .f32 }) vals = true ∧
    isReady (.pack4 { hv with b := 2, c := 6 } { ty := .e4m3, rnd := 0, sat := false, sty := .f32 }) vals = true ∧
    isReady (.unpk4 { hv with c := 0 } { ty := .f32, rnd := 0, sat := false, sty := .e4m3 }) vals = true ∧
    isReady (.pair { h0 with b := 1, a := 4, mod := 8, d := 5, c := 2 } xpair) vals = true := by decide +kernel
/-- Their values, by hand: 7 and 33 as .f32 lie below every normal number; 1.5 + 2.25 = 3.75, 1.5 · 2.25 = 3.375, √2.25 = 1.5, 1.5 · 2^2 = 6; 7 as
an integer is 0x40E00000; the half of PAIR multiplies. -/
def flts : State := base.modGroup 0 (fun g => { g with v := [(34, 0x3FC00000#32), (66, 0x40100000#32), (98, 2#32)] })
theorem wit_float_values :
    let at2 (i : Instr) (s : State) : Word := ((after i s).group 0).finalV 4 2
    at2 (.fadd hv f32) flts = 0x40700000#32 ∧ at2 (.fmul hv f32) flts = 0x40580000#32 ∧ at2 (.fsub hv f32) flts = 0xBF400000#32 ∧
    at2 (.fsqrt { hv with b := 2, c := 0 } f32) flts = 0x3FC00000#32 ∧ at2 (.fscale { hv with c := 3 } f32) flts = 0x40C00000#32 ∧
    at2 (.fmax hv f32) flts = 0x40100000#32 ∧ at2 (.cvt { hv with b := 2, c := 0 } xcvt) vals = 0x40E00000#32 ∧
    at2 (.frnd { hv with b := 2, c := 0 } f32) flts = 0x40000000#32 ∧ at2 (.fadd5w { hv with c := 0 } f32 0x3F000000) flts = 0x40000000#32 ∧
    ((after (.fcmp { hv with mod := 2 } f32) flts).group 0).finalP 4 2 = true ∧
    at2 (.pair { h0 with b := 1, a := 4, mod := 8, d := 5, c := 2 } { xpair with b1 := 2, a1 := 1 }) flts = 0x40700000#32 := by decide +kernel
/-- ExactFloatResults: 1 + 2, 1 − 2 and 1 · 2. -/
def val32 (x : Word) : Int :=
  (if bit x 31 then -1 else 1) *
    (if bits x 23 8 = 0 then ((bits x 0 23).toNat : Int) else (2 ^ 23 + (bits x 0 23).toNat : Int) * 2 ^ ((bits x 23 8).toNat - 1))
theorem wit_exact : val32 0x40400000 = val32 0x3F800000 + val32 0x40000000 ∧ val32 0xBF800000 = val32 0x3F800000 - val32 0x40000000 ∧
    val32 0x40000000 * 2 ^ 149 = val32 0x3F800000 * val32 0x40000000 ∧ val32 0x40400000 ≠ 0 ∧
    bits (0x40400000#32) 23 8 ≠ 0xFF#8 ∧ bits (0x3F800000#32) 23 8 ≠ 0xFF#8 ∧
    fltOp .add .f32 2 0 true (zx (0x3F800000#32)) (zx (0x40000000#32)) = (0x40400000#64, 0) ∧
    fltOp .sub .f32 4 0 false (zx (0x3F800000#32)) (zx (0x40000000#32)) = (0xBF800000#64, 0) := by decide +kernel
/-- FloatAndCrossLaneResults: the forms on 32 bits; lane 31 takes lane 0's value by .idx 0 and is out of range by .down 1; lanes 0 to 7 reduced. -/
theorem wit_cross : [0, 1, 2, 3].all (fun m => isReady (.vote { h0 with a := 2, b := 1 } ⟨m⟩) base) = true ∧
    ((after (.vote { h0 with a := 2, b := 1 } ⟨1⟩) base).group 0).finalP 2 31 = true ∧
    ((after (.vote { h0 with a := 2, b := 1 } ⟨3⟩) base).group 0).finalP 2 31 = false ∧
    [0, 1, 2, 3, 4].all (fun m => isReady (.shfl { h0 with a := 4, b := 2, d := 3 } { ty := .n32, mode := m, imm := true, imm20 := 1 }) targets) = true ∧
    ((after (.shfl { h0 with a := 4, b := 2, d := 3 } { ty := .n32, mode := 3, imm := true, imm20 := 1 }) targets).group 0).finalP 3 31 = true ∧
    ((after (.shfl { h0 with a := 4, b := 2, d := 3 } { ty := .n32, mode := 4, imm := true, imm20 := 1 }) targets).group 0).finalV 4 30 = 0x40#32 ∧
    isReady (.matchV { h0 with a := 4, b := 2, d := 3 } ⟨.n32⟩) targets = true ∧ isReady (.matchV { h0 with a := 4, b := 2, d := 3, mod := 1 } ⟨.n32⟩) targets = true ∧
    ((after (.matchV { h0 with a := 4, b := 2, d := 3, mod := 1 } ⟨.n32⟩) targets).group 0).finalV 4 31 = 0x80000000#32 ∧
    ((after (.matchV { h0 with a := 4, b := 2, d := 3 } ⟨.n32⟩) targets).group 0).finalV 4 5 = 0#32 ∧
    isReady (.psum { h0 with a := 4, b := 2 } alu0) targets = true ∧ ((after (.psum { h0 with a := 4, b := 2, mod := 1 } alu0) targets).group 0).finalV 4 3 = 0x180#32 ∧
    isReady (.redux { h0 with a := 4, b := 2 } { ty := .i32, rnd := 0, lead := false, width := 5 }) targets = true ∧
    ((after (.redux { h0 with a := 4, b := 2 } { ty := .i32, rnd := 0, lead := false, width := 5 }) targets).group 0).finalV 4 3 = 0xFC0#32 ∧
    ((after (.redux { h0 with a := 4, b := 2, mod := 1 } { ty := .i32, rnd := 0, lead := true, width := 4 }) targets).group 0).finalV 4 16 = 0x40#32 := by
  decide +kernel
/-- ReturnsAndExits: the entry is a divergence's, a FRAG entry, a CALLX entry with lanes pending and without. -/
def calledBy (kind : EKind) (aux : Mask) : State := targets.modGroup 0 (fun g =>
  { g with slot0 := g.slot0.map (fun f => { f with rsp := 0 }), sp := 1,
           chip := [{ kind := kind, pc := 0x1000000040, mask := allLanes, aux := aux, link := 0xFFFF, vreg := 2, sup := false, live := true, fmt := 1 }] })
theorem wit_returns_entries : [EKind.div, .frag].all (fun k => isReady (.ret h0) (calledBy k 0) && handles (calledBy k 0) (iss (.ret h0) (calledBy k 0)) 8 &&
      ((after (.ret h0) (calledBy k 0)).group 0).h.ecause == 8#16) = true ∧
    isReady (.retZ1 u0) (calledBy .callx 0x80000001) = true ∧
    (frag0 (after (.retZ1 u0) (calledBy .callx 0x80000001))).map (fun f => (f.mask, f.pc, f.fmt, f.rsp)) = some (0x80000000#32, 0x40#64, 1#2, 0#16) ∧
    ((after (.retZ1 u0) (calledBy .callx 0x80000001)).group 0).chip.map (fun e => e.aux) = [1#32] ∧
    (frag0 (after (.ret h0) (calledBy .callx 0))).map (fun f => (f.mask, f.pc, f.rsp)) = some (allLanes, 0x1000000040#64, 0xFFFF#16) ∧
    ((after (.ret h0) (calledBy .callx 0)).group 0).chip.all (fun e => !e.live) = true := by decide +kernel
/-- SpecialRegistersAndBlocks: SEED of a lane, HSAVE and the SV registers in a handler. -/
theorem wit_rsr_more : isReady (.rsr { h0 with a := 3, b := 0x0C }) seeded = true ∧
    ((after (.rsr { h0 with a := 3, b := 0x0C }) seeded).group 0).finalV 3 7 = 1#32 ∧
    [0x03, 0x04, 0x05, 0x0D, 0x0E, 0x0F, 0x29, 0x2A, 0x2B].all (fun n => isReady (.rsrU1 { u0 with a := 3, b := n }) handling && !sregLane n.toNat) = true ∧
    (frag0 handling).map (fun f => f.sup) = some true ∧ (frag0 base).map (fun f => f.sup) = some false ∧
    ((after (.rsrU1 { u0 with a := 3, b := 0x27 }) handling).group 0).finalS 3 = 0xFF#32 ∧
    ((after (.rsrU1 { u0 with a := 3, b := 0x29 }) handling).group 0).finalS 3 = 1#32 ∧
    ((after (.rsrU1 { u0 with a := 3, b := 0x0E }) counting).group 0).finalS 3 = 0x200#32 := by decide +kernel
/-- SpecialRegistersAndBlocks: every SV register, and a read-only one in supervisor mode. -/
theorem wit_wsr_sv : [0x20, 0x21, 0x23, 0x24, 0x25, 0x26, 0x28, 0x29, 0x2D, 0x10].all (fun n => isReady (.wsr { h0 with a := 1, b := n }) handling) = true ∧
    ((after (.wsr { h0 with a := 1, b := 0x20 }) handling).group 0).h.ecause = 5#16 ∧
    ((after (.wsr { h0 with a := 1, b := 0x25 }) handling).group 0).h.eaddr = 5#64 ∧
    ((after (.wsr { h0 with a := 1, b := 0x29 }) handling).group 0).h.replay = true ∧
    (after (.wsr { h0 with a := 1, b := 0x10 }) handling).group 0 = (after (.nop h0) handling).group 0 := by decide +kernel
/-- BarrierSlotsPrepared: BARINV of a slot whose next tag an operation carries waits, and its generation stays. -/
noncomputable def tagged : State := (after (.cpy hcpy cslot) (cpyS 512)).setTeam 1 ((slotted 4 1 0).team 1)
noncomputable def busyGen : State := again { tagged with ops := tagged.ops.map (fun o => { o with reg := some (ref0, 8) }) }
theorem wit_barinv_waits : isReady (.barinv h0 at0) busyGen = true ∧ names (.barinv h0 at0) busyGen at0 ref0 = true ∧
    genBusy (begun (.barinv h0 at0) busyGen) ref0 = true ∧
    (frag0 (after (.barinv h0 at0) busyGen)).map (fun f => f.wait) = some (some (.inval ref0 0 0 0)) ∧
    (slotAt (after (.barinv h0 at0) busyGen) ref0).gen = 7#16 := by decide +kernel
/-- EngineArrivals: what the order of the cycle asks. -/
theorem wit_arrive_now : [arriving ref0 6, arriving ref0 7, arriving ref1 1].all (fun s =>
      s.arrivals.all (fun a => arriveNow s a && !invBusy s a.slot)) = true ∧
    (slotAt (after (.engineArrival 0) (arriving ref0 7)) ref0).latest = (1, 1, 5) ∧
    -- the last of two arrivals of one operation alone is the final one
    (slotAt (after (.engineArrival 0) { arriving ref1 1 with arrivals := (arriving ref1 1).arrivals.map (fun a => { a with final := true }) ++
      (arriving ref1 1).arrivals }) ref1).pend = 0 := by decide +kernel
/-- LaneAccesses: a line with an uncorrectable error; a write beside a live stream's queue area. -/
theorem wit_lane_bad : (let s := { mem with bad := [0x102] }
     s.badAt 0x10200 4 = true ∧ ((after (.ld hu x4) s).ctx 0).state = 6) ∧ mem.badAt 0x10200 4 = false := by decide +kernel
/-- MisalignedTrapsAlign: the other forms. -/
theorem wit_align_forms : [Instr.ld, .lda, .ldc].all (fun i => isReady (i hu { x4 with off := 2 }) mem && handles mem (iss (i hu { x4 with off := 2 }) mem) 10 &&
      ((after (i hu { x4 with off := 2 }) mem).group 0).h.ecause == 0x2012#16) = true ∧
    [Instr.ld5w, .lda5w, .ldc5w].all (fun i => isReady (i hu x4 2) mem && ((after (i hu x4 2) mem).group 0).h.ecause == 0x2012#16) = true ∧
    [Instr.st5w, .strel5w].all (fun i => isReady (i hs x4 2) mem && ((after (i hs x4 2) mem).group 0).h.ecause == 0x2012#16) = true ∧
    ((after (.strel hs { x4 with off := 2 }) mem).group 0).h.ecause = 0x2012#16 ∧
    ((after (.ldl { hu with b := 6 } { x4 with off := 2 }) mem).group 0).h.eaddr = 0x42#64 ∧
    ((after (.stl5w { hs with b := 6 } x4 2) mem).group 0).h.ecause = 0x2012#16 ∧
    ((after (.atom ha { xa with off := 2 }) mem).group 0).h.ecause = 0x2012#16 ∧ ((after (.red5w { ha with a := 0 } xa 2) mem).group 0).h.ecause = 0x2012#16 ∧
    ((after (.atoml { ha with b := 6 } { xa with scope := 0, off := 2 }) mem).group 0).h.ecause = 0x2012#16 := by decide +kernel
/-- MapUnitServices: no quantiser operation writes. -/
theorem wit_tlbinv : quantWrites handling 0 = false ∧ (disc 1).gone 0x4037 = false := by decide +kernel
/-- CopiesProgress: what CFILL_SERVICE needs in its three cases. -/
def cfillOk (s : State) (va : Nat) (e : DWord) : Bool := match (s.ctx 0).waiting with
  | [p] => (match walk s (s.ctx 0).d va with
      | .leaf _ _ _ => (answerPart (postRec s 0 p.frec).2 0 p).settled
      | .invalid lv k x => x == e && (if bit x pteCfill then (fillPage s 0 p lv k ((bits x 12 46).toNat * 64)).settled else (leaveToDriver s 0 p).settled)
      | _ => false)
  | _ => false
theorem wit_cfill_cases : cfillOk (cfillAt 0x1000000000) 0x1000000000 0 = true ∧ cfillOk (cfillAt 0x1000070000) 0x1000070000 (0x200 + 0xA0000 * 64) = true ∧
    cfillOk (cfillAt 0x1000030000) 0x1000030000 0 = true ∧
    -- a part whose page has been filled meanwhile is answered; without a pool the driver fills the page
    ((after (.cfillService 0 5) (cfillAt 0x1000000000)).ctx 0).waiting.length = 0 ∧
    ((after (.cfillService 0 5) (cfillAt 0x1000070000)).ctx 0).waiting.map (fun p => p.frec.seq) = [1#32] ∧
    ((after (.cfillService 0 5) (cfillAt 0x1000030000)).ctx 0).waiting.map (fun p => p.frec.seq) = [1#32] := by decide +kernel
/-- PrefetchQueue: the first of two lines; a first line whose page is skipped, with a hint to post. -/
def pfxAt (va : DWord) (hint : Option FRec) : State := frq { pfS with pfx := [{ core := 0, page := 0, base := va, len := 0x200, next := 0, tag := 7, prio := 1, need := none, hint := hint }] }
theorem wit_prefetch_lines : pfxSkips (prunePfx (pfxAt 0x1000000200 none)) ((pfxAt 0x1000000200 none).ctx 0).d 0x1000000200 = false ∧
    copyBusy (prunePfx (pfxAt 0x1000000200 none)) 0 = false ∧
    (after (.prefetchLine 0) (pfxAt 0x1000000200 none)).pfx.map (fun p => p.next) = [1] ∧
    pfxSkips (prunePfx (pfxAt 0x1000030000 (some FRec.blank))) ((pfxAt 0x1000030000 none).ctx 0).d 0x1000030000 = true ∧
    (pfxOrder (prunePfx (pfxAt 0x1000030000 (some FRec.blank))) 0).length = 1 ∧
    (after (.prefetchLine 0) (pfxAt 0x1000030000 (some FRec.blank))).pfx.map (fun p => (p.next, p.hint.isNone)) = [(1, true)] ∧
    ((after (.prefetchLine 0) (pfxAt 0x1000030000 (some FRec.blank))).ctx 0).wr = 1#32 ∧
    (postHint { pfxAt 0x1000030000 none with pfx := [] } 0 FRec.blank).settled = true := by decide +kernel
/-- AccessEvents: no younger write has taken a lane of the gather. -/
theorem wit_access_vskip : (direct1 (gathering 0x200)).map (fun p => p.2.vskip.isEmpty) = some true := by decide +kernel
/-- AsynchronousFaultsReach: a collective operation's handler has all 32 lanes, its group undivided and divided; the core of a retirement has
issued nothing in the cycle. -/
noncomputable def divided : State := (stopped 0x10000).modGroup 0 (fun g =>
  { g with slot1 := g.slot0.map (fun f => { f with mask := 0xFFFF0000 }), slot0 := g.slot0.map (fun f => { f with mask := 0xFFFF }) })
theorem wit_async_collective : (frag0 (after (.asyncFaultDelivery 0) (stopped 0x10000))).map (fun f => f.mask) = some 0xFFFFFFFF#32 ∧
    (nextStopped divided 0).map (fun p => p.1.collective) = some true ∧ slotHolding (divided.group 0) 0xFFFFFFFF = some 0 ∧
    (frag0 (after (.asyncFaultDelivery 0) divided)).map (fun f => (f.mask, f.sup)) = some (0xFFFFFFFF#32, true) ∧
    ((after (.asyncFaultDelivery 0) divided).group 0).h.efrag = 0xFFFF#32 ∧ coreIssued done1 0 = false := by decide +kernel
/-- RecordsAreAnswered: a claim of the driver ends with its record; a posted record; the watchdog after the core's instructions, with its block. -/
def driverClaim (seq : Word) : Claim := { asid := (base.ctx 0).d.asid, unit := 0x100000, host := false, seq := seq, granted := false, loc := none }
noncomputable def parkedClaim : State := { parked with claims := [driverClaim 1, driverClaim 2] }
theorem wit_answers_more : (unanswered parkedClaim 0 1).map (fun p => (endRecordClaims (answerPart parkedClaim 0 p) 0 1).settled) = some true ∧
    (after (.frespResume 0 1) parkedClaim).claims.map (fun c => c.seq) = [2#32] ∧ (held2.ctx 0).state = 2 ∧
    coreMayIssue tired 0 = false ∧ (tired.ctx 0).state = 2 ∧ (tired.ctx 0).d.wddiag = 0 ∧
    ((after (.barrierWatchdogExpiry 1 0) (tired.setCtx 0 { tired.ctx 0 with d := { (tired.ctx 0).d with wddiag := 0x1000050000 } })).ctx 0).state = 6 := by
  decide +kernel
/-- RecordsEmitted: under .nb the granted lanes' records alone join the queue. -/
theorem wit_emit_nb : (queue (after (.emit { he with mod := 2, a := 2 } xe) gS)).map (fun q => q.map (fun r => (r.2.2.1, r.2.2.2.headD 0))) =
      some [(true, 0#32), (true, 1#32), (true, 2#32), (true, 3#32)] ∧
    isReady (.emitt { het with mod := 2, a := 2 } xe) gS = true ∧ ((after (.emitt { het with mod := 2, a := 2 } xe) gS).group 0).finalK 2 = true ∧
    (queue (after (.emitt { het with mod := 2, a := 2 } xe) gS)).map (fun q => q.length) = some 1 := by decide +kernel
/-- LaunchInstructions: a launch record that is refused, NREC being 0. -/
def gBad : State := gS.setBytes (localKey 0 0x40) (List.replicate 64 0)
theorem wit_glaunch_refused : isReady (.glaunch hg) gBad = true ∧ liveLaunches gBad = 1 ∧
    (match locAccess (begun (.glaunch hg) gBad) 9 kRead 1 0x40 64 0x40 none with
      | .ok bs u => (match checkLaunch u 0 bs with
          | .ok (.inr why) w => why == 1 && (match cplClear w (Launch.blank 0 0 0 w.pkg (lrecOf bs)) with
              | (ok, v) => ok && (enterLaunch v 0 (lrecOf bs) (some launch7) (.inr why)).2.settled)
          | _ => false)
      | _ => false) = true ∧
    ((after (.glaunch hg) gBad).group 0).finalS 20 = 2#32 ∧
    ((after (.glaunch hg) gBad).ctx 0).closed.map (fun k => k.1) = [2#32] ∧ liveLaunches full4096 = 4096 ∧
    (cplClear idle7 launch7).1 = true ∧ launchOf (cplClear idle7 launch7).2 7 = some launch7 := by decide +kernel
/-- RecordsTravel: an envelope of ETYPE 5; the grant sent back; one that waited is transmitted; an envelope's bytes at its ingress place. -/
noncomputable def granting : State := after (.creditRequest 1 (env 3 0 2 0 [])) (podS [rest] [])
def waitingTx : State := { sending 0 with link := { (sending 0).link with tx := (sending 0).link.tx.map (fun x =>
  { x with backlog := [({ recE with node := 1, lseq := 9 }, 7, 1)] }) } }
def wired : PeerAcc := { src := 1, kind := .write, pa := ingressAddr 1, bytes := 64, data := envBytes recE, b := 0, c := 0 }
theorem wit_envelopes : (after (.recordEnvelope 1 (env 5 0 0 0 [])) (podS [rest] [])).link.drops = 1 ∧
    granting.out.any (fun m => match m with
      | .envelope 1 k => k.etype == 3 && k.sub == 1 && k.arg0 == 2 && k.lseq == 1 && k.podctx == 5 && k.payload.isEmpty
      | _ => false) = true ∧
    ((txOf (after (.acknowledgement 1 (env 2 0 1 0 (List.replicate 32 0))) waitingTx) 1 5).kept.map (fun r => (r.seq, r.e.lseq))) = [(1#22, 1#32), (2#22, 9#32)] ∧
    (txOf (after (.acknowledgement 1 (env 2 0 1 0 (List.replicate 32 0))) waitingTx) 1 5).backlog.length = 0 ∧
    eventOf 1 recE = some (.recordEnvelope 1 recE) ∧ (envBytes recE).length = 64 ∧ headerIn (envBytes recE) = { recE with payload := [] } ∧
    payloadOf (podS [plainL] []) recE (wireLen 16) = some 16 ∧ inIngress wired.pa = true ∧ inIngress 0x10200 = false ∧
    after (.peerAccess wired) (podS [plainL] []) = after (.recordEnvelope 1 recE) (podS [plainL] []) := by decide +kernel
/-- PodLaunchesEnd: the parts of the report before the last one and the last one, kept and written. -/
theorem wit_final_more : (takenBy 4 10 1 (fin 1) pod1).map (fun u => launchIs u (fun l => (cplClear u l).1 && (cplClear u l).2.pkg == u.pkg)) = some true ∧
    (takenBy 4 10 1 (fin 0) (podS [{ podL with final := [4, 1, 2, 3] }] [])).map (fun u => launchIs u (fun l =>
      (closeHome (modLaunch u l.lid (fun _ => { l with final := l.final ++ [0], totals := wordsOf ((fin 0).payload.take 64) }))
        { l with final := l.final ++ [0], totals := wordsOf ((fin 0).payload.take 64) }).settled)) = some true := by decide +kernel
/-- ContextsChangeState: an UNLOAD of a halted context that still owes its launch's end; a ring's record read and accepted; one at an absent page. -/
def podHalted : State := pod1.setCtx 0 { pod1.ctx 0 with state := 4 }
theorem wit_unload_owed : (endContext podHalted 0 termRec).owed.length ≠ 0 ∧ (endContext podHalted 0 termRec).settled = true ∧
    ((after (.unload 0) podHalted).ctx 0).state = 6 ∧ (after (.unload 0) podHalted).owed.getLast? = some (.unload 0) ∧
    (endContext (inState 4) 0 termRec).owed = [] := by decide +kernel
def ringAway : State := (ring 0 1).setCtx 0 { (ring 0 1).ctx 0 with qbase := 0x1000030000 }
theorem wit_ring_read : hostUp (ring 0 1) = true ∧ (match dispRead (ring 0 1) ((ring 0 1).ctx 0).d 0x1000002000 64 with
      | .ok b v => b == lrecB && (match acceptLaunch v 0 (some b) none with
          | (some q, w) => q == 1 && (ringTaken w 0).settled
          | _ => false)
      | _ => false) = true ∧
    (match dispRead ringAway (ringAway.ctx 0).d 0x1000030000 64 with
      | .unusable => (acceptLaunch (ringTaken ringAway 0) 0 none none).2.settled
      | _ => false) = true ∧
    mayConsume ringAway 0 = true ∧ ((after (.hostQueueRecordConsume 0) ringAway).ctx 0).qhead = 1 ∧
    ((after (.hostQueueRecordConsume 0) ringAway).ctx 0).closed.map (fun k => k.1) = [1#32] := by decide +kernel
/-- ControllerServices: the driver's claim granted, and one of each side's, of which HOME 0 leaves the driver's; samples of one cycle. -/
def claims2 (home : Bool) : State := { (claim 0x1000000000 0 none) with claims := (claim 0x1000000000 0 none).claims ++ [driverClaim 4] }.setBytes 0x4000
  (leBytes 8 (0x1001F + if home then 2 ^ pteHome else 0))
theorem wit_claims_home : (after .moveClaimGrant { base with claims := [driverClaim 4] }).out = [.claim 0 4 true] ∧
    (after .moveClaimGrant (claims2 false)).sys.mig = 3 ∧ (after .moveClaimGrant (claims2 true)).out = [.claim 0 4 false] ∧
    bits base.sys.invbase 0 16 = 0#16 ∧ bits base.sys.invasid 12 20 = 0#20 ∧ base.sys.inv = none ∧ base.sys.mig = 0 := by decide +kernel
theorem wit_attest : (at_ 1 1).sys.going ≠ 0 := by decide +kernel
theorem wit_clr : (after (.monitorClr 3) (after (.powerSampleTimer 700) (watched (2 ^ 20)))).mon 3 =
    ((after (.powerSampleTimer 700) (watched (2 ^ 20))).mon 3).cleared (watched (2 ^ 20)).monNow ∧
    ((after (.monitorClr 3) (after (.powerSampleTimer 700) (watched (2 ^ 20)))).mon 3).count = 1 := by decide +kernel
/-! ### Witnesses of the remaining clauses -/

/-- StepRunsDecoded: no window and not yet stage 3; a fetch from a dirty line whose page cannot be written stalls. -/
def lineAtPc : State :=
  let w : Window := { rw := true, loff := 0x100, size := 0x100, gbase := 0x1000030000, lines := [(0, { owned := true, dirty := 3, key := 0x10000 })] }
  base.setTeam 1 { base.team 1 with windows := [(3, w)] }
theorem wit_open_fetch : (let s := (startIssue (nextTurn (base.modSys (fun y => { y with stage := 2 }))).2 0 0).2
      !anyWindow s && s.sys.stage != 3) = true ∧
    (startIssue (nextTurn lineAtPc).2 0 0).1 = some (0, 0) ∧ (openFetch (startIssue (nextTurn lineAtPc).2 0 0).2).1 = false ∧
    (frag0 (stepped lineAtPc)).map (fun f => (f.pc, f.stalled.isSome)) = some (0x1000000000#64, true) := by decide +kernel
/-- PlainFrame: a second instruction while the first one's write is pending; FSTAT finally holds both instructions' flags. -/
noncomputable def pending1 : State := again (after (.iadd { h0 with a := 4, b := 1, c := 1 } { alu0 with sat := true }) vals)
theorem wit_pend_ok : (pending1.group 0).pendOk ∧ (pending1.group 0).pend ≠ [] := by
  unfold Group.pendOk; decide +kernel
theorem wit_pending : isReady (.imul { h0 with a := 5, b := 1, c := 1 } { alu0 with sat := true }) pending1 = true ∧
    ((after (.imul { h0 with a := 5, b := 1, c := 1 } { alu0 with sat := true }) pending1).group 0).finalV 4 2 = 0x80000000#32 ∧
    (pending1.group 0).finalFlags = fOF ||| fNX := by decide +kernel
/-- ArithmeticResults on the other integer types: every form of one instruction issues in `vals`. -/
theorem wit_arith_types : [Ty.i8, .n8, .i16, .n16, .i64, .n64].all (fun t =>
      [Instr.iadd, .isub, .imul, .imin, .imax, .ishl, .ishr, .isra].all (fun i => isReady (i { h0 with a := 4, b := 2, c := 6 } { alu0 with ty := t }) vals)) = true ∧
    [Ty.i64, .n64].all (fun t => [Instr.imin5w, .imax5w, .ishl5w, .iadd5w, .icmp5w].all (fun i => isReady (i { h0 with a := 4, b := 2 } { alu0 with ty := t } 9) vals)) = true ∧
    isReady (.icmp { h0 with a := 4, b := 2, c := 6, mod := 2 } { alu0 with ty := .n32, ub := true, imm := false }) vals = true := by decide +kernel
/-- Their values, by hand: −128 − 1 clamped in .i8; 2^63 − 1 doubled and clamped in .i64; a comparison as .n64 with −1; LOP3 of a pair; MOVI .f64 and .f16. -/
def wide : State := base.modGroup 0 (fun g => { g with v := [(66, 0xFFFFFFFF#32), (98, 0x7FFFFFFF#32), (130, 0x80#32), (162, 7#32)] })
theorem wit_wide_values :
    let at2 (i : Instr) (n : Nat) : Word := ((after i wide).group 0).finalV n 2
    at2 (.iadd5w { h0 with a := 8, b := 4 } { alu0 with ty := .i8, sat := true } 0xFFFFFFFF) 8 = 0xFFFFFF80#32 ∧
    ((after (.iadd5w { h0 with a := 8, b := 4 } { alu0 with ty := .i8, sat := true } 0xFFFFFFFF) wide).group 0).finalFlags = fOF ||| fNX ∧
    at2 (.iadd { h0 with a := 8, b := 2, c := 2 } { alu0 with ty := .i64, sat := true }) 8 = 0xFFFFFFFF#32 ∧
    at2 (.iadd { h0 with a := 8, b := 2, c := 2 } { alu0 with ty := .i64, sat := true }) 9 = 0x7FFFFFFF#32 ∧
    ((after (.icmp5w { h0 with a := 3, b := 2, mod := 2 } { alu0 with ty := .n64 } (BitVec.ofInt 60 (-1))) wide).group 0).finalP 3 2 = true ∧
    isReady (.lop35w { h0 with a := 8, b := 2, c := 4 } { ty := .n64, imm := false, ub := false, lut := 0x96 } (BitVec.ofInt 60 (-1))) wide = true ∧
    at2 (.lop35w { h0 with a := 8, b := 2, c := 4 } { ty := .n64, imm := false, ub := false, lut := 0x96 } (BitVec.ofInt 60 (-1))) 8 = 0x80#32 ∧
    at2 (.lop35w { h0 with a := 8, b := 2, c := 4 } { ty := .n64, imm := false, ub := false, lut := 0x96 } (BitVec.ofInt 60 (-1))) 9 = 0x80000007#32 ∧
    [Ty.f32, .f64, .f16, .bf16].all (fun t => isReady (.movi { h0 with a := 8 } { alu0 with ty := t, imm := true, imm20 := 0x3C00 }) wide) = true ∧
    at2 (.movi { h0 with a := 8 } { alu0 with ty := .f64, imm := true, imm20 := 0x3FF00 }) 9 = 0x3FF00000#32 ∧
    at2 (.movi { h0 with a := 8 } { alu0 with ty := .f16, imm := true, imm20 := 0x3C00 }) 8 = 0x3C003C00#32 ∧
    at2 (.movi5w { h0 with a := 8 } { alu0 with ty := .f64 } 0x3FF000000000000) 9 = 0x3FF00000#32 := by decide +kernel
theorem wit_wide_uniform : isReady (.spop { h0 with a := 8, b := 2 } ⟨.n64⟩) base = true ∧ isReady (.sffs { h0 with a := 8, b := 2 } ⟨.n64⟩) base = true ∧
    isReady (.stov { h0 with a := 8, b := 2 } ⟨.n64⟩) base = true ∧ isReady (.vtos { h0 with a := 8, b := 2 } { ty := .n64, lane := 2 }) wide = true ∧
    ((after (.sffs { h0 with a := 8, b := 2 } ⟨.n64⟩) base).group 0).finalS 8 = 24#32 ∧
    ((after (.vtos { h0 with a := 8, b := 2 } { ty := .n64, lane := 2 }) wide).group 0).finalS 9 = 0x7FFFFFFF#32 := by decide +kernel
/-- FloatAndCrossLaneResults on 64 bits and on .f32: v2 holds 1.0 in every lane, v4:v5 2^32 + 2^31. -/
def ones32 : State :=
  let col (n : Nat) (f : Nat → Word) : List (Nat × Word) := (List.range 32).map (fun l => (32 * n + l, f l))
  base.modGroup 0 (fun g => { g with v := col 2 (fun _ => 0x3F800000) ++ col 4 (fun _ => 0x80000000) ++ col 5 (fun l => if l = 31 then 0 else 1) })
def xred : WRedux := { ty := .f32, rnd := 0, lead := false, width := 5 }
theorem wit_cross_wide :
    let at_ (i : Instr) (n l : Nat) : Word := ((after i ones32).group 0).finalV n l
    [Instr.shfl { h0 with a := 8, b := 4, d := 3 } { ty := .n64, mode := 4, imm := true, imm20 := 1 }, .matchV { h0 with a := 8, b := 4, d := 3 } ⟨.n64⟩,
      .psum { h0 with a := 8, b := 2 } { alu0 with ty := .f32 }, .psum { h0 with a := 8, b := 4 } { alu0 with ty := .i64 },
      .redux { h0 with a := 8, b := 2 } xred, .redux { h0 with a := 8, b := 2, mod := 1 } xred,
      .redux { h0 with a := 8, b := 4, mod := 2 } { xred with ty := .i64 }].all (fun i => isReady i ones32) = true ∧
    at_ (.shfl { h0 with a := 8, b := 4, d := 3 } { ty := .n64, mode := 4, imm := true, imm20 := 1 }) 9 31 = 1#32 ∧
    at_ (.matchV { h0 with a := 8, b := 4, d := 3, mod := 1 } ⟨.n64⟩) 8 31 = 0x80000000#32 ∧
    at_ (.psum { h0 with a := 8, b := 2 } { alu0 with ty := .f32 }) 8 3 = 0x40800000#32 ∧
    at_ (.psum { h0 with a := 8, b := 4 } { alu0 with ty := .i64 }) 9 1 = 3#32 ∧
    at_ (.redux { h0 with a := 8, b := 2 } xred) 8 9 = 0x42000000#32 ∧
    at_ (.redux { h0 with a := 8, b := 2, mod := 1 } { xred with lead := true, width := 4 }) 8 16 = 0x3F800000#32 ∧
    at_ (.redux { h0 with a := 8, b := 4, mod := 2 } { xred with ty := .i64 }) 9 0 = 1#32 := by decide +kernel
/-- DivergencesJoin: BRC with the predicate negated; JOIN at a CALL entry and at a divergence of another join point is a branch. -/
theorem wit_negated : isReady (.brc { lo8 with mod := 1 } ⟨5⟩) base = true ∧ lo8.c ≠ 0 ∧
    (frag0 (after (.brc { lo8 with mod := 1 } ⟨5⟩) base)).map (fun f => f.mask) = some 0xFFFFFF00#32 ∧
    (((after (.brc { lo8 with mod := 1 } ⟨5⟩) base).group 0).frag 1).map (fun f => f.mask) = some 0xFF#32 := by decide +kernel
theorem wit_join_branches : isReady (.join h0 ⟨6⟩) (diverged 0xFF 0) = true ∧ isReady (.join h0 ⟨6⟩) (calledBy .call 0) = true ∧
    ((diverged 0xFF 0).group 0).chip.length = 1 ∧
    (frag0 (after (.join h0 ⟨6⟩) (diverged 0xFF 0))).map (fun f => (f.mask, f.pc, f.fmt, f.rsp)) = some (0xFF#32, 0x1000000018#64, 0#2, 0#16) ∧
    ((after (.join h0 ⟨6⟩) (diverged 0xFF 0)).group 0).chip = ((diverged 0xFF 0).group 0).chip ∧
    (frag0 (after (.join h0 ⟨6⟩) (calledBy .call 0))).map (fun f => (f.pc, f.rsp)) = some (0x1000000018#64, 0#16) := by decide +kernel
/-- ReturnsAndExits: EXIT of lanes 0 to 7, inside a CALL inside an entry of lanes 0 to 15 whose lanes `aux` have arrived or are pending. -/
def chained (kind : EKind) (aux : Mask) : State := targets.modGroup 0 (fun g =>
  { g with slot0 := g.slot0.map (fun f => { f with mask := 0xFF, rsp := 1 }), sp := 2,
           chip := [{ kind := kind, pc := 0x1000000040, mask := 0xFFFF, aux := aux, link := 0xFFFF, vreg := 2, sup := false, live := true, fmt := 1 },
                    { kind := .call, pc := 0x1000000080, mask := 0xFF, aux := 0, link := 0, vreg := 0, sup := false, live := true, fmt := 0 }] })
def lives (s : State) : List Bool := (s.group 0).chip.map (fun e => e.live)
theorem wit_exit_chain : [chained .div 0xFF00, chained .div 0, chained .callx 0xFF, chained .callx 0xFF00, chained .call 0].all (fun s =>
      isReady (.exit h0) s && (iss (.exit h0) s).act == 0xFF && (s.group 0).fidx.isEmpty && (s.group 0).chip.length == (s.group 0).sp) = true ∧
    (frag0 (after (.exit h0) (chained .div 0xFF00))).map (fun f => (f.mask, f.pc, f.fmt, f.rsp)) = some (0xFF00#32, 0x1000000040#64, 1#2, 0xFFFF#16) ∧
    frag0 (after (.exit h0) (chained .div 0)) = none ∧ (lives (after (.exit h0) (chained .div 0))).head? = some true ∧
    (frag0 (after (.exit h0) (chained .callx 0xFF))).map (fun f => (f.mask, f.pc)) = some (0xFF00#32, 0x1000000040#64) ∧
    (frag0 (after (.exit h0) (chained .callx 0xFF00))).map (fun f => (f.mask, f.pc, f.rsp)) = some (0xFF00#32, 0x80#64, 0#16) ∧
    frag0 (after (.exit h0) (chained .call 0)) = none ∧ ((after (.exit h0) (chained .call 0)).group 0).exited = 0xFF#32 := by decide +kernel
theorem wit_group_ends : (iss (.exitZ1 u0) base).act = allLanes ∧ (base.team 1).windows = [] ∧ (base.group 0).cnt = [] ∧ (frag0 base).map (fun f => f.rsp) = some 0xFFFF#16 ∧
    ffind (after (.exitZ1 u0) base).groups 0 = none ∧ isReady (.exitZ1 u0) counting = true ∧ (counting.group 0).cnt ≠ [] ∧
    (ffind (after (.exitZ1 u0) counting).groups 0).map (fun g => (g.ended, g.allot, g.cnt)) = some (true, 0, [(1, 2)]) := by decide +kernel
/-- PrivilegedTrapsInUserMode: the other supervisor instructions, a write of a read-only register, and of one that user mode may write. -/
theorem wit_priv_more : [Instr.pgpoolPut { h0 with b := 4, mod := 1, c := 1 }, .pgmap { h0 with a := 8, b := 4, c := 6 }, .pgmapFwd { h0 with mod := 2 }, .tlbinv h0, .apreplay { h0 with a := 20 },
      .wsr { h0 with b := 0x10 }, .wsrU1 { u0 with b := 0x10 }].all (fun i => (shapeIn i base).ok && (shapeIn i base).priv && (rawOf i).isSome &&
      (after i base).group 0 != base.group 0 && ((after i base).group 0).h.ecause.toNat % 4096 == 5) = true ∧
    (shapeIn (.wsr { h0 with b := 0x0A }) base).priv = false := by decide +kernel
/-- SpecialRegistersAndBlocks: FSTAT with updates of this fragment and of the other one still to make; no handler waits at a REGGIVE. -/
def flagging : State := base.modGroup 0 (fun g => { g with fstat := 1, pfl := [{ slot := 0, flags := 2, lat := 9, dist := 9 }, { slot := 1, flags := 4, lat := 9, dist := 9 }] })
theorem wit_fstat : isReady (.rsrU1 { u0 with a := 3, b := 0x0B }) flagging = true ∧
    fstatWaits (begun (.rsrU1 { u0 with a := 3, b := 0x0B }) flagging) 0 = false ∧
    ((after (.rsrU1 { u0 with a := 3, b := 0x0B }) flagging).group 0).finalS 3 = 3#32 ∧ waitWrites base (base.group 0) 0 = ([], []) := by decide +kernel
/-- WaitsHold on the chunk map of slot 1, 100 bits, of which bits 0 to 3 are set; the mask at local offset 0x40 is bits 0, 2 and one beyond the map, at
0x80 bit 9. -/
def mapped : State :=
  let s := (base.setTeam 1 { base.team 1 with slots := [(0, { Slot.free with kind := 1, gen := 7, expect := 2 }),
    (1, { Slot.free with kind := 2, gen := 1, expect := 100, bits := 15 })] }).modGroup 0 (fun g => { g with s := [(6, 0x40#32), (7, 0x80#32), (8, 0x42#32)] })
  (s.setBytes (localKey 0 0x40) ([5, 0] ++ List.replicate 14 0 ++ [1] ++ List.replicate 47 0)).setBytes (localKey 0 0x80) ([0, 2] ++ List.replicate 62 0)
def wk (kind : BitVec 2) (slot : BitVec 10) : WWait := { kind := kind, slot := slot, cls := 0, thresh := 0, cl := false, cpos := 0 }
def hw (b : BitVec 9) : Hd := { h0 with b := b }
def reads (i : Instr) (off : Nat) : Bool :=
  let b := begun i mapped
  slotRef b 1 (1, false, 0) == some ref1 && !invBusy b ref1 && (slotAt b ref1).kind == 2 &&
    (match locAccess b 0 kRead 1 off 64 (BitVec.ofNat 64 off) none with
      | .ok by_ u => u.settled && u.groups == b.groups && slotAt u ref1 == slotAt b ref1 && (ffind u.teams 1).map (fun t => t.ended) == some false &&
          leVal by_ % 2 ^ 100 != 0
      | _ => false)
theorem wit_chunk_waits : [Instr.waitc (hw 6) (wk 1 1), .waitc (hw 6) (wk 2 1), .yieldc { hw 6 with c := 64 } (wk 1 1)].all (fun i => isReady i mapped && reads i 0x40) = true ∧
    reads (.waitc (hw 7) (wk 1 1)) 0x80 = true ∧
    [wk 1 1, wk 2 1].all (fun x => ((frag0 (after (.waitc (hw 6) x) mapped)).map (fun f => f.wait)) == some none) = true ∧
    [1, 2].all (fun k => ((frag0 (after (.waitc (hw 7) (wk (BitVec.ofNat 2 k) 1)) mapped)).map (fun f => f.wait)) ==
      some (some (.cond (.chunk ref1 1 (k == 2) 512)))) = true ∧
    ((after (.yieldc { hw 6 with c := 64 } (wk 1 1)) mapped).group 0).yw.map (fun y => (y.cond == .chunk ref1 1 false 5, y.pc, y.from_)) =
      some (true, 0x1000000100#64, 0x1000000000#64) ∧
    (slotAt mapped ref1).gen ≠ 2 ∧ condTrue mapped (mapped.group 0) (.chunk ref1 2 false 512) = true := by decide +kernel
theorem wit_chunk_faults : [(Instr.waitc (hw 6) (wk 1 0), 3), (.yieldc { hw 6 with c := 64 } (wk 2 0), 3), (.waitc (hw 8) (wk 1 1), 10), (.yieldc { hw 8 with c := 64 } (wk 2 1), 10)].all
      (fun p => isReady p.1 mapped && !(iss p.1 mapped).sup && handles mapped (iss p.1 mapped) p.2 && (iss p.1 mapped).act == (iss p.1 mapped).full) = true ∧
    slotRef (begun (.waitc (hw 6) (wk 1 0)) mapped) 1 (0, false, 0) = some ref0 ∧ invBusy (begun (.waitc (hw 6) (wk 1 0)) mapped) ref0 = false ∧
    ((after (.waitc (hw 6) (wk 1 0)) mapped).group 0).h.ecause = 3#16 ∧ ((after (.yieldc { hw 8 with c := 64 } (wk 2 1)) mapped).group 0).h.eaddr = 0x42#64 := by decide +kernel
/-- CopiesAccepted, AccessInstructions and MatrixAccepted: no invalidation of the reported slot waits. -/
theorem wit_free_slot : (let s := (cpyS 512).setTeam 1 ((slotted 4 1 0).team 1)
      slotRef s 1 (0, false, 0) == some ref0 && !invBusy s ref0) = true ∧
    [Instr.agath hag { xag with rep := true }, .ascat hag { xag with okp := 0, rep := true }].all (fun i =>
      accepts i ((accS 0x200).setTeam 1 ((slotted 4 1 0).team 1)) [2] && !invBusy (begun i ((accS 0x200).setTeam 1 ((slotted 4 1 0).team 1))) ref0) = true ∧
    accepts (.accst { h0 with b := 8, c := 10, d := 11 } { xst with rep := true }) (matS.setTeam 1 { matS.team 1 with slots := ((slotted 4 1 0).team 1).slots }) [3] = true := by decide +kernel
/-- CopiesProgress: the remainder reads ahead; moves the chunk it has read when the next one cannot be read, or when none is left to read. -/
noncomputable def rest2 (held : List (Nat × List Byte)) (va : Word) : State :=
  let s := after (.cpy hcpy cslot) (withS (frq base) [(4, va), (5, 0x10#32), (6, 0x400#32), (7, 1024#32)])
  modOp s 1 (fun o => match o.kind with
    | .copy c => { o with kind := .copy { c with rem := some (3, true), held := held, late := held.map (fun h => h.1) } }
    | _ => o)
def canRead (s : State) (i : Nat) : Option Bool := match copyOf s 1 with
  | some (o, c) => some (match readChunk (o.eng s 5) c i s with
      | .ok _ _ _ => true
      | _ => false)
  | none => none
def movesChunk (s : State) (i : Nat) : Bool := match copyOf s 1 with
  | some (o, c) => opRuns s o && (match moveChunk s o c i true with
      | .done u => u.settled
      | _ => false)
  | none => false
noncomputable def halfRead : State := rest2 [(0, List.replicate 512 7)] 0xFE00
noncomputable def allRead : State := rest2 [(1, List.replicate 512 8), (0, List.replicate 512 7)] 0x200
theorem wit_remainder_order : canRead (rest2 [] 0x200) 0 = some true ∧ movesChunk (rest2 [] 0x200) 0 = true ∧
    canRead (rest2 [] 0x30000) 0 = some false ∧
    canRead halfRead 1 = some false ∧ movesChunk halfRead 0 = true ∧ (after (.remainderChunk 1) halfRead).bytesAt (localKey 0 0x400) 2 = [7, 7] ∧
    movesChunk allRead 0 = true ∧ (after (.remainderChunk 1) allRead).bytesAt (localKey 0 0x5FF) 2 = [7, 0] := by decide +kernel
/-- AccessInstructions: APREPLAY in a handler that serves a held entry. -/
noncomputable def serving : State := (after (.streamFaultHold 1 1) badIdx).modGroup 0 (fun g =>
  { g with h := { g.h with slot := some 0, op := none, stream := some 1, entry := 0, sid := 0, pos := 3 },
           slot0 := g.slot0.map (fun f => { f with sup := true, pc := 0x1000008000 }) })
theorem wit_apreplay_stream : isReady (.apreplay { h0 with a := 20 }) serving = true ∧
    (streamAt serving 1 1).map (fun st => (st.sid, (st.entries.find? (fun e => e.n == 0)).map (fun e => e.del))) = some (0, some 0) ∧
    ((after (.apreplay { h0 with a := 20 }) serving).group 0).finalS 20 = 0#32 ∧ ((after (.apreplay { h0 with a := 20 }) serving).group 0).finalS 21 = 3#32 := by decide +kernel
/-- AsynchronousFaultsReach: the faults of an ended group. -/
def ended (s : State) : State := s.modGroup 0 (fun g => { g with ended := true })
noncomputable def stoppedCopy : State := after (.copyFault 1 0) (copyAt 0x10000)
/-- The stopped operation's fault with another code. -/
noncomputable def recoded (s : State) (code : BitVec 16) : State := modOp s 1 (fun o => { o with stop := o.stop.map (fun x => { x with faults := x.faults.map (fun f => { f with code := code }) }) })
def oneFault (s : State) : Option (BitVec 16 × Bool × Bool) := (nextStopped s 0).bind (fun p => match p.2.faults with
  | [f] => if p.1.place == 0 && p.1.page == (s.group 0).page && opById s p.1.id == some p.1 then some (f.code, (copyOf s p.1.id).isSome, p.1.collective) else none
  | _ => none)
theorem wit_orphans : oneFault (ended (stopped 0x30000)) = some (0x7010, false, true) ∧ oneFault (ended stoppedCopy) = some (0x5010, true, true) ∧
    ((after (.asyncFaultDelivery 0) (ended (stopped 0x30000))).ctx 0).waiting.map (fun p => (p.op, p.frec.code, p.frec.va)) = [(some 1, 0x7010#16, 0x1000030000#64)] ∧
    (copyOf (after (.asyncFaultDelivery 0) (ended stoppedCopy)) 1).map (fun p => (p.1.stop.isNone, p.2.rem.map (fun r => r.2))) = some (true, some false) ∧
    oneFault (ended (recoded (stopped 0x30000) 0x7012)) = some (0x7012, false, true) ∧
    ((after (.asyncFaultDelivery 0) (ended (recoded (stopped 0x30000) 0x7012))).ctx 0).state = 6 := by decide +kernel
/-- AsynchronousFaultsReach: a fault whose disposition is Terminate; a YIELDC's group, which goes on at its continuation. -/
def unhandled (s : State) : State := s.setCtx 0 { s.ctx 0 with d := { (s.ctx 0).d with hnden := 0 } }
noncomputable def yieldedStop : State := (stopped 0x10000).modGroup 0 (fun g => { g with yw := some { cond := .counter 1 0, slot := 0, pc := 0x1000000100, from_ := 0x1000000000 } })
theorem wit_async_ends : (nextStopped (unhandled (recoded (stopped 0x30000) 0x7012)) 0).map (fun p => p.2.faults.map (fun f =>
      dispOf ((unhandled (stopped 0x30000)).ctx 0).d f.code f.first == .terminate)) = some [true] ∧
    atBoundary (unhandled (recoded (stopped 0x30000) 0x7012)) ((unhandled (recoded (stopped 0x30000) 0x7012)).group 0) = true ∧
    ((after (.asyncFaultDelivery 0) (unhandled (recoded (stopped 0x30000) 0x7012))).ctx 0).state = 6 ∧
    atBoundary yieldedStop (yieldedStop.group 0) = true ∧ ((after (.asyncFaultDelivery 0) yieldedStop).group 0).h.epc = 0x1000000100#64 := by decide +kernel
/-- AsynchronousFaultsReach: a held entry's one fault by its disposition, and in a handler. -/
noncomputable def heldAs (code : BitVec 16) (first : Bool) : State := match streamAt held1 1 1 with
  | some st => setStream held1 1 1 { st with entries := st.entries.map (fun e => { e with held := (e.held.take 1).map (fun h => (h.1, { h.2.1 with code := code, first := first }, h.2.2)) }) }
  | none => held1
def popFault (s : State) : Option (Nat × Nat × Nat × Mask × Nat) := (heldPop s (s.group 0)).map (fun x => (x.1, x.2.1, x.2.2.1, x.2.2.2.1, x.2.2.2.2.length))
noncomputable def inHandler1 : State := (heldAs 0x8010 false).modGroup 0 (fun g => let k := g.modFrag 0 (fun f => { f with sup := true })
  { k with h := { k.h with slot := some 0 } })
theorem wit_held_in_handler : popFault inHandler1 = some (0, 1, 0, 0xFF, 1) ∧ nextStopped inHandler1 0 = none ∧ (inHandler1.ctx 0).state = 2 ∧
    ((after (.asyncFaultDelivery 0) inHandler1).ctx 0).state = 6 := by decide +kernel
theorem wit_held_kinds : [heldAs 0x8010 false, heldAs 0x8012 false, unhandled (heldAs 0x8012 false)].all (fun s => popFault s == some (0, 1, 0, 0xFF, 1) && (nextStopped s 0).isNone && ((s.group 0).h.slot).isNone) = true := by decide +kernel
theorem wit_held_delivery : (frag0 (after (.asyncFaultDelivery 0) (heldAs 0x8012 false))).map (fun f => (f.pc, f.sup, f.mask)) = some (0x1000008000#64, true, 0xFF#32) ∧
    ((after (.asyncFaultDelivery 0) (heldAs 0x8012 false)).group 0).h.epc = 0x100000000C#64 ∧
    ((after (.asyncFaultDelivery 0) (unhandled (heldAs 0x8012 false))).ctx 0).state = 6 ∧
    (frag0 (after (.asyncFaultDelivery 0) (heldAs 0x8010 false))).map (fun f => (f.pc, f.wait)) = some (0x100000000C#64, none) := by decide +kernel
/-- RecordsAreAnswered: a held record of a context that is being saved, and with a live window beside the queue. -/
theorem wit_post_saving : (let s := held2.setCtx 0 { held2.ctx 0 with state := 3 }
      s.settled = true ∧ frqReady s 0 = true ∧ ((after (.faultRecordPost 0) s).ctx 0).heldRecs = []) ∧ anyWindow held2 = false ∧
    frqReady (held2.setTeam 1 (stash.team 1)) 0 = true := by decide +kernel
/-- LaunchInstructions: a launch that has met its end is left alone. -/
def metS : State := gS.setTeam 1 { gS.team 1 with lid := 8 }
theorem wit_met_end : isReady (.gcancel { h0 with b := 5 }) metS = true ∧ (launchBy metS 0 1 metS.pkg).map (fun l => (l.lid, l.r.pod, byWaves l, l.home, l.lent)) =
      some (7, false, false, metS.pkg, []) ∧ quiescent (begun (.gcancel { h0 with b := 5 }) metS) launch7 = true ∧
    metS.launches.all (fun k => k.parent != some 7) = true ∧ (launchBy emitted 0 1 emitted.pkg).map (fun l => metEnd (begun (.gcancel { h0 with b := 5 }) emitted) l) = some false ∧
    (launchOf (after (.gcancel { h0 with b := 5 }) metS) 7).map (fun l => (l.cancel, l.code)) = some (0, launch7.code) := by decide +kernel
/-- PodInstructions: a wait on a phase away from the holder: passed, the latest one, ahead, and out of range. -/
def podPhase : State := modLaunch pod2 7 (fun l => { l with bars := [(2, { phase := 3, expect := 0, arrived := 0 })] })
noncomputable def pwait (n : Word) : State := after (.podbar { hbar 2 with a := 2, b := 5 } (xn 2)) (pw podPhase n)
theorem wit_podbar_away : [2#32, 3, 5, 0x10000].all (fun n => isReady (.podbar { hbar 2 with a := 2, b := 5 } (xn 2)) (pw podPhase n) &&
      ((myLaunch (pw podPhase n) (iss (.podbar { hbar 2 with a := 2, b := 5 } (xn 2)) (pw podPhase n))).map (fun l => (l.cancel, (l.bar 2).phase, holderOf (pw podPhase n) l != (pw podPhase n).pkg))) ==
        some (0, 3, true)) = true ∧
    ((pwait 2).group 0).heldP 2 9 = true ∧ waitsFor (pwait 3) = some (.podbar 7 2 3 2 0xFFFFFFFF) ∧ ((pwait 0x10000).group 0).heldP 2 9 = false ∧
    launchIs (after (.podqry { hbar 0 with b := 0 } (xn 5)) pod2) (fun l => l.queries == [(pod2.link.nextArr, 5, 0)]) = true := by decide +kernel
/-- StagesAdvance: nine copies of an image that the fused key's owner signed and whose version is high enough. -/
theorem wit_images (k : BitVec 256) (body : List Byte) (sig : BitVec 512) (hk : sha512 (leBytes 32 k.toNat) = Config.signerDigest)
    (hs : ed25519Verify k (leBytes 64 (sha512 body).toNat) sig = true) :
    let i : Image := { magic := Config.imageMagic, version := Config.minVersion, len := body.length, body := body, digest := sha512 body, key := k, sig := sig }
    (List.replicate 9 i).length = 9 ∧ ∀ x ∈ List.replicate 9 i, Image.ok x = true := by
  refine ⟨rfl, fun x h => ?_⟩
  rw [List.eq_of_mem_replicate h]
  simp [Image.ok, hk, hs]
/-- RecordsTravel: what the credit request leaves, settled; SchedulerCompletes: the granted state. -/
theorem wit_credits_settled : (takenBy 3 0 1 (env 3 0 2 0 []) (podS [rest] [])).map (fun u => (makeCredits 2 7 0 1 0 u).2.settled) = some true ∧
    (grantRec room7 7 5 false).settled = true := by decide +kernel
/-- StashLineEvents: a remote write takes an Owned line away, its dirty bytes written back. -/
theorem wit_stash_taken : (lineOf stash 1 3 0).map (fun l => l.owned) = some true ∧
    lineOf (after (.remoteLineRequest true 1 3 0) stash) 1 3 0 = none ∧
    (after (.remoteLineRequest true 1 3 0) stash).bytesAt 0x10200 2 = [0xAA, 0xBB] := by decide +kernel
/-- ArrivalsCount: BARTEST.all and .any on the chunk map; a counting slot; a mask offset that is no multiple of 64. -/
noncomputable def mtest (b : BitVec 9) (m : BitVec 6) (x : WSlot) : Instr := .bartest { h0 with a := 2, b := b, mod := m } x
theorem wit_bartest_maps : [mtest 6 1 at1, mtest 6 2 at1].all (fun i => isReady i mapped && names i mapped at1 ref1) = true ∧
    reads (mtest 6 1 at1) 0x40 = true ∧
    [(6, 1), (6, 2), (7, 1), (7, 2)].map (fun (p : BitVec 9 × BitVec 6) => ((after (mtest p.1 p.2 at1) mapped).group 0).finalP 2 5) = [true, true, false, false] ∧
    isReady (mtest 6 1 at0) mapped = true ∧ names (mtest 6 1 at0) mapped at0 ref0 = true ∧ ((after (mtest 6 1 at0) mapped).group 0).h.ecause = 0x4003#16 ∧
    isReady (mtest 8 2 at1) mapped = true ∧ ((after (mtest 8 2 at1) mapped).group 0).h.ecause = 0x4012#16 ∧
    ((after (mtest 8 2 at1) mapped).group 0).h.eaddr = 0x42#64 := by decide +kernel
/-- ReturnsAndExits: the last lanes of a group exit under a chain of entries; EXIT in supervisor mode, and without an active lane there. -/
def lastLanes : State := (chained .call 0).modGroup 0 (fun g => { g with exited := 0xFFFFFF00 })
def superExit : State := base.modGroup 0 (fun g => { g with slot0 := g.slot0.map (fun f => { f with sup := true }) })
theorem wit_exit_last : isReady (.exit h0) lastLanes = true ∧ (lastLanes.group 0).exited ||| (iss (.exit h0) lastLanes).act = allLanes ∧
    (lastLanes.group 0).cnt = [] ∧ ffind (after (.exit h0) lastLanes).groups 0 = none ∧
    isReady (.exit h0) superExit = true ∧ (iss (.exit h0) superExit).sup = true ∧ ((after (.exit h0) superExit).ctx 0).state = 6 ∧
    (issueOf (.exit { h0 with guard := 15 }) superExit).map (fun c => (c.act, c.sup)) = some (0#32, true) ∧
    (frag0 (after (.exit { h0 with guard := 15 }) superExit)).map (fun f => f.pc) = some (iss (.exit h0) superExit).npc := by decide +kernel
/-- LaneAccesses: a read of page 6, which is DEAD and whose frame is bad. -/
def deadS : State := { (base.setBytes 0x4030 (leBytes 8 (0x6000F + 2 ^ 11))) with bad := [0x600] }
theorem wit_dead_read : (let d := (deadS.ctx 0).d
    walkSnoop deadS d 0x1000060000 .r == (true, deadS) && !d.hoten &&
    match translate deadS d 0x1000060000 .r with
      | .ok k e _ _ => deadNow deadS d 0x1000060000 e && deadS.badAt k 4
      | _ => false) = true ∧
    (match lsAccess .gen (iss (.ld hu x4) deadS) kRead 4 0x1000060000 none deadS with
      | .ok b _ => b == List.replicate 4 0
      | _ => false) = true := by decide +kernel
/-- An envelope to package 1 went out, with fields as given. -/
def sentTo1 (s : State) (f : Envelope → Bool) : Bool := s.out.any (fun m => match m with
  | .envelope 1 k => f k
  | _ => false)
def ctl (sub : Nat) (k : Envelope) : Bool := k.etype == 4 && k.sub.toNat == sub && k.podctx == 5 && k.lseq == 1 && k.home == 0
/-- PodLaunchesDeal and PodLaunchesEnd: answers to package 1. -/
theorem wit_pod_answers : (takenBy 4 8 1 (env 4 8 1 0 []) { pod1 with teams := [] }).map (fun u =>
      launchIs u (fun l => quiescent u l) && u.pkg == 0) = some true ∧
    sentTo1 (after (.wave 1 (env 4 8 1 0 [])) { pod1 with teams := [] }) (fun k => ctl 9 k && k.arg0 == 1 && k.payload.length == 32) = true ∧
    (takenBy 4 11 1 (env 4 11 2 5 []) pod1).isSome = true ∧
    sentTo1 (after (.pbarv 1 { env 4 11 2 5 [] with arg2 := 9 }) pod1) (fun k => ctl 12 k && k.arg0 == 9 && k.arg1 == 0) = true ∧
    (takenBy 4 14 1 (env 4 14 7 1 []) pod1).isSome = true ∧
    sentTo1 (after (.query 1 (env 4 14 7 1 [])) pod1) (fun k => ctl 15 k && k.arg0 == 3) = true := by decide +kernel
theorem wit_pod_sends : sentTo1 (after (.launch 1 (env 4 1 0 0 lrecP)) (podS [] [])) (fun k => ctl 2 k && k.arg0 == 7 && k.payload == lrecP) = true ∧
    (takenBy 4 2 1 (env 4 2 7 0 lrecP) (podS [] [])).isSome = true ∧
    sentTo1 (after (.start 1 (env 4 2 7 0 lrecP)) (podS [] [])) (fun k => ctl 3 k && k.arg0 == 7 && k.arg1 == 0) = true ∧
    (takenBy 4 2 1 (env 4 2 7 0 (List.replicate 64 0)) (podS [] [])).isSome = true ∧
    sentTo1 (after (.start 1 (env 4 2 7 0 (List.replicate 64 0))) (podS [] [])) (fun k => ctl 3 k && k.arg0 == 7 && k.arg1 == 1) = true ∧
    sentTo1 (after (.rdone 1 (env 4 5 3 1 [])) podDealt) (fun k => ctl 4 k && k.arg0 == 3 && k.arg1 == 5) = true ∧ podDealt.pkg = 0 := by decide +kernel
/-- RecordsEmitted in a pod: node 1 placed as `code` says, and `n` credits held for it on package 1. -/
def podE (code n : Nat) : State :=
  let s := podS [{ launch7 with credits := if n = 0 then [] else [(1, 1, n)] }] []
  s.setCtx 0 { s.ctx 0 with dir := [(0, 0x1000001000)], place := [(1, code)] }
noncomputable def away : State := after (.emit he xe) (podE 0x4001 9)
theorem wit_emit_away : isReady (.emit he xe) (podE 0x4001 9) = true ∧ placeOf (podE 0x4001 9) launch7 1 = some 1 ∧
    slotRoom (begun (.emit he xe) (podE 0x4001 9)) (iss (.emit he xe) (podE 0x4001 9)) [5] = none ∧
    (launchOf away 7).map (fun l => (l.sent, l.credit 1 1, l.q.length, l.rq.length)) = some (8, 1, 0, 0) ∧ fget (away.group 0).cnt 5 0 = 1 ∧
    sentTo1 away (fun k => k.etype == 1 && k.rtype == 0 && k.podctx == 5 && k.lseq == 1 && k.node == 1 && k.depth == 0 &&
      k.payload == bytesOf [3, 35, 67, 99]) = true ∧
    isReady (.emitt het xe) (podE 0x4001 1) = true ∧
    sentTo1 (after (.emitt het xe) (podE 0x4001 1)) (fun k => k.etype == 1 && k.payload == lrecB.take 16) = true := by decide +kernel
theorem wit_emit_credit : isReady (.emit he xe) (podE 0x4001 0) = true ∧ (podE 0x4001 0).pkg = 0 ∧
    (launchOf (after (.emit he xe) (podE 0x4001 0)) 7).map (fun l => (l.sent, l.rq.length, l.rq.map (fun r => (r.pkg, r.node)) == List.replicate 8 (1, 1))) =
      some (0, 8, true) ∧
    fget ((after (.emit he xe) (podE 0x4001 0)).group 0).cnt 5 0 = 1 ∧
    (frag0 (after (.emit he xe) (podE 0x4001 0))).map (fun f => f.wait.isSome) = some true ∧
    isReady (.emit { he with mod := 2, a := 2 } xe) (podE 0x4001 0) = true ∧
    ((after (.emit { he with mod := 2, a := 2 } xe) (podE 0x4001 0)).group 0).heldP 2 3 = false ∧
    fget ((after (.emit { he with mod := 2, a := 2 } xe) (podE 0x4001 0)).group 0).cnt 5 0 = 0 := by decide +kernel
/-- A depth above RECUR, for every lane and, where lanes name their targets, for some; a placement that names no package. -/
def deepS : State := { gS with launches := [{ launch7 with g := { gr2 with nodes := [{ nodeOf (nodeB (leBytes 2 0)) with recur := 3 }, nodeOf (nodeB [])] } }],
                               teams := gS.teams.map (fun (t : Nat × Team) => (t.1, { t.2 with depth := 3 })) }
def mixS : State := ({ gS with launches := [{ launch7 with g := { gr2 with nodes := [{ nodeOf (nodeB (leBytes 2 0 ++ leBytes 2 1)) with recur := 3 }, { nodeOf (nodeB []) with recur := 3 }] } }],
                               teams := gS.teams.map (fun (t : Nat × Team) => (t.1, { t.2 with depth := 3 })) }).modGroup 0 (fun g =>
  { g with v := g.v ++ (List.range 32).map (fun l => (32 * 20 + l, BitVec.ofNat 32 (l / 6))) })
def hx : Hd := { he with mod := 1, c := 20 }
theorem wit_emit_deep : isReady (.emit he xe) deepS = true ∧ (iss (.emit he xe) deepS).act = (iss (.emit he xe) deepS).full ∧
    handles deepS (iss (.emit he xe) deepS) 13 = true ∧
    (fun g : Group => (g.h.ecause, g.h.emask, g.h.replay, g.h.epc == (iss (.emit he xe) deepS).pc)) ((after (.emit he xe) deepS).group 0) = (0x9031#16, 0xFF#32, false, true) ∧
    isReady (.emit hx { xe with succ := 0 }) mixS = true ∧
    (fun g : Group => (g.h.ecause, g.h.emask, g.h.erest, g.h.replay)) ((after (.emit hx { xe with succ := 0 }) mixS).group 0) = (0x9031#16, 0x3F#32, 0#32, true) ∧
    (queue (after (.emit hx { xe with succ := 0 }) mixS)).map (fun q => q.map (fun r => (r.1, r.2.2.2.headD 0))) = some [(1, 6#32), (1, 7#32)] ∧
    isReady (.emit he xe) (podE 0xC000 0) = true ∧ placeOf (podE 0xC000 0) launch7 1 = none ∧ byWaves launch7 = false ∧
    (podE 0xC000 0).teams.all (fun t => t.2.windows == []) = true ∧
    (launchOf (after (.emit he xe) (podE 0xC000 0)) 7).map (fun l => (l.fcode, l.fcount, l.cancel, l.fpkg)) = some (0xA050#16, 1, 2, 0) := by decide +kernel
/-- QuantiserOperates: a histogram of 100.0, a NaN and zeros; the clip record of one element of exponent 133; the same element packed; an escape
without an entry; a block cleared. -/
noncomputable def quantDone (i : Hd → WQ → Instr) (s : State) : State := after (.quantOpDone 1) (after (i hq xq) s)
theorem wit_qhist : (fun t : State => (t.bytesAt (localKey 0 0x90A) 2, t.bytesAt (localKey 0 0xA00) 4))
      (quantDone .qhist (matS.setBytes 0x10800 (leBytes 4 0x42C80000 ++ leBytes 4 0x7FC00000))) = ([1, 0], [126, 0, 1, 0]) := by decide +kernel
theorem wit_qclip : (quantDone .qclip (matS.setBytes (localKey 0 0x90A) [1])).bytesAt (localKey 0 0x2000) 8 = leBytes 4 133 ++ leBytes 4 0x3F000000 := by
  decide +kernel
theorem wit_qpack : (fun t : State => (t.bytesAt 0x10400 2, t.bytesAt 0x11400 2, t.bytesAt 0x11C00 4, t.bytesAt (localKey 0 0x2100) 4))
      (quantDone .qpack ((matS.setBytes (localKey 0 0x2000) (leBytes 4 133 ++ leBytes 4 0x3F000000)).setBytes 0x10800 (leBytes 4 0x42C80000))) =
    ([0x7C, 0], [126, 127], leBytes 4 0x3F000000, [0, 0, 0, 0]) := by decide +kernel
theorem wit_qolst_qrst : (quantDone .qolst (matS.setBytes 0x10403 [0x7F])).bytesAt (localKey 0 0x2100) 4 = leBytes 4 0x80010000 ∧
    (quantDone .qrst (matS.setBytes (localKey 0 0x90A) [1])).bytesAt (localKey 0 0x90A) 2 = [0, 0] := by decide +kernel
/-- MatrixEvents: the operands of a segment can be read. -/
theorem wit_mma_sides : outMat mul (fun o _ m => match m with
      | .mma a b mm n _ sp pat ma mb _ => (match readSide (o.eng mul 7) a false mm 0 (absentBy (mul.team o.team) (sp && bit pat 0) ma) mul with
          | .ok _ v => (match readSide (o.eng mul 7) b true n 0 (absentBy (mul.team o.team) (sp && bit pat 1) mb) v with
              | .ok _ _ => decide (0 < mm) && decide (0 < n)
              | _ => false)
          | _ => false)
      | _ => false) = true := by decide +kernel
/-- CopiesProgress: the page of a part filled with zeros, from an image of empty masks; the part is answered, its record held behind another. -/
def filling : State :=
  let s := ((cfillAt 0x1000070000).setBytes 0xA0000 (leBytes 8 0xB0000 ++ leBytes 4 1024 ++ leBytes 4 0x1C)).setBytes 0xC0004 (leBytes 4 1)
  let s := s.setBytes 0xC0040 (leBytes 8 0x70000)
  let c := s.ctx 0
  (s.setCtx 0 { c with d := { c.d with poolhdr := 0xC0000, poolsize := 4 }, heldRecs := [rec1] }).modGroup 0 (fun g =>
    { g with park := some { tickets := [5], dead := false, slot := 0, only := none, op := none, stream := none, svret := false } })
theorem wit_fill : anyWindow filling = false ∧ (match walk filling (filling.ctx 0).d 0x1000070000 with
      | .invalid lv k e => lv == 0 && k == 0x4038 && bit e pteCfill && !bit e ptePool && (bits e 12 46).toNat * 64 == 0xA0000
      | _ => false) = true ∧
    (unpackImage filling 0xB0000 1024 128 0).isSome = true ∧
    takeFrame filling (filling.ctx 0).d 0x10000 = some (0x70000, 0) ∧ frameOk 0x70000 = true ∧ filling.settled = true := by decide +kernel
/-- The part of the record that waits there. -/
def part7 : Pending := { ticket := 5, frec := { FRec.blank with code := 0x2010, va := 0x1000070000, flags := flCfill }, place := some 0, op := none, line := none }
/-- Bytes written to memory that is there change nothing but memory. -/
theorem setBytes_eq (s : State) (k : Nat) (l : List Byte) (h : ∀ i < l.length, s.gone (k + i) = false) :
    ∃ m u, s.setBytes k l = { s with mem := m, undef := u } := by
  induction l generalizing s k with
  | nil => exact ⟨s.mem, s.undef, rfl⟩
  | cons b l ih =>
    have h0 := h 0 (by simp)
    obtain ⟨m, u, e⟩ := ih (s.setByte k b) (k + 1) (fun i hi => by simpa [State.gone, State.setByte, Nat.add_assoc, Nat.add_comm 1] using h (i + 1) (by simpa using hi))
    exact ⟨m, u, by rw [State.setBytes, e]; simp [State.setByte, show s.gone k = false from h0]⟩
/-- What the fill leaves is settled, whatever bytes stand in memory. -/
theorem fill_ends (m : List Host.Cell) (u : List URange) : (answerPart (postRec { filling with mem := m, undef := u } 0 part7.frec).2 0 part7).settled = true := by
  rfl
/-- What the fill reads there. -/
theorem fill_facts : (filling.sysShare 0xA0000 64).sysShare (0xB0000 : DWord).toNat (1024 : Word).toNat = filling ∧
    dwordAt (viewBytes filling 0xA0000 64) 0 = 0xB0000 ∧ wordAt (viewBytes filling 0xA0000 64) 8 = 1024 ∧ wordAt (viewBytes filling 0xA0000 64) 0x0C = 0x1C ∧
    ((viewBytes filling 0xA0000 64).drop 0x10).any (fun x => x != 0) = false ∧ (unpackImage filling 0xB0000 1024 128 0).map List.length = some 65536 ∧
    takeFrame filling (filling.ctx 0).d 0x10000 = some (0x70000, 0) ∧ frameOk 0x70000 = true ∧
    snoopRange (filling.sysShare (poolKey (filling.ctx 0).d 0) 8) (filling.ctx 0).d.poolhdr.toNat 8 true = (true, filling) ∧
    snoopRange filling 0x70000 0x10000 true = (true, filling) ∧ snoopRange filling 0x4038 8 true = (true, filling) := by decide +kernel
/-- CopiesProgress: the fill of that page is settled. -/
theorem wit_filled : (fillPage filling 0 part7 0 0x4038 0xA0000).settled = true := by
  obtain ⟨h1, h2, h3, h4, h5, h6, h7, h8, h9, h10, h11⟩ := fill_facts
  obtain ⟨img, hi⟩ := Option.map_eq_some_iff.mp h6
  have hs : 2 ^ levelShift 0 = 0x10000 := rfl
  have low : ∀ (s : State) k n, s.sys.stage = 3 → k + n ≤ 2 ^ 39 → ∀ i < n, s.gone (k + i) = false := by
    intro s k n hs h i hn
    simp [State.gone, hs]; omega
  unfold fillPage
  simp only [h2, h3, h4, h5, hs, show (0x10000 / 512 : Nat) = 128 from rfl]
  rw [if_neg (by decide), h1, show BitVec.toNat (720896 : DWord) = 720896 from rfl, show BitVec.toNat (1024 : Word) = 1024 from rfl, hi.1]
  simp only [h7]
  rw [h9]
  simp only [h8, Bool.not_true, Bool.false_eq_true, if_false]
  rw [show BitVec.toNat (458752 : DWord) = 458752 from rfl, h10]
  simp only [h11]
  have hp : BitVec.toNat (filling.ctx 0).d.poolhdr = 0xC0000 := by decide +kernel
  rw [hp]
  have st : filling.sys.stage = 3 := rfl
  have fe := fill_ends
  have len8 : ∀ n, (leBytes 8 n).length = 8 := fun n => by simp [leBytes]
  have len4 : ∀ n, (leBytes 4 n).length = 4 := fun n => by simp [leBytes]
  clear h1 h2 h3 h4 h5 h6 h7 h9 h10 h11 hp
  generalize filling = f at *
  obtain ⟨m1, u1, e1⟩ := setBytes_eq f 0xC0000 (leBytes 4 (BitVec.toNat (0 + 1 : Word))) (by rw [len4]; exact low _ _ _ st (by norm_num))
  rw [e1]
  obtain ⟨m2, u2, e2⟩ := setBytes_eq { f with mem := m1, undef := u1 } 458752 img (by rw [hi.2]; exact low _ _ _ st (by norm_num))
  rw [e2]
  obtain ⟨m3, u3, e3⟩ := setBytes_eq { f with mem := m2, undef := u2 } 16440 (leBytes 8 (BitVec.toNat ((458752 : DWord) ||| zx (28 : Word) ||| 3#64)))
    (by rw [len8]; exact low _ _ _ st (by norm_num))
  rw [e3]
  exact fe m3 u3
/-- FIPS 180-4: the digest of "abc". RFC 8032 7.1, TEST 1: the key of a seed, and a signature accepted. -/
theorem test_sha512 : sha512Bytes [0x61,0x62,0x63] = [0xdd, 0xaf, 0x35, 0xa1, 0x93, 0x61, 0x7a, 0xba, 0xcc, 0x41, 0x73, 0x49, 0xae, 0x20, 0x41, 0x31,
  0x12, 0xe6, 0xfa, 0x4e, 0x89, 0xa9, 0x7e, 0xa2, 0x0a, 0x9e, 0xee, 0xe6, 0x4b, 0x55, 0xd3, 0x9a,
  0x21, 0x92, 0x99, 0x2a, 0x27, 0x4f, 0xc1, 0xa8, 0x36, 0xba, 0x3c, 0x23, 0xa3, 0xfe, 0xeb, 0xbd,
  0x45, 0x4d, 0x44, 0x23, 0x64, 0x3c, 0xe8, 0x0e, 0x2a, 0x9a, 0xc9, 0x4f, 0xa5, 0x4c, 0xa4, 0x9f] := by decide +kernel
theorem test_ed25519_key : ed25519Public 0x607fae1c03ac3b701969327b69c54944c42cec92f44a84ba605afdef9db1619d =
    0x1a5107f7681a02af2523a6daf372e10e3a0764c9d3fe4bd5b70ab18201985ad7 := by decide +kernel
theorem test_ed25519_verify : ed25519Verify 0x1a5107f7681a02af2523a6daf372e10e3a0764c9d3fe4bd5b70ab18201985ad7 []
  0xb107a8e4341516524be5b59f0f55bd26bb4f91c70391ec6ac3ba3901582b85f5501492265e073d874d9e5b81e7f87848a826e80cce2869072ac60c3004356e5 = true := by decide +kernel
end Sys2Proof.Tests
end

section
/-! The facts that a statement about any issuing instruction can use: how its effect completes it, that its fragment is resident, and what
a register finally holds after a write of variable latency (R49, R50). -/
namespace Sys2Proof.Machine

/-! ### Finite maps -/

/-- A key all of whose entries a filter leaves out is not found. -/
theorem ffind_filter_none {β : Type} {p : Nat × β → Bool} {k : Nat} (m : FMap β) (h : ∀ x, p x = true → x.1 ≠ k) :
    ffind (m.filter p) k = none := by
  induction m with
  | nil => rfl
  | cons x m ih =>
    rw [List.filter_cons]
    split
    · rename_i hx
      simp [ffind, h x hx, ih]
    · exact ih

/-- Writes at the keys of a list, each of its own value: a key of the list reads its value, another reads as before. -/
theorem fget_foldl_fset {β : Type} [DecidableEq β] {d : β} {key : Nat → Nat} (hk : Function.Injective key) (f : Nat → β) (l : Nat)
    (ls : List Nat) (m : FMap β) :
    fget (ls.foldl (fun m x => fset m (key x) d (f x)) m) (key l) d = if l ∈ ls then f l else fget m (key l) d := by
  induction ls generalizing m with
  | nil => rfl
  | cons x ls ih =>
    rw [List.foldl_cons, ih]
    by_cases hl : l ∈ ls
    · simp [hl]
    · by_cases hx : l = x
      · simp [hx]
      · simp [hl, hx, fget_fset_ne m (fun e => hx (hk e))]

/-! ### Words -/

@[simp] theorem lo32_zx (x : Word) : lo32 (zx x) = x := by simp [lo32, zx]

theorem lo32_ofNat (n : Nat) : lo32 (BitVec.ofNat 64 n) = BitVec.ofNat 32 n := BitVec.setWidth_ofNat_of_le (by decide) n

theorem lo32_eq_bits (x : DWord) : lo32 x = bits x 0 32 := BitVec.setWidth_eq_extractLsb' (by decide)

theorem hi32_append_lo32 (x : DWord) : hi32 x ++ lo32 x = x := by
  rw [lo32_eq_bits]
  exact BitVec.extractLsb'_append_extractLsb' (w := 32) (len := 32)

/-! ### Residents -/

/-- A place with a fragment holds a resident group. -/
theorem State.find_of_frag {s : State} {p k : Nat} {f : Frag} (h : (s.group p).frag k = some f) :
    ffind s.groups p = some (s.group p) := by
  cases hg : ffind s.groups p with
  | some g => rw [State.group_of_find hg]
  | none =>
    have he : s.group p = Group.empty := by simp [State.group, fget, hg]
    rw [he] at h
    unfold Group.frag at h
    split at h <;> cases h

theorem State.group_modGroup {s : State} {p : Nat} {g : Group} (u : Group → Group) (h : ffind s.groups p = some g) :
    (s.modGroup p u).group p = u (s.group p) := by
  rw [State.group_of_find (State.find_modGroup u h), State.group_of_find h]

@[simp] theorem State.team_modGroup (s : State) (p : Nat) (u : Group → Group) (tid : Nat) : (s.modGroup p u).team tid = s.team tid := by
  simp [State.team]

@[simp] theorem Group.modFrag_allot (g : Group) (k : Nat) (u : Frag → Frag) : (g.modFrag k u).allot = g.allot := by
  unfold modFrag setFrag
  split <;> rfl

@[simp] theorem Group.modFrag_v (g : Group) (k : Nat) (u : Frag → Frag) : (g.modFrag k u).v = g.v := by
  unfold modFrag setFrag
  split <;> rfl

/-- What is settled depends on the contexts and on accesses to absent memory alone. -/
theorem State.settled_congr {s t : State} (hc : t.ctxs = s.ctxs) (ha : t.absent = s.absent) : t.settled = s.settled := by
  unfold State.settled
  rw [hc, ha]

@[simp] theorem State.settled_modGroup (s : State) (p : Nat) (u : Group → Group) : (s.modGroup p u).settled = s.settled :=
  settled_congr (by simp) (by simp)

@[simp] theorem supersede_settled (s : State) (old p : Nat) (wv : List RegName) (m : Mask) :
    (supersede s old p wv m).settled = s.settled := by
  unfold supersede
  split <;> rfl

@[simp] theorem taken_settled (i : Instr) (s : State) (c : Iss) (s2 : State) : (taken i s c s2).settled = s2.settled := by
  unfold taken
  split
  · rfl
  · exact supersede_settled s2 _ _ _ _

@[simp] theorem advance_settled (s : State) (c : Iss) (buf : Option Nat) : (advance s c buf).settled = s.settled :=
  State.settled_modGroup s _ _

@[simp] theorem markIssued_settled (s : State) (g : Group) : (markIssued s g).settled = s.settled := rfl

@[simp] theorem begun_settled (i : Instr) (s : State) : (begun i s).settled = s.settled := by
  unfold begun drainFor
  split
  · exact State.settled_modGroup s _ _
  · rfl

/-- An instruction that is no drain point begins in the state itself (R51). -/
theorem begun_of_not_drain {i : Instr} {s : State} (h : (shapeIn i s).drain = false) : begun i s = s := by
  simp [begun, drainFor, h]

/-! ### Completion -/

/-- The step of an instruction is the issue of an effect, under the instruction's own shape and words. -/
def IssuedBy (i : Instr) (s : State) (body : Iss → State → Eff) : Prop :=
  ∃ r, rawOf i = some r ∧ exec i s = issue (shapeIn i s) r.op.toNat r.len r.st body s

section
variable {i : Instr} {s s2 : State} {c : Iss} {body : Iss → State → Eff}

/-- The fragment of an instruction that is ready. -/
theorem Ready.fragOf (hr : Ready i s c) : ∃ f, s.fragOf c = some f := by
  obtain ⟨-, hi, -⟩ := hr
  obtain ⟨r, -, hc⟩ := Option.bind_eq_some_iff.mp hi
  obtain ⟨g, f, hg, hf, -⟩ := canIssue_some hc
  obtain ⟨hp, hs, -⟩ := canIssue_fields hc
  refine ⟨f, ?_⟩
  unfold State.fragOf
  rw [hp, hs, State.group_of_find hg]
  exact hf

/-- The group of an instruction that is ready is resident as its effect begins. -/
theorem Ready.find_begun (hr : Ready i s c) : ffind (begun i s).groups c.place = some ((begun i s).group c.place) := by
  obtain ⟨f, hf⟩ := hr.fragOf
  obtain ⟨-, hi, -⟩ := hr
  obtain ⟨r, -, hc⟩ := Option.bind_eq_some_iff.mp hi
  have hn : Near s c.place (begun i s) := (canIssue_fields hc).1 ▸ Near.drainFor s _
  obtain ⟨g, hg, -⟩ := hn.own _ (State.find_of_frag hf)
  rw [State.group_of_find hg, hg]

/-- An instruction that is ready, and whose effect goes on to a settled state, completes. -/
theorem completes_of_go (hi : IssuedBy i s body) (hr : Ready i s c) (hb : body c (begun i s) = .go s2) (hs : s2.settled = true) :
    Completes i s c s2 := by
  obtain ⟨r, hraw, hx⟩ := hi
  obtain ⟨-, hiss, hlive⟩ := hr
  have hc : canIssue (shapeIn i s) r.op.toNat r.len r.st.toNat s = some c := by simpa [issueOf, hraw] using hiss
  obtain ⟨hp, hsl, -⟩ := canIssue_fields hc
  obtain ⟨hact, hrun⟩ : c.act ≠ 0 ∧ neverRuns ((drainFor s s.cur (shapeIn i s)).group c.place) c.slot (shapeIn i s) = false := by
    simpa [Iss.live] using hlive
  rw [hp, hsl] at hrun
  obtain ⟨buf, h⟩ := issueWith_go (always := false) hc hrun (.inl hact) hb
  refine ⟨buf, (drainFor s s.cur (shapeIn i s)).group s.cur.1, ?_⟩
  rw [hx, issue, h, ← hp, ← hsl]
  refine finish_settled (s := markIssued (advance (taken i s c s2) c buf) _) ?_
  simpa using hs

/-- An instruction that is ready, and whose effect changes its own group, completes with that change made. -/
theorem completes_of_goGroup {u : Group → Group} (hi : IssuedBy i s body) (hr : Ready i s c)
    (hb : body c (begun i s) = goGroup (begun i s) c u) :
    ∃ s2, Completes i s c s2 ∧ s2.group c.place = u ((begun i s).group c.place) :=
  ⟨_, completes_of_go hi hr hb (by simpa using hr.1), State.group_modGroup u hr.find_begun⟩

end

/-! ### What a register finally holds (R50) -/

/-- Once a register's pending writes are discarded in some lanes, those lanes hold what is committed. -/
theorem Group.landed_forget (g : Group) (r : RegName) {ls : List Nat} {l : Nat} (hl : l ∈ ls) (x : Word) :
    (g.forget r ls).landed r l x = x := by
  unfold landed forget
  dsimp only
  induction g.pend with
  | nil => rfl
  | cons w ws ih =>
    rw [List.map_cons, List.foldl_cons]
    by_cases hr : (w.reg == r) = true
    · have hn : ffind (w.vals.filter (fun y => !ls.contains y.1)) l = none :=
        ffind_filter_none _ (fun y hy e => by simp [e, hl] at hy)
      rw [if_pos hr, if_pos hr, hn]
      exact ih
    · rw [if_neg hr, if_neg hr]
      exact ih

/-- Commits to a v-register change its lanes alone. -/
theorem Group.foldl_commit_v (g : Group) (n : Nat) (f : Nat → Word) (ls : List Nat) :
    (ls.map (fun l => (l, f l))).foldl (fun g x => g.commit (.v n) x.1 x.2) g =
      { g with v := ls.foldl (fun m l => fset m (32 * n + l) 0 (f l)) g.v } := by
  induction ls generalizing g with
  | nil => rfl
  | cons l ls ih =>
    rw [List.map_cons, List.foldl_cons, ih]
    rfl

/-- A v-register after a write of variable latency. -/
theorem Group.finalV_put (g : Group) (slot n : Nat) (f : Nat → DWord) {ls : List Nat} {l : Nat} (hl : l ∈ ls) :
    (g.put slot [(.v n, 0)] (ls.map (fun l => (l, f l)))).finalV n l = lo32 (f l) := by
  have hne : ls ≠ [] := List.ne_nil_of_mem hl
  have hw : g.put slot [(.v n, 0)] (ls.map (fun l => (l, f l))) =
      { g.forget (.v n) ls with v := ls.foldl (fun m l => fset m (32 * n + l) 0 (lo32 (f l))) g.v } := by
    refine Eq.trans ?_ (foldl_commit_v (g.forget (.v n) ls) n (fun l => lo32 (f l)) ls)
    simp [put, write, arrive, hne, Function.comp_def]
  rw [hw]
  unfold finalV
  have hk : Function.Injective (fun l => 32 * n + l) := fun _ _ e => Nat.add_left_cancel e
  exact (landed_forget g (.v n) hl _).trans ((fget_foldl_fset hk (fun l => lo32 (f l)) l ls g.v).trans (if_pos hl))

/-- An s-register after a write of variable latency. -/
theorem Group.finalS_put (g : Group) (slot n : Nat) (x : DWord) : (g.put slot [(.s n, 0)] [(0, x)]).finalS n = lo32 x := by
  have hw : g.put slot [(.s n, 0)] [(0, x)] = (g.forget (.s n) [0]).setS n (lo32 x) := by simp [put, write, arrive, commit]
  rw [hw]
  unfold finalS
  exact (landed_forget g (.s n) (List.mem_singleton.mpr rfl) _).trans (fget_fset_self _ _ _ _)

end Sys2Proof.Machine
end

section
/-! Special registers (R107, R108, R139) and register blocks (R126, R140): what each instruction's effect is, and the statement. -/
namespace Sys2Proof.Machine

/-! ### RSR (R107, R108, R139) -/

/-- The register that RSR of a special register writes. -/
def rsrDst (a n : Nat) : List (RegName × Nat) := [(if sregLane n then .v a else .s a, 0)]

theorem shapeRsr_dst (a b : BitVec 9) : (shapeRsr a b).dst = rsrDst a.toNat b.toNat := by
  unfold shapeRsr rsrDst
  split <;> simp_all

theorem shapeRsr_drain (a b : BitVec 9) : (shapeRsr a b).drain = false := by
  unfold shapeRsr
  dsimp only
  split <;> rfl

theorem rsr_issuedBy (h : Hd) (s : State) : IssuedBy (.rsr h) s (rsrEff (rsrDst h.a.toNat h.b.toNat) h.b.toNat) :=
  ⟨_, rfl, by rw [← shapeRsr_dst]; rfl⟩

theorem rsrU1_issuedBy (f : F1) (s : State) : IssuedBy (.rsrU1 f) s (rsrEff (rsrDst f.a.toNat f.b.toNat) f.b.toNat) :=
  ⟨_, rfl, by rw [← shapeRsr_dst]; rfl⟩

theorem begun_rsr (h : Hd) (s : State) : begun (.rsr h) s = s := begun_of_not_drain (shapeRsr_drain h.a h.b)

theorem begun_rsrU1 (f : F1) (s : State) : begun (.rsrU1 f) s = s := begun_of_not_drain (shapeRsr_drain f.a f.b)

/-- The state from which RSR writes its result: a read of CYCLE latches the counter's high half in the fragment (R108). -/
def cycleLatched (n : Nat) (c : Iss) (s : State) : State :=
  if n = 0x08 then
    s.modGroup c.place (fun g => g.modFrag c.slot (fun f => { f with chl := BitVec.ofNat 32 (nowAt s c.place / 2 ^ 32) }))
  else s

theorem rsrEff_lane {n : Nat} (hn : sregLane n = true) (dst : List (RegName × Nat)) (c : Iss) (s : State) :
    rsrEff dst n c s = goGroup s c (fun g => g.put c.slot dst ((lanes c.act).map (fun l =>
      (l, if n = 0x00 then BitVec.ofNat 64 l else zx (fget g.seed l 0))))) := by
  have h : n ≠ 0x0B := by rintro rfl; cases hn
  simp [rsrEff, h, hn]

theorem rsrEff_uniform {n : Nat} (hn : sregLane n = false) (h : n ≠ 0x0B) (dst : List (RegName × Nat)) (c : Iss) (s : State) :
    rsrEff dst n c s = goGroup (cycleLatched n c s) c (fun g =>
      g.put c.slot dst [(0, zx (sregRead s (s.group c.place) (theFrag s c) n))]) := by
  simp [rsrEff, cycleLatched, h, hn]

theorem rsrEff_fstat {c : Iss} {s : State} (hw : fstatWaits s c.place = false) (dst : List (RegName × Nat)) :
    rsrEff dst 0x0B c s = goGroup s c (fun g => (g.settleFlags c.slot).put c.slot dst
      [(0, zx (sregRead s ((s.group c.place).settleFlags c.slot) (theFrag s c) 0x0B))]) := by
  simp [rsrEff, hw, sregLane]

theorem cycleLatched_settled (n : Nat) (c : Iss) (s : State) : (cycleLatched n c s).settled = s.settled := by
  unfold cycleLatched
  split <;> simp

theorem cycleLatched_find {n : Nat} {c : Iss} {s : State} {g : Group} (h : ffind s.groups c.place = some g) :
    ∃ g', ffind (cycleLatched n c s).groups c.place = some g' := by
  unfold cycleLatched
  split
  · exact ⟨_, State.find_modGroup _ h⟩
  · exact ⟨g, h⟩

/-- A read of CYCLE leaves bits 63:32 of the core's counter in the fragment. -/
theorem cycleLatched_chl {c : Iss} {s : State} {f : Frag} (h : s.fragOf c = some f) :
    ((cycleLatched 0x08 c s).group c.place).frag c.slot =
      some { f with chl := BitVec.ofNat 32 (s.clkOf (s.group c.place).core / 2 ^ 32) } := by
  have hf : (s.group c.place).frag c.slot = some f := h
  rw [cycleLatched, if_pos rfl, State.group_modGroup _ (State.find_of_frag hf)]
  simp [hf, nowAt]

section
variable {i : Instr} {s : State} {c : Iss} {f : Frag} {a n : Nat}

/-- RSR of LANEID or SEED. -/
theorem rsr_lane_completes (hi : IssuedBy i s (rsrEff (rsrDst a n) n)) (hr : Ready i s c) (hn : sregLane n = true) :
    ∃ s2, Completes i s c s2 ∧ ∀ l ∈ lanes c.act, (s2.group c.place).finalV a l =
      if n = 0x00 then BitVec.ofNat 32 l else fget ((begun i s).group c.place).seed l 0 := by
  obtain ⟨s2, hc, hg⟩ := completes_of_goGroup hi hr (rsrEff_lane hn _ c _)
  refine ⟨s2, hc, fun l hl => ?_⟩
  rw [hg, rsrDst, if_pos hn, Group.finalV_put _ _ _ _ hl]
  split
  · exact lo32_ofNat l
  · exact lo32_zx _

/-- RSR of a uniform register other than FSTAT: its value, in the state that CYCLE's latch leaves. -/
theorem rsr_uniform_completes (hi : IssuedBy i s (rsrEff (rsrDst a n) n)) (hb : begun i s = s) (hr : Ready i s c)
    (hf : s.fragOf c = some f) (hn : sregLane n = false) (h : n ≠ 0x0B) :
    ∃ s2, Completes i s c s2 ∧ (s2.group c.place).finalS a = sregRead s (s.group c.place) f n ∧
      s2.fragOf c = ((cycleLatched n c s).group c.place).frag c.slot := by
  have ht : theFrag s c = f := by simp [theFrag, show (s.group c.place).frag c.slot = some f from hf]
  obtain ⟨g', hg'⟩ := cycleLatched_find (n := n) (State.find_of_frag hf)
  refine ⟨_, completes_of_go hi hr (by rw [hb]; exact rsrEff_uniform hn h _ c s)
    (by simpa [cycleLatched_settled] using hr.1), ?_, ?_⟩
  · rw [State.group_modGroup _ hg', rsrDst, if_neg (by simp [hn]), Group.finalS_put, lo32_zx, ht]
  · rw [State.fragOf, State.group_modGroup _ hg']
    exact Group.regsOf_frag (Group.put_regsOf _ _ _ _) _

/-- RSR of FSTAT, which makes the pending updates of its own fragment first (R85). -/
theorem rsr_fstat_completes (hi : IssuedBy i s (rsrEff (rsrDst a 0x0B) 0x0B)) (hr : Ready i s c)
    (hw : fstatWaits (begun i s) c.place = false) :
    ∃ s2, Completes i s c s2 ∧
      (s2.group c.place).finalS a = (((begun i s).group c.place).settleFlags c.slot).fstat.setWidth 32 := by
  obtain ⟨s2, hc, hg⟩ := completes_of_goGroup hi hr (rsrEff_fstat hw _)
  refine ⟨s2, hc, ?_⟩
  rw [hg, rsrDst, if_neg (by decide), Group.finalS_put, lo32_zx]
  rfl

end

/-! ### WSR (R96, R107, R139) -/

/-- What WSR of a register into a special register makes of the group. -/
def wsrUpdate (a n : Nat) (c : Iss) (g : Group) : Group :=
  if n = 0x0A then g.modFrag c.slot (fun f => { f with fmt := (g.rs c.slot a).setWidth 2 })
  else if n = 0x0B then { g with fstat := g.fstat &&& ~~~((g.rs c.slot a).setWidth 7) }
  else if n = 0x0C then
    { g with seed := (lanes c.act).foldl (fun m l => fset m l 0 (if g.rv c.slot a l = 0 then 1 else g.rv c.slot a l)) g.seed }
  else if c.sup then { g with h := g.h.write n (g.rs c.slot a) } else g

theorem wsrEff_eq (a n : Nat) (c : Iss) (s : State) : wsrEff a n c s = goGroup s c (wsrUpdate a n c) := rfl

theorem shapeWsr_drain (a b : BitVec 9) : (shapeWsr a b).drain = false := by
  unfold shapeWsr
  dsimp only
  split <;> rfl

theorem wsr_issuedBy (h : Hd) (s : State) : IssuedBy (.wsr h) s (wsrEff h.a.toNat h.b.toNat) := ⟨_, rfl, rfl⟩

theorem wsrU1_issuedBy (f : F1) (s : State) : IssuedBy (.wsrU1 f) s (wsrEff f.a.toNat f.b.toNat) := ⟨_, rfl, rfl⟩

theorem begun_wsr (h : Hd) (s : State) : begun (.wsr h) s = s := begun_of_not_drain (shapeWsr_drain h.a h.b)

theorem begun_wsrU1 (f : F1) (s : State) : begun (.wsrU1 f) s = s := begun_of_not_drain (shapeWsr_drain f.a f.b)

section
variable {a n : Nat} {c : Iss} {g : Group}

theorem wsrUpdate_fmt {f : Frag} (hf : g.frag c.slot = some f) :
    (wsrUpdate a 0x0A c g).frag c.slot = some { f with fmt := (g.rs c.slot a).setWidth 2 } := by
  simp [wsrUpdate, hf]

theorem wsrUpdate_seed {l : Nat} (hl : l ∈ lanes c.act) :
    fget (wsrUpdate a 0x0C c g).seed l 0 = if g.rv c.slot a l = 0 then 1 else g.rv c.slot a l :=
  (fget_foldl_fset Function.injective_id (fun l => if g.rv c.slot a l = 0 then 1 else g.rv c.slot a l) l (lanes c.act) g.seed).trans
    (if_pos hl)

/-- In supervisor mode every other register is a handler register, or read-only. -/
theorem wsrUpdate_sup (hs : c.sup = true) (hn : n ∉ [0x0A, 0x0B, 0x0C]) :
    wsrUpdate a n c g = { g with h := g.h.write n (g.rs c.slot a) } := by
  simp only [List.mem_cons, List.not_mem_nil, or_false, not_or] at hn
  obtain ⟨h1, h2, h3⟩ := hn
  simp [wsrUpdate, h1, h2, h3, hs]

/-- In user mode the handler registers stay (R2). -/
theorem wsrUpdate_user_h (hs : c.sup = false) : (wsrUpdate a n c g).h = g.h := by
  unfold wsrUpdate
  split
  · exact Group.modFrag_h g _ _
  · split
    · rfl
    · split
      · rfl
      · simp [hs]

/-- A write of no handler register leaves them all. -/
theorem Handler.write_other (h : Handler) (v : Word)
    (hn : n ∉ [0x20, 0x21, 0x22, 0x23, 0x24, 0x25, 0x26, 0x27, 0x28, 0x29, 0x2D]) : h.write n v = h := by
  simp only [List.mem_cons, List.not_mem_nil, or_false, not_or] at hn
  unfold Handler.write
  split <;> simp_all

end

/-! ### Register blocks (R126, R140) -/

/-- A team's pool after it is set. -/
theorem pool_setPool {s : State} {tid : Nat} (h : (ffind s.teams tid).isSome = true) (quad n : Nat) :
    ((setPool s tid quad n).team tid).pool quad = n := by
  obtain ⟨t, ht⟩ := Option.isSome_iff_exists.mp h
  simp [setPool, ht, Team.pool]

@[simp] theorem setPool_groups (s : State) (tid quad n : Nat) : (setPool s tid quad n).groups = s.groups := by
  unfold setPool
  split <;> rfl

@[simp] theorem setPool_settled (s : State) (tid quad n : Nat) : (setPool s tid quad n).settled = s.settled := by
  unfold setPool
  split <;> rfl

@[simp] theorem setPool_group (s : State) (tid quad n p : Nat) : (setPool s tid quad n).group p = s.group p := by
  simp [State.group]

@[simp] theorem takeBlocks_settled (s : State) (p n : Nat) : (takeBlocks s p n).settled = s.settled := by simp [takeBlocks]

section
variable {s : State} {p : Nat} {g : Group} (hg : ffind s.groups p = some g)
include hg

theorem takeBlocks_find (n : Nat) : ffind (takeBlocks s p n).groups p =
    some { s.group p with allot := (s.group p).allot + 32 * n,
                          v := (s.group p).v.filter (fun x => decide (x.1 < 32 * (s.group p).allot)) } := by
  unfold takeBlocks
  rw [State.find_modGroup (g := s.group p) _ (by rw [setPool_groups, State.group_of_find hg, hg])]

theorem takeBlocks_allot (n : Nat) : ((takeBlocks s p n).group p).allot = (s.group p).allot + 32 * n := by
  rw [State.group_of_find (takeBlocks_find hg n)]

theorem takeBlocks_frag (n k : Nat) : ((takeBlocks s p n).group p).frag k = (s.group p).frag k := by
  rw [State.group_of_find (takeBlocks_find hg n)]
  rfl

/-- The claimed registers read zero. -/
theorem takeBlocks_v (n : Nat) {r : Nat} (l : Nat) (hr : (s.group p).allot ≤ r) :
    fget ((takeBlocks s p n).group p).v (32 * r + l) 0 = 0 := by
  rw [State.group_of_find (takeBlocks_find hg n)]
  unfold fget
  rw [ffind_filter_none _ (fun x hx e => by have := of_decide_eq_true hx; omega)]
  rfl

end

theorem takeBlocks_pool {s : State} {p : Nat} (h : (ffind s.teams (s.group p).team).isSome = true) (n : Nat) :
    ((takeBlocks s p n).team (s.group p).team).pool (s.group p).quad = (s.team (s.group p).team).pool (s.group p).quad - n := by
  unfold takeBlocks
  rw [State.team_modGroup, pool_setPool h]

/-- The check of the group's lanes passes. -/
theorem blockCheck_pass {s : State} {c : Iss} {k : Unit → Eff} (h : c.mask = ~~~(s.group c.place).exited) : blockCheck s c k = k () := by
  simp [blockCheck, h]

theorem exec_reggive (h : Hd) (x : WNib) (s : State) : exec (.reggive h x) s = execReggive h x s := rfl

theorem exec_regclaim (h : Hd) (x : WNib) (s : State) : exec (.regclaim h x) s = execRegclaim h x s := rfl

theorem begun_reggive (h : Hd) (x : WNib) (s : State) : begun (.reggive h x) s = s := begun_of_not_drain rfl

theorem begun_regclaim (h : Hd) (x : WNib) (s : State) : begun (.regclaim h x) s = s := begun_of_not_drain rfl

/-- REGGIVE of blocks that no outstanding write names moves them to the pool. -/
theorem reggive_completes {h : Hd} {x : WNib} {s : State} {c : Iss} (hr : Ready (.reggive h x) s c)
    (ht : (ffind s.teams (s.group c.place).team).isSome = true) (hm : c.mask = ~~~(s.group c.place).exited)
    (ha : 32 * x.n.toNat + 32 ≤ (s.group c.place).allot) (hp : pendingRegs s c.place = [])
    (hw : waitWrites s (s.group c.place) c.slot = ([], [])) :
    ∃ s2, Completes (.reggive h x) s c s2 ∧ (s2.group c.place).allot = (s.group c.place).allot - 32 * x.n.toNat ∧
      (s2.team (s.group c.place).team).pool (s.group c.place).quad =
        (s.team (s.group c.place).team).pool (s.group c.place).quad + x.n.toNat := by
  have hfree : ∀ top, ((pendingRegs s c.place ++ (waitWrites s (s.group c.place) c.slot).1 ++
      (waitWrites s (s.group c.place) c.slot).2).any top) = false := by simp [hp, hw]
  have hfind := hr.find_begun
  rw [begun_reggive] at hfind
  refine ⟨_, completes_of_go ⟨_, rfl, (exec_reggive h x s).trans rfl⟩ hr (by
    rw [begun_reggive]
    exact (blockCheck_pass hm).trans ((if_neg (by omega)).trans (if_neg (Bool.eq_false_iff.mp (hfree _))))) ?_, ?_, ?_⟩
  · simpa using hr.1
  · rw [State.group_modGroup (g := s.group c.place) _ (by simpa using hfind)]
  · rw [State.team_modGroup, pool_setPool ht]

/-- REGCLAIM that finds its blocks and no older claim takes them. -/
theorem regclaim_completes {h : Hd} {x : WNib} {s : State} {c : Iss} (hr : Ready (.regclaim h x) s c)
    (hm : c.mask = ~~~(s.group c.place).exited) (ha : (s.group c.place).allot + 32 * x.n.toNat ≤ 512)
    (hn : x.n.toNat ≤ (s.team (s.group c.place).team).pool (s.group c.place).quad)
    (hcl : claimsOf s (s.group c.place).team (s.group c.place).quad = []) :
    Completes (.regclaim h x) s c (takeBlocks s c.place x.n.toNat) := by
  refine completes_of_go ⟨_, rfl, (exec_regclaim h x s).trans rfl⟩ hr (by
    rw [begun_regclaim]
    exact (blockCheck_pass hm).trans ((if_neg (by omega)).trans (if_pos (by simp [hn, hcl])))) ?_
  simpa using hr.1

/-- REGCLAIM_GRANT serves the first waiting claim, of a fragment's slot, when the pool holds its blocks. -/
theorem exec_regclaimGrant {s : State} {tid quad order place slot n : Nat} (hs : s.settled = true)
    (hc : (claimsOf s tid quad).head? = some (order, place, slot, n)) (hslot : slot < 2) (hn : n ≤ (s.team tid).pool quad) :
    exec (.regclaimGrant tid quad) s =
      .next ((takeBlocks s place n).modGroup place (fun g => g.modFrag slot (fun f => { f with wait := none }))) := by
  have h2 : slot ≠ 2 := by omega
  show execRegclaimGrant tid quad s = _
  unfold execRegclaimGrant
  simp only [hc, hn, h2, if_true, if_false]
  exact event_settled (by simpa using hs)

/-! ### What a uniform special register reads (R107) -/

section
variable (s : State) (g : Group) (f : Frag)

/-- CLUPOS is the row above the column. -/
theorem sregRead_clupos : sregRead s g f 0x05 = BitVec.ofNat 32 (256 * (s.team g.team).row + (s.team g.team).col) := by
  rw [Nat.mul_comm]
  rfl

/-- Four counters, the first in the lowest byte. -/
theorem sregRead_counters : sregRead s g f 0x0E =
    BitVec.ofNat 32 (fget g.cnt 0 0 + 2 ^ 8 * fget g.cnt 1 0 + 2 ^ 16 * fget g.cnt 2 0 + 2 ^ 24 * fget g.cnt 3 0) := by
  show BitVec.ofNat 32 (g.count 3 * 2 ^ 24 + g.count 2 * 2 ^ 16 + g.count 1 * 256 + g.count 0) = _
  congr 1
  unfold Group.count
  omega

/-- The other two counters. -/
theorem sregRead_counters_high : sregRead s g f 0x0F = BitVec.ofNat 32 (fget g.cnt 4 0 + 2 ^ 8 * fget g.cnt 5 0) := by
  show BitVec.ofNat 32 (g.count 5 * 256 + g.count 4) = _
  congr 1
  unfold Group.count
  omega

/-- The handler registers in supervisor mode. -/
theorem sregRead_sup (h : f.sup = true) : sregRead s g f 0x20 = g.h.ecause.setWidth 32 ∧
    sregRead s g f 0x22 ++ sregRead s g f 0x21 = g.h.epc ∧ sregRead s g f 0x24 ++ sregRead s g f 0x23 = g.h.enpc ∧
    sregRead s g f 0x26 ++ sregRead s g f 0x25 = g.h.eaddr ∧ sregRead s g f 0x27 = g.h.emask ∧ sregRead s g f 0x28 = g.h.efrag ∧
    sregRead s g f 0x29 = (if g.h.replay then 1 else 0) ∧ sregRead s g f 0x2D = g.h.erest := by
  simp only [sregRead, h, if_true, hi32_append_lo32, and_true]
  rfl

/-- The handler registers read zero in user mode (R2). -/
theorem sregRead_user (h : f.sup = false) :
    ∀ n ∈ [0x20, 0x21, 0x22, 0x23, 0x24, 0x25, 0x26, 0x27, 0x28, 0x29, 0x2D], sregRead s g f n = 0 := by
  simp [sregRead, h]

end

/-- Settles O23, by the effect of each form: RSR's write of the value read, WSR's update of the group, and the blocks that REGGIVE,
REGCLAIM and its grant move between the allotment and the pool. -/
theorem specialRegistersAndBlocks : Obligations.SpecialRegistersAndBlocks := by
  unfold Obligations.SpecialRegistersAndBlocks
  refine ⟨fun s c f hf => ?_, fun s g f => ?_, fun s c => ?_, fun s => ⟨?_, ?_, ?_⟩⟩
  · intro reads
    have key : ∀ i a n, IssuedBy i s (rsrEff (rsrDst a n) n) → begun i s = s → reads i a n := by
      intro i a n hi hb hr clk
      refine ⟨?_, ?_, ?_, ?_, ?_⟩
      · rintro rfl
        exact rsr_lane_completes hi hr rfl
      · rintro rfl
        simpa [hb] using rsr_lane_completes hi hr rfl
      · rintro rfl
        obtain ⟨s2, hc, hv, hk⟩ := rsr_uniform_completes hi hb hr hf rfl (by decide)
        exact ⟨s2, hc, hv, _, hk.trans (cycleLatched_chl hf), rfl⟩
      · rintro rfl hw
        exact rsr_fstat_completes hi hr hw
      · intro hn h
        obtain ⟨s2, hc, hv, -⟩ := rsr_uniform_completes hi hb hr hf hn h
        exact ⟨s2, hc, hb.symm ▸ hv⟩
    exact ⟨fun h => key _ _ _ (rsr_issuedBy h s) (begun_rsr h s), fun f1 => key _ _ _ (rsrU1_issuedBy f1 s) (begun_rsrU1 f1 s)⟩
  · exact ⟨rfl, rfl, rfl, rfl, sregRead_clupos s g f, rfl, rfl, rfl, rfl, rfl, rfl, rfl, sregRead_counters s g f,
      sregRead_counters_high s g f, rfl, rfl, rfl, rfl, rfl, rfl, rfl, hi32_append_lo32 _, sregRead_sup s g f, sregRead_user s g f⟩
  · intro writes
    have key : ∀ i a n, IssuedBy i s (wsrEff a n) → begun i s = s → writes i a n := by
      intro i a n hi hb hr b v
      obtain ⟨f, hf⟩ := hr.fragOf
      obtain ⟨s2, hc, hg⟩ := completes_of_goGroup hi hr (wsrEff_eq a n c _)
      refine ⟨s2, hc, ?_, ?_, ?_, fun hsup => ?_, ?_⟩
      · rintro rfl
        exact ⟨_, (congrArg (·.frag c.slot) hg).trans (wsrUpdate_fmt (hb.symm ▸ hf)), rfl⟩
      · rintro rfl
        rw [hg]; rfl
      · rintro rfl l hl
        rw [hg]
        exact wsrUpdate_seed hl
      · have hh : ∀ m, m ∉ [0x0A, 0x0B, 0x0C] → n = m → (s2.group c.place).h = b.h.write m v := by
          rintro _ hm rfl
          rw [hg, wsrUpdate_sup hsup hm]
        simp only [← lo32_eq_bits]
        refine ⟨hh _ (by decide), hh _ (by decide), hh _ (by decide), hh _ (by decide), hh _ (by decide), hh _ (by decide),
          hh _ (by decide), hh _ (by decide), hh _ (by decide), hh _ (by decide), hh _ (by decide), fun hn => ?_⟩
        rw [hg, wsrUpdate_sup hsup (fun h => hn (by simp at h ⊢; omega)), Handler.write_other _ _ (fun h => hn (by simp at h ⊢; omega))]
      · intro husr
        rw [hg, wsrUpdate_user_h husr, hb]
    exact ⟨fun h => key _ _ _ (wsr_issuedBy h s) (begun_wsr h s), fun f1 => key _ _ _ (wsrU1_issuedBy f1 s) (begun_wsrU1 f1 s)⟩
  · exact fun h x c hr ht hm ha hp hw => reggive_completes hr ht hm ha hp hw
  · intro h x c hr ht hm ha hn hcl
    have hfind := hr.find_begun
    rw [begun_regclaim] at hfind
    exact ⟨_, regclaim_completes hr hm ha hn hcl, takeBlocks_allot hfind _, takeBlocks_pool ht _,
      fun r l hr _ => takeBlocks_v hfind _ l hr⟩
  · rintro _ _ order place slot n f hs ht hc rfl rfl hslot hf hn
    have hfind := State.find_of_frag hf
    have hgroup := fun u => State.group_modGroup u (takeBlocks_find hfind n)
    refine ⟨_, { f with wait := none }, exec_regclaimGrant hs hc hslot hn, ?_, rfl, ?_, ?_, fun r l hr _ => ?_⟩
    · rw [hgroup, Group.frag_modFrag, takeBlocks_frag hfind, hf]
      rfl
    · rw [hgroup, Group.modFrag_allot, takeBlocks_allot hfind]
    · rw [State.team_modGroup, takeBlocks_pool ht]
    · rw [hgroup, Group.modFrag_v]
      exact takeBlocks_v hfind n l hr

end Sys2Proof.Machine
end

section
/-! What holds of any instruction that is ready, beyond its own effect: the state in which it begins differs from the one before it in its
group's registers and operand buffers alone (R51); what a completed or placed effect leaves of the fragment; and the entry into the handler
of one fault that every active lane meets (R129). -/
namespace Sys2Proof.Machine

/-! ### Groups that are near -/

section
variable {g g' : Group} (h : g.nearOf g')
include h

theorem Group.nearOf_team : g'.team = g.team := regsOf_team (g := g.unbuffered) (g' := g'.unbuffered) h
theorem Group.nearOf_page : g'.page = g.page := regsOf_page (g := g.unbuffered) (g' := g'.unbuffered) h
theorem Group.nearOf_yw : g'.yw = g.yw := regsOf_yw (g := g.unbuffered) (g' := g'.unbuffered) h
theorem Group.nearOf_cnt : g'.cnt = g.cnt := by
  have e : g'.unbuffered.cnt = g.unbuffered.cnt := by rw [show g'.unbuffered = _ from h]
  exact e

end

/-- A drain point empties a fragment's operand buffer and leaves the rest of it (R51, R55). -/
theorem Group.frag_drainPoint (g : Group) (n : Nat) : g.drainPoint.frag n = (g.frag n).map (fun f => { f with buf := none }) := by
  rw [← regsOf_frag (drainAll_regsOf g) n]
  unfold frag drainPoint
  split <;> rfl

/-! ### An instruction that is ready -/

section
variable {i : Instr} {s s2 : State} {c : Iss} {body : Iss → State → Eff}

/-- The fragment of an instruction that is ready, and what the issue knows of it. -/
theorem Ready.issuer (hr : Ready i s c) :
    ∃ f, (s.group c.place).frag c.slot = some f ∧ c.mask = f.mask ∧ c.sup = f.sup ∧ c.fmt = f.fmt ∧ c.pc = f.pc := by
  obtain ⟨-, hi, -⟩ := hr
  obtain ⟨r, -, hc⟩ := Option.bind_eq_some_iff.mp hi
  obtain ⟨g, f, hg, hf, -, -, -, e, -⟩ := canIssue_some hc
  obtain ⟨hp, hs, -⟩ := canIssue_fields hc
  refine ⟨f, ?_, ?_⟩
  · rw [hp, hs, State.group_of_find hg]
    exact hf
  · rw [e]
    exact ⟨rfl, rfl, rfl, rfl⟩

/-- The words of an instruction that is ready break no form rule (step 5 of R65). -/
theorem Ready.form (hr : Ready i s c) : (shapeIn i s).ok = true := by
  obtain ⟨-, hi, -⟩ := hr
  obtain ⟨r, -, hc⟩ := Option.bind_eq_some_iff.mp hi
  obtain ⟨g, f, -, -, -, -, -, -, hfault⟩ := canIssue_some hc
  cases hok : (shapeIn i s).ok
  · simp [issueFault, formFault, hok] at hfault
  · rfl

theorem Ready.near (hr : Ready i s c) : Near s c.place (begun i s) := by
  obtain ⟨-, hi, -⟩ := hr
  obtain ⟨r, -, hc⟩ := Option.bind_eq_some_iff.mp hi
  exact (canIssue_fields hc).1 ▸ Near.drainFor s _

theorem Ready.nearOf (hr : Ready i s c) : (s.group c.place).nearOf ((begun i s).group c.place) := by
  obtain ⟨f, hf, -⟩ := hr.issuer
  obtain ⟨g, hg, hn⟩ := hr.near.own _ (State.find_of_frag hf)
  rwa [State.group_of_find hg]

/-- The step of an instruction that is ready is the end of its issue, with the effect that its body answers. -/
theorem exec_of_ready (hi : IssuedBy i s body) (hr : Ready i s c) :
    ∃ buf g, exec i s = settleEff c buf g ((body c (begun i s)).takes s.serial c.place c.slot (shapeIn i s) c.act) := by
  obtain ⟨r, hraw, hx⟩ := hi
  obtain ⟨-, hiss, hlive⟩ := hr
  have hc : canIssue (shapeIn i s) r.op.toNat r.len r.st.toNat s = some c := by simpa [issueOf, hraw] using hiss
  obtain ⟨hp, hsl, -⟩ := canIssue_fields hc
  obtain ⟨hact, hrun⟩ : c.act ≠ 0 ∧ neverRuns ((drainFor s s.cur (shapeIn i s)).group c.place) c.slot (shapeIn i s) = false := by
    simpa [Iss.live] using hlive
  obtain ⟨buf, h⟩ := issueWith_ready (always := false) (body := body) hc
  refine ⟨buf, (drainFor s s.cur (shapeIn i s)).group s.cur.1, ?_⟩
  rw [hp, hsl] at hrun ⊢
  have ha : (c.act == 0) = false := beq_eq_false_iff_ne.mpr hact
  rw [hx, issue, h, hrun, ha]
  rfl

/-- An effect that faults, beside what it does in its other lanes: the step raises its faults (R27). -/
theorem exec_of_trap (hi : IssuedBy i s body) (hr : Ready i s c) {fs : List FaultInfo} (hb : body c (begun i s) = .trap s2 fs) :
    ∃ old wv m g, exec i s = finish (markIssued (raise (supersede s2 old c.place wv m) c fs) g) := by
  obtain ⟨buf, g, e⟩ := exec_of_ready hi hr
  rw [hb] at e
  exact ⟨_, _, _, g, e⟩

/-- An effect that places the fragments itself. -/
theorem exec_of_own (hi : IssuedBy i s body) (hr : Ready i s c) (hb : body c (begun i s) = .own s2) (hs : s2.settled = true) :
    ∃ t, exec i s = .next t ∧ t.groups = s2.groups := by
  obtain ⟨buf, g, e⟩ := exec_of_ready hi hr
  rw [hb] at e
  exact ⟨_, e.trans (finish_settled (by simpa using hs)), supersede_groups _ _ _ _ _⟩

end

/-! ### What a completed effect leaves of the fragment -/

theorem taken_groups (i : Instr) (s : State) (c : Iss) (s2 : State) : (taken i s c s2).groups = s2.groups := by
  unfold taken
  split
  · rfl
  · exact supersede_groups _ _ _ _ _

section
variable {i : Instr} {s s2 : State} {c : Iss} {f : Frag} (hf : (s2.group c.place).frag c.slot = some f)
include hf

/-- The group in which an instruction has completed: its effect's, travelled, with the fragment at the next instruction. -/
theorem group_completed (buf : Option Nat) (g : Group) :
    ∃ clk b, (markIssued (advance (taken i s c s2) c buf) g).fragOf c = some (f.after clk c b) ∧
      ((markIssued (advance (taken i s c s2) c buf) g).group c.place).h = (s2.group c.place).h ∧
      ((markIssued (advance (taken i s c s2) c buf) g).group c.place).park = (s2.group c.place).park := by
  have hfind : ffind (taken i s c s2).groups c.place = some (s2.group c.place) := by
    rw [taken_groups]
    exact State.find_of_frag hf
  have hg : (markIssued (advance (taken i s c s2) c buf) g).group c.place = _ := State.group_of_find (advance_find buf hfind)
  have htr : (s2.group c.place).regsOf ((s2.group c.place).travel c.slot (1 + c.st)) := Group.travel_regsOf _ _ _
  refine ⟨nowAt (taken i s c s2) c.place, buf.filter (fun n => decide (n < (s2.group c.place).allot)), ?_, ?_, ?_⟩
  · rw [State.fragOf, hg, Group.frag_modFrag, Group.regsOf_frag htr, hf]
    rfl
  · rw [hg, Group.modFrag_h, Group.regsOf_h htr]
  · rw [hg, Group.modFrag_park, Group.regsOf_park htr]

end

/-! ### One fault that every active lane meets, in user mode with an enabled handler (R129) -/

/-- The state in which the issue of an instruction has been noted in its fragment (R104). -/
def issueNoted (s : State) (c : Iss) : State :=
  s.modGroup c.place (fun g => g.modFrag c.slot (fun f => { f with last := nowAt s c.place }))

/-- Raising it is entering the handler: no lane has completed, so nothing is left to replay. -/
theorem raise_handler {s : State} {c : Iss} {f : FaultInfo} (hsup : c.sup = false) (hm : f.mask = c.full)
    (hd : dispOf ((issueNoted s c).ctx ((issueNoted s c).group c.place).page).d f.code f.first = .handler) (hc : causeOf f.code < 0x800) :
    raise s c [f] = enterHandler (issueNoted s c) c.place c.slot f 0 c.pc c.npc false (nowAt (issueNoted s c) c.place + 1 + c.st) := by
  unfold raise raiseFor
  dsimp only
  rw [show s.modGroup c.place _ = issueNoted s c from rfl]
  generalize issueNoted s c = u at *
  have hone : lanesOf [f] = f.mask := by simp [lanesOf]
  have htrap : ¬ 0x800 ≤ causeOf f.code := by omega
  simp [sortBy, insertBy, hsup, hd, hone, ← hm, htrap]

@[simp] theorem enterHandler_settled (s : State) (place slot : Nat) (f : FaultInfo) (rest : Mask) (epc enpc : DWord) (replay : Bool)
    (ready : Nat) : (enterHandler s place slot f rest epc enpc replay ready).settled = s.settled :=
  State.settled_modGroup s _ _

/-- The handler registers that taking an exception leaves of an interrupted fragment, in its group (R129). -/
def handlerOf (g : Group) (slot : Nat) (x : Frag) (f : FaultInfo) (rest : Mask) (epc enpc : DWord) (replay : Bool) : Handler :=
  { ecause := f.code, epc := epc, enpc := enpc, eaddr := f.addr, emask := f.mask, efrag := x.mask, erest := rest,
    replay := replay, ersp := x.rsp, efmt := x.fmt, kind := f.kind, slot := some slot, wait := x.wait, waitAt := x.waitAt,
    op := none, stream := none, entry := 0, yw := g.yw }

/-- The fragment that runs a handler, made of the one interrupted (R129). -/
def handlerFrag (s : State) (g : Group) (x : Frag) (f : FaultInfo) (ready : Nat) : Frag :=
  { x with mask := f.mask, pc := (s.ctx g.page).d.hndbase, fmt := 0, sup := true, ready := max x.ready ready, buf := none,
           only := none, wait := none, since := none, stalled := none }

/-- A group after one of its fragments has taken an exception. -/
theorem enterHandler_group {s : State} {place slot : Nat} {x : Frag} (hx : (s.group place).frag slot = some x) (f : FaultInfo) (rest : Mask)
    (epc enpc : DWord) (replay : Bool) (ready : Nat) :
    (enterHandler s place slot f rest epc enpc replay ready).group place =
      { (s.group place).drainPoint with h := handlerOf (s.group place) slot x f rest epc enpc replay, yw := none }.setFrag slot
        (some (handlerFrag s (s.group place) x f ready)) := by
  have hx' : (s.group place).drainPoint.frag slot = some { x with buf := none } := by rw [Group.frag_drainPoint, hx]; rfl
  have hpage : (s.group place).drainPoint.page = (s.group place).page := Group.nearOf_page (Group.drainPoint_nearOf _)
  have hyw : (s.group place).drainPoint.yw = (s.group place).yw := Group.nearOf_yw (Group.drainPoint_nearOf _)
  rw [enterHandler, State.group_modGroup _ (State.find_of_frag hx)]
  simp only [hx', hpage, hyw]
  rfl

section
variable {s s1 : State} {c : Iss} {x : Frag} {f : FaultInfo}

/-- A fault of every active lane puts its fragment into the handler as R129 gives it. -/
theorem raise_inHandler (hx : (s1.group c.place).frag c.slot = some x) (hctx : s1.ctxs = s.ctxs)
    (hpage : (s1.group c.place).page = (s.group c.place).page) (hmask : c.mask = x.mask) (hfmt : c.fmt = x.fmt)
    (hrsp : (s.fragOf c).map (fun y => y.rsp) = some x.rsp) (hsup : c.sup = false) (hm : f.mask = c.full)
    (hd : dispOf (s.ctx (s.group c.place).page).d f.code f.first = .handler) (hc : causeOf f.code < 0x800) (g : Group) :
    inHandler c s (markIssued (raise s1 c [f]) g) f.code f.addr f.mask 0 c.pc false ∧
      (markIssued (raise s1 c [f]) g).settled = s1.settled := by
  have hn : (issueNoted s1 c).group c.place = (s1.group c.place).modFrag c.slot (fun y => { y with last := nowAt s1 c.place }) :=
    State.group_modGroup _ (State.find_of_frag hx)
  have hnx : ((issueNoted s1 c).group c.place).frag c.slot = some { x with last := nowAt s1 c.place } := by
    rw [hn, Group.frag_modFrag, hx]; rfl
  have hnpage : ((issueNoted s1 c).group c.place).page = (s.group c.place).page := by
    rw [hn, ← hpage]
    unfold Group.modFrag Group.setFrag
    split <;> rfl
  have hnctx : (issueNoted s1 c).ctx (s.group c.place).page = s.ctx (s.group c.place).page := by
    simp [State.ctx, issueNoted, hctx]
  have hr := raise_handler hsup hm (by rw [hnpage, hnctx]; exact hd) hc
  have hg := enterHandler_group hnx f 0 c.pc c.npc false (nowAt (issueNoted s1 c) c.place + 1 + c.st)
  rw [← hr] at hg
  refine ⟨⟨⟨handlerFrag (issueNoted s1 c) ((issueNoted s1 c).group c.place) { x with last := nowAt s1 c.place } f
      (nowAt (issueNoted s1 c) c.place + 1 + c.st), ?_, rfl, ?_, rfl, rfl⟩, ?_⟩, ?_⟩
  · show ((raise s1 c [f]).group c.place).frag c.slot = _
    rw [hg, Group.frag_setFrag]
  · show ((issueNoted s1 c).ctx ((issueNoted s1 c).group c.place).page).d.hndbase = _
    rw [hnpage, hnctx]
  · have hh : ((markIssued (raise s1 c [f]) g).group c.place).h =
        handlerOf ((issueNoted s1 c).group c.place) c.slot { x with last := nowAt s1 c.place } f 0 c.pc c.npc false := by
      show ((raise s1 c [f]).group c.place).h = _
      rw [hg, Group.setFrag_h]
    rw [hh, hrsp, hmask, hfmt]
    exact ⟨rfl, rfl, rfl, rfl, rfl, rfl, rfl, rfl, rfl, rfl, rfl⟩
  · rw [hr]
    simp [issueNoted]

end

section
variable {i : Instr} {s s2 : State} {c : Iss} {body : Iss → State → Eff}

/-- An instruction that is ready and whose effect is one fault of every active lane, the group as it began. -/
theorem trap_inHandler (hi : IssuedBy i s body) (hr : Ready i s c) {f : FaultInfo} (hb : body c (begun i s) = .trap (begun i s) [f])
    (hsup : c.sup = false) (hfull : c.act = c.full) (hm : f.mask = c.act)
    (hd : dispOf (s.ctx (s.group c.place).page).d f.code f.first = .handler) (hc : causeOf f.code < 0x800) :
    ∃ t, exec i s = .next t ∧ inHandler c s t f.code f.addr c.act 0 c.pc false := by
  obtain ⟨old, wv, m, g, e⟩ := exec_of_trap hi hr hb
  obtain ⟨x, hx, hmask, -, hfmt, -⟩ := hr.issuer
  obtain ⟨b, hb⟩ := Group.nearOf_frag hr.nearOf hx
  have hg : (supersede (begun i s) old c.place wv m).group c.place = (begun i s).group c.place := by
    simp [State.group, supersede_groups]
  have hctx : (supersede (begun i s) old c.place wv m).ctxs = s.ctxs :=
    (Near.supersede _ _ _ c.place _ _).only.2.2.2.1.trans hr.near.only.2.2.2.1
  obtain ⟨hin, hs⟩ := raise_inHandler (x := { x with buf := b }) (f := f) (hg ▸ hb) hctx (by rw [hg, Group.nearOf_page hr.nearOf]) hmask hfmt
    (by simp [State.fragOf, hx]) hsup (hm.trans hfull) hd hc g
  rw [hm] at hin
  exact ⟨_, e.trans (finish_settled (by simpa [hr.1] using hs)), hin⟩

end

end Sys2Proof.Machine
end

section
/-! WAITC and YIELDC (R25, R124): the condition they name, the wait that begins on it, and the resumption of a yielded group. -/
namespace Sys2Proof.Machine

/-! ### The condition -/

section
variable {x : WWait} {n : Nat} {c : Iss} {s : State} {k : Cond → State → Eff}

theorem withCond_counter (hk : x.kind = 0) : withCond x n c s k = k (.counter x.cls.toNat x.thresh.toNat) s := by
  simp [withCond, hk]

section
variable {r : SlotRef} (hk : x.kind ≠ 0) (hr : slotRef s (s.group c.place).team (x.slot.toNat, x.cl, x.cpos.toNat) = some r)
  (hb : invBusy s r = false)
include hk hr hb

/-- A slot that is no chunk map. -/
theorem withCond_not_map (hm : (slotAt s r).kind ≠ 2) : withCond x n c s k = .trap s [.plain (codeOf 0 cIllegalForm) c.act] := by
  simp [withCond, hr, hb, hm]
  exact fun h => absurd h hk

theorem withCond_map (hm : (slotAt s r).kind = 2) : withCond x n c s k =
    withMask c s 0 ((s.group c.place).rs c.slot n) (slotAt s r) (fun m u => k (.chunk r (slotAt s r).gen (x.kind == 2) m) u) := by
  simp [withCond, hr, hb, hm]
  exact fun h => absurd h hk

end

theorem withMask_misaligned {cls : Nat} {off : Word} {y : Slot} {k : BitVec 512 → State → Eff} (h : off.toNat % 64 ≠ 0) :
    withMask c s cls off y k = .trap s [{ FaultInfo.plain (codeOf cls cAlign) c.act with addr := zx off, kind := kRead }] := by
  simp [withMask, aligned, h]

theorem withMask_read {cls : Nat} {off : Word} {y : Slot} {k : BitVec 512 → State → Eff} {l : List Byte} {u : State}
    (h : off.toNat % 64 = 0) (hl : locAccess s cls kRead (s.group c.place).team off.toNat 64 (zx off) none = .ok l u) :
    withMask c s cls off y k = k (BitVec.ofNat 512 (leVal l % 2 ^ y.expect)) u := by
  simp [withMask, aligned, h, hl]

end

/-- The test of a map's bits by a mask: any bit of it, or all. -/
def maskTest {w : Nat} (any : Bool) (b m : BitVec w) : Bool := if any then b &&& m != 0 else b &&& m == m

theorem maskTest_any {w : Nat} {b m : BitVec w} : maskTest true b m = true ↔ b &&& m ≠ 0 := bne_iff_ne

theorem maskTest_all {w : Nat} {b m : BitVec w} : maskTest false b m = true ↔ b &&& m = m := beq_iff_eq

/-- In the slot's own generation (R124). -/
theorem Slot.chunkTrue_self (x : Slot) (any : Bool) (m : BitVec 512) : x.chunkTrue x.gen any m = maskTest any x.bits m := by
  have h : (x.gen != x.gen) = false := bne_self_eq_false _
  exact (congrArg (· || maskTest any x.bits m) h).trans (Bool.false_or _)

/-- A chunk-map condition, of the slot's generation and a team that has not ended, is the test of the map's bits. -/
theorem condTrue_chunk {u : State} {g : Group} {r : SlotRef} {any : Bool} {m : BitVec 512}
    (ht : (ffind u.teams r.team).map (fun t => t.ended) = some false) :
    condTrue u g (.chunk r (slotAt u r).gen any m) = maskTest any (slotAt u r).bits m := by
  obtain ⟨t, ht, he⟩ := Option.map_eq_some_iff.mp ht
  rw [condTrue, Slot.chunkTrue_self, ht, Option.all_some, he, Bool.or_false]

/-- A chunk-map condition is true once the slot has another generation (R124). -/
theorem condTrue_of_gen_ne {s : State} {g : Group} {r : SlotRef} {gen : BitVec 16} {any : Bool} {m : BitVec 512} (h : (slotAt s r).gen ≠ gen) :
    condTrue s g (.chunk r gen any m) = true := by
  rw [condTrue, Slot.chunkTrue, bne_iff_ne.mpr h, Bool.true_or, Bool.true_or]

/-! ### A wait begins -/

@[simp] theorem setSlotAt_groups (s : State) (r : SlotRef) (x : Slot) : (setSlotAt s r x).groups = s.groups := by
  unfold setSlotAt
  split <;> rfl

@[simp] theorem setSlotAt_settled (s : State) (r : SlotRef) (x : Slot) : (setSlotAt s r x).settled = s.settled := by
  unfold setSlotAt
  split <;> rfl

@[simp] theorem joinCond_groups (s : State) (cd : Cond) : (joinCond s cd).groups = s.groups := by
  cases cd with
  | counter cls n => rfl
  | chunk r gen any m =>
    show (joinSlot s r).groups = _
    unfold joinSlot
    split <;> simp

@[simp] theorem joinCond_settled (s : State) (cd : Cond) : (joinCond s cd).settled = s.settled := by
  cases cd with
  | counter cls n => rfl
  | chunk r gen any m =>
    show (joinSlot s r).settled = _
    unfold joinSlot
    split <;> simp

/-- A fragment after a change of it. -/
theorem State.frag_modFrag {s : State} {p n : Nat} {f : Frag} (u : Frag → Frag) (h : (s.group p).frag n = some f) :
    ((s.modGroup p (fun g => g.modFrag n u)).group p).frag n = some (u f) := by
  rw [State.group_modGroup _ (State.find_of_frag h), Group.frag_modFrag, h]
  rfl

/-! ### The effects -/

/-- What WAITC makes of its condition. -/
def waitOn (c : Iss) (cd : Cond) (s : State) : Eff :=
  if condTrue s (s.group c.place) cd then .go s
  else goGroup (joinCond s cd) c (fun g => g.modFrag c.slot (fun f => { f with wait := some (.cond cd) }))

/-- What YIELDC makes of its condition. -/
def yieldOn (h : Hd) (c : Iss) (cd : Cond) (s : State) : Eff :=
  .own ((joinCond s cd).modGroup c.place (fun g =>
    { ((g.travel c.slot (1 + c.st)).modFrag c.slot (fun f => { f.after (nowAt s c.place) c none with pc := c.pc })) with
      yw := some { cond := cd, slot := c.slot, pc := relTo c (h.d ++ h.c), from_ := c.pc } }))

theorem waitc_issuedBy (h : Hd) (x : WWait) (s : State) :
    IssuedBy (.waitc h x) s (fun c s => withCond x h.b.toNat c s (waitOn c)) := ⟨_, rfl, rfl⟩

theorem yieldc_issuedBy (h : Hd) (x : WWait) (s : State) :
    IssuedBy (.yieldc h x) s (fun c s => withCond x h.b.toNat c s (yieldOn h c)) := ⟨_, rfl, rfl⟩

section
variable {i : Instr} {s u : State} {c : Iss} {body : Iss → State → Eff} {cd : Cond} (hi : IssuedBy i s body) (hr : Ready i s c)
  (hg : u.groups = (begun i s).groups) (hs : u.settled = true)
include hi hr hg hs

/-- A wait whose condition holds goes on. -/
theorem waitOn_goes (hb : body c (begun i s) = waitOn c cd u) (hc : condTrue u (u.group c.place) cd = true) :
    ∃ t, exec i s = .next t ∧ wentTo c c.npc s t := by
  obtain ⟨x, hx, hmask, hsup, -⟩ := hr.issuer
  obtain ⟨b, hxb⟩ := Group.nearOf_frag hr.nearOf hx
  have hug : u.group c.place = (begun i s).group c.place := by simp [State.group, hg]
  obtain ⟨buf, g, e⟩ := completes_of_go hi hr (hb.trans (if_pos hc)) hs
  obtain ⟨clk, b', hf, hh, hp⟩ := group_completed (i := i) (s := s) (hug ▸ hxb) buf g
  refine ⟨_, e, ⟨_, hf, rfl, hmask.symm, hsup.symm⟩, ?_, ?_⟩
  · rw [hh, hug, Group.nearOf_h hr.nearOf]
  · rw [hp, hug, Group.nearOf_park hr.nearOf]

/-- A wait whose condition does not hold yet leaves its fragment at the next instruction, waiting. -/
theorem waitOn_waits (hb : body c (begun i s) = waitOn c cd u) (hc : condTrue u (u.group c.place) cd = false) :
    ∃ t a, exec i s = .next t ∧ t.fragOf c = some a ∧ a.pc = c.npc ∧ a.wait = some (.cond cd) := by
  obtain ⟨x, hx, -⟩ := hr.issuer
  obtain ⟨b, hxb⟩ := Group.nearOf_frag hr.nearOf hx
  have hj : (joinCond u cd).group c.place = (begun i s).group c.place := by simp [State.group, hg]
  rw [← hj] at hxb
  obtain ⟨buf, g, e⟩ := completes_of_go hi hr (hb.trans (if_neg (by simp [hc]))) (by simpa using hs)
  obtain ⟨clk, b', hf, -⟩ := group_completed (i := i) (s := s)
    (State.frag_modFrag (fun f => { f with wait := some (.cond cd) }) hxb) buf g
  exact ⟨_, _, e, hf, rfl, rfl⟩

/-- A yield stops its group, to go on at the continuation. -/
theorem yieldOn_stops {h : Hd} (hb : body c (begun i s) = yieldOn h c cd u) :
    ∃ t, exec i s = .next t ∧ (t.group c.place).yw = some { cond := cd, slot := c.slot, pc := relTo c (h.d ++ h.c), from_ := c.pc } := by
  obtain ⟨x, hx, -⟩ := hr.issuer
  obtain ⟨b, hxb⟩ := Group.nearOf_frag hr.nearOf hx
  have hj : (joinCond u cd).group c.place = (begun i s).group c.place := by simp [State.group, hg]
  rw [← hj] at hxb
  obtain ⟨t, e, ht⟩ := exec_of_own hi hr hb (by simpa using hs)
  refine ⟨t, e, ?_⟩
  have htg : t.group c.place = _ := (congrArg (fun m => fget m c.place Group.empty) ht).trans
    (State.group_modGroup _ (State.find_of_frag hxb))
  rw [htg]

end

/-- A WAITC or YIELDC that is ready has a KIND of its condition: a counter, all bits or any bit. -/
theorem wait_kind_ne {i : Instr} {h : Hd} {x : WWait} {s : State} {c : Iss} (hi : i = .waitc h x ∨ i = .yieldc h x) (hr : Ready i s c) :
    x.kind ≠ 3 := by
  intro hk
  have hform := hr.form
  rcases hi with rfl | rfl
  · simp [shapeIn, shape, shWaitc, shapeWait, draining, plainGuard, shape3, hk] at hform
  · simp [shapeIn, shape, shYieldc, shapeWait, draining, plainGuard, shape3, hk] at hform

/-- A KIND of a mask that asks not for all bits asks for any. -/
theorem kind_of_mask : ∀ k : BitVec 2, k ≠ 0 → k ≠ 1 → k ≠ 3 → k = 2 := by decide

/-! ### The traps -/

section
variable {i : Instr} {h : Hd} {x : WWait} {s : State} {c : Iss} {r : SlotRef} {k : Iss → Cond → State → Eff}
  (hi : IssuedBy i s (fun c s => withCond x h.b.toNat c s (k c))) (hr : Ready i s c) (hk : x.kind ≠ 0)
  (href : slotRef (begun i s) ((begun i s).group c.place).team (x.slot.toNat, x.cl, x.cpos.toNat) = some r)
  (hb : invBusy (begun i s) r = false) (hsup : c.sup = false) (hfull : c.act = c.full)
include hi hr hk href hb hsup hfull

theorem withCond_illegalForm (hm : (slotAt (begun i s) r).kind ≠ 2) (hh : handles s c 3 = true) :
    ∃ t, exec i s = .next t ∧ inHandler c s t 0x0003 0 c.act 0 c.pc false :=
  trap_inHandler (f := .plain 0x0003 c.act) hi hr (withCond_not_map hk href hb hm) hsup hfull rfl (if_pos hh)
    (show causeOf 0x0003 < 0x800 by decide)

theorem withCond_align (hm : (slotAt (begun i s) r).kind = 2)
    (ho : (((begun i s).group c.place).rs c.slot h.b.toNat).toNat % 64 ≠ 0) (hh : handles s c 10 = true) :
    ∃ t, exec i s = .next t ∧
      inHandler c s t 0x0012 (zx (((begun i s).group c.place).rs c.slot h.b.toNat)) c.act 0 c.pc false :=
  trap_inHandler (f := { FaultInfo.plain 0x0012 c.act with addr := zx (((begun i s).group c.place).rs c.slot h.b.toNat), kind := kRead })
    hi hr ((withCond_map hk href hb hm).trans (withMask_misaligned ho)) hsup hfull rfl (if_pos hh)
    (show causeOf 0x0012 < 0x800 by decide)

end

/-! ### YIELD_RESUME -/

section
variable {s : State} {place : Nat} {g : Group} {y : YWait} (hs : s.settled = true) (hg : ffind s.groups place = some g) (hy : g.yw = some y)
include hs hg hy

theorem yieldResume_stays (hc : condTrue s g y.cond = false) : exec (.yieldResume place) s = .next s := by
  show execYieldResume place s = _
  simp [execYieldResume, hg, hy, hc, event_settled hs]

/-- The group goes on at the continuation, its fragment with the same lanes. -/
theorem yieldResume_goes (hp : (s.ctx g.page).state = 2) (hpark : g.park = none) (hc : condTrue s g y.cond = true) :
    ∃ t, exec (.yieldResume place) s = .next t ∧ (t.group place).yw = none ∧
      ∀ f, g.frag y.slot = some f → ∃ a, (t.group place).frag y.slot = some a ∧ a.pc = y.pc ∧ a.mask = f.mask := by
  have he : exec (.yieldResume place) s = event (s.modGroup place (fun g =>
      { g.drainPoint with yw := none }.modFrag y.slot (fun f => { f with pc := y.pc }))) := by
    show execYieldResume place s = _
    simp [execYieldResume, hg, hy, hp, hpark, hc]
  have hgroup := State.group_of_find (State.find_modGroup (fun g =>
    { g.drainPoint with yw := none }.modFrag y.slot (fun f => { f with pc := y.pc })) hg)
  refine ⟨_, he.trans (event_settled (by simpa using hs)), ?_, fun f hf => ?_⟩
  · rw [hgroup]
    unfold Group.modFrag Group.setFrag
    split <;> rfl
  · rw [hgroup, Group.frag_modFrag]
    refine ⟨{ f with buf := none, pc := y.pc }, ?_, rfl, rfl⟩
    show Option.map _ (g.drainPoint.frag y.slot) = _
    rw [Group.frag_drainPoint, hf]
    rfl

end

/-- Settles O24: WAITC and YIELDC name a counter or, once the slot and the mask offset pass their checks, the mask's bits of a chunk map, and
each then makes of the condition what `waitOn` and `yieldOn` say. -/
theorem waitsHold : Obligations.WaitsHold := by
  unfold Obligations.WaitsHold
  intro s
  refine ⟨fun h x c hr hk => ?_, fun h x c hr hk => ?_, ?_, fun g r gen any m => condTrue_of_gen_ne, ?_⟩
  · have hb := withCond_counter (n := h.b.toNat) (c := c) (s := begun (.waitc h x) s) (k := waitOn c) hk
    have hset : (begun (.waitc h x) s).settled = true := by simpa using hr.1
    have hcond : condTrue (begun (.waitc h x) s) ((begun (.waitc h x) s).group c.place) (.counter x.cls.toNat x.thresh.toNat) =
        decide (fget (s.group c.place).cnt x.cls.toNat 0 ≤ x.thresh.toNat) := by rw [condTrue, Group.nearOf_cnt hr.nearOf]
    refine ⟨fun hle => ?_, fun hlt => ?_⟩
    · exact waitOn_goes (u := begun (.waitc h x) s) (waitc_issuedBy h x s) hr rfl hset hb (hcond.trans (decide_eq_true hle))
    · exact waitOn_waits (u := begun (.waitc h x) s) (waitc_issuedBy h x s) hr rfl hset hb
        (hcond.trans (decide_eq_false (Nat.not_le.mpr hlt)))
  · exact yieldOn_stops (u := begun (.yieldc h x) s) (yieldc_issuedBy h x s) hr rfl (by simpa using hr.1) (withCond_counter hk)
  · intro h x c r i hi hr hk b tid off sl href hinv
    have hteam : (b.group c.place).team = tid := Group.nearOf_team hr.nearOf
    rw [← hteam] at href
    obtain ⟨k, hiss⟩ : ∃ k : Iss → Cond → State → Eff, IssuedBy i s (fun c s => withCond x h.b.toNat c s (k c)) := by
      rcases hi with rfl | rfl
      · exact ⟨_, waitc_issuedBy h x s⟩
      · exact ⟨_, yieldc_issuedBy h x s⟩
    refine ⟨fun hm hsup hh hfull => withCond_illegalForm hiss hr hk href hinv hsup hfull hm hh,
      fun hm ho hsup hh hfull => withCond_align hiss hr hk href hinv hsup hfull hm ho hh, ?_⟩
    intro hm ho l u hl hset hug hslot hend m cd holds
    rw [← hteam] at hl
    have hread : ∀ k : Cond → State → Eff, withCond x h.b.toNat c b k = k cd u := fun k =>
      (withCond_map hk href hinv hm).trans (withMask_read ho hl)
    have hc : condTrue u (u.group c.place) cd = maskTest (x.kind == 2) sl.bits m := by
      have hc := condTrue_chunk (g := u.group c.place) (any := x.kind == 2) (m := m) hend
      rwa [hslot] at hc
    have hholds : maskTest (x.kind == 2) sl.bits m = true ↔ holds := by
      by_cases h1 : x.kind = 1
      · simp only [holds, h1, if_true]
        exact maskTest_all
      · have h2 : x.kind = 2 := kind_of_mask x.kind hk h1 (wait_kind_ne hi hr)
        simp only [holds, h2, beq_self_eq_true]
        exact maskTest_any
    refine ⟨?_, ?_, ?_⟩
    · rintro rfl hh
      exact waitOn_goes (waitc_issuedBy h x s) hr hug hset (hread _) (hc.trans (hholds.mpr hh))
    · rintro rfl hh
      exact waitOn_waits (waitc_issuedBy h x s) hr hug hset (hread _) (hc.trans (Bool.eq_false_iff.mpr (fun e => hh (hholds.mp e))))
    · rintro rfl
      obtain ⟨t, e, hyw⟩ := yieldOn_stops (yieldc_issuedBy h x s) hr hug hset (hread _)
      exact ⟨t, _, e, hyw, rfl, rfl, rfl, rfl⟩
  · intro place g y hs hg hy hp hpark
    exact ⟨yieldResume_goes hs hg hy hp hpark, yieldResume_stays hs hg hy⟩

end Sys2Proof.Machine
end

section
/-! CPY, CPY2D and CPYS (R254, R255, R257): what acceptance does to the issuing group, the operations and the slot that the command names (R17,
R20, R237). -/
namespace Sys2Proof.Machine

/-! ### Acceptance -/

section
variable {s : State} {c : Iss}

/-- A slot that a field names belongs to a team that is there. -/
theorem slotRef_team {tid : Nat} {x : Nat × Bool × Nat} {r : SlotRef} (h : slotRef s tid x = some r) :
    ∃ t, ffind s.teams r.team = some t := by
  unfold slotRef at h
  split at h
  · rename_i t ht
    split at h
    · rename_i hlt
      cases h
      cases hf : ffind s.teams t with
      | some y => exact ⟨y, rfl⟩
      | none => simp [State.team, fget, hf, Team.empty] at hlt
    · cases h
  · cases h

/-- A slot's contents after it is replaced. -/
theorem slotAt_setSlotAt {r : SlotRef} {t : Team} (h : ffind s.teams r.team = some t) (x : Slot) : slotAt (setSlotAt s r x) r = x := by
  simp [setSlotAt, h, slotAt, Team.slot]

/-- Each class that a command counts in goes up by one (R17). -/
theorem fget_counted (classes : List Nat) (hn : classes.Nodup) (m : FMap Nat) (n : Nat) :
    fget (classes.foldl (fun m k => fset m k 0 (fget m k 0 + 1)) m) n 0 = fget m n 0 + if classes.contains n then 1 else 0 := by
  induction classes generalizing m with
  | nil => rfl
  | cons k l ih =>
    obtain ⟨hk, hl⟩ := List.nodup_cons.mp hn
    rw [List.foldl_cons, ih hl]
    by_cases hnk : n = k
    · subst hnk
      simp [hk]
    · simp [fget_fset_ne m hnk, hnk]

/-- The registration that an accepted command makes: its slot's PEND goes up by one (R237). -/
def registerPend (s : State) : Option (SlotRef × BitVec 16) → State
  | some (r, _) => setSlotAt s r { slotAt s r with pend := (slotAt s r).pend + 1 }
  | none => s

/-- The operation that a command becomes. -/
def acceptedOp (s : State) (c : Iss) (classes : List Nat) (reg : Option (SlotRef × BitVec 16)) (flags : Flags) (k : OpKind) : Op :=
  let g := s.group c.place
  { id := s.serial, place := c.place, page := g.page, team := g.team, core := g.core, pc := c.pc, op := c.op, fmt := c.fmt, reg := reg,
    todo := classes, ripe := [], stop := none, flags := flags, kind := k }

/-- A group whose counters of some classes have gone up (R17). -/
def Group.counted (g : Group) (classes : List Nat) : Group :=
  { g with cnt := classes.foldl (fun m k => fset m k 0 (fget m k 0 + 1)) g.cnt }

variable {classes : List Nat} {reg : Option (SlotRef × BitVec 16)} {flags : Flags} {k : OpKind}

/-- The state of an acceptance but for the new operation. -/
def accepting (s : State) (c : Iss) (classes : List Nat) (reg : Option (SlotRef × BitVec 16)) : State :=
  (registerPend s.draw.2 reg).modGroup c.place (fun g => g.counted classes)

theorem acceptOp_eq : acceptOp s c classes reg flags k = (s.serial,
    { accepting s c classes reg with ops := (accepting s c classes reg).ops ++ [acceptedOp s c classes reg flags k] }) := by
  cases reg <;> rfl

@[simp] theorem registerPend_ops : (registerPend s reg).ops = s.ops := by
  unfold registerPend setSlotAt
  split
  · split <;> rfl
  · rfl

@[simp] theorem registerPend_groups : (registerPend s reg).groups = s.groups := by
  unfold registerPend
  split <;> simp

@[simp] theorem registerPend_settled : (registerPend s reg).settled = s.settled := by
  unfold registerPend
  split <;> simp

@[simp] theorem acceptOp_settled : (acceptOp s c classes reg flags k).2.settled = s.settled := by
  rw [acceptOp_eq]
  exact (State.settled_modGroup _ _ _).trans registerPend_settled

theorem acceptOp_ops : (acceptOp s c classes reg flags k).2.ops = s.ops ++ [acceptedOp s c classes reg flags k] := by
  rw [acceptOp_eq]
  simp [accepting, State.draw]

theorem acceptOp_group {g : Group} (hg : ffind s.groups c.place = some g) :
    (acceptOp s c classes reg flags k).2.group c.place = g.counted classes := by
  rw [acceptOp_eq]
  exact State.group_of_find (State.find_modGroup _ (by rw [registerPend_groups]; exact hg))

theorem acceptOp_slot {r : SlotRef} {gen : BitVec 16} {t : Team} (ht : ffind s.teams r.team = some t) :
    slotAt (acceptOp s c classes (some (r, gen)) flags k).2 r = { slotAt s r with pend := (slotAt s r).pend + 1 } := by
  rw [acceptOp_eq]
  exact (congrArg (fun t : Team => t.slot r.slot) (State.team_modGroup _ _ _ _)).trans
    (slotAt_setSlotAt (s := s.draw.2) (t := t) ht _)

end

/-! ### The commands -/

section
variable {s : State} {c : Iss} {rep : Bool} {x : Nat × Bool × Nat} {ok : Slot → Bool}

theorem registerWaits_of_freeSlot (h : freeSlot s c rep x) : registerWaits s c rep x = false := by
  unfold registerWaits
  cases rep with
  | false => rfl
  | true =>
    cases hr : slotRef s (s.group c.place).team x with
    | none => rfl
    | some r => exact h r rfl hr

/-- What a registration that does not fail is (R237). -/
theorem registerAt_some (h : (registerAt s c rep x ok).isSome = true) :
    (rep = false → (registerAt s c rep x ok).getD none = none) ∧
    ∀ r, rep = true → slotRef s (s.group c.place).team x = some r →
      (registerAt s c rep x ok).getD none = some (r, (slotAt s r).gen) := by
  unfold registerAt at h ⊢
  cases rep with
  | false => exact ⟨fun _ => rfl, fun _ h => by cases h⟩
  | true =>
    refine ⟨fun h => (by cases h), fun r _ hr => ?_⟩
    simp only [hr, Bool.not_true, Bool.false_eq_true, if_false] at h ⊢
    split at h
    · rename_i hok
      rw [if_pos hok]
      rfl
    · cases h

end

/-- The registration of a copy command (R237, R257). -/
def copyReg (s : State) (c : Iss) (x : WCpy) (a : CopyArgs) : Option (Option (SlotRef × BitVec 16)) :=
  registerAt s c x.rep (x.slot.toNat, x.cl, x.cpos.toNat) (fun sl => (sl.kind == 1 && x.cbit == 0) ||
    (sl.kind == 2 && decide (x.cbit.toNat + chunksOf (a.rows * a.rowBytes) ≤ sl.expect)))

/-- The copy that a command starts (R253 to R255). -/
def CopyArgs.start (a : CopyArgs) (x : WCpy) : CopyOp :=
  { src := a.src, srcLocal := a.srcLocal, dst := a.dst, dstLocal := a.dstLocal, rows := a.rows, rowBytes := a.rowBytes, spitch := a.spitch,
    dpitch := a.dpitch, zws := a.zws, bound := a.bound, scope := x.scope, rep := x.rep, cbit := x.cbit.toNat, finished := [], held := [],
    zoff := [0], late := [], rem := none }

/-- A copy command that fails no check of R257 fails no registration. -/
theorem copyFault_none_reg {t : Team} {a : CopyArgs} {reg : Bool} (h : copyFault t a reg = none) : reg = true := by
  cases reg with
  | true => rfl
  | false => simp [copyFault] at h

theorem copyEff_accepts {x : WCpy} {c : Iss} {s : State} {a : CopyArgs} (hf : freeSlot s c x.rep (x.slot.toNat, x.cl, x.cpos.toNat))
    (hc : copyFault (s.team (s.group c.place).team) a (copyReg s c x a).isSome = none) (hr : slotRoom s c [0, 1] = none) :
    copyEff x c s a = .go (acceptOp s c [0, 1] ((copyReg s c x a).getD none) 0 (.copy (a.start x))).2 := by
  unfold copyEff
  rw [registerWaits_of_freeSlot hf]
  unfold copyReg at hc
  simp only [Bool.false_eq_true, if_false, hc, acceptEff, hr]
  rfl

section
variable {i : Instr} {x : WCpy} {s : State} {c : Iss} {args : Iss → State → CopyArgs}
  (hi : IssuedBy i s (fun c s => copyEff x c s (args c s))) (hr : Ready i s c)
include hi hr

/-- A copy command that passes its checks and finds room is accepted in both copy classes, and registered. -/
theorem copy_accepted (hc : copyFault (s.team (s.group c.place).team) (args c (begun i s)) (copyReg (begun i s) c x (args c (begun i s))).isSome = none)
    (hf : freeSlot (begun i s) c x.rep (x.slot.toNat, x.cl, x.cpos.toNat)) (hroom : slotRoom (begun i s) c [0, 1] = none) :
    Accepts i s c [0, 1] (.copy ((args c (begun i s)).start x)) ∧ Registers i s c x.rep (x.slot.toNat, x.cl, x.cpos.toNat) := by
  have hteam : ((begun i s).group c.place).team = (s.group c.place).team := Group.nearOf_team hr.nearOf
  have hteams : (begun i s).team (s.group c.place).team = s.team (s.group c.place).team :=
    congrArg (fun m => fget m (s.group c.place).team Team.empty) hr.near.only.2.2.1
  have hdone := completes_of_go hi hr (copyEff_accepts hf (by rw [hteam, hteams]; exact hc) hroom) (by simpa using hr.1)
  obtain ⟨hno, hreg⟩ := registerAt_some (copyFault_none_reg hc)
  refine ⟨⟨_, _, hdone, acceptOp_ops, rfl, rfl, rfl, rfl, rfl, rfl, rfl, fun n => ?_⟩, ⟨_, _, hdone, acceptOp_ops, hno, fun r hrep href => ?_⟩⟩
  · rw [acceptOp_group hr.find_begun]
    exact (fget_counted [0, 1] (by decide) _ n).trans (by rw [Group.nearOf_cnt hr.nearOf])
  · obtain ⟨t, ht⟩ := slotRef_team href
    have he := hreg r hrep (hteam ▸ href)
    refine ⟨he, ?_⟩
    rw [show (copyReg (begun i s) c x (args c (begun i s))).getD none = _ from he, acceptOp_slot ht]

end

/-- The operands of CPY (R254). -/
def cpyArgs (h : Hd) (c : Iss) (s : State) : CopyArgs :=
  let g := s.group c.place
  { src := g.rs64 c.slot h.b.toNat, srcLocal := false, dst := copyDst h g c.slot, dstLocal := bit h.mod 1, rows := 1,
    rowBytes := (g.rs c.slot h.c.toNat).toNat, spitch := 0, dpitch := 0, zws := bit h.mod 0,
    bound := if bit h.mod 0 then (g.rs c.slot h.d.toNat).toNat else 0 }

/-- The operands of CPY2D (R255). -/
def cpy2dArgs (h : Hd) (c : Iss) (s : State) : CopyArgs :=
  let g := s.group c.place
  let q := fun (i : Nat) => (g.rs c.slot (h.c.toNat + i)).toNat
  { src := g.rs64 c.slot h.b.toNat, srcLocal := false, dst := copyDst h g c.slot, dstLocal := bit h.mod 1, rows := q 0, rowBytes := q 1,
    spitch := q 2, dpitch := q 3, zws := false, bound := 0 }

/-- The operands of CPYS (R254). -/
def cpysArgs (h : Hd) (c : Iss) (s : State) : CopyArgs :=
  let g := s.group c.place
  { src := zx (g.rs c.slot h.b.toNat), srcLocal := true, dst := g.rs64 c.slot h.a.toNat, dstLocal := false, rows := 1,
    rowBytes := (g.rs c.slot h.c.toNat).toNat, spitch := 0, dpitch := 0, zws := false, bound := 0 }

/-- Settles O39: each of the three commands is `copyEff` of its operands. -/
theorem copiesAccepted : Obligations.CopiesAccepted := by
  unfold Obligations.CopiesAccepted
  intro h x s c accepted g q
  have accepts : ∀ (i : Instr) (args : Iss → State → CopyArgs), IssuedBy i s (fun c s => copyEff x c s (args c s)) → accepted i (args c (begun i s)) :=
    fun i args hi hr hc hf hroom => copy_accepted hi hr hc hf hroom
  exact ⟨accepts (.cpy h x) (cpyArgs h) ⟨_, rfl, rfl⟩, accepts (.cpy2d h x) (cpy2dArgs h) ⟨_, rfl, rfl⟩,
    accepts (.cpys h x) (cpysArgs h) ⟨_, rfl, rfl⟩⟩

end Sys2Proof.Machine
end

section
/-! A page fault of an operation whose group has ended is posted as a record (R266, R323). The record goes to the context's queue, wherever that lies: a
queue of which the header is device memory and the slots are not has the step end in the model's fault for absent device memory. -/
namespace Sys2Proof.Machine.AbsentQueue

/-- A descriptor whose fault record queue has its header in the last 64 bytes of device memory (R217). -/
def desc : Desc := { Desc.zero with frqbase := 2 ^ 39 - 64, frqsize := 16 }

/-- The page fault of a matrix load in an unmapped page. -/
def fault : FaultInfo := { code := codeOf 7 cAbsent, mask := 0xFFFFFFFF, addr := 0x10000, kind := kEngRead, first := false, det := [] }

/-- The matrix load that it stopped. -/
def load : Op :=
  { id := 1, place := 0, page := 0, team := 0, core := 0, pc := 0, op := 0xCB, fmt := 0, reg := none, todo := [3], ripe := [],
    stop := some { faults := [fault], sent := false, tickets := [] }, flags := 0, kind := .matrix 0 (.mld 0 0x10000) }

/-- A running context at stage 2, in which a group has ended and its matrix load has not. -/
def state : State :=
  { State.reset with
    groups := [(0, Group.empty)], ops := [load], ctxs := [(0, { Ctx.reset with state := 2, d := desc })], sys := { Sys.reset with stage := 2 } }

/-- The step ends in the fault of an access to absent device memory. -/
def reachesAbsent : Host.Outcome State Fault Refusal → Bool
  | .fault .absentDeviceMemory => true
  | _ => false

theorem settled_state : state.settled = true := by decide +kernel
theorem nextStopped_state : nextStopped state 0 = some (load, { faults := [fault], sent := false, tickets := [] }) := by decide +kernel
theorem delivery_reachesAbsent : reachesAbsent (exec (.asyncFaultDelivery 0) state) = true := by decide +kernel

end Sys2Proof.Machine.AbsentQueue

namespace Sys2Proof.Machine

/-- Refutes O47: the record of an ended group's page fault is written to a queue whose slot 0 is the first byte beyond device memory. -/
theorem not_asynchronousFaultsReach : ¬ Obligations.AsynchronousFaultsReach := by
  unfold Obligations.AsynchronousFaultsReach
  intro h
  obtain ⟨faults, -⟩ := h
  obtain ⟨operations, -⟩ := faults AbsentQueue.state 0 Group.empty AbsentQueue.settled_state rfl
  obtain ⟨orphan, -⟩ := operations AbsentQueue.load _ AbsentQueue.fault AbsentQueue.nextStopped_state rfl rfl rfl rfl
  obtain ⟨records, -⟩ := orphan rfl
  obtain ⟨t, -, -, -, ht, -⟩ := records rfl (Or.inl rfl)
  have habsent := AbsentQueue.delivery_reachesAbsent
  rw [ht] at habsent
  cases habsent

end Sys2Proof.Machine
end

section
/-! A record that its target's queue has no room for is spilled (R353, R426), and the spill is an access that the map unit counts: a page that it
makes hot posts a hint record (R226), which can reach absent device memory as any record can. -/
namespace Sys2Proof.Machine.HotSpill

/-- The descriptor of `AbsentQueue`, with the hot-page tracker on: the first access makes a page hot (R226). -/
def desc : Desc := { AbsentQueue.desc with hoten := true, hotthresh := 1 }

/-- A node that takes records of type 0 and emits to `succ`, with room for one record on each die. -/
def node (succ : List Nat) : Node :=
  { entry := 0, kind := 0, pod := false, itype := 0, energy := 0, recur := 0, reserve := 0, cluh := 0, cluw := 0, slots := 0, tiles := 0,
    loc := 0, roles := [], qcap := 1, succ := succ }

/-- The record that fills node 1's queue on die 0. -/
def queued : QRec :=
  { rid := 1, node := 1, die := 0, data := [0, 0, 0, 0], depth := 0, granted := true, spilled := false, flush := false, empty := none,
    place := 1, order := 1 }

/-- A running launch of two nodes, the first of which emits to the second; it may spill one page at 0x10000. -/
def launch : Launch :=
  { Launch.blank 1 0 1 0 { graph := 0, recs := 0, nrec := 0, pod := false, spill := 1, lseed := 0, spillbase := 0x10000, cpl := 0, tag := 0 } with
    g := { root := 0, types := [16], nodes := [{ node [1] with recur := 8 }, { node [] with recur := 8 }] }, phase := 1, q := [queued] }

/-- One lane of node 0's team. -/
def group : Group :=
  { Group.empty with
    slot0 := some { mask := 1, pc := 0, fmt := 0, rsp := 0, sup := false, last := 0, chl := 0, ready := 0, buf := none, only := none, wait := none,
                    since := none, stalled := none },
    allot := 64, ended := false }

/-- The launch's context runs at stage 2, and the page of its spill area is a cached page of host memory. -/
def state : State :=
  { State.reset with
    groups := [(0, group)], teams := [(0, { Team.empty with lid := 1, ngroup := 1, ended := false })], launches := [launch],
    ctxs := [(0, { Ctx.reset with state := 2, d := desc })], sys := { Sys.reset with stage := 2 },
    tlb := [{ asid := 0, base := 1, units := 1, leaf := 0x001000000000000F }], serial := 2 }

/-- EMIT of v4 to v7 to the first successor. -/
def hd : Hd := { b := 4, a := 0, st := 0, mod := 0, hold := 0, guard := 7, d := 0, c := 0 }

/-- Its successor's position and record type. -/
def fields : WEmit := { succ := 0, rtype := 0 }

/-- What the EMIT knows of its issue. -/
def issuing : Iss :=
  { place := 0, slot := 0, pc := 0, npc := 12, op := 0xE0, st := 0, fmt := 0, mask := 1, full := 1, act := 1, sup := false }

/-- Its one record. -/
def records : List (Nat × Nat × Nat × List Word × Nat) := [(0, 0, 1, [0, 0, 0, 0], 0)]

theorem ready_emit : Ready (.emit hd fields) state issuing := ⟨by decide +kernel, by decide +kernel, by decide +kernel⟩

theorem emit_reachesAbsent : AbsentQueue.reachesAbsent (exec (.emit hd fields) state) = true := by decide +kernel

theorem funded_records : Funded state launch (records.map (fun r => r.2)) := by
  have hown : ∀ r ∈ records.map (fun r => r.2), r.1 = state.pkg := by decide
  exact fun r hr haway => absurd (hown r hr) haway

theorem record_of_lane : ∀ r ∈ records,
    emitTarget launch 0 0 0 = some r.2.2.1 ∧
    r.2.2.2.1 = (List.range 4).map (fun j => ((begun (.emit hd fields) state).group 0).rv 0 (4 + j) r.1) := by decide +kernel

end Sys2Proof.Machine.HotSpill

namespace Sys2Proof.Machine

section
open HotSpill

/-- Refutes O49: the one record of an EMIT is legal and its node's package is this one, but it is spilled to a page that becomes hot. -/
theorem not_recordsEmitted : ¬ Obligations.RecordsEmitted := by
  unfold Obligations.RecordsEmitted
  intro h
  obtain ⟨emits, -⟩ := h
  obtain ⟨legal, -⟩ := emits (.emit hd fields) hd fields state (begun (.emit hd fields) state) issuing launch records rfl rfl ready_emit
    (Or.inl ⟨rfl, rfl, rfl, record_of_lane⟩) (by decide)
  obtain ⟨funded, -⟩ := legal (by decide)
  obtain ⟨shallow, -⟩ := funded funded_records (fun haway => absurd rfl haway)
  obtain ⟨s2, l', ⟨buf, g, hnext⟩, -⟩ := shallow rfl
  have habsent := emit_reachesAbsent
  rw [hnext] at habsent
  cases habsent

end

end Sys2Proof.Machine
end

section
/-! What the map unit's own work leaves alone: stash lines that answer, records that are posted, translations that are counted and control-stack
entries that are read back change neither the state of a context (R414) nor the prefetches (R270). -/
namespace Sys2Proof.Machine

/-! ### Steps that leave contexts and prefetches alone -/

/-- The contexts and the prefetches are as before. -/
structure State.Still (s t : State) : Prop where
  ctxs : t.ctxs = s.ctxs
  pfx : t.pfx = s.pfx

/-- Every context is in the state in which it was, and the prefetches are as before. -/
structure State.Calm (s t : State) : Prop where
  state : ∀ page, (t.ctx page).state = (s.ctx page).state
  pfx : t.pfx = s.pfx

theorem State.Still.rfl {s : State} : s.Still s := ⟨Eq.refl _, Eq.refl _⟩

theorem State.Still.trans {s t u : State} (h : s.Still t) (k : t.Still u) : s.Still u := ⟨k.ctxs.trans h.ctxs, k.pfx.trans h.pfx⟩

theorem State.Calm.rfl {s : State} : s.Calm s := ⟨fun _ => Eq.refl _, Eq.refl _⟩

theorem State.Calm.trans {s t u : State} (h : s.Calm t) (k : t.Calm u) : s.Calm u :=
  ⟨fun page => (k.state page).trans (h.state page), k.pfx.trans h.pfx⟩

theorem State.Still.calm {s t : State} (h : s.Still t) : s.Calm t := ⟨fun page => by unfold State.ctx; rw [h.ctxs], h.pfx⟩

/-- Another context is as before. -/
theorem State.ctx_setCtx_ne (s : State) {p q : Nat} (c : Ctx) (h : q ≠ p) : (s.setCtx p c).ctx q = s.ctx q := by
  unfold State.ctx fget
  rw [State.setCtx_ctxs, ffind_fput_ne _ _ h]

theorem State.calm_setCtx {s : State} {p : Nat} {c : Ctx} (h : c.state = (s.ctx p).state) : s.Calm (s.setCtx p c) := by
  refine ⟨fun q => ?_, rfl⟩
  by_cases hq : q = p
  · subst hq
    rw [State.ctx_setCtx, h]
  · rw [State.ctx_setCtx_ne s c hq]

section
variable {α : Type} {f : State → α → State}

theorem State.still_foldl (hf : ∀ (t : State) x, t.Still (f t x)) (l : List α) (s : State) : s.Still (l.foldl f s) :=
  List.foldlRecOn l f State.Still.rfl (fun t ht x _ => ht.trans (hf t x))

theorem State.calm_foldl (hf : ∀ (t : State) x, t.Calm (f t x)) (l : List α) (s : State) : s.Calm (l.foldl f s) :=
  List.foldlRecOn l f State.Calm.rfl (fun t ht x _ => ht.trans (hf t x))

/-- Steps that each answer whether the next may go on. -/
theorem State.calm_foldl_while {f : State → α → Bool × State} (hf : ∀ (t : State) x, t.Calm (f t x).2) (l : List α) (a : Bool × State) :
    a.2.Calm (l.foldl (fun a x => if a.1 then f a.2 x else a) a).2 := by
  refine List.foldlRecOn (motive := fun b : Bool × State => a.2.Calm b.2) l _ State.Calm.rfl (fun b hb x _ => ?_)
  split
  · exact hb.trans (hf b.2 x)
  · exact hb

end

/-! ### Stash lines and memory -/

theorem still_setBytes (s : State) (k : Nat) (l : List Byte) : s.Still (s.setBytes k l) := ⟨by simp, by simp⟩

theorem still_mergeDirty (s : State) (lkey gkey : Nat) (m : BitVec 256) : s.Still (mergeDirty s lkey gkey m) := by
  refine State.still_foldl (fun t i => ?_) _ s
  split
  · exact ⟨rfl, rfl⟩
  · exact State.Still.rfl

theorem still_setLineOf (s : State) (tid win ln : Nat) (l : Option Line) : s.Still (setLineOf s tid win ln l) := by
  unfold setLineOf
  split
  · exact State.Still.rfl
  · split
    · exact State.Still.rfl
    · exact ⟨rfl, rfl⟩

theorem still_yieldLine (s : State) (h : Nat × Nat × Nat) : s.Still (yieldLine s h) := by
  unfold yieldLine
  split
  · exact State.Still.rfl
  · split
    · exact State.Still.rfl
    · refine State.Still.trans ?_ (still_setLineOf _ _ _ _ _)
      split
      · exact still_mergeDirty _ _ _ _
      · exact State.Still.rfl

theorem still_sysPut (s : State) (key : Nat) (l : List Byte) : s.Still (s.sysPut key l) := by
  unfold State.sysPut
  refine State.Still.trans ?_ (still_setBytes _ _ _)
  split
  · exact State.Still.rfl
  · exact State.still_foldl (fun t ln => State.still_foldl still_yieldLine _ t) _ s

theorem still_shareLine (s : State) (h : Nat × Nat × Nat) : s.Still (shareLine s h) := by
  unfold shareLine
  split
  · exact State.Still.rfl
  · split
    · exact State.Still.rfl
    · split
      · exact State.Still.rfl
      · exact (still_mergeDirty _ _ _ _).trans (still_setLineOf _ _ _ _ _)

theorem still_sysShare (s : State) (key n : Nat) : s.Still (s.sysShare key n) := State.still_foldl still_shareLine _ s

theorem still_reviveDead (s : State) (d : Desc) (va : Nat) (e : DWord) (base units : Nat) : s.Still (reviveDead s d va e base units) := by
  unfold reviveDead
  split
  · exact State.Still.rfl
  · split
    · exact ⟨rfl, rfl⟩
    · refine State.Still.trans (t := clearDeadTlb (s.zeroRange (leafKey e 0) (leafKey e 0 + units * 65536)) d base e) ⟨rfl, rfl⟩ ?_
      dsimp only
      split
      · split
        · exact still_sysPut _ _ _
        · exact State.Still.rfl
      · exact State.Still.rfl

theorem still_hotWindow (s : State) : s.Still (hotWindow s) := by
  unfold hotWindow
  dsimp only
  split <;> exact ⟨rfl, rfl⟩

theorem still_noteAccess (s : State) (d : Desc) (va : Nat) (e : DWord) (base units : Nat) (write : Bool) :
    s.Still (noteAccess s d va e base units write).1 := by
  have hkeep : s.Still (s.keepTlb d.asid (leafNow s d va e) base units) := ⟨by simp, by simp⟩
  have hrevive : ∀ t : State, t.Still (if write then reviveDead t d va e base units else t) := fun t => by
    split
    · exact still_reviveDead _ _ _ _ _ _
    · exact State.Still.rfl
  have hmove : ∀ t : State, t.Still (if write && pteLoc e != 1 then noteMove t d.asid base va else t) := fun t => by
    split <;> exact ⟨rfl, rfl⟩
  have h := (hkeep.trans (hrevive _)).trans (hmove _)
  unfold noteAccess
  dsimp only
  split
  · exact (h.trans (still_hotWindow _)).trans ⟨rfl, rfl⟩
  · exact h

/-! ### Records -/

theorem calm_writeRec (s : State) (page : Nat) (r : FRec) : s.Calm (writeRec s page r) := by
  have h := (still_sysPut s ((s.ctx page).d.frqbase.toNat + 64 + 64 * ((s.ctx page).wr.toNat % max (s.ctx page).d.frqsize 1))
    (frecBytes s (s.ctx page).d r)).trans (still_sysPut _ (s.ctx page).d.frqbase.toNat (leBytes 4 ((s.ctx page).wr + 1).toNat))
  exact h.calm.trans (State.calm_setCtx (h.calm.state page).symm)

theorem still_frqLook (s : State) (page : Nat) : s.Still (frqLook s page) := still_sysShare _ _ _

theorem calm_postRec (s : State) (page : Nat) (r : FRec) : s.Calm (postRec s page r).2 := by
  have hlook := (still_frqLook s page).calm
  unfold postRec
  dsimp only
  split
  · refine hlook.trans (State.calm_setCtx ?_)
    exact (hlook.state page).symm
  · refine State.Calm.trans (State.calm_setCtx ?_) (calm_writeRec _ _ _)
    rfl

theorem still_bumpHeader (s : State) (page off : Nat) : s.Still (bumpHeader s page off) := still_sysPut _ _ _

theorem calm_postHeld (s : State) (page : Nat) : s.Calm (postHeld s page) := by
  unfold postHeld
  split
  · exact State.Calm.rfl
  · split
    · exact (still_frqLook _ _).calm
    · refine State.Calm.trans (State.calm_setCtx ?_) (calm_writeRec _ _ _)
      rfl

theorem calm_postHint (s : State) (page : Nat) (r : FRec) : s.Calm (postHint s page r) := by
  have h : s.Calm ((s.ctx page).heldRecs.foldl (fun s _ => postHeld s page) s) := State.calm_foldl (fun t _ => calm_postHeld t page) _ s
  unfold postHint
  dsimp only
  split
  · exact h.trans (still_bumpHeader _ _ _).calm
  · exact h.trans (calm_postRec _ _ _)

theorem calm_postWaiting (s : State) (page : Nat) (r : FRec) (fill : Bool) (place op : Option Nat) (line : Option (Nat × Nat × Nat)) :
    s.Calm (postWaiting s page r fill place op line).2 := by
  unfold postWaiting
  cases fill with
  | true => exact State.Calm.trans (t := s.draw.2) ⟨fun _ => rfl, rfl⟩ (State.calm_setCtx rfl)
  | false =>
    exact (calm_postRec s page r).trans (State.Calm.trans (t := (postRec s page r).2.draw.2) ⟨fun _ => rfl, rfl⟩ (State.calm_setCtx rfl))

theorem calm_doom (s : State) (page : Nat) (r : FRec) : s.Calm (doom s page r) := by
  unfold doom
  dsimp only
  split
  · exact State.Calm.rfl
  · exact State.calm_setCtx rfl

theorem still_sample (s : State) (ev src : Nat) (v : Word) : s.Still (sample s ev src v) := by
  unfold sample
  split <;> exact ⟨rfl, rfl⟩

theorem still_sampleHbm (s : State) (e : DWord) (pa : Nat) : s.Still (sampleHbm s e pa) := by
  unfold sampleHbm sampleFree
  dsimp only
  split
  · split
    · split
      · exact State.Still.trans (t := { s with fresh := s.fresh + 1 + 1 }) ⟨rfl, rfl⟩ (still_sample _ _ _ _)
      · exact ⟨rfl, rfl⟩
    · exact ⟨rfl, rfl⟩
  · exact State.Still.rfl

/-! ### Accesses that the map unit counts -/

theorem calm_noteAcc (s : State) (d : Desc) (va : Nat) (e : DWord) (base units : Nat) (write : Bool) :
    s.Calm (noteAcc s d va e base units write) := by
  have hsample : s.Still (if write || deadNow s d va e then s else sampleHbm s e (ptePa e + (va - base * 65536))) := by
    split
    · exact State.Still.rfl
    · exact still_sampleHbm _ _ _
  unfold noteAcc
  generalize (if write || deadNow s d va e then s else sampleHbm s e (ptePa e + (va - base * 65536))) = t at hsample
  have h := (hsample.trans (still_noteAccess t d va e base units write)).calm
  dsimp only
  split
  · exact h
  · split
    · exact h
    · split
      · exact h.trans (still_bumpHeader _ _ _).calm
      · exact h.trans (calm_postHint _ _ _)

/-- A write-back that is done leaves the contexts' states alone. -/
theorem calm_tryWriteBack {s t : State} {tid win ln : Nat} (h : tryWriteBack s tid win ln = .done t) : s.Calm t := by
  unfold tryWriteBack at h
  split at h
  · cases h; exact State.Calm.rfl
  · split at h
    · cases h; exact State.Calm.rfl
    · split at h
      · cases h; exact State.Calm.rfl
      · split at h
        · cases h; exact State.Calm.rfl
        · dsimp only at h
          split at h <;> cases h
          exact (calm_noteAcc _ _ _ _ _ _ _).trans ((still_mergeDirty _ _ _ _).trans (still_setLineOf _ _ _ _ _)).calm

theorem calm_writeBack (s : State) (tid win ln : Nat) : s.Calm (writeBack s tid win ln).2 := by
  unfold writeBack
  split
  case h_1 t ht => exact calm_tryWriteBack ht
  case h_2 => exact calm_doom _ _ _
  case h_3 => exact ⟨fun _ => rfl, rfl⟩
  case h_4 =>
    dsimp only
    split
    · exact State.Calm.rfl
    · exact calm_postWaiting _ _ _ _ _ _ _

theorem calm_remoteLine (s : State) (write : Bool) (tid win ln : Nat) : s.Calm (remoteLine s write tid win ln).2 := by
  have hback := calm_writeBack s tid win ln
  unfold remoteLine
  split
  · exact State.Calm.rfl
  · split
    · dsimp only
      split
      · exact hback
      · exact hback.trans (still_setLineOf _ _ _ _ _).calm
    · dsimp only
      split
      · exact (still_setLineOf _ _ _ _ _).calm
      · exact State.Calm.rfl

theorem calm_snoop (s : State) (gkey : Nat) (write : Bool) (skip : Option (Nat × Nat × Nat)) : s.Calm (snoop s gkey write skip).2 :=
  State.calm_foldl_while (fun t (h : Nat × Nat × Nat) => calm_remoteLine t write h.1 h.2.1 h.2.2) _ (true, s)

theorem calm_snoopRange (s : State) (key n : Nat) (write : Bool) : s.Calm (snoopRange s key n write).2 := by
  unfold snoopRange
  split
  · exact State.Calm.rfl
  · exact State.calm_foldl_while (fun t ln => calm_snoop t (256 * ln) write none) _ (true, s)

theorem calm_walkSnoop (s : State) (d : Desc) (va : Nat) (need : Need) : s.Calm (walkSnoop s d va need).2 := by
  unfold walkSnoop
  split
  · exact State.Calm.rfl
  · exact State.calm_foldl_while (fun t k => calm_snoop t k false none) _ (true, s)

theorem calm_reviveSnoop (s : State) (d : Desc) (va : Nat) (e : DWord) (write : Bool) : s.Calm (reviveSnoop s d va e write).2 := by
  unfold reviveSnoop
  split
  · exact State.Calm.rfl
  · split
    · exact calm_snoop _ _ _ _
    · exact State.Calm.rfl

theorem still_toPeer (s : State) (e : DWord) (k n : Nat) (atomic : Bool) (data : Option (List Byte)) : s.Still (toPeer s e k n atomic data) := by
  unfold toPeer
  split <;> exact ⟨rfl, rfl⟩

theorem calm_invalidate (s : State) (page : Nat) (range : Option (Nat × Nat)) : s.Calm (invalidate s page range).2 := by
  have hdrop : ∀ (t : State) a r, t.Calm (t.dropTlb a r) := fun t a r => ⟨fun _ => rfl, rfl⟩
  unfold invalidate
  refine State.Calm.trans ?_ (hdrop _ _ _)
  refine List.foldlRecOn (motive := fun b : Bool × State => s.Calm b.2) _ _ (hdrop _ _ _) (fun b hb x _ => ?_)
  exact hb.trans (calm_remoteLine _ _ _ _ _)

/-! ### The control stack -/

theorem calm_csSnoop (s : State) (place i : Nat) (write : Bool) : s.Calm (csSnoop s place i write).2 := by
  unfold csSnoop
  dsimp only
  split
  · exact State.Calm.rfl
  · have hwalk := calm_walkSnoop s (s.ctx (s.group place).page).d (csAddr (s.ctx (s.group place).page).d (s.group place) i).toNat .w
    split
    next heq => rw [heq] at hwalk; exact hwalk
    next t heq =>
      rw [heq] at hwalk
      split
      next e _ _ _ =>
        have hrevive := calm_reviveSnoop t (s.ctx (s.group place).page).d (csAddr (s.ctx (s.group place).page).d (s.group place) i).toNat e write
        split
        next heq => rw [heq] at hrevive; exact hwalk.trans hrevive
        next heq => rw [heq] at hrevive; exact (hwalk.trans hrevive).trans (calm_snoopRange _ _ _ _)
      · exact hwalk

theorem calm_csNote (p : CsPlace) (s : State) (data : Option (List Byte)) : s.Calm (p.note s data) := by
  have h := calm_noteAcc s p.d p.va p.leaf p.base p.units data.isSome
  unfold CsPlace.note
  dsimp only
  split
  · exact h
  · exact h.trans (still_toPeer _ _ _ _ _ _).calm

theorem calm_csReadAt {s t : State} {place i k : Nat} {m : Mask} {e : Entry} (h : csReadAt s place i m = .ok (k, e, t)) : s.Calm t := by
  have hsnoop := calm_csSnoop s place i false
  unfold csReadAt at h
  split at h
  · cases h
  · rename_i u heq
    rw [heq] at hsnoop
    split at h
    · cases h
    · split at h
      · cases h
        exact hsnoop.trans (calm_csNote _ _ _)
      · cases h

theorem calm_csTake {s t : State} {place i : Nat} {m : Mask} {e : Entry} (h : csTake s place i m = .ok (e, t)) : s.Calm t := by
  unfold csTake at h
  cases hread : csReadAt s place i m with
  | error x => rw [hread] at h; cases h
  | ok x =>
    rw [hread] at h
    cases h
    exact (calm_csReadAt hread).trans ⟨fun _ => rfl, rfl⟩

theorem calm_csRefill {place n : Nat} {m : Mask} {s t : State} (h : csRefill place m n s = .ok t) : s.Calm t := by
  induction n generalizing s with
  | zero => cases h; exact State.Calm.rfl
  | succ n ih =>
    unfold csRefill at h
    dsimp only at h
    split at h
    · cases h; exact State.Calm.rfl
    · split at h
      · cases h
      · rename_i heq
        exact (calm_csTake heq).trans (State.Calm.trans (State.Still.calm ⟨by simp, by simp⟩) (ih h))

theorem calm_refillChip (s : State) (place : Nat) : s.Calm (refillChip s place) := by
  unfold refillChip
  split
  · rename_i heq
    exact calm_csRefill heq
  · exact State.Calm.rfl

end Sys2Proof.Machine
end

section
/-! A context's life on its page and its launch queue (R31 to R34, R414 to R416): what LOAD reads, what ends a context, what a save and a resume leave,
and what a consumed record does. -/
namespace Sys2Proof.Machine

/-! ### Settled states -/

/-- An entry that is found is in the map. -/
theorem mem_of_ffind {β : Type} {m : FMap β} {k : Nat} {v : β} (h : ffind m k = some v) : (k, v) ∈ m := by
  induction m with
  | nil => cases h
  | cons x m ih =>
    obtain ⟨i, u⟩ := x
    simp only [ffind] at h
    split at h
    · rename_i hi
      cases h
      rw [beq_iff_eq] at hi
      subst hi
      exact List.mem_cons_self
    · exact List.mem_cons_of_mem _ (ih h)

/-- A map after a put holds the entry put, and otherwise what it held. -/
theorem of_mem_fput {β : Type} {m : FMap β} {k : Nat} {v : β} {x : Nat × β} (h : x ∈ fput m k v) : x = (k, v) ∨ x ∈ m := by
  induction m with
  | nil => exact Or.inl (List.mem_singleton.mp h)
  | cons y m ih =>
    obtain ⟨i, u⟩ := y
    simp only [fput] at h
    split at h
    · exact List.mem_cons.mp h
    · split at h
      · exact (List.mem_cons.mp h).imp_right (List.mem_cons_of_mem _)
      · rcases List.mem_cons.mp h with h | h
        · exact Or.inr (h ▸ List.mem_cons_self)
        · exact (ih h).imp_right (List.mem_cons_of_mem _)

section
variable {s : State} (hs : s.settled = true)
include hs

theorem State.absent_of_settled : s.absent = false := by
  simpa using (Bool.and_eq_true_iff.mp hs).1

theorem State.doom_of_mem {x : Nat × Ctx} (hx : x ∈ s.ctxs) : x.2.doom = none := by
  simpa using List.all_eq_true.mp (Bool.and_eq_true_iff.mp hs).2 x hx

/-- No termination of a context is under way in a settled state. -/
theorem State.doom_ctx (page : Nat) : (s.ctx page).doom = none := by
  unfold State.ctx fget
  cases h : ffind s.ctxs page with
  | none => rfl
  | some c => exact State.doom_of_mem hs (mem_of_ffind h)

theorem State.settled_setCtx {page : Nat} {c : Ctx} (hc : c.doom = none) : (s.setCtx page c).settled = true := by
  refine Bool.and_eq_true_iff.mpr ⟨?_, List.all_eq_true.mpr (fun x hx => ?_)⟩
  · simpa using State.absent_of_settled hs
  · rcases of_mem_fput hx with rfl | hx
    · simp [hc]
    · simp [State.doom_of_mem hs hx]

end

/-! ### What LOAD reads -/

@[simp] theorem wakeUp_ctxs (s : State) : (wakeUp s).ctxs = s.ctxs := by
  unfold wakeUp
  split <;> rfl

@[simp] theorem wakeUp_settled (s : State) : (wakeUp s).settled = s.settled := by
  unfold wakeUp
  split <;> rfl

@[simp] theorem wakeUp_ctx (s : State) (page : Nat) : (wakeUp s).ctx page = s.ctx page := by
  unfold State.ctx
  rw [wakeUp_ctxs]

@[simp] theorem wakeUp_gone (s : State) (k : Nat) : (wakeUp s).gone k = s.gone k := by
  unfold wakeUp
  split <;> rfl

@[simp] theorem viewBytes_wakeUp (s : State) (k n : Nat) : viewBytes (wakeUp s) k n = viewBytes s k n := by
  unfold wakeUp
  split <;> rfl

/-- Dirty bytes put over a line that the stacks in service hold reach no absent device memory. -/
theorem mergeDirty_absent {s : State} {lkey gkey : Nat} (m : BitVec 256) (h : ∀ i < 256, s.gone (gkey + i) = false) :
    (mergeDirty s lkey gkey m).absent = s.absent := by
  refine (List.foldlRecOn (motive := fun t : State => t.absent = s.absent ∧ t.sys = s.sys) (List.range 256) _ ⟨rfl, rfl⟩
    (fun t ht i hi => ?_)).1
  obtain ⟨habsent, hsys⟩ := ht
  have hgone : t.gone (gkey + i) = false := by
    unfold State.gone
    rw [hsys]
    exact h i (List.mem_range.mp hi)
  split
  · exact ⟨by simp [State.setByte, habsent, hgone], hsys⟩
  · exact ⟨habsent, hsys⟩

/-- A line of which the first and the last byte are there is there whole: what is absent is one range, and longer than a line. -/
theorem gone_between {s : State} {k : Nat} (hlow : s.gone k = false) (hhigh : s.gone (k + 255) = false) : ∀ i < 256, s.gone (k + i) = false := by
  intro i hi
  have hlimit : (if s.sys.stage < 2 then 2 ^ 36 else 2 ^ 39) ≤ 2 ^ 39 := by split <;> norm_num
  simp only [State.gone, Bool.and_eq_false_iff, decide_eq_false_iff_not] at hlow hhigh ⊢
  generalize (if s.sys.stage < 2 then 2 ^ 36 else 2 ^ 39) = limit at hlimit hlow hhigh ⊢
  omega

theorem setLineOf_absent (s : State) (tid win ln : Nat) (l : Option Line) : (setLineOf s tid win ln l).absent = s.absent := by
  unfold setLineOf
  split
  · rfl
  · split <;> rfl

theorem shareLine_absent (s : State) (h : Nat × Nat × Nat) : (shareLine s h).absent = s.absent := by
  unfold shareLine
  split
  · rfl
  · split
    · rfl
    · split
      · rfl
      · rename_i hc
        simp only [Bool.or_eq_true, not_or, Bool.not_eq_true] at hc
        obtain ⟨⟨-, hlow⟩, hhigh⟩ := hc
        rw [setLineOf_absent, mergeDirty_absent _ (gone_between hlow hhigh)]

theorem sysShare_settled (s : State) (key n : Nat) : (s.sysShare key n).settled = s.settled :=
  State.settled_congr (still_sysShare s key n).ctxs
    (List.foldlRecOn (motive := fun t : State => t.absent = s.absent) (ownedIn s key n) shareLine rfl
      (fun t ht h _ => (shareLine_absent t h).trans ht))

theorem still_loadReads (s : State) (page : Nat) (d : Desc) : s.Still (loadReads s page d) := by
  have h := (still_sysShare s (s.ctx page).descAddr.toNat 256).trans (still_sysShare _ d.frqbase.toNat 8)
  unfold loadReads
  dsimp only
  split
  · exact h
  · exact h.trans (still_sysShare _ _ _)

theorem loadReads_settled (s : State) (page : Nat) (d : Desc) : (loadReads s page d).settled = s.settled := by
  unfold loadReads
  dsimp only
  split <;> simp only [sysShare_settled]

/-! ### LOAD (R414) -/

/-- A page that LOAD refuses. -/
theorem load_refused {s u : State} {page r : Nat} (hu : u.settled = true) (h : doLoad s page = refuse u page r) :
    ∃ t, exec (.load page) s = .next t ∧ (t.ctx page).state = 5 ∧ (t.ctx page).reason = BitVec.ofNat 16 r := by
  refine ⟨refuse u page r, ?_, ?_, ?_⟩
  · show event (doLoad s page) = _
    rw [h]
    exact event_settled (State.settled_setCtx hu (State.doom_ctx hu page))
  · simp [refuse]
  · simp [refuse]

/-- LOAD is honoured: from stage 1, in STATE 0 or 5. -/
def honoursLoad (s : State) (page : Nat) : Prop :=
  (decide (4096 ≤ page) || decide (s.sys.stage = 0) || !((s.ctx page).state == 0 || (s.ctx page).state == 5)) = false

theorem honoursLoad_of {s : State} {page : Nat} (hpage : page < 4096) (hstage : s.sys.stage ≠ 0)
    (hstate : (s.ctx page).state = 0 ∨ (s.ctx page).state = 5) : honoursLoad s page := by
  rcases hstate with h | h <;> simp [honoursLoad, hpage, hstage, h]

section
variable {s : State} {page : Nat} (hs : s.settled = true) (hload : honoursLoad s page)
include hs hload

theorem load_unaligned (ha : bits (s.ctx page).descAddr 0 8 ≠ 0) :
    ∃ t, exec (.load page) s = .next t ∧ (t.ctx page).state = 5 ∧ (t.ctx page).reason = 0x100 := by
  refine load_refused (u := wakeUp s) (by simpa using hs) ?_
  unfold doLoad
  dsimp only
  rw [hload, if_neg Bool.false_ne_true, if_pos (by simpa using ha)]

variable (ha : bits (s.ctx page).descAddr 0 8 = 0) (hdesc : s.gone (s.ctx page).descAddr.toNat = false)
include ha hdesc

theorem load_fails {r : Nat} (hr : minBy id (descFails (wakeUp s) page (viewBytes s (s.ctx page).descAddr.toNat 256)) = some r) :
    ∃ t, exec (.load page) s = .next t ∧ (t.ctx page).state = 5 ∧ (t.ctx page).reason = BitVec.ofNat 16 r := by
  refine load_refused (u := loadReads (wakeUp s) page (descOf (viewBytes s (s.ctx page).descAddr.toNat 256)))
    (by rw [loadReads_settled, wakeUp_settled, hs]) ?_
  unfold doLoad
  dsimp only
  rw [hload, if_neg Bool.false_ne_true, if_neg (by simp [ha]), if_neg (by simp [hdesc]), viewBytes_wakeUp, hr]

theorem load_runs (hfails : descFails (wakeUp s) page (viewBytes s (s.ctx page).descAddr.toNat 256) = [])
    (hfrq : s.gone (descOf (viewBytes s (s.ctx page).descAddr.toNat 256)).frqbase.toNat = false) :
    ∃ t, exec (.load page) s = .next t ∧ (t.ctx page).state = 2 ∧
      (t.ctx page).d = descOf (viewBytes s (s.ctx page).descAddr.toNat 256) ∧ (t.ctx page).seq = 1 ∧ (t.ctx page).nextLseq = 1 ∧
      (t.ctx page).qerr = (s.ctx page).qerr := by
  generalize hb : viewBytes s (s.ctx page).descAddr.toNat 256 = b at hfails hfrq
  have hrun : doLoad s page = loadDesc (loadReads (wakeUp s) page (descOf b)) page (descOf b) := by
    unfold doLoad
    dsimp only
    rw [hload, if_neg Bool.false_ne_true, if_neg (by simp [ha]), if_neg (by simp [hdesc]), viewBytes_wakeUp, hb, hfails]
    exact if_neg (by simp [hfrq])
  have hctx : (loadReads (wakeUp s) page (descOf b)).ctx page = s.ctx page := by
    unfold State.ctx
    rw [(still_loadReads _ page _).ctxs, wakeUp_ctxs]
  refine ⟨loadDesc (loadReads (wakeUp s) page (descOf b)) page (descOf b), ?_, ?_⟩
  · show event (doLoad s page) = _
    rw [hrun]
    exact event_settled (State.settled_setCtx (by rw [loadReads_settled, wakeUp_settled, hs]) rfl)
  · simp [loadDesc, Ctx.reset, hctx]

end

/-! ### HALT, the save and RESUME (R31 to R33) -/

theorem halt_halts {s : State} {page : Nat} (hs : s.settled = true) (h : (s.ctx page).state = 2) :
    ∃ t, exec (.halt page) s = .next t ∧ (t.ctx page).state = 3 ∧ t.groups = s.groups := by
  refine ⟨s.setCtx page { s.ctx page with state := 3 }, ?_, by simp, rfl⟩
  show event (doHalt s page) = _
  simp only [doHalt, h, if_true]
  exact event_settled (State.settled_setCtx hs (State.doom_ctx hs page))

/-- A save that has been done leaves the context halted, and none of its prefetches. -/
theorem saveContext_halts {s u : State} {page : Nat} (h : saveContext s page = (true, u)) :
    (u.ctx page).state = 4 ∧ ∀ p ∈ u.pfx, p.page ≠ page := by
  unfold saveContext at h
  dsimp only at h
  split at h
  · cases h
  · split at h
    · cases h
    · cases h
      refine ⟨by simp, fun p hp => ?_⟩
      rw [State.setCtx_pfx, State.undefRange_pfx, (calm_invalidate _ page none).pfx] at hp
      simpa using (List.mem_filter.mp hp).2

@[simp] theorem modLaunch_ctxs (s : State) (lid : Nat) (f : Launch → Launch) : (modLaunch s lid f).ctxs = s.ctxs := rfl

@[simp] theorem modOp_ctxs (s : State) (id : Nat) (f : Op → Op) : (modOp s id f).ctxs = s.ctxs := rfl

@[simp] theorem sendTagged_ctxs (s : State) (dst lid op : Nat) (e : Envelope) : (sendTagged s dst lid op e).2.ctxs = s.ctxs := by
  unfold sendTagged
  dsimp only
  split <;> rfl

@[simp] theorem sendEnv_ctxs (s : State) (dst lid : Nat) (e : Envelope) : (sendEnv s dst lid e).ctxs = s.ctxs := by
  unfold sendEnv
  split
  · split <;> rfl
  · exact sendTagged_ctxs _ _ _ _ _

@[simp] theorem requestCredit_ctxs (s : State) (lid pkg node : Nat) : (requestCredit s lid pkg node).ctxs = s.ctxs := by
  unfold requestCredit
  split
  · rfl
  · dsimp only
    split
    · rfl
    · simp

@[simp] theorem sendRecord_ctxs (s : State) (lid : Nat) (r : RemRec) : (sendRecord s lid r).ctxs = s.ctxs := by
  unfold sendRecord
  split
  · rfl
  · dsimp only
    split
    next heq => exact (congrArg (fun x => x.2.ctxs) heq).symm.trans (sendTagged_ctxs _ _ _ _ _)
    next heq => exact (congrArg (fun x => x.2.ctxs) heq).symm.trans (sendTagged_ctxs _ _ _ _ _)

@[simp] theorem serveCredits_ctxs (n lid pkg node : Nat) (s : State) : (serveCredits n lid pkg node s).ctxs = s.ctxs := by
  induction n generalizing s with
  | zero => rfl
  | succ n ih =>
    unfold serveCredits
    split
    · rfl
    · split
      · rfl
      · dsimp only
        split
        · exact requestCredit_ctxs _ _ _ _
        · exact (ih _).trans (sendRecord_ctxs _ _ _)

@[simp] theorem serveResumed_ctxs (s : State) (page : Nat) : (serveResumed s page).ctxs = s.ctxs := by
  have hone : ∀ (t : State) (l : Launch),
      ((dedup (l.rq.map (fun r => (r.pkg, r.node)))).foldl (fun s x => serveCredits (l.rq.length + 1) l.lid x.1 x.2 s) t).ctxs = t.ctxs :=
    fun t l => List.foldlRecOn (motive := fun u : State => u.ctxs = t.ctxs) _ _ rfl
      (fun u hu x _ => (serveCredits_ctxs _ _ _ _ u).trans hu)
  exact List.foldlRecOn (motive := fun u : State => u.ctxs = s.ctxs) _ _ rfl (fun u hu l _ => (hone u l).trans hu)

theorem serveResumed_ctx (s : State) (page p : Nat) : (serveResumed s page).ctx p = s.ctx p := by
  unfold State.ctx
  rw [serveResumed_ctxs]

theorem wakeConds_ctx (s : State) (p : Nat) : (wakeConds s).ctx p = s.ctx p := rfl

theorem doResume_runs {s : State} {page : Nat} (h : (s.ctx page).state = 4) : ((doResume s page).ctx page).state = 2 := by
  unfold doResume
  dsimp only
  rw [if_neg (by simp [h])]
  rw [serveResumed_ctx, wakeConds_ctx, (State.calm_foldl calm_refillChip _ _).state page, State.ctx_setCtx]

/-! ### TERM and UNLOAD (R29, R416) -/

theorem endContext_state (s : State) (page : Nat) (r : FRec) : ((endContext s page r).ctx page).state = 6 := by
  unfold endContext
  exact congrArg Ctx.state (State.ctx_setCtx _ _ _)

/-- One context's termination, if it is under way. -/
def endDoomed (s : State) (c : Nat × Ctx) : State :=
  match c.2.doom with
  | some r => endContext s c.1 r
  | none => s

theorem settleDoom_eq (s : State) : settleDoom s = s.ctxs.foldl endDoomed s := rfl

theorem endDoomed_none {c : Nat × Ctx} (h : c.2.doom = none) (s : State) : endDoomed s c = s := by
  unfold endDoomed
  rw [h]

theorem endDoomed_state {c : Nat × Ctx} {r : FRec} (h : c.2.doom = some r) (s : State) : ((endDoomed s c).ctx c.1).state = 6 := by
  unfold endDoomed
  rw [h]
  exact endContext_state s c.1 r

/-- Where the termination of one context alone is under way, its end is the only one. -/
theorem endDoomed_foldl {page : Nat} (l : List (Nat × Ctx)) (s : State) (honly : ∀ x ∈ l, x.2.doom ≠ none → x.1 = page)
    (h : (s.ctx page).state = 6 ∨ ∃ x ∈ l, x.2.doom ≠ none) : ((l.foldl endDoomed s).ctx page).state = 6 := by
  induction l generalizing s with
  | nil => simpa using h
  | cons x l ih =>
    refine ih _ (fun y hy => honly y (List.mem_cons_of_mem _ hy)) ?_
    cases hx : x.2.doom with
    | some r =>
      have hp := honly x List.mem_cons_self (by simp [hx])
      exact Or.inl (hp ▸ endDoomed_state hx s)
    | none =>
      rw [endDoomed_none hx]
      simpa [hx] using h

/-- TERM's termination of a context. -/
theorem term_ends {s : State} {page : Nat} (hs : s.settled = true) (hlow : 2 ≤ (s.ctx page).state) (hhigh : (s.ctx page).state ≤ 4) :
    ((settleDoom (doom s page termRec)).ctx page).state = 6 := by
  have hdoom : doom s page termRec = s.setCtx page { s.ctx page with doom := some { termRec with flags := flTerminal ||| flLast, parts := 1, part := 1 } } := by
    have hc : ((s.ctx page).doom.isSome || (s.ctx page).state == 0 || (s.ctx page).state == 6) = false := by
      simp only [State.doom_ctx hs page, Option.isSome_none, Bool.false_or, Bool.or_eq_false_iff, beq_eq_false_iff_ne]
      omega
    unfold doom
    simp only [hc, Bool.false_eq_true, if_false]
  rw [hdoom, settleDoom_eq]
  refine endDoomed_foldl _ _ (fun x hx hd => ?_) (Or.inr ⟨_, mem_of_ffind (ffind_fput_self _ _ _), by simp⟩)
  rcases of_mem_fput hx with rfl | hx
  · rfl
  · exact absurd (State.doom_of_mem hs hx) hd

theorem freePage_settled {s : State} {page : Nat} (hs : s.settled = true) : (freePage s page).settled = true := by
  unfold freePage
  exact State.settled_setCtx (hs := hs) rfl

theorem freePage_state (s : State) (page : Nat) : ((freePage s page).ctx page).state = 0 := by
  unfold freePage
  exact congrArg Ctx.state (State.ctx_setCtx _ _ _)

theorem freePage_launches (s : State) (page : Nat) : ∀ x ∈ (freePage s page).launches, x.page ≠ page := fun x hx => by
  simpa using (List.mem_filter.mp hx).2

/-! ### The host launch queue (R415) -/

/-- A launch record that passes its checks takes the context's next LSEQ. -/
theorem enterLaunch_lseq (s : State) (page : Nat) (r : LRec) (parent : Option Launch) (g : Graph) :
    (enterLaunch s page r parent (.inl g)).1 = (s.ctx page).nextLseq ∧
    ((enterLaunch s page r parent (.inl g)).2.ctx page).nextLseq = nextSeq (s.ctx page).nextLseq := by
  refine ⟨rfl, ?_⟩
  have hctxs : (enterLaunch s page r parent (.inl g)).2.ctxs = (takeLseq s page).2.ctxs := by
    unfold enterLaunch
    dsimp only
    split
    · rfl
    · exact sendEnv_ctxs _ _ _ _
  unfold State.ctx
  rw [hctxs]
  exact congrArg Ctx.nextLseq (State.ctx_setCtx _ _ _)

theorem acceptLaunch_lseq {v w y : State} {page : Nat} {b : List Byte} {q : Word} {g : Graph}
    (h : acceptLaunch v page (some b) none = (some q, w)) (hcheck : checkLaunch v page b = .ok (.inl g) y) :
    q = (y.ctx page).nextLseq ∧ (w.ctx page).nextLseq = nextSeq q := by
  obtain ⟨hq, hnext⟩ := enterLaunch_lseq y page (lrecOf b) none g
  simp only [acceptLaunch, hcheck, Sum.isRight_inl, Bool.false_eq_true, if_false, Option.getD_some] at h
  cases h
  exact ⟨hq, hnext.trans (by rw [hq])⟩

/-! ### The statement -/

section
variable {s : State} {page : Nat}

theorem exec_preemptionSave {u : State} (h : (s.ctx page).state = 3) (hsave : saveContext s page = (true, u)) (hu : u.settled = true) :
    exec (.preemptionSave page) s = .next u := by
  show execPreemptionSave page s = _
  rw [execPreemptionSave, if_pos h, hsave]
  exact event_settled hu

theorem exec_term (hlow : 2 ≤ (s.ctx page).state) (hhigh : (s.ctx page).state ≤ 4)
    (hu : (settleDoom (doom s page termRec)).settled = true) : exec (.term page) s = .next (settleDoom (doom s page termRec)) := by
  show event (doTerm s page) = _
  rw [doTerm, if_pos (by simp [hlow, hhigh])]
  exact event_settled hu

theorem exec_unload_halted (h : (s.ctx page).state = 4) (howed : (endContext s page termRec).owed = [])
    (hu : (freePage (endContext s page termRec) page).settled = true) :
    exec (.unload page) s = .next (freePage (endContext s page termRec) page) := by
  show event (doUnload s page) = _
  rw [doUnload, if_pos h]
  dsimp only
  rw [if_pos (by simp [howed])]
  exact event_settled hu

theorem exec_unload_later (h : (s.ctx page).state = 4) (howed : (endContext s page termRec).owed ≠ [])
    (hv : (endContext s page termRec).settled = true) :
    ∃ t, exec (.unload page) s = .next t ∧ (t.ctx page).state = 6 ∧ t.owed = (endContext s page termRec).owed ++ [.unload page] := by
  have hstate := endContext_state s page termRec
  have hunload : exec (.unload page) s = event (doUnload s page) := rfl
  rw [hunload, doUnload, if_pos h]
  generalize endContext s page termRec = v at howed hv hstate ⊢
  dsimp only
  rw [if_neg (by simpa using howed)]
  exact ⟨_, event_settled ((State.settled_congr rfl rfl).trans hv), hstate, rfl⟩

theorem exec_unload_terminated (hs : s.settled = true) (h : (s.ctx page).state = 6) : exec (.unload page) s = .next (freePage s page) := by
  show event (doUnload s page) = _
  rw [doUnload, if_neg (by simp [h]), if_pos h]
  exact event_settled (freePage_settled hs)

theorem exec_unload_refused (hs : s.settled = true) (h : (s.ctx page).state = 5) :
    exec (.unload page) s = .next (s.setCtx page Ctx.reset) := by
  show event (doUnload s page) = _
  rw [doUnload, if_neg (by simp [h]), if_neg (by simp [h]), if_pos h]
  exact event_settled (State.settled_setCtx hs rfl)

theorem exec_qtailWrite {v : Word} (hs : (doQtail s page v).settled = true) (hup : hostUp s = true) :
    exec (.qtailWrite page v) s = .next (doQtail s page v) := by
  show event (if hostUp s then doQtail s page v else s) = _
  rw [if_pos hup]
  exact event_settled hs

/-- The doorbell where the ring has room (R415). -/
theorem doQtail_room (hpage : page < 4096) {v : Word} (h : (v - (s.ctx page).qhead).toNat ≤ (s.ctx page).qsize.toNat) :
    doQtail s page v = wakeUp (s.setCtx page { s.ctx page with qtail := v }) := by
  rw [doQtail, if_neg (by omega), if_neg (by omega)]

/-- The doorbell past the ring's size. -/
theorem doQtail_over (hpage : page < 4096) {v : Word} (h : (s.ctx page).qsize.toNat < (v - (s.ctx page).qhead).toNat) :
    doQtail s page v = s.setCtx page { s.ctx page with qerr := true } := by
  rw [doQtail, if_neg (by omega), if_pos h]

/-- Where the next record of a ring is read (R415). -/
def ringRead (s : State) (page : Nat) : DispR (List Byte) :=
  let c := s.ctx page
  dispRead s c.d (c.qbase + BitVec.ofNat 64 (64 * (c.qhead.toNat % max c.qsize.toNat 1))) 64

theorem exec_consume_read {v w : State} {b : List Byte} {q : Word} (hmay : mayConsume s page = true) (hread : ringRead s page = .ok b v)
    (haccept : acceptLaunch v page (some b) none = (some q, w)) (hu : (ringTaken w page).settled = true) :
    exec (.hostQueueRecordConsume page) s = .next (ringTaken w page) := by
  show execHostQueueRecordConsume page s = _
  rw [ringRead] at hread
  rw [execHostQueueRecordConsume, if_neg (by simp [hmay])]
  dsimp only at hread ⊢
  rw [hread]
  dsimp only
  rw [haccept]
  exact event_settled hu

theorem exec_consume_unusable (hmay : mayConsume s page = true) (hread : ringRead s page = .unusable)
    (hu : (acceptLaunch (ringTaken s page) page none none).2.settled = true) :
    exec (.hostQueueRecordConsume page) s = .next (acceptLaunch (ringTaken s page) page none none).2 := by
  show execHostQueueRecordConsume page s = _
  rw [ringRead] at hread
  rw [execHostQueueRecordConsume, if_neg (by simp [hmay])]
  dsimp only at hread ⊢
  rw [hread]
  exact event_settled hu

theorem ringTaken_qhead (s : State) (page : Nat) : ((ringTaken s page).ctx page).qhead = (s.ctx page).qhead + 1 :=
  congrArg Ctx.qhead (State.ctx_setCtx s page _)

end

/-- Settles O57: LOAD, HALT, the save, RESUME, TERM and UNLOAD, then the doorbell and the consumed record, each by its own lemmas above. -/
theorem contextsChangeState : Obligations.ContextsChangeState := by
  unfold Obligations.ContextsChangeState
  refine ⟨fun s page hs => ⟨fun hpage hstage hstate => ?load, fun h => halt_halts hs h, fun h u hsave hu => ?save, fun h hu => ?resume,
    fun hlow hhigh hu => ⟨exec_term hlow hhigh hu, term_ends hs hlow hhigh⟩, fun h => ?unload, fun h => ?unloadTerminated,
    fun h => ⟨_, exec_unload_refused hs h, by simp [Ctx.reset]⟩⟩, fun s page hs => ⟨fun v hup hpage hroom => ?doorbell,
    fun v hup hpage hover => ?doorbellOver, fun hmay => ?consume⟩⟩
  case load =>
    have hload := honoursLoad_of hpage hstage hstate
    exact ⟨load_unaligned hs hload, fun ha hdesc r => load_fails hs hload ha hdesc, load_runs hs hload⟩
  case save =>
    obtain ⟨hstate, hpfx⟩ := saveContext_halts hsave
    exact ⟨exec_preemptionSave h hsave hu, hstate, hpfx⟩
  case resume => exact ⟨event_settled hu, doResume_runs h⟩
  case unload =>
    intro v u
    exact ⟨fun howed hu => ⟨exec_unload_halted h howed hu, freePage_state v page⟩, fun howed hv => exec_unload_later h howed hv⟩
  case unloadTerminated => exact ⟨_, exec_unload_terminated hs h, freePage_state _ _, freePage_launches _ _⟩
  case doorbell =>
    have hset : (doQtail s page v).settled = true := by
      rw [doQtail_room hpage hroom, wakeUp_settled]
      exact State.settled_setCtx hs (State.doom_ctx hs page)
    refine ⟨_, exec_qtailWrite hset hup, ?_⟩
    rw [doQtail_room hpage hroom, wakeUp_ctx, State.ctx_setCtx]
    exact ⟨rfl, rfl⟩
  case doorbellOver =>
    have hset : (doQtail s page v).settled = true := by
      rw [doQtail_over hpage hover]
      exact State.settled_setCtx hs (State.doom_ctx hs page)
    refine ⟨_, exec_qtailWrite hset hup, ?_⟩
    rw [doQtail_over hpage hover, State.ctx_setCtx]
    exact ⟨rfl, rfl⟩
  case consume =>
    exact ⟨fun b v q w hread haccept hu => ⟨exec_consume_read hmay hread haccept hu, ringTaken_qhead w page,
      fun x y hcheck => acceptLaunch_lseq haccept hcheck⟩, fun hread hu => exec_consume_unusable hmay hread hu⟩

end Sys2Proof.Machine
end

section
/-! The encoding (R36 to R45, R63): every word-2 layout reads back what it wrote, every field of an instruction's words reads back, and so does
the instruction. What a first word alone decides (R37, R62, R64). -/
namespace Sys2Proof.Machine

/-! ### Fields of concatenations -/

section
variable {v w : Nat} (x : BitVec v) (y : BitVec w)

/-- A field of a concatenation is a field of the part in which it lies. -/
@[simp] theorem bits_append_high {lo n : Nat} (h : w ≤ lo) : bits (x.append y) lo n = bits x (lo - w) n := by
  apply BitVec.eq_of_getLsbD_eq
  intro i hi
  simp only [bits, BitVec.append_eq, BitVec.getLsbD_extractLsb', BitVec.getLsbD_append]
  rw [if_neg (by omega), show lo + i - w = lo - w + i by omega]

@[simp] theorem bits_append_low {lo n : Nat} (h : lo + n ≤ w) : bits (x.append y) lo n = bits y lo n := by
  apply BitVec.eq_of_getLsbD_eq
  intro i hi
  simp only [bits, BitVec.append_eq, BitVec.getLsbD_extractLsb', BitVec.getLsbD_append]
  rw [if_pos (by omega)]

@[simp] theorem bit_append_high {i : Nat} (h : w ≤ i) : bit (x.append y) i = bit x (i - w) := by
  simp only [bit, BitVec.append_eq, BitVec.getLsbD_append]
  rw [if_neg (by omega)]

@[simp] theorem bit_append_low {i : Nat} (h : i < w) : bit (x.append y) i = bit y i := by
  simp only [bit, BitVec.append_eq, BitVec.getLsbD_append]
  rw [if_pos h]

@[simp] theorem bits_self : bits x 0 v = x := BitVec.extractLsb'_eq_self

@[simp] theorem bit_ofBool (b : Bool) : bit (ofBool b) 0 = b := by cases b <;> rfl

end

/-! ### Word 2 -/

@[simp] theorem tyOf_tyCode (t : Ty) : tyOf (tyCode t) = t := by cases t <;> rfl

theorem wAluOf_bits : Function.LeftInverse wAluOf wAluBits := fun x => by
  simp [wAluOf, wAluBits, HAppend.hAppend, -BitVec.append_eq]
theorem wOffOf_bits : Function.LeftInverse wOffOf wOffBits := fun x => by
  simp [wOffOf, wOffBits, HAppend.hAppend, -BitVec.append_eq]
theorem wWaitOf_bits : Function.LeftInverse wWaitOf wWaitBits := fun x => by
  simp [wWaitOf, wWaitBits, HAppend.hAppend, -BitVec.append_eq]
theorem wTrapOf_bits : Function.LeftInverse wTrapOf wTrapBits := fun x => by
  simp [wTrapOf, wTrapBits, HAppend.hAppend, -BitVec.append_eq]
theorem wLutOf_bits : Function.LeftInverse wLutOf wLutBits := fun x => by
  simp [wLutOf, wLutBits, HAppend.hAppend, -BitVec.append_eq]
theorem wLop3Of_bits : Function.LeftInverse wLop3Of wLop3Bits := fun x => by
  simp [wLop3Of, wLop3Bits, HAppend.hAppend, -BitVec.append_eq]
theorem wTyOf_bits : Function.LeftInverse wTyOf wTyBits := fun x => by
  simp [wTyOf, wTyBits, HAppend.hAppend, -BitVec.append_eq]
theorem wVtosOf_bits : Function.LeftInverse wVtosOf wVtosBits := fun x => by
  simp [wVtosOf, wVtosBits, HAppend.hAppend, -BitVec.append_eq]
theorem wSldkOf_bits : Function.LeftInverse wSldkOf wSldkBits := fun x => by
  simp [wSldkOf, wSldkBits, HAppend.hAppend, -BitVec.append_eq]
theorem wNibOf_bits : Function.LeftInverse wNibOf wNibBits := fun x => by
  simp [wNibOf, wNibBits, HAppend.hAppend, -BitVec.append_eq]
theorem wCvtOf_bits : Function.LeftInverse wCvtOf wCvtBits := fun x => by
  simp [wCvtOf, wCvtBits, HAppend.hAppend, -BitVec.append_eq]
theorem wShflOf_bits : Function.LeftInverse wShflOf wShflBits := fun x => by
  simp [wShflOf, wShflBits, HAppend.hAppend, -BitVec.append_eq]
theorem wVoteOf_bits : Function.LeftInverse wVoteOf wVoteBits := fun x => by
  simp [wVoteOf, wVoteBits, HAppend.hAppend, -BitVec.append_eq]
theorem wReduxOf_bits : Function.LeftInverse wReduxOf wReduxBits := fun x => by
  simp [wReduxOf, wReduxBits, HAppend.hAppend, -BitVec.append_eq]
theorem wPairOf_bits : Function.LeftInverse wPairOf wPairBits := fun x => by
  simp [wPairOf, wPairBits, HAppend.hAppend, -BitVec.append_eq]
theorem wMemOf_bits : Function.LeftInverse wMemOf wMemBits := fun x => by
  simp [wMemOf, wMemBits, HAppend.hAppend, -BitVec.append_eq]
theorem wAtomOf_bits : Function.LeftInverse wAtomOf wAtomBits := fun x => by
  simp [wAtomOf, wAtomBits, HAppend.hAppend, -BitVec.append_eq]
theorem wFenceOf_bits : Function.LeftInverse wFenceOf wFenceBits := fun x => by
  simp [wFenceOf, wFenceBits, HAppend.hAppend, -BitVec.append_eq]
theorem wStashOf_bits : Function.LeftInverse wStashOf wStashBits := fun x => by
  simp [wStashOf, wStashBits, HAppend.hAppend, -BitVec.append_eq]
theorem wHintOf_bits : Function.LeftInverse wHintOf wHintBits := fun x => by
  simp [wHintOf, wHintBits, HAppend.hAppend, -BitVec.append_eq]
theorem wSlotOf_bits : Function.LeftInverse wSlotOf wSlotBits := fun x => by
  simp [wSlotOf, wSlotBits, HAppend.hAppend, -BitVec.append_eq]
theorem wCpyOf_bits : Function.LeftInverse wCpyOf wCpyBits := fun x => by
  simp [wCpyOf, wCpyBits, HAppend.hAppend, -BitVec.append_eq]
theorem wPfxOf_bits : Function.LeftInverse wPfxOf wPfxBits := fun x => by
  simp [wPfxOf, wPfxBits, HAppend.hAppend, -BitVec.append_eq]
theorem wApOf_bits : Function.LeftInverse wApOf wApBits := fun x => by
  simp [wApOf, wApBits, HAppend.hAppend, -BitVec.append_eq]
theorem wAgOf_bits : Function.LeftInverse wAgOf wAgBits := fun x => by
  simp [wAgOf, wAgBits, HAppend.hAppend, -BitVec.append_eq]
theorem wMmaOf_bits : Function.LeftInverse wMmaOf wMmaBits := fun x => by
  simp [wMmaOf, wMmaBits, HAppend.hAppend, -BitVec.append_eq]
theorem wAccOf_bits : Function.LeftInverse wAccOf wAccBits := fun x => by
  simp [wAccOf, wAccBits, HAppend.hAppend, -BitVec.append_eq]
theorem wAccstOf_bits : Function.LeftInverse wAccstOf wAccstBits := fun x => by
  simp [wAccstOf, wAccstBits, HAppend.hAppend, -BitVec.append_eq]
theorem wQOf_bits : Function.LeftInverse wQOf wQBits := fun x => by
  simp [wQOf, wQBits, HAppend.hAppend, -BitVec.append_eq]
theorem wEmitOf_bits : Function.LeftInverse wEmitOf wEmitBits := fun x => by
  simp [wEmitOf, wEmitBits, HAppend.hAppend, -BitVec.append_eq]
theorem wFlushOf_bits : Function.LeftInverse wFlushOf wFlushBits := fun x => by
  simp [wFlushOf, wFlushBits, HAppend.hAppend, -BitVec.append_eq]
theorem wPodfltOf_bits : Function.LeftInverse wPodfltOf wPodfltBits := fun x => by
  simp [wPodfltOf, wPodfltBits, HAppend.hAppend, -BitVec.append_eq]

/-! ### The words of an instruction's fields -/

/-- The fields that a length leaves out are zero. -/
def Raw.Fits (r : Raw) : Prop :=
  (r.len = 1 ∧ ∃ op f, r = raw1 op f) ∨ (r.len = 3 ∧ r.lit = 0) ∨ r.len = 5

/-- Fields read back from the words they were written to. -/
theorem rawOfWords_rawWords {r : Raw} (h : r.Fits) :
    rawOfWords r.len ((rawWords r).getD 0 0) ((rawWords r).getD 1 0) ((rawWords r).getD 2 0) ((rawWords r).getD 3 0)
      ((rawWords r).getD 4 0) = r := by
  have hlit : bits r.lit 30 30 ++ bits r.lit 0 30 = r.lit := BitVec.extractLsb'_append_extractLsb' (w := 30) (len := 30)
  obtain ⟨-, op, f, rfl⟩ | ⟨hl, hz⟩ | hl := h
  · simp [rawOfWords, rawWords, raw1, opOf, HAppend.hAppend, -BitVec.append_eq]
  · cases r
    cases hl
    cases hz
    simp [rawOfWords, rawWords, opOf, HAppend.hAppend, -BitVec.append_eq]
  · cases r
    cases hl
    simp [rawOfWords, rawWords, opOf, HAppend.hAppend, -BitVec.append_eq]
    exact hlit


/-- The fields of an instruction's words are those of a legal length, hold an assigned opcode, and are the instruction's alone (R61, R63). -/
structure Encodes (i : Instr) (r : Raw) : Prop where
  fits : r.Fits
  op : assigned r.op = true ∧ r.op ≠ 0
  back : ofRaw r = some i

theorem encodes_one {i : Instr} {op : BitVec 8} {f : F1} (ho : assigned op = true ∧ op ≠ 0) (hr : ofRaw (raw1 op f) = some i) :
    Encodes i (raw1 op f) :=
  ⟨.inl ⟨rfl, op, f, rfl⟩, ho, hr⟩

theorem encodes_noX {i : Instr} {op : BitVec 8} {h : Hd} (ho : assigned op = true ∧ op ≠ 0)
    (hr : ofRaw (raw3 op h 3 0 0) = noX (raw3 op h 3 0 0) i) : Encodes i (raw3 op h 3 0 0) :=
  ⟨.inr (.inl ⟨rfl, rfl⟩), ho, hr⟩

theorem encodes_withX {α : Type} {toBits : α → BitVec 30} {ofBits : BitVec 30 → α} {mk : α → Instr} {x : α} {i : Instr} {op : BitVec 8} {h : Hd}
    {n : Nat} {lit : BitVec 60} (ho : assigned op = true ∧ op ≠ 0) (hn : (n = 3 ∧ lit = 0) ∨ n = 5) (hx : Function.LeftInverse ofBits toBits)
    (hr : ofRaw (raw3 op h n (toBits x) lit) = withX (raw3 op h n (toBits x) lit) toBits ofBits mk) (hi : mk x = i) :
    Encodes i (raw3 op h n (toBits x) lit) := by
  refine ⟨.inr hn, ho, ?_⟩
  have hback : ofBits (raw3 op h n (toBits x) lit).x = x := hx x
  rw [hr, withX, hback, hi]
  exact if_pos rfl

/-- A legal three-word shape keeps the rule of its own that it was given. -/
theorem shape3_ok {h : Hd} {uni : Bool} {used : BitVec 6} {a b c d : Opd} {lat : Nat} {ok : Bool}
    (e : (shape3 h uni used a b c d lat ok).ok = true) : ok = true := by
  simp only [shape3, Bool.and_eq_true] at e
  tauto

/-- PGPOOL and PGMAP share their opcodes with a second row, from which a MOD bit tells them (R227). -/
theorem shapePgpool_ok {h : Hd} {put : Bool} (e : (shapePgpool h put).ok = true) : bit h.mod 0 = put :=
  beq_iff_eq.mp (shape3_ok (Bool.and_eq_true_iff.mp e).1)

theorem shapePgmap_ok {h : Hd} {fwd : Bool} (e : (shapePgmap h fwd).ok = true) : bit h.mod 1 = fwd := beq_iff_eq.mp (shape3_ok (lat := 0) e)

theorem ofRaw_pgpool (h : Hd) : ofRaw (raw3 0xAA#8 h 3 0 0) = some (if bit h.mod 0 then .pgpoolPut h else .pgpoolGet h) := by
  have e : ofRaw (raw3 0xAA#8 h 3 0 0) = if bit h.mod 0 then some (.pgpoolPut h) else some (.pgpoolGet h) := rfl
  rw [e]
  split <;> rfl

theorem ofRaw_pgmap (h : Hd) : ofRaw (raw3 0xAB#8 h 3 0 0) = some (if bit h.mod 1 then .pgmapFwd h else .pgmap h) := by
  have e : ofRaw (raw3 0xAB#8 h 3 0 0) = if bit h.mod 1 then some (.pgmapFwd h) else some (.pgmap h) := rfl
  rw [e]
  split <;> rfl

/-- Every instruction that words encode and whose form is legal has such fields: a one-word form, a form without word-2 fields, or one of each
word-2 layout. -/
theorem encodes_rawOf {i : Instr} {r : Raw} (h : rawOf i = some r) (hok : formOk i = true) : Encodes i r := by
  cases i <;> cases h
  case nopZ1 f | braJ1 f | callJ1 f | retZ1 f | exitZ1 f | yieldZ1 f | svret f | saddI1 f | ssubI1 f | smulI1 f | smulhI1 f | sandI1 f |
    sorI1 f | sxorI1 f | sshlI1 f | sshrI1 f | ssraI1 f | sminI1 f | smaxI1 f | smovU1 f | sldiM1 f | sffsU1 f | spopU1 f | rsrU1 f |
    wsrU1 f | iaddI1 f | isubI1 f | imulI1 f | imulhI1 f | iabsU1 f | inegU1 f | iminI1 f | imaxI1 f | ishlI1 f | ishrI1 f | israI1 f |
    iandI1 f | iorI1 f | ixorI1 f | popcU1 f | clzU1 f | brevU1 f | movU1 f | moviM1 f | fenceZ1 f =>
    exact encodes_one (by decide) rfl
  case nop h | brx h | callx h | ret h | exit h | yield h | rsr h | wsr h | ballot h | discard h | tlbinv h | pfxcancel h | apreplay h |
    mzero h | mld h | mstat h | recld h | glaunch h | gcancel h | gwait h =>
    exact encodes_noX (by decide) rfl
  case bra h x | brc h x | join h x | call h x =>
    exact encodes_withX (by decide) (.inl ⟨rfl, rfl⟩) wOffOf_bits rfl (by rfl)
  case yieldc h x | waitc h x =>
    exact encodes_withX (by decide) (.inl ⟨rfl, rfl⟩) wWaitOf_bits rfl (by rfl)
  case trap h x =>
    exact encodes_withX (by decide) (.inl ⟨rfl, rfl⟩) wTrapOf_bits rfl (by rfl)
  case plop h x | klop h x =>
    exact encodes_withX (by decide) (.inl ⟨rfl, rfl⟩) wLutOf_bits rfl (by rfl)
  case sadd h x | ssub h x | smul h x | smulh h x | sand h x | sor h x | sxor h x | sshl h x | sshr h x | ssra h x | smin h x | smax h x |
    ssel h x | scmp h x | smov h x | sldi h x | iadd h x | isub h x | imul h x | imulh h x | imad h x | iabs h x | ineg h x | imin h x |
    imax h x | icmp h x | isel h x | ishl h x | ishr h x | isra h x | iand h x | ior h x | ixor h x | popc h x | clz h x | brev h x |
    bfe h x | bfi h x | fadd h x | fsub h x | fmul h x | ffma h x | fmin h x | fmax h x | fcmp h x | frnd h x | fclass h x | fscale h x |
    frcp h x | frsq h x | fsqrt h x | fex2 h x | flg2 h x | fsin h x | fcos h x | ftanh h x | hadd2 h x | hmul2 h x | hfma2 h x |
    psum h x | mov h x | movi h x =>
    exact encodes_withX (by decide) (.inl ⟨rfl, rfl⟩) wAluOf_bits rfl (by rfl)
  case sadd5w h x l | ssub5w h x l | smul5w h x l | smulh5w h x l | sand5w h x l | sor5w h x l | sxor5w h x l | sshl5w h x l |
    sshr5w h x l | ssra5w h x l | smin5w h x l | smax5w h x l | ssel5w h x l | scmp5w h x l | sldi5w h x l | iadd5w h x l | isub5w h x l |
    imul5w h x l | imulh5w h x l | imad5w h x l | imin5w h x l | imax5w h x l | icmp5w h x l | isel5w h x l | ishl5w h x l | ishr5w h x l |
    isra5w h x l | iand5w h x l | ior5w h x l | ixor5w h x l | bfe5w h x l | bfi5w h x l | fadd5w h x l | fsub5w h x l | fmul5w h x l |
    ffma5w h x l | fmin5w h x l | fmax5w h x l | fcmp5w h x l | frnd5w h x l | fclass5w h x l | fscale5w h x l | hadd25w h x l |
    hmul25w h x l | hfma25w h x l | movi5w h x l =>
    exact encodes_withX (by decide) (.inr rfl) wAluOf_bits rfl (by rfl)
  case sldk h x =>
    exact encodes_withX (by decide) (.inl ⟨rfl, rfl⟩) wSldkOf_bits rfl (by rfl)
  case sffs h x | spop h x | stov h x | matchV h x =>
    exact encodes_withX (by decide) (.inl ⟨rfl, rfl⟩) wTyOf_bits rfl (by rfl)
  case reggive h x | regclaim h x | podbar h x | podqry h x =>
    exact encodes_withX (by decide) (.inl ⟨rfl, rfl⟩) wNibOf_bits rfl (by rfl)
  case vtos h x =>
    exact encodes_withX (by decide) (.inl ⟨rfl, rfl⟩) wVtosOf_bits rfl (by rfl)
  case lop3 h x =>
    exact encodes_withX (by decide) (.inl ⟨rfl, rfl⟩) wLop3Of_bits rfl (by rfl)
  case lop35w h x l =>
    exact encodes_withX (by decide) (.inr rfl) wLop3Of_bits rfl (by rfl)
  case cvt h x | cvtn h x | pack4 h x | unpk4 h x =>
    exact encodes_withX (by decide) (.inl ⟨rfl, rfl⟩) wCvtOf_bits rfl (by rfl)
  case shfl h x =>
    exact encodes_withX (by decide) (.inl ⟨rfl, rfl⟩) wShflOf_bits rfl (by rfl)
  case vote h x =>
    exact encodes_withX (by decide) (.inl ⟨rfl, rfl⟩) wVoteOf_bits rfl (by rfl)
  case redux h x =>
    exact encodes_withX (by decide) (.inl ⟨rfl, rfl⟩) wReduxOf_bits rfl (by rfl)
  case pair h x =>
    exact encodes_withX (by decide) (.inl ⟨rfl, rfl⟩) wPairOf_bits rfl (by rfl)
  case ld h x | st h x | ldl h x | stl h x | ldc h x | lda h x | strel h x | pref h x =>
    exact encodes_withX (by decide) (.inl ⟨rfl, rfl⟩) wMemOf_bits rfl (by rfl)
  case ld5w h x l | st5w h x l | ldl5w h x l | stl5w h x l | ldc5w h x l | lda5w h x l | strel5w h x l | pref5w h x l =>
    exact encodes_withX (by decide) (.inr rfl) wMemOf_bits rfl (by rfl)
  case atom h x | atoml h x | red h x =>
    exact encodes_withX (by decide) (.inl ⟨rfl, rfl⟩) wAtomOf_bits rfl (by rfl)
  case atom5w h x l | atoml5w h x l | red5w h x l =>
    exact encodes_withX (by decide) (.inr rfl) wAtomOf_bits rfl (by rfl)
  case fence h x =>
    exact encodes_withX (by decide) (.inl ⟨rfl, rfl⟩) wFenceOf_bits rfl (by rfl)
  case stashmap h x | stashunmap h x | stashsync h x | stashinv h x =>
    exact encodes_withX (by decide) (.inl ⟨rfl, rfl⟩) wStashOf_bits rfl (by rfl)
  case pghint h x =>
    exact encodes_withX (by decide) (.inl ⟨rfl, rfl⟩) wHintOf_bits rfl (by rfl)
  case barinit h x | barexp h x | bararv h x | barwait h x | bararw h x | bartest h x | barinv h x =>
    exact encodes_withX (by decide) (.inl ⟨rfl, rfl⟩) wSlotOf_bits rfl (by rfl)
  case cpy h x | cpy2d h x | cpys h x =>
    exact encodes_withX (by decide) (.inl ⟨rfl, rfl⟩) wCpyOf_bits rfl (by rfl)
  case pfx h x =>
    exact encodes_withX (by decide) (.inl ⟨rfl, rfl⟩) wPfxOf_bits rfl (by rfl)
  case apstart h x | appop h x | appush h x | apstat h x | apstop h x =>
    exact encodes_withX (by decide) (.inl ⟨rfl, rfl⟩) wApOf_bits rfl (by rfl)
  case agath h x | ascat h x =>
    exact encodes_withX (by decide) (.inl ⟨rfl, rfl⟩) wAgOf_bits rfl (by rfl)
  case mma h x | mmas h x =>
    exact encodes_withX (by decide) (.inl ⟨rfl, rfl⟩) wMmaOf_bits rfl (by rfl)
  case accrd h x | accwr h x =>
    exact encodes_withX (by decide) (.inl ⟨rfl, rfl⟩) wAccOf_bits rfl (by rfl)
  case accst h x =>
    exact encodes_withX (by decide) (.inl ⟨rfl, rfl⟩) wAccstOf_bits rfl (by rfl)
  case qhist h x | qclip h x | qpack h x | qolst h x | qrst h x =>
    exact encodes_withX (by decide) (.inl ⟨rfl, rfl⟩) wQOf_bits rfl (by rfl)
  case emit h x | emitt h x =>
    exact encodes_withX (by decide) (.inl ⟨rfl, rfl⟩) wEmitOf_bits rfl (by rfl)
  case flushq h x =>
    exact encodes_withX (by decide) (.inl ⟨rfl, rfl⟩) wFlushOf_bits rfl (by rfl)
  case podflt h x =>
    exact encodes_withX (by decide) (.inl ⟨rfl, rfl⟩) wPodfltOf_bits rfl (by rfl)
  case pgpoolGet h | pgpoolPut h =>
    refine encodes_noX (by decide) ((ofRaw_pgpool h).trans ?_)
    rw [shapePgpool_ok hok]
    rfl
  case pgmap h | pgmapFwd h =>
    refine encodes_noX (by decide) ((ofRaw_pgmap h).trans ?_)
    rw [shapePgmap_ok hok]
    rfl

/-! ### Decoding -/

theorem contOk_rawWords (r : Raw) (n : Nat) : contOk n (rawWords r) = true := by
  have hall : ∀ w ∈ (rawWords r).drop 1, (bits w 0 2 == 3) = true := by
    unfold rawWords
    dsimp only
    split
    · simp
    · split <;> simp [HAppend.hAppend, -BitVec.append_eq]
  unfold contOk
  rw [List.drop_take, List.all_eq_true]
  exact fun w hw => hall w (List.mem_of_mem_take hw)

/-- The first word of an instruction's fields gives its length and its opcode (R36). -/
theorem rawWords_first {r : Raw} (h : r.Fits) :
    lenOf ((rawWords r).headD 0) = some r.len ∧ opOf ((rawWords r).headD 0) = r.op ∧ (rawWords r).length = r.len := by
  obtain ⟨hl, -⟩ | ⟨hl, -⟩ | hl := h <;>
  · simp [rawWords, hl, lenOf, opOf, HAppend.hAppend, -BitVec.append_eq]

theorem decodeWords_rawWords {i : Instr} {r : Raw} (h : Encodes i r) (hw : WellFormed i = true) : decodeWords (rawWords r) = .ok i := by
  obtain ⟨hlen, hop, hlength⟩ := rawWords_first h.fits
  unfold decodeWords
  simp only [hlen, hop, hlength, h.op.1, h.op.2, contOk_rawWords, rawOfWords_rawWords h.fits, h.back, hw, if_false, if_true,
    Bool.not_true, Bool.false_eq_true, lt_irrefl]

/-- The words of an instruction are those of its fields. -/
theorem encode_of_rawOf {i : Instr} {r : Raw} (h : rawOf i = some r) : encode i = rawWords r := by
  unfold encode
  split
  · cases h
  · cases h
  · rw [h]

/-- Settles O1: the fields of the words read back, and so does the instruction that has them. -/
theorem decodeOfEncode : Obligations.DecodeOfEncode := by
  unfold Obligations.DecodeOfEncode
  intro i hw
  obtain ⟨hsome, hok⟩ := Bool.and_eq_true_iff.mp hw
  obtain ⟨r, hr⟩ := Option.isSome_iff_exists.mp hsome
  rw [encode_of_rawOf hr]
  exact decodeWords_rawWords (encodes_rawOf hr hok) hw

/-! ### First words that decide -/

theorem lenOf_continuation {w : Word} (h : bits w 0 2 = 3) : lenOf w = none := by
  unfold lenOf
  rw [h]
  rfl

/-- Any other first word has a length. -/
theorem lenOf_of_ne {w : Word} (h : bits w 0 2 ≠ 3) : ∃ n, lenOf w = some n := by
  have hv : ∀ v : BitVec 2, v ≠ 3 → v = 0 ∨ v = 1 ∨ v = 2 := by decide
  unfold lenOf
  obtain e | e | e := hv _ h <;> rw [e]
  · exact ⟨1, rfl⟩
  · exact ⟨3, rfl⟩
  · exact ⟨5, rfl⟩

theorem decodeWords_continuation {w : Word} (h : bits w 0 2 = 3) (ws : List Word) : decodeWords (w :: ws) = .error .misaligned := by
  simp only [decodeWords, List.headD_cons, lenOf_continuation h]

theorem decodeWords_zero {w : Word} (h : bits w 0 2 ≠ 3) (hop : bits w 6 8 = 0) (ws : List Word) : decodeWords (w :: ws) = .ok (.zeroWord w) := by
  obtain ⟨n, hn⟩ := lenOf_of_ne h
  simp only [decodeWords, List.headD_cons, hn, show opOf w = 0 from hop, if_true]

/-- BALLOT has no word-2 fields: another word 2 is ILLEGAL_FORM (R165), whether its continuation bits or others are at fault. -/
theorem decodeWords_ballot_illegal {w0 w1 w2 : Word} {ws : List Word} (hop : bits w0 6 8 = 0x69) (hlen : bits w0 0 2 = 1) (h2 : w2 ≠ 3) :
    decodeWords (w0 :: w1 :: w2 :: ws) = .error .illegalForm := by
  have hn : lenOf w0 = some 3 := by unfold lenOf; rw [hlen]; rfl
  have hx : bits w2 0 2 = 3 → bits w2 2 30 ≠ 0 := fun hlow hhigh => h2 (by
    have e : bits w2 2 30 ++ bits w2 0 2 = w2 := BitVec.extractLsb'_append_extractLsb' (w := 30) (len := 2)
    rw [← e, hlow, hhigh]
    rfl)
  have hraw : bits w2 0 2 = 3 → ∀ w3 w4, ofRaw (rawOfWords 3 w0 w1 w2 w3 w4) = none := fun hlow w3 w4 => by
    have e : ofRaw (rawOfWords 3 w0 w1 w2 w3 w4) = ofRaw3 { rawOfWords 3 w0 w1 w2 w3 w4 with op := 0x69 } := by rw [← hop]; rfl
    rw [e]
    exact if_neg (hx hlow)
  have hop' : opOf w0 = 0x69#8 := hop
  have hassigned : assigned 0x69#8 = true := by decide
  have hlong : ¬ ws.length + 1 + 1 + 1 < 3 := by omega
  simp [decodeWords, hn, hop', hassigned, hlong, contOk]
  intro _ hc
  rw [hraw hc]

/-- Words that a well-formed instruction encodes to decode to it. -/
theorem decodeWords_of_encode {i : Instr} {ws : List Word} (he : encode i = ws) (hw : WellFormed i = true) : decodeWords ws = .ok i :=
  he ▸ decodeOfEncode i hw

/-- Settles O4: each list of words is what its instruction encodes to, and the last is a continuation word. -/
theorem sampleWordsDecode : Obligations.SampleWordsDecode := by
  unfold Obligations.SampleWordsDecode
  exact ⟨decodeWords_of_encode rfl rfl, decodeWords_of_encode rfl rfl, decodeWords_of_encode rfl rfl, decodeWords_of_encode rfl rfl,
    decodeWords_of_encode rfl rfl, decodeWords_of_encode rfl rfl, decodeWords_continuation rfl []⟩

end Sys2Proof.Machine
end


section
/-! The first word and the fetch: the trap that a first word alone decides (R62, R64), in the handler, and the step as the fetch of the chosen
fragment and the run of what it fetched (R37, R38, R65, R127). -/
namespace Sys2Proof.Machine

/-! ### A trap of the first word -/

section
variable {s : State} {f : Frag} (hf : (s.group s.cur.1).frag s.cur.2 = some f) (hm : mayIssue s (s.group s.cur.1) f = true)
  (hd : asyncDue s s.cur.1 s.cur.2 = none)
include hf hm hd

/-- With nothing to deliver first, the trap is raised for the fragment's whole mask. -/
theorem wordTrap_raises (cause len : Nat) (w : Word) :
    wordTrap cause len w s =
      finish (markIssued (raise s (bareIss s f w len) [.plain (codeOf (classOf (bits w 6 8)) cause) f.mask]) (s.group s.cur.1)) := by
  simp only [wordTrap, hf, hm, hd, Eff.gate, settleEff, Bool.not_true, Bool.false_eq_true, if_false]
  rfl

/-- In user mode an enabled handler takes it. -/
theorem wordTrap_inHandler (hs : s.settled = true) (hsup : f.sup = false) {cause len : Nat} {w : Word}
    (hh : dispOf (s.ctx (s.group s.cur.1).page).d (codeOf (classOf (bits w 6 8)) cause) false = .handler)
    (hc : causeOf (codeOf (classOf (bits w 6 8)) cause) < 0x800) :
    ∃ t, wordTrap cause len w s = .next t ∧
      inHandler (bareIss s f w len) s t (codeOf (classOf (bits w 6 8)) cause) 0 f.mask 0 f.pc false := by
  obtain ⟨hin, hset⟩ := raise_inHandler (s := s) (s1 := s) (c := bareIss s f w len)
    (f := .plain (codeOf (classOf (bits w 6 8)) cause) f.mask) hf rfl rfl rfl rfl (congrArg (Option.map (fun y : Frag => y.rsp)) hf)
    hsup rfl hh hc (s.group s.cur.1)
  exact ⟨_, (wordTrap_raises hf hm hd cause len w).trans (finish_settled (hset.trans hs)), hin⟩

end

/-- Settles O2: the decoder's answers, and the trap of a zero opcode, whose class is 0. -/
theorem firstWordTraps : Obligations.FirstWordTraps := by
  unfold Obligations.FirstWordTraps
  refine ⟨fun w ws => ⟨fun h => decodeWords_continuation h ws, fun h hop => decodeWords_zero h hop ws⟩,
    fun s w f hs hf hm hd hsup hop hh => ?_⟩
  have hcode : codeOf (classOf (bits w 6 8)) cZeroWord = 0x0001 := by rw [hop]; decide
  have h := wordTrap_inHandler hf hm hd hs hsup (cause := cZeroWord) (len := 1) (w := w)
  rw [hcode] at h
  exact h (if_pos hh) (by decide)

/-! ### A step's fetch -/

section
variable {s : State} {f : Frag} (hf : (s.group s.cur.1).frag s.cur.2 = some f)
include hf

theorem fetchCur_eq : fetchCur s = fetchAt s (s.ctx (s.group s.cur.1).page).d f := by
  simp only [fetchCur, hf]

/-- A PC that is no multiple of 4 (R37). -/
theorem fetchCur_misaligned (h : bits f.pc 0 2 ≠ 0) : fetchCur s = .fault (.plain 0x0004 f.mask) 1 := by
  rw [fetchCur_eq hf, fetchAt, if_pos (bne_iff_ne.mpr h)]
  rfl

variable (ha : bits f.pc 0 2 = 0) {w : Word} (hw : fetchWord s (s.ctx (s.group s.cur.1).page).d f f.pc = .ok w)
include ha hw

/-- A continuation word in first position (R37). -/
theorem fetchCur_continuation (h : lenOf w = none) : fetchCur s = .fault (.plain 0x0004 f.mask) 1 := by
  rw [fetchCur_eq hf]
  simp only [fetchAt, ha, hw, h, bne_self_eq_false, Bool.false_eq_true, if_false, if_true]
  rfl

variable (hl : lenOf w ≠ none) {ws : List Word}
  (hws : fetchRest s (s.ctx (s.group s.cur.1).page).d f (fetchCount w - 1) (f.pc + 4) = .ok ws)
include hl hws

/-- The words at the PC are fetched as what they decode to. -/
theorem fetchCur_decodes :
    fetchCur s = match decodeWords (w :: ws) with
      | .ok i => .instr i
      | .error _ => .fault (.plain (codeOf (classOf (bits w 6 8)) cIllegalForm) f.mask) (fetchCount w) := by
  rw [fetchCur_eq hf]
  simp only [fetchAt, ha, hw, hl, hws, bne_self_eq_false, Bool.false_eq_true, if_false]
  rfl

theorem fetchCur_instr {i : Instr} (h : decodeWords (w :: ws) = .ok i) : fetchCur s = .instr i := by
  rw [fetchCur_decodes hf ha hw hl hws, h]

theorem fetchCur_illegalForm (h : decodeWords (w :: ws) = .error .illegalForm) :
    fetchCur s = .fault (.plain (codeOf (classOf (bits w 6 8)) 0x003) f.mask) (fetchCount w) := by
  rw [fetchCur_decodes hf ha hw hl hws, h]
  rfl

end

/-! ### The turns of a step -/

section
variable {s s0 : State}

theorem step_event {i : Instr} (hn : nextTurn s = (.event i, s0)) (hi : isEvent i = true) : step s = exec i s0 := by
  simp only [step, hn, hi, if_true]

variable {core quad : Nat} (hn : nextTurn s = (.issue core quad, s0))
include hn

theorem step_idle {s1 : State} (hc : startIssue s0 core quad = (none, s1)) : step s = .next s1 := by
  simp only [step, hn, hc]

variable {c : Nat × Nat} {s1 s2 : State} (hc : startIssue s0 core quad = (some c, s1))
include hc

theorem step_fetchStalls (ho : openFetch s1 = (false, s2)) : step s = finish s2 := by
  simp only [step, hn, hc, ho]

variable (ho : openFetch s1 = (true, s2))
include ho

theorem step_runs {i : Instr} (h : fetchCur s2 = .instr i) : step s = exec i (fetched s2) := by
  simp only [step, hn, hc, ho, h]

theorem step_fetchFaults {fi : FaultInfo} {len : Nat} (h : fetchCur s2 = .fault fi len) : step s = finish (fetchFault s2 fi len) := by
  simp only [step, hn, hc, ho, h]

end

/-- With no window live and the package not at stage 3 no line gives way to a fetch (R179). -/
theorem openFetch_still {s : State} (hw : anyWindow s = false) (hs : s.sys.stage ≠ 3) : openFetch s = (true, s) := by
  unfold openFetch
  dsimp only
  split
  · rfl
  · exact if_pos (by simp [hw, hs])

/-- Settles O5, by what the chosen fragment fetches. -/
theorem stepRunsDecoded : Obligations.StepRunsDecoded := by
  unfold Obligations.StepRunsDecoded
  refine fun s s0 s1 s2 core quad c f w ws i => ⟨fun hn hc => ⟨fun ho hf => ⟨fun ha hl hw hws => ⟨fun hd => ?_, fun hd => ?_⟩,
    fun ha => ?_, fun ha hl hw => ?_⟩, fun ho => step_fetchStalls hn hc ho, openFetch_still⟩, fun hn hc => step_idle hn hc,
    fun hn hi => step_event hn hi⟩
  · exact step_runs hn hc ho (fetchCur_instr hf ha hw hl hws hd)
  · exact step_fetchFaults hn hc ho (fetchCur_illegalForm hf ha hw hl hws hd)
  · exact step_fetchFaults hn hc ho (fetchCur_misaligned hf ha)
  · exact step_fetchFaults hn hc ho (fetchCur_continuation hf ha hw hl)

end Sys2Proof.Machine
end

section
/-! A supervisor-mode trap of an unassigned opcode ends its context (R130). The fragment has issued in this cycle (R104), and the end of a context
drops the groups of its teams: a group whose team is not resident keeps its fragment, with the cycle of the issue in it. -/
namespace Sys2Proof.Machine.OrphanGroup

/-- A fragment in supervisor mode that last issued in cycle 1. -/
def frag : Frag :=
  { mask := 1, pc := 0, fmt := 0, rsp := 0, sup := true, last := 1, chl := 0, ready := 0, buf := none, only := none, wait := none, since := none,
    stalled := none }

/-- Its group, of team 0. -/
def group : Group := { Group.empty with slot0 := some frag, allot := 64, ended := false }

/-- A running context in cycle 0, with the group and without the team. -/
def state : State := { State.reset with groups := [(0, group)], ctxs := [(0, { Ctx.reset with state := 2 })] }

/-- One word of the unassigned opcode 0xFE. -/
def word : Word := 0x00003F80

/-- The state that the statement names: the context's end, in which the fragment has not issued. -/
def ended : State := settleDoom (markIssued (doomGroup state 0 0 (.plain 0x0002 1)) (state.group 0))

/-- The cycle in which the fragment last issued, in a state. -/
def lastOf (s : State) : Option Nat := ((s.group 0).frag 0).map (fun f => f.last)

/-- The same of the next state of a step. -/
def lastAfter : Host.Outcome State Fault Refusal → Option Nat
  | .next t => lastOf t
  | _ => none

theorem settled_state : state.settled = true := by decide +kernel
theorem mayIssue_frag : mayIssue state (state.group 0) frag = true := by decide +kernel
theorem asyncDue_state : asyncDue state 0 0 = none := by decide +kernel
theorem ended_absent : ended.absent = false := by decide +kernel
theorem lastOf_ended : lastOf ended = some 1 := by decide +kernel
theorem lastAfter_trap : lastAfter (exec (.unassignedOpcode word) state) = some 0 := by decide +kernel

end Sys2Proof.Machine.OrphanGroup

namespace Sys2Proof.Machine

/-- Refutes O3: the trap notes the issue in the fragment before the context ends, and the state that the statement names does not. -/
theorem not_unassignedOpcodesTrap : ¬ Obligations.UnassignedOpcodesTrap := by
  unfold Obligations.UnassignedOpcodesTrap
  intro h
  obtain ⟨-, traps, -⟩ := h
  obtain ⟨-, terminates⟩ := traps OrphanGroup.state OrphanGroup.word OrphanGroup.frag 1 OrphanGroup.settled_state rfl
    OrphanGroup.mayIssue_frag OrphanGroup.asyncDue_state rfl
  obtain ⟨hnext, -⟩ := terminates (Or.inl rfl) OrphanGroup.ended_absent
  have hlast : OrphanGroup.lastAfter (exec (.unassignedOpcode OrphanGroup.word) OrphanGroup.state) = OrphanGroup.lastOf OrphanGroup.ended :=
    congrArg OrphanGroup.lastAfter hnext
  rw [OrphanGroup.lastAfter_trap, OrphanGroup.lastOf_ended] at hlast
  cases hlast

end Sys2Proof.Machine
end


section
/-! What a register finally holds (R50), for every kind of register at once: the value of a lane once the pending writes have completed, what a
write does to it, and that growing issue distances leave it as it is. -/
namespace Sys2Proof.Machine

/-! ### Finite maps -/

theorem ffind_none_of_not_mem {β : Type} {m : FMap β} {k : Nat} (h : k ∉ m.map (fun x => x.1)) : ffind m k = none := by
  induction m with
  | nil => rfl
  | cons x m ih =>
    simp only [List.map_cons, List.mem_cons, not_or] at h
    simp only [ffind, beq_iff_eq, Ne.symm h.1, if_false]
    exact ih h.2

theorem ffind_some_of_mem {β : Type} {m : FMap β} {k : Nat} (h : k ∈ m.map (fun x => x.1)) : ∃ v, ffind m k = some v := by
  induction m with
  | nil => cases h
  | cons x m ih =>
    by_cases hx : x.1 = k
    · exact ⟨x.2, by simp [ffind, hx]⟩
    · obtain ⟨v, hv⟩ := ih (by simpa [Ne.symm hx] using h)
      exact ⟨v, by simpa [ffind, hx] using hv⟩

/-- A filter that keeps every entry of a key keeps what is found there. -/
theorem ffind_filter_of {β : Type} {p : Nat × β → Bool} {k : Nat} (m : FMap β) (h : ∀ x, x.1 = k → p x = true) :
    ffind (m.filter p) k = ffind m k := by
  induction m with
  | nil => rfl
  | cons x m ih =>
    rw [List.filter_cons]
    by_cases hk : x.1 = k
    · rw [if_pos (h x hk)]
      simp [ffind, hk]
    · split <;> simp [ffind, hk, ih]

/-- A map given by a function on a list of keys. -/
theorem ffind_map {β : Type} {f : Nat → β} {ls : List Nat} {k : Nat} : ffind (ls.map (fun l => (l, f l))) k = if k ∈ ls then some (f k) else none := by
  induction ls with
  | nil => rfl
  | cons l ls ih =>
    by_cases h : l = k
    · simp [ffind, h]
    · simp [ffind, h, ih, Ne.symm h]

/-! ### Cells -/

/-- A lane of a register: a uniform one has lane 0 alone. -/
def RegName.hasLane (r : RegName) (l : Nat) : Prop := l < 32 ∧ (r.uniform = true → l = 0)

/-- Values for lanes of a register, each of which they name once at most: what `pendOk` asks of a pending write. -/
def RegName.takes (r : RegName) (vals : List (Nat × Word)) : Prop :=
  (vals.map (fun x => x.1)).Nodup ∧ ∀ x ∈ vals, r.hasLane x.1

/-- What a reader sees of a word in a register: of a predicate whether it is zero, of p7 and k3 that they are true (R46, R59). -/
def RegName.seen (r : RegName) (x : Word) : Word :=
  match r with
  | .v _ => x
  | .s _ => x
  | .p n => if n == 7 || x != 0 then 1 else 0
  | .k n => if n == 3 || x != 0 then 1 else 0

/-- A lane of a register as it is committed. -/
def Group.held (g : Group) (r : RegName) (l : Nat) : Word :=
  match r with
  | .v n => fget g.v (32 * n + l) 0
  | .s n => fget g.s n 0
  | .p n => if bit (fget g.p n 0) l then 1 else 0
  | .k n => fget g.k n 0

/-- Pending writes over a committed value. -/
def landOn (pend : List PWrite) (r : RegName) (l : Nat) (x : Word) : Word :=
  pend.foldl (fun v w => if w.reg == r then (ffind w.vals l).getD v else v) x

/-- A lane of a register as a reader sees it once the pending writes have completed. -/
def Group.final (g : Group) (r : RegName) (l : Nat) : Word := r.seen (landOn g.pend r l (g.held r l))

theorem Group.finalV_eq (g : Group) (n l : Nat) : g.finalV n l = g.final (.v n) l := rfl

theorem Group.finalS_eq (g : Group) (n : Nat) : g.finalS n = g.final (.s n) 0 := rfl

/-- A word of 0 or 1 is 1 when the condition it is made of holds. -/
theorem word_of_cond (b : Bool) : ((if b then 1 else 0 : Word) != 0) = b := by cases b <;> rfl

theorem Group.finalP_eq (g : Group) (n l : Nat) : g.finalP n l = (g.final (.p n) l != 0) := (word_of_cond _).symm

theorem Group.finalK_eq (g : Group) (n : Nat) : g.finalK n = (g.final (.k n) 0 != 0) := (word_of_cond _).symm

/-! ### Pending writes over a value -/

section
variable {r : RegName} {l : Nat}

theorem landOn_cons (w : PWrite) (ws : List PWrite) (x : Word) :
    landOn (w :: ws) r l x = landOn ws r l (if w.reg = r then (ffind w.vals l).getD x else x) := by
  simp only [landOn, List.foldl_cons, beq_iff_eq]

theorem landOn_append (p q : List PWrite) (x : Word) : landOn (p ++ q) r l x = landOn q r l (landOn p r l x) := List.foldl_append

/-- Writes to other registers leave a value. -/
theorem landOn_of_ne {pend : List PWrite} (h : ∀ w ∈ pend, w.reg ≠ r) (x : Word) : landOn pend r l x = x := by
  induction pend with
  | nil => rfl
  | cons w ws ih =>
    rw [landOn_cons, if_neg (h w List.mem_cons_self)]
    exact ih (fun u hu => h u (List.mem_cons_of_mem w hu))

/-- Writes of no value leave a value. -/
theorem landOn_of_empty {pend : List PWrite} (h : ∀ w ∈ pend, w.vals = []) (x : Word) : landOn pend r l x = x := by
  induction pend with
  | nil => rfl
  | cons w ws ih =>
    have hw : (if w.reg = r then (ffind w.vals l).getD x else x) = x := by simp [h w List.mem_cons_self]
    rw [landOn_cons, hw]
    exact ih (fun u hu => h u (List.mem_cons_of_mem w hu))

/-- What a reader sees depends on what one would see of the committed value. -/
theorem seen_landOn_congr {x y : Word} (h : r.seen x = r.seen y) (pend : List PWrite) :
    r.seen (landOn pend r l x) = r.seen (landOn pend r l y) := by
  induction pend generalizing x y with
  | nil => exact h
  | cons w ws ih =>
    rw [landOn_cons, landOn_cons]
    apply ih
    split
    · cases ffind w.vals l with
      | none => exact h
      | some z => rfl
    · exact h

/-- Updates of the writes that keep their registers and what they give the lane keep what lands there. -/
theorem landOn_map {u : PWrite → PWrite} {pend : List PWrite} (hreg : ∀ w, (u w).reg = w.reg)
    (hval : ∀ w, w.reg = r → ffind (u w).vals l = ffind w.vals l) (x : Word) : landOn (pend.map u) r l x = landOn pend r l x := by
  induction pend generalizing x with
  | nil => rfl
  | cons w ws ih =>
    rw [List.map_cons, landOn_cons, landOn_cons, ih, hreg]
    split
    · next hr => rw [hval w hr]
    · rfl

end

/-! ### Commits -/

theorem bit_allLanes {l : Nat} (h : l < 32) : bit allLanes l = true :=
  (by decide : ∀ k : Fin 32, bit allLanes k = true) ⟨l, h⟩

theorem bit_setP {l l' : Nat} (hl' : l' < 32) (m : Mask) (b : Bool) :
    bit ((m &&& ~~~setBit (0 : Mask) l true) ||| ((if b then allLanes else 0) &&& setBit (0 : Mask) l true)) l' = if l' = l then b else bit m l' := by
  have hset : bit (setBit (0 : Mask) l true) l' = decide (l' = l) := by
    show ((0 : Mask) ||| BitVec.ofNat 32 (2 ^ l)).getLsbD l' = _
    rw [BitVec.getLsbD_or, BitVec.getLsbD_ofNat, Nat.testBit_two_pow]
    simp [hl', eq_comm]
  have hval : bit (if b then allLanes else 0 : Mask) l' = b := by
    cases b
    · exact BitVec.getLsbD_zero
    · exact bit_allLanes hl'
  unfold bit at hset hval ⊢
  rw [BitVec.getLsbD_or, BitVec.getLsbD_and, BitVec.getLsbD_and, BitVec.getLsbD_not, hset, hval]
  by_cases h : l' = l <;> simp [h, hl']

section
variable {r r' : RegName} {l l' : Nat}

/-- A commit to another register. -/
theorem Group.held_commit_ne (g : Group) (h : r' ≠ r) (v : Word) (hl : l < 32) (hl' : l' < 32) : (g.commit r l v).held r' l' = g.held r' l' := by
  cases r with
  | v n =>
    cases r' with
    | v m =>
      have hn : m ≠ n := fun e => h (congrArg RegName.v e)
      exact fget_fset_ne g.v (by omega)
    | _ => rfl
  | s n =>
    cases r' with
    | s m => exact fget_fset_ne g.s (fun e => h (congrArg RegName.s e))
    | _ => rfl
  | p n =>
    show (g.setP n _ _).held r' l' = _
    unfold setP
    split
    · rfl
    · cases r' with
      | p m => exact congrArg (fun x => if bit x l' then (1 : Word) else 0) (fget_fset_ne g.p (fun e => h (congrArg RegName.p e)))
      | _ => rfl
  | k n =>
    show (g.setK n _).held r' l' = _
    unfold setK
    split
    · rfl
    · cases r' with
      | k m => exact fget_fset_ne g.k (fun e => h (congrArg RegName.k e))
      | _ => rfl

/-- A commit to a lane of a register, as a reader sees its lanes. -/
theorem Group.held_commit_self (g : Group) (v : Word) (hl : r.hasLane l) (hl' : r.hasLane l') :
    r.seen ((g.commit r l v).held r l') = r.seen (if l' = l then v else g.held r l') := by
  obtain ⟨hlt, huni⟩ := hl
  obtain ⟨hlt', huni'⟩ := hl'
  cases r with
  | v n =>
    split
    · next h => exact h ▸ fget_fset_self g.v _ _ _
    · exact fget_fset_ne g.v (by omega)
  | s n =>
    rw [if_pos ((huni' rfl).trans (huni rfl).symm)]
    exact fget_fset_self g.s n 0 v
  | p n =>
    by_cases hn : n = 7
    · simp [RegName.seen, hn]
    · have hval : (if v = 0 then (0 : Mask) else allLanes) = if v != 0 then allLanes else 0 := by by_cases hv : v = 0 <;> simp [hv]
      have hheld : (g.commit (.p n) l v).held (.p n) l' = if (if l' = l then v != 0 else bit (fget g.p n 0) l') then 1 else 0 := by
        simp only [commit, setP, held, hn, if_false, fget_fset_self, hval, bit_setP hlt']
      rw [hheld]
      split
      · simp only [RegName.seen, word_of_cond]
      · rfl
  | k n =>
    rw [if_pos ((huni' rfl).trans (huni rfl).symm)]
    by_cases hn : n = 3
    · simp [RegName.seen, hn]
    · simp only [commit, setK, held, RegName.seen, hn, if_false, fget_fset_self, word_of_cond]

/-- Commits of values to other registers. -/
theorem Group.held_commits_ne (g : Group) (h : r' ≠ r) {vals : List (Nat × Word)} (ht : ∀ x ∈ vals, r.hasLane x.1) (hl' : l' < 32) :
    (vals.foldl (fun g x => g.commit r x.1 x.2) g).held r' l' = g.held r' l' := by
  induction vals generalizing g with
  | nil => rfl
  | cons x vals ih =>
    rw [List.foldl_cons, ih _ (fun y hy => ht y (List.mem_cons_of_mem x hy)), held_commit_ne g h x.2 (ht x List.mem_cons_self).1 hl']

/-- Commits of values for a register's lanes. -/
theorem Group.held_commits_self (g : Group) {vals : List (Nat × Word)} (ht : r.takes vals) (hl' : r.hasLane l') :
    r.seen ((vals.foldl (fun g x => g.commit r x.1 x.2) g).held r l') = r.seen ((ffind vals l').getD (g.held r l')) := by
  induction vals generalizing g with
  | nil => rfl
  | cons x vals ih =>
    obtain ⟨hnd, hin⟩ := ht
    rw [List.map_cons, List.nodup_cons] at hnd
    have hx := held_commit_self g x.2 (hin x List.mem_cons_self) hl'
    rw [List.foldl_cons, ih _ ⟨hnd.2, fun y hy => hin y (List.mem_cons_of_mem x hy)⟩]
    by_cases h : l' = x.1
    · rw [if_pos h] at hx
      rw [ffind_none_of_not_mem (h ▸ hnd.1)]
      simpa [ffind, h] using hx
    · rw [if_neg h] at hx
      simp only [ffind, beq_iff_eq, Ne.symm h, if_false]
      cases ffind vals l' with
      | none => exact hx
      | some y => rfl

end

@[simp] theorem Group.commits_pend (r : RegName) (vals : List (Nat × Word)) (g : Group) :
    (vals.foldl (fun g x => g.commit r x.1 x.2) g).pend = g.pend := by
  refine List.foldlRecOn (motive := fun b : Group => b.pend = g.pend) vals _ rfl (fun b hb x _ => Eq.trans ?_ hb)
  cases r with
  | v n => rfl
  | s n => rfl
  | p n =>
    show (b.setP n _ _).pend = _
    unfold setP
    split <;> rfl
  | k n =>
    show (b.setK n _).pend = _
    unfold setK
    split <;> rfl

/-! ### A write -/

section
variable {r r' : RegName} {l : Nat} {vals : List (Nat × Word)}

/-- A register whose every word reads alike. -/
theorem RegName.seen_fixed (h : r = .p 7 ∨ r = .k 3) (x y : Word) : r.seen x = r.seen y := by
  obtain rfl | rfl := h <;> rfl

/-- Discarding a register's older pending writes in some lanes leaves what lands elsewhere. -/
theorem Group.landOn_forget (g : Group) {ls : List Nat} (h : r' = r → l ∉ ls) (x : Word) : landOn (g.forget r ls).pend r' l x = landOn g.pend r' l x := by
  refine landOn_map (fun w => ?_) (fun w hw => ?_) x
  · split <;> rfl
  · split
    · next hr =>
      have hl := h (hw.symm.trans (beq_iff_eq.mp hr))
      exact ffind_filter_of w.vals (fun y hy => by simpa [hy] using hl)
    · rfl

/-- A write that has arrived. -/
theorem Group.final_arrive_self (g : Group) (ht : r.takes vals) (hl : r.hasLane l) :
    (g.arrive r vals).final r l = ((ffind vals l).map r.seen).getD (g.final r l) := by
  have hheld := held_commits_self (g.forget r (vals.map (fun x => x.1))) ht hl
  have hpend : (g.arrive r vals).pend = (g.forget r (vals.map (fun x => x.1))).pend := commits_pend r vals _
  unfold final
  rw [hpend]
  refine (seen_landOn_congr hheld _).trans ?_
  by_cases hm : l ∈ vals.map (fun x => x.1)
  · obtain ⟨y, hy⟩ := ffind_some_of_mem hm
    rw [hy]
    exact congrArg r.seen (landed_forget g r hm y)
  · rw [ffind_none_of_not_mem hm]
    exact congrArg r.seen (landOn_forget g (fun _ => hm) _)

theorem Group.final_arrive_ne (g : Group) (h : r' ≠ r) (ht : r.takes vals) (hl : l < 32) : (g.arrive r vals).final r' l = g.final r' l := by
  have hpend : (g.arrive r vals).pend = (g.forget r (vals.map (fun x => x.1))).pend := commits_pend r vals _
  have hheld : (g.arrive r vals).held r' l = g.held r' l := 
    held_commits_ne (g.forget r (vals.map (fun x : Nat × Word => x.1))) h ht.2 hl
  unfold final
  rw [hpend, hheld, landOn_forget g (fun e => absurd e h)]

/-- A further pending write. -/
theorem Group.final_pend_append (g : Group) (w : PWrite) :
    ({ g with pend := g.pend ++ [w] } : Group).final r l = if w.reg = r then ((ffind w.vals l).map r.seen).getD (g.final r l) else g.final r l := by
  show r.seen (landOn (g.pend ++ [w]) r l (g.held r l)) = _
  rw [landOn_append, landOn_cons]
  split
  · cases ffind w.vals l <;> rfl
  · rfl

/-- A write by an instruction, of any latency: in the end each lane it names holds its value. -/
theorem Group.final_write_self (g : Group) (slot lat : Nat) (ht : r.takes vals) (hl : r.hasLane l) :
    (g.write slot r vals lat).final r l = ((ffind vals l).map r.seen).getD (g.final r l) := by
  unfold write
  split
  · next hskip =>
    simp only [Bool.or_eq_true, List.isEmpty_iff, beq_iff_eq, or_assoc] at hskip
    obtain rfl | hfix := hskip
    · rfl
    · cases ffind vals l with
      | none => rfl
      | some y => exact RegName.seen_fixed hfix _ y
  · split
    · exact final_arrive_self g ht hl
    · exact (final_pend_append g _).trans (if_pos rfl)

/-- Every other register holds what it would have held. -/
theorem Group.final_write_ne (g : Group) (slot lat : Nat) (h : r' ≠ r) (ht : r.takes vals) (hl : l < 32) :
    (g.write slot r vals lat).final r' l = g.final r' l := by
  unfold write
  split
  · rfl
  · split
    · exact final_arrive_ne g h ht hl
    · exact (final_pend_append g _).trans (if_neg (Ne.symm h))

end

/-! ### The pending writes' own form -/

theorem Group.pendOk_iff (g : Group) : g.pendOk ↔ ∀ w ∈ g.pend, w.reg.takes w.vals := Iff.rfl

theorem RegName.takes_filter {r : RegName} {vals : List (Nat × Word)} (h : r.takes vals) (p : Nat × Word → Bool) : r.takes (vals.filter p) :=
  ⟨h.1.sublist (List.filter_sublist.map _), fun x hx => h.2 x (List.mem_filter.mp hx).1⟩

theorem Group.pendOk_arrive {g : Group} (h : g.pendOk) (r : RegName) (vals : List (Nat × Word)) : (g.arrive r vals).pendOk := by
  intro w hw
  rw [show (g.arrive r vals).pend = (g.forget r (vals.map (fun x => x.1))).pend from commits_pend r vals _] at hw
  obtain ⟨u, hu, rfl⟩ := List.mem_map.mp hw
  split
  · exact RegName.takes_filter (h u hu) _
  · exact h u hu

theorem Group.pendOk_write {g : Group} (h : g.pendOk) (slot lat : Nat) {r : RegName} {vals : List (Nat × Word)} (ht : r.takes vals) :
    (g.write slot r vals lat).pendOk := by
  unfold write
  split
  · exact h
  · split
    · exact pendOk_arrive h r vals
    · intro w hw
      obtain hw | hw := List.mem_append.mp hw
      · exact h w hw
      · rw [List.mem_singleton.mp hw]
        exact ht

/-! ### Growing distances -/

theorem Group.final_commitW {g : Group} {w : PWrite} (hw : w.reg.takes w.vals) {kept l : List PWrite} (hk : ∀ k ∈ kept, k.reg ≠ w.reg)
    {r : RegName} {n : Nat} (hn : r.hasLane n) :
    ({ g.commitW w with pend := kept ++ l } : Group).final r n = ({ g with pend := kept ++ w :: l } : Group).final r n := by
  show r.seen (landOn (kept ++ l) r n ((g.commitW w).held r n)) = r.seen (landOn (kept ++ w :: l) r n (g.held r n))
  rw [landOn_append, landOn_append, landOn_cons]
  by_cases hr : w.reg = r
  · subst hr
    rw [landOn_of_ne hk, landOn_of_ne hk, if_pos rfl]
    exact seen_landOn_congr (held_commits_self g hw hn) l
  · rw [if_neg hr, show (g.commitW w).held r n = g.held r n from held_commits_ne g (Ne.symm hr) hw.2 hn.1]

/-- Committing the pending writes whose distances cover their latencies, as `settlePend` chooses them, leaves what registers finally hold. -/
theorem settlePend_final {g : Group} {kept l : List PWrite} (hl : ∀ w ∈ l, w.reg.takes w.vals) {r : RegName} {n : Nat} (hn : r.hasLane n) :
    (settlePend g kept l).final r n = ({ g with pend := kept ++ l } : Group).final r n := by
  induction l generalizing g kept with
  | nil => rw [settlePend, List.append_nil]
  | cons w l ih =>
    have hl' : ∀ u ∈ l, u.reg.takes u.vals := fun u hu => hl u (List.mem_cons_of_mem w hu)
    unfold settlePend
    split
    · next hc =>
      simp only [Bool.and_eq_true, List.all_eq_true, bne_iff_ne] at hc
      rw [ih hl', Group.final_commitW (hl w List.mem_cons_self) hc.2 hn]
    · rw [ih hl', List.append_assoc]
      rfl

theorem settlePend_pend {g : Group} {kept l : List PWrite} : ∀ w ∈ (settlePend g kept l).pend, w ∈ kept ++ l := by
  induction l generalizing g kept with
  | nil => exact fun w hw => by simpa [settlePend] using hw
  | cons u l ih =>
    intro w hw
    unfold settlePend at hw
    split at hw
    · have := ih w hw
      simp only [List.mem_append, List.mem_cons] at this ⊢
      tauto
    · simpa using ih w hw

/-- A slot's pending writes with their distances grown. -/
def grown (slot d : Nat) (w : PWrite) : PWrite := if w.slot == slot then { w with dist := w.dist + d } else w

@[simp] theorem grown_reg (slot d : Nat) (w : PWrite) : (grown slot d w).reg = w.reg := by unfold grown; split <;> rfl
@[simp] theorem grown_vals (slot d : Nat) (w : PWrite) : (grown slot d w).vals = w.vals := by unfold grown; split <;> rfl

section
variable {g : Group} (h : g.pendOk) (slot d : Nat)
include h

theorem Group.pendOk_grown : ∀ w ∈ g.pend.map (grown slot d), w.reg.takes w.vals := by
  intro w hw
  obtain ⟨u, hu, rfl⟩ := List.mem_map.mp hw
  rw [grown_reg, grown_vals]
  exact h u hu

theorem Group.final_travel {r : RegName} {n : Nat} (hn : r.hasLane n) : (g.travel slot d).final r n = g.final r n := by
  refine (settlePend_final (kept := []) (pendOk_grown h slot d) hn).trans ?_
  exact congrArg r.seen (landOn_map (grown_reg slot d) (fun w _ => by rw [grown_vals]) _)

theorem Group.pendOk_travel : (g.travel slot d).pendOk := fun w hw => pendOk_grown h slot d w (settlePend_pend (kept := []) w hw)

end

/-! ### What a write leaves of FSTAT and SEED -/

/-- A group that differs from another in registers and their pending writes at most. -/
def Group.bankOf (g g' : Group) : Prop := g' = { g with v := g'.v, s := g'.s, p := g'.p, k := g'.k, pend := g'.pend }

theorem Group.bankOf_refl (g : Group) : g.bankOf g := rfl

theorem Group.bankOf_trans {a b c : Group} (h1 : a.bankOf b) (h2 : b.bankOf c) : a.bankOf c := by
  unfold bankOf at *
  rw [h2, h1]

theorem Group.bankOf_pend {g g' : Group} (h : g.bankOf g') (l : List PWrite) : g.bankOf { g' with pend := l } := by
  unfold bankOf at *
  rw [h]

theorem Group.bankOf_commit (g : Group) (r : RegName) (l : Nat) (v : Word) : g.bankOf (g.commit r l v) := by
  cases r with
  | v n => rfl
  | s n => rfl
  | p n =>
    show g.bankOf (g.setP n _ _)
    unfold setP
    split <;> rfl
  | k n =>
    show g.bankOf (g.setK n _)
    unfold setK
    split <;> rfl

theorem Group.bankOf_commits (g : Group) (r : RegName) (vals : List (Nat × Word)) : g.bankOf (vals.foldl (fun g x => g.commit r x.1 x.2) g) :=
  List.foldlRecOn (motive := g.bankOf) vals _ (bankOf_refl g) (fun b hb x _ => bankOf_trans hb (bankOf_commit b r x.1 x.2))

theorem Group.bankOf_write (g : Group) (slot : Nat) (r : RegName) (vals : List (Nat × Word)) (lat : Nat) : g.bankOf (g.write slot r vals lat) := by
  unfold write
  split
  · exact bankOf_refl g
  · split
    · exact bankOf_trans (bankOf_pend (bankOf_refl g) _) (bankOf_commits _ r vals)
    · exact bankOf_pend (bankOf_refl g) _

theorem settlePend_bankOf (g : Group) (kept l : List PWrite) : g.bankOf (settlePend g kept l) := by
  induction l generalizing g kept with
  | nil => exact Group.bankOf_pend (Group.bankOf_refl g) kept
  | cons w l ih =>
    unfold settlePend
    split
    · exact Group.bankOf_trans (Group.bankOf_commits g w.reg w.vals) (ih _ _)
    · exact ih _ _

theorem Group.bankOf_seed {g g' : Group} (h : g.bankOf g') : g'.seed = g.seed := by rw [h]
theorem Group.bankOf_fstat {g g' : Group} (h : g.bankOf g') : g'.fstat = g.fstat := by rw [h]
theorem Group.bankOf_finalFlags {g g' : Group} (h : g.bankOf g') : g'.finalFlags = g.finalFlags := by rw [h]; rfl

/-! ### Flags -/

theorem pendFlags_cons (x : PFlag) (l : List PFlag) : pendFlags (x :: l) = x.flags ||| pendFlags l := by
  have h : ∀ (l : List PFlag) (a b : Flags), l.foldl (fun a x => a ||| x.flags) (a ||| b) = a ||| l.foldl (fun a x => a ||| x.flags) b := by
    intro l
    induction l with
    | nil => exact fun a b => rfl
    | cons y l ih => exact fun a b => by rw [List.foldl_cons, List.foldl_cons, BitVec.or_assoc, ih]
  have e : (0 : Flags) ||| x.flags = x.flags ||| 0 := BitVec.or_comm _ _
  rw [pendFlags, List.foldl_cons, e, h]
  rfl

theorem pendFlags_filter (p : PFlag → Bool) (l : List PFlag) : pendFlags (l.filter p) ||| pendFlags (l.filter (fun x => !p x)) = pendFlags l := by
  induction l with
  | nil => exact BitVec.or_self
  | cons x l ih =>
    cases hx : p x
    · rw [List.filter_cons_of_neg (by simp [hx]), List.filter_cons_of_pos (by simp [hx]), pendFlags_cons, pendFlags_cons, ← ih,
        ← BitVec.or_assoc, BitVec.or_comm _ x.flags, BitVec.or_assoc]
    · rw [List.filter_cons_of_pos hx, List.filter_cons_of_neg (by simp [hx]), pendFlags_cons, pendFlags_cons, ← ih, BitVec.or_assoc]

/-- Making pending updates of FSTAT leaves what it finally holds. -/
theorem Group.mergeFlags_finalFlags (g : Group) (p : PFlag → Bool) : (g.mergeFlags p).finalFlags = g.finalFlags := by
  show (g.fstat ||| pendFlags (g.pfl.filter p)) ||| pendFlags (g.pfl.filter (fun x => !p x)) = g.fstat ||| pendFlags g.pfl
  rw [BitVec.or_assoc, pendFlags_filter]

theorem pendFlags_map {u : PFlag → PFlag} (h : ∀ x, (u x).flags = x.flags) (l : List PFlag) : pendFlags (l.map u) = pendFlags l := by
  induction l with
  | nil => rfl
  | cons x l ih => rw [List.map_cons, pendFlags_cons, pendFlags_cons, ih, h]

/-- The flags of one value are among those of another. -/
theorem or_and_self {n : Nat} (a b : BitVec n) : (a ||| b) &&& a = a := by
  apply BitVec.eq_of_getLsbD_eq
  intro i _
  simp only [BitVec.getLsbD_and, BitVec.getLsbD_or]
  cases a.getLsbD i <;> simp

/-! ### Frames -/

/-- A group that an instruction with destinations `ds` and active lanes `m` may leave of another: the registers but for the destinations in those
lanes finally hold what they would have held, FSTAT only gains flags, and SEED, the control stack, EXITED, the counters and the allotment
are the same. -/
structure Group.Framed (ds : List RegName) (m : Mask) (g g' : Group) : Prop where
  pendOk : g'.pendOk
  final : ∀ r l, r.hasLane l → r ∉ ds ∨ (r.uniform = false ∧ bit m l = false) → g'.final r l = g.final r l
  gains : g'.fstat &&& g.fstat = g.fstat
  finalGains : g'.finalFlags &&& g.finalFlags = g.finalFlags
  seed : g'.seed = g.seed
  kept : g'.exited = g.exited ∧ g'.chip = g.chip ∧ g'.sp = g.sp ∧ g'.cnt = g.cnt ∧ g'.allot = g.allot

section
variable {ds : List RegName} {m : Mask} {g g' : Group}

theorem Group.Framed.refl (h : g.pendOk) : g.Framed ds m g :=
  ⟨h, fun _ _ _ _ => rfl, BitVec.and_self, BitVec.and_self, rfl, rfl, rfl, rfl, rfl, rfl⟩

/-- A flag of one value that a second keeps and a third keeps of the second. -/
theorem and_trans {n : Nat} {a b c : BitVec n} (h1 : b &&& a = a) (h2 : c &&& b = b) : c &&& a = a := by
  rw [← h1, ← BitVec.and_assoc, h2]

theorem Group.Framed.trans {a b c : Group} (h1 : a.Framed ds m b) (h2 : b.Framed ds m c) : a.Framed ds m c := by
  obtain ⟨-, f1, s1, l1, d1, x1, x2, x3, x4, x5⟩ := h1
  obtain ⟨p2, f2, s2, l2, d2, y1, y2, y3, y4, y5⟩ := h2
  exact ⟨p2, fun r l hl h => (f2 r l hl h).trans (f1 r l hl h), and_trans s1 s2, and_trans l1 l2, d2.trans d1, y1.trans x1, y2.trans x2,
    y3.trans x3, y4.trans x4, y5.trans x5⟩

/-- What `sameRegs` asks, lane by lane. -/
theorem Group.Framed.sameRegs (h : g.Framed ds m g') : sameRegs g g' ds m :=
  ⟨fun n l hl hd => h.final (.v n) l ⟨hl, nofun⟩ (hd.imp id (⟨rfl, ·⟩)),
    fun n hd => h.final (.s n) 0 ⟨by decide, fun _ => rfl⟩ (.inl hd),
    fun n l hl hd => by rw [finalP_eq, finalP_eq, h.final (.p n) l ⟨hl, nofun⟩ (hd.imp id (⟨rfl, ·⟩))],
    fun n hd => by rw [finalK_eq, finalK_eq, h.final (.k n) 0 ⟨by decide, fun _ => rfl⟩ (.inl hd)]⟩

/-- Writes to destinations of a frame: lanes that the register has, and active ones of a register of lanes. -/
def Fits (ds : List RegName) (m : Mask) (r : RegName) (ls : List Nat) : Prop :=
  r ∈ ds ∧ ls.Nodup ∧ ∀ l ∈ ls, r.hasLane l ∧ (r.uniform = false → bit m l = true)

theorem Group.Framed.write (h : g.pendOk) {r : RegName} {vals : List (Nat × Word)} (hf : Fits ds m r (vals.map (fun x => x.1))) (slot lat : Nat) :
    g.Framed ds m (g.write slot r vals lat) := by
  obtain ⟨hd, hnd, hl⟩ := hf
  have ht : r.takes vals := ⟨hnd, fun x hx => (hl x.1 (List.mem_map_of_mem hx)).1⟩
  have hb := bankOf_write g slot r vals lat
  have hr := write_regsOf g slot r vals lat
  refine ⟨pendOk_write h slot lat ht, fun r' l hl' hout => ?_, by rw [bankOf_fstat hb, BitVec.and_self],
    by rw [bankOf_finalFlags hb, BitVec.and_self], bankOf_seed hb, by rw [hr], by rw [hr], by rw [hr], by rw [hr], by rw [hr]⟩
  by_cases hr' : r' = r
  · subst hr'
    obtain hn | ⟨hu, hm⟩ := hout
    · exact absurd hd hn
    · rw [final_write_self g slot lat ht hl', ffind_none_of_not_mem (fun hin => by simp [(hl l hin).2 hu] at hm)]
      rfl
  · exact final_write_ne g slot lat hr' ht hl'.1

theorem Group.Framed.put (h : g.pendOk) {dst : List (RegName × Nat)} {vals : List (Nat × DWord)}
    (hf : ∀ d ∈ dst, Fits ds m d.1 (vals.map (fun x => x.1))) (slot : Nat) : g.Framed ds m (g.put slot dst vals) := by
  have hmap : ∀ f : DWord → Word, (vals.map (fun x => (x.1, f x.2))).map (fun x => x.1) = vals.map (fun x => x.1) := fun f => by simp
  have hw : ∀ (g : Group), g.pendOk → ∀ d ∈ dst, ∀ f : DWord → Word, g.Framed ds m (g.write slot d.1 (vals.map (fun x => (x.1, f x.2))) d.2) :=
    fun g h d hd f => Framed.write h (by rw [hmap]; exact hf d hd) slot d.2
  unfold Group.put
  split
  · exact Framed.refl h
  · next d => exact hw g h d List.mem_cons_self lo32
  · next d e l =>
    have h1 := hw g h d List.mem_cons_self lo32
    exact h1.trans (hw _ h1.pendOk e (List.mem_cons_of_mem d List.mem_cons_self) hi32)

theorem Group.Framed.flags (h : g.pendOk) (slot lat : Nat) (f : Flags) : g.Framed ds m (g.flags slot lat f) := by
  have hff := flags_finalFlags g slot lat f
  have hr := flags_regsOf g slot lat f
  refine ⟨?_, fun r l _ _ => ?_, ?_, by rw [hff, or_and_self], ?_, by rw [hr], by rw [hr], by rw [hr], by rw [hr], by rw [hr]⟩
  all_goals unfold Group.flags; split
  · exact h
  · exact h
  · rfl
  · rfl
  · exact or_and_self _ _
  · exact BitVec.and_self
  · rfl
  · rfl

theorem Group.Framed.travel (h : g.pendOk) (slot d : Nat) : g.Framed ds m (g.travel slot d) := by
  let g1 : Group := { g with pfl := g.pfl.map (fun x => if x.slot == slot then { x with dist := x.dist + d } else x) }
  let g2 : Group := settlePend g1 [] (g.pend.map (grown slot d))
  have hb : g1.bankOf g2 := settlePend_bankOf g1 [] _
  have hpfl : g1.finalFlags = g.finalFlags := congrArg (g.fstat ||| ·) (pendFlags_map (fun x => by split <;> rfl) g.pfl)
  have hr := travel_regsOf g slot d
  have hff : (g.travel slot d).finalFlags = g.finalFlags := (mergeFlags_finalFlags g2 _).trans ((bankOf_finalFlags hb).trans hpfl)
  refine ⟨pendOk_travel h slot d, fun r l hl _ => final_travel h slot d hl, ?_, by rw [hff, BitVec.and_self],
    (bankOf_seed hb :), by rw [hr], by rw [hr], by rw [hr], by rw [hr], by rw [hr]⟩
  have hfs : g2.fstat = g.fstat := (bankOf_fstat hb :)
  exact hfs ▸ or_and_self g2.fstat _

/-- The pending writes that an instruction without effect leaves hold no value. -/
theorem Group.Framed.pendNone (h : g.pendOk) {ws : List PWrite} (hw : ∀ w ∈ ws, w.vals = []) : g.Framed ds m { g with pend := g.pend ++ ws } := by
  refine ⟨fun w hin => ?_, fun r l _ _ => ?_, BitVec.and_self, BitVec.and_self, rfl, rfl, rfl, rfl, rfl, rfl⟩
  · obtain hin | hin := List.mem_append.mp hin
    · exact h w hin
    · rw [hw w hin]
      exact ⟨List.nodup_nil, nofun⟩
  · show r.seen (landOn (g.pend ++ ws) r l (g.held r l)) = _
    rw [landOn_append, landOn_of_empty hw]
    rfl

/-- A change of a fragment. -/
theorem Group.Framed.modFrag (h : g.Framed ds m g') (k : Nat) (u : Frag → Frag) : g.Framed ds m (g'.modFrag k u) := by
  obtain ⟨p, f, s, l, d, x⟩ := h
  unfold Group.modFrag setFrag
  split <;> exact ⟨p, f, s, l, d, x⟩

end

end Sys2Proof.Machine
end


section
/-! The arithmetic families (R47, R63, R143): each of their instructions issues as an effect that goes on and writes its destinations in its active
lanes alone, so that it completes and everything else is framed. -/
namespace Sys2Proof.Machine

/-! ### Words made of bits -/

/-- The number whose bits below k are those of f. -/
def bitSum (f : Nat → Bool) (k : Nat) : Nat := (List.range k).foldl (fun n i => if f i then n + 2 ^ i else n) 0

theorem bitSum_succ (f : Nat → Bool) (k : Nat) : bitSum f (k + 1) = if f k then bitSum f k + 2 ^ k else bitSum f k := by
  simp [bitSum, List.range_succ]

theorem bitSum_lt (f : Nat → Bool) (k : Nat) : bitSum f k < 2 ^ k := by
  induction k with
  | zero => exact Nat.one_pos
  | succ k ih =>
    rw [bitSum_succ, Nat.pow_succ]
    split <;> omega

theorem testBit_bitSum (f : Nat → Bool) (k i : Nat) : (bitSum f k).testBit i = (decide (i < k) && f i) := by
  induction k with
  | zero => simp [bitSum]
  | succ k ih =>
    have hk := bitSum_lt f k
    have hsum : bitSum f (k + 1) = 2 ^ k * (if f k then 1 else 0) + bitSum f k := by
      rw [bitSum_succ]
      split <;> omega
    rw [hsum, Nat.testBit_two_pow_mul_add _ hk, ih]
    by_cases hi : i < k
    · simp [hi, Nat.lt_succ_of_lt hi]
    · by_cases he : i = k
      · subst he
        cases f i <;> simp
      · obtain ⟨j, hj⟩ : ∃ j, i - k = j + 1 := ⟨i - k - 1, by omega⟩
        have hno : ¬ i < k + 1 := by omega
        cases f k <;> simp [hi, hno, hj, Nat.testBit_succ]

@[simp] theorem bit_bitsOf (w : Nat) (f : Nat → Bool) (i : Nat) : bit (bitsOf w f) i = (decide (i < w) && f i) := by
  show (BitVec.ofNat w (bitSum f w)).getLsbD i = _
  rw [BitVec.getLsbD_ofNat, testBit_bitSum]
  cases decide (i < w) <;> rfl

@[simp] theorem bit_maskOf (f : Nat → Bool) (i : Nat) : bit (maskOf f) i = (decide (i < 32) && f i) := bit_bitsOf 32 f i

@[simp] theorem bit_and {n : Nat} (x y : BitVec n) (i : Nat) : bit (x &&& y) i = (bit x i && bit y i) := BitVec.getLsbD_and
@[simp] theorem bit_or {n : Nat} (x y : BitVec n) (i : Nat) : bit (x ||| y) i = (bit x i || bit y i) := BitVec.getLsbD_or
@[simp] theorem bit_not {n : Nat} (x : BitVec n) (i : Nat) : bit (~~~x) i = (decide (i < n) && !bit x i) := BitVec.getLsbD_not

theorem bit_ext {n : Nat} {x y : BitVec n} (h : ∀ i, i < n → bit x i = bit y i) : x = y := BitVec.eq_of_getLsbD_eq h

/-! ### Lanes and random states -/

theorem mem_lanes {m : Mask} {l : Nat} : l ∈ lanes m ↔ l < 32 ∧ bit m l = true := by simp [lanes]

theorem lanes_nodup (m : Mask) : (lanes m).Nodup := List.nodup_range.filter _

theorem lanes_zero : lanes 0 = [] := by decide

theorem mem_lanes_iff {m : Mask} {l : Nat} (h : l < 32) : l ∈ lanes m ↔ bit m l = true := by simp [mem_lanes, h]

/-- A mask with an active lane has a lowest one. -/
theorem lowLane_mem {m : Mask} (h : m ≠ 0) : lowLane m ∈ lanes m := by
  unfold lowLane
  cases hl : lanes m with
  | nil =>
    refine absurd (bit_ext fun i hi => ?_) h
    have hn : ¬ (bit m i = true) := fun hb => by simpa [hl] using (mem_lanes_iff hi).mpr hb
    rw [Bool.not_eq_true] at hn
    exact hn.trans BitVec.getLsbD_zero.symm
  | cons l ls => exact List.mem_cons_self

/-- The group whose SEED has advanced once in the active lanes under .sr (R95). -/
def Group.seeded (g : Group) (sr : Bool) (m : Mask) : Group := if sr then g.advanceSeeds m else g

theorem fget_advanced (f : Word → Word) (l : Nat) {ls : List Nat} (h : ls.Nodup) (m : FMap Word) :
    fget (ls.foldl (fun m l => fset m l 0 (f (fget m l 0))) m) l 0 = if l ∈ ls then f (fget m l 0) else fget m l 0 := by
  induction ls generalizing m with
  | nil => rfl
  | cons x ls ih =>
    obtain ⟨hx, hls⟩ := List.nodup_cons.mp h
    rw [List.foldl_cons, ih hls]
    by_cases hl : l = x
    · simp [hl, hx]
    · simp [hl, fget_fset_ne m hl]

theorem Group.seeded_seed (g : Group) (sr : Bool) (m : Mask) {l : Nat} (h : l < 32) :
    fget (g.seeded sr m).seed l 0 = if sr = true ∧ bit m l = true then seedStep (fget g.seed l 0) else fget g.seed l 0 := by
  cases sr with
  | false => simp [seeded]
  | true => simpa [seeded, advanceSeeds, mem_lanes_iff h] using fget_advanced seedStep l (lanes_nodup m) g.seed

theorem Group.seeded_regsOf (g : Group) (sr : Bool) (m : Mask) : g.regsOf (g.seeded sr m) := by
  cases sr <;> rfl

/-- No lane is active. -/
theorem Group.seeded_zero (g : Group) (sr : Bool) : g.seeded sr 0 = g := by
  cases sr with
  | false => rfl
  | true =>
    show g.advanceSeeds 0 = g
    rw [advanceSeeds, lanes_zero]
    rfl

/-- SEED apart, an advanced group is framed as the group is. -/
theorem Group.Framed.of_seeded {ds : List RegName} {m : Mask} {g g' : Group} {sr : Bool} {a : Mask} (h : (g.seeded sr a).Framed ds m g') :
    g'.pendOk ∧ Machine.sameRegs g g' ds m ∧ g'.fstat &&& g.fstat = g.fstat ∧ g'.finalFlags &&& g.finalFlags = g.finalFlags ∧
      g'.exited = g.exited ∧ g'.chip = g.chip ∧ g'.sp = g.sp ∧ g'.cnt = g.cnt ∧ g'.allot = g.allot := by
  cases sr with
  | false => exact ⟨h.pendOk, h.sameRegs, h.gains, h.finalGains, h.kept⟩
  | true => exact ⟨h.pendOk, h.sameRegs, h.gains, h.finalGains, h.kept⟩

/-! ### Effects that write destinations -/

/-- A group that writes to destinations have made of another. -/
def Group.Wrote (ds : List RegName) (m : Mask) (g g' : Group) : Prop := g.regsOf g' ∧ (g.pendOk → g.Framed ds m g')

section
variable {ds : List RegName} {m : Mask} {g : Group}

theorem Group.Wrote.refl (g : Group) : g.Wrote ds m g := ⟨regsOf_refl g, Framed.refl⟩

theorem Group.Wrote.trans {a b c : Group} (h1 : a.Wrote ds m b) (h2 : b.Wrote ds m c) : a.Wrote ds m c :=
  ⟨regsOf_trans h1.1 h2.1, fun h => (h1.2 h).trans (h2.2 (h1.2 h).pendOk)⟩

theorem Group.Wrote.put {dst : List (RegName × Nat)} {vals : List (Nat × DWord)} (hf : ∀ d ∈ dst, Fits ds m d.1 (vals.map (fun x => x.1)))
    (slot : Nat) : g.Wrote ds m (g.put slot dst vals) := ⟨put_regsOf g slot dst vals, fun h => Framed.put h hf slot⟩

theorem Group.Wrote.flags (slot lat : Nat) (f : Flags) : g.Wrote ds m (g.flags slot lat f) :=
  ⟨flags_regsOf g slot lat f, fun h => Framed.flags h slot lat f⟩

/-- Writes one after another. -/
theorem Group.Wrote.foldl {α : Type} {f : Group → α → Group} {l : List α} (h : ∀ (b : Group), ∀ x ∈ l, b.Wrote ds m (f b x)) :
    g.Wrote ds m (l.foldl f g) :=
  List.foldlRecOn (motive := g.Wrote ds m) l f (Wrote.refl g) (fun b hb x hx => hb.trans (h b x hx))

/-- A register of lanes takes the active ones. -/
theorem fits_lanes {r : RegName} {ls : List Nat} (hr : r ∈ ds) (hu : r.uniform = false) (hnd : ls.Nodup) (hls : ∀ l ∈ ls, l ∈ lanes m) :
    Fits ds m r ls :=
  ⟨hr, hnd, fun l hl => ⟨⟨(mem_lanes.mp (hls l hl)).1, fun h => by simp [hu] at h⟩, fun _ => (mem_lanes.mp (hls l hl)).2⟩⟩

/-- A uniform register takes one value. -/
theorem fits_uniform {r : RegName} (hr : r ∈ ds) (hu : r.uniform = true) : Fits ds m r [0] :=
  ⟨hr, List.nodup_singleton 0, fun l hl => ⟨⟨by rw [List.mem_singleton.mp hl]; decide, fun _ => List.mem_singleton.mp hl⟩, fun h => by simp [hu] at h⟩⟩

variable {dst : List (RegName × Nat)} (hd : ∀ d ∈ dst, d.1 ∈ ds)
include hd

/-- Values for the active lanes. -/
theorem Group.Wrote.putLanes (hu : ∀ d ∈ dst, d.1.uniform = false) (slot : Nat) (f : Nat → DWord) :
    g.Wrote ds m (g.put slot dst ((lanes m).map (fun l => (l, f l)))) :=
  Wrote.put (fun d hin => fits_lanes (hd d hin) (hu d hin) (by simpa [Function.comp_def] using lanes_nodup m) (by simp)) slot

/-- One value. -/
theorem Group.Wrote.putUniform (hu : ∀ d ∈ dst, d.1.uniform = true) (slot : Nat) (x : DWord) : g.Wrote ds m (g.put slot dst [(0, x)]) :=
  Wrote.put (fun d hin => fits_uniform (hd d hin) (hu d hin)) slot

theorem Group.Wrote.vecGroup (hu : ∀ d ∈ dst, d.1.uniform = false) (args : List (Src × Nat)) (sr : Bool) (f : LaneFn) (slot : Nat) :
    (g.seeded sr m).Wrote ds m (Machine.vecGroup dst args sr f slot m g) := by
  have h := fun (h : Nat → DWord × Flags) => (putLanes (g := g.seeded sr m) (m := m) hd hu slot (fun l => (h l).1)).trans
    (flags (ds := ds) (m := m) slot (latOf dst) (orFlags ((lanes m).map (fun l => (h l).2))))
  simpa [Machine.vecGroup, seeded, Function.comp_def] using h _

theorem Group.Wrote.uniGroup (hu : ∀ d ∈ dst, d.1.uniform = true) (args : List (Src × Nat)) (f : LaneFn) (slot : Nat) :
    g.Wrote ds m (Machine.uniGroup dst args f slot g) := (putUniform hd hu slot _).trans (flags slot _ _)

end

/-! ### Plain issues -/

theorem Near.settled {s s' : State} {p : Nat} (h : Near s p s') (hs : s.settled = true) : s'.settled = true := by
  obtain ⟨-, -, -, hctxs, -⟩ := h.only
  exact (State.settled_congr hctxs h.absent).trans hs

/-- An effect of a plain instruction: it goes on, and it leaves the state or writes its destinations. -/
def PlainEffect (i : Instr) (s : State) (body : Iss → State → Eff) : Prop :=
  ∀ c s1, ∃ s2, body c s1 = .go s2 ∧
    (s2 = s1 ∧ srForm i = false ∨
      ∃ u, s2 = s1.modGroup c.place u ∧ ∀ g : Group, (g.seeded (srForm i) c.act).Wrote ((shapeIn i s).dst.map (fun d => d.1)) c.act (u g))

/-- An instruction that issues as a plain effect, and is no drain point. -/
def PlainStep (i : Instr) (s : State) : Prop :=
  (shapeIn i s).drain = false ∧
    ∃ r al body, rawOf i = some r ∧ exec i s = issueWith (shapeIn i s) r.op.toNat r.len r.st.toNat al body s ∧ PlainEffect i s body

section
variable {i : Instr} {s : State} {body : Iss → State → Eff}

theorem PlainEffect.near (h : PlainEffect i s body) (c : Iss) (s1 : State) : ∃ s2, body c s1 = .go s2 ∧ Near s1 c.place s2 := by
  obtain ⟨s2, hb, ⟨rfl, -⟩ | ⟨u, rfl, hu⟩⟩ := h c s1
  · exact ⟨s2, hb, Near.refl s2 c.place⟩
  · exact ⟨_, hb, Near.modGroup s1 c.place (fun g => Group.regsOf_nearOf (Group.regsOf_trans (Group.seeded_regsOf g _ _) (hu g).1))⟩

/-- The effect's group. -/
theorem PlainEffect.wrote (h : PlainEffect i s body) (c : Iss) {s1 : State} {g : Group} (hg : ffind s1.groups c.place = some g) :
    ∃ s2 g2, body c s1 = .go s2 ∧ ffind s2.groups c.place = some g2 ∧
      (g.seeded (srForm i) c.act).Wrote ((shapeIn i s).dst.map (fun d => d.1)) c.act g2 := by
  obtain ⟨s2, hb, ⟨rfl, hsr⟩ | ⟨u, rfl, hu⟩⟩ := h c s1
  · exact ⟨s2, g, hb, hg, by rw [hsr]; exact Group.Wrote.refl g⟩
  · exact ⟨_, u g, hb, State.find_modGroup u hg, hu g⟩

/-- A guard that never runs leaves no lane active (R46, R47). -/
theorem canIssue_never {sh : Shape} {op len st : Nat} {c : Iss} (h : canIssue sh op len st s = some c)
    (hn : neverRuns ((drainFor s s.cur sh).group s.cur.1) s.cur.2 sh = true) : c.act = 0 := by
  obtain ⟨g0, f, -, -, -, -, -, rfl, -⟩ := canIssue_some h
  have hguard : guardMask ((drainFor s s.cur sh).group s.cur.1) s.cur.2 sh.guard sh.uni = 0 := beq_iff_eq.mp (Bool.and_eq_true_iff.mp hn).1
  show (match f.only with | some m => _ | none => _) = _
  rw [hguard]
  cases f.only with
  | none => exact BitVec.and_zero
  | some m => exact (congrArg (· &&& m) BitVec.and_zero).trans BitVec.zero_and

/-- The pending writes of an instruction whose effect does not happen. -/
theorem pendNone_group {sh : Shape} {p : Nat} {slot : Nat} {g : Group} (hg : ffind s.groups p = some g) :
    ∃ ws : List PWrite, (∀ w ∈ ws, w.vals = []) ∧ ffind (pendNone s p slot sh).groups p = some { g with pend := g.pend ++ ws } := by
  unfold pendNone
  dsimp only
  split
  · exact ⟨[], nofun, by rw [hg, List.append_nil]⟩
  · refine ⟨_, fun w hw => ?_, State.find_modGroup _ hg⟩
    obtain ⟨x, -, rfl⟩ := List.mem_map.mp hw
    rfl

/-- How a plain instruction's step ends: what its effect makes of the group, or the pending writes of no value where no lane is active. -/
theorem PlainStep.ends {c : Iss} (hp : PlainStep i s) (hs : s.settled = true) (hi : issueOf i s = some c) :
    ∃ s2 g2 buf x, exec i s = finish (markIssued (advance s2 c buf) x) ∧ s2.settled = true ∧ ffind s2.groups c.place = some g2 ∧
      ((s.group c.place).pendOk → ((s.group c.place).seeded (srForm i) c.act).Framed ((shapeIn i s).dst.map (fun d => d.1)) c.act g2) := by
  obtain ⟨hd, r, al, body, hraw, hx, he⟩ := hp
  have hc : canIssue (shapeIn i s) r.op.toNat r.len r.st.toNat s = some c := by simpa [issueOf, hraw] using hi
  obtain ⟨hpl, hsl, -⟩ := canIssue_fields hc
  obtain ⟨g0, f, hg, -⟩ := canIssue_some hc
  rw [← hpl] at hg
  rw [State.group_of_find hg]
  have hdr : drainFor s s.cur (shapeIn i s) = s := by simp [drainFor, hd]
  obtain ⟨buf, hw⟩ := issueWith_ready (always := al) (body := body) hc
  rw [hdr, ← hpl, ← hsl] at hw
  rw [hx, hw]
  split
  · next hnone =>
    have hact : c.act = 0 := by
      obtain hn | hz := Bool.or_eq_true_iff.mp hnone
      · exact canIssue_never hc (by rw [hdr, ← hpl, ← hsl]; exact hn)
      · exact beq_iff_eq.mp (Bool.and_eq_true_iff.mp hz).1
    obtain ⟨ws, hws, hfs⟩ := pendNone_group (slot := c.slot) (sh := shapeIn i s) hg
    refine ⟨_, _, buf, _, rfl, (Near.pendNone s c.place c.slot (shapeIn i s)).settled hs, hfs, fun hok => ?_⟩
    rw [hact, Group.seeded_zero]
    exact Group.Framed.pendNone hok hws
  · obtain ⟨s2, g2, hb, hfind, hwr⟩ := he.wrote c hg
    obtain ⟨s2', hb', hn⟩ := he.near c s
    obtain rfl : s2 = s2' := by rw [hb] at hb'; exact Eff.go.inj hb'
    have hset := hn.settled hs
    simp only [hb, Eff.takes, settleEff]
    refine ⟨_, g2, buf, _, rfl, ?_, ?_, fun hok => hwr.2 ?_⟩
    · split
      · exact hset
      · simpa using hset
    · split
      · exact hfind
      · rwa [supersede_groups]
    · cases srForm i <;> exact hok

/-- The group that a plain instruction leaves. -/
theorem PlainStep.framed {c : Iss} {t : State} (hp : PlainStep i s) (hs : s.settled = true) (hi : issueOf i s = some c)
    (hok : (s.group c.place).pendOk) (ht : exec i s = .next t) :
    ((s.group c.place).seeded (srForm i) c.act).Framed ((shapeIn i s).dst.map (fun d => d.1)) c.act (t.group c.place) := by
  obtain ⟨s2, g2, buf, x, he, hset, hfind, hfr⟩ := hp.ends hs hi
  have hfin : finish (markIssued (advance s2 c buf) x) = .next (markIssued (advance s2 c buf) x) := finish_settled (by simpa using hset)
  rw [he, hfin] at ht
  cases ht
  rw [show (markIssued (advance s2 c buf) x).group c.place = _ from State.group_of_find (advance_find buf hfind)]
  have h2 := hfr hok
  exact (h2.trans (Group.Framed.travel h2.pendOk _ _)).modFrag _ _

theorem PlainStep.completes {c : Iss} (hp : PlainStep i s) (hs : s.settled = true) (hi : issueOf i s = some c) :
    ∃ t, exec i s = .next t ∧ wentTo c c.npc s t ∧ onlyGroups s t ∧ sameOthers c s t := by
  obtain ⟨-, r, al, body, hraw, hx, he⟩ := hp
  have hc : canIssue (shapeIn i s) r.op.toNat r.len r.st.toNat s = some c := by simpa [issueOf, hraw] using hi
  rw [hx]
  exact issueWith_near hs hc (he.near c)

end

/-! ### Destinations -/

theorem vOp_dst (f : BitVec 9) (n lat : Nat) : ∀ d ∈ (vOp f n).regs.map (fun r => (r, lat)), d.1.uniform = false := by
  simp [vOp, RegName.uniform]

theorem pOp_dst (f : BitVec 9) (lat : Nat) : ∀ d ∈ (pOp f).regs.map (fun r => (r, lat)), d.1.uniform = false := by
  simp [pOp, RegName.uniform]

theorem sOp_dst (f : BitVec 9) (n lat : Nat) : ∀ d ∈ (sOp f n).regs.map (fun r => (r, lat)), d.1.uniform = true := by
  simp [sOp, RegName.uniform]

theorem kOp_dst (f : BitVec 9) (lat : Nat) : ∀ d ∈ (kOp f).regs.map (fun r => (r, lat)), d.1.uniform = true := by
  simp [kOp, RegName.uniform]

theorem vShape_dst (p : Alu) (h : Hd) (x : WAlu) (lit : Option (BitVec 60)) (a : Opd) (dp : Option Opd) :
    (vShape p h x lit a dp).dst = a.regs.map (fun r => (r, p.lat)) := by
  unfold vShape
  dsimp only
  split <;> rfl

theorem vShape_drain (p : Alu) (h : Hd) (x : WAlu) (lit : Option (BitVec 60)) (a : Opd) (dp : Option Opd) : (vShape p h x lit a dp).drain = false := by
  unfold vShape
  dsimp only
  split <;> rfl

/-! ### The families -/

section
variable {i : Instr} {s : State}

theorem PlainEffect.idle (h : srForm i = false) : PlainEffect i s (fun _ s => .go s) := fun _ _ => ⟨_, rfl, .inl ⟨rfl, h⟩⟩

theorem PlainEffect.goGroup {u : Iss → Group → Group}
    (h : ∀ (c : Iss) (g : Group), (g.seeded (srForm i) c.act).Wrote ((shapeIn i s).dst.map (fun d => d.1)) c.act (u c g)) :
    PlainEffect i s (fun c s => goGroup s c (u c)) := fun c _ => ⟨_, rfl, .inr ⟨u c, rfl, h c⟩⟩

variable {r : Raw}

/-- An instruction whose step `e` is the issue of a plain effect. -/
theorem PlainStep.issue (e : Host.Outcome State Fault Refusal) (hx : exec i s = e) (hraw : rawOf i = some r) (hd : (shapeIn i s).drain = false)
    {body : Iss → State → Eff} (hb : e = Machine.issue (shapeIn i s) r.op.toNat r.len r.st body s) (he : PlainEffect i s body) : PlainStep i s :=
  ⟨hd, r, false, body, hraw, hx.trans hb, he⟩

/-- The same of an instruction that does not need an active lane. -/
theorem PlainStep.issueAlways (e : Host.Outcome State Fault Refusal) (hx : exec i s = e) (hraw : rawOf i = some r) (hd : (shapeIn i s).drain = false)
    {body : Iss → State → Eff} (hb : e = Machine.issueAlways (shapeIn i s) r.op.toNat r.len r.st body s) (he : PlainEffect i s body) : PlainStep i s :=
  ⟨hd, r, true, body, hraw, hx.trans hb, he⟩

variable (hraw : rawOf i = some r) (hd : (shapeIn i s).drain = false)
include hraw hd

/-- The vector instructions. -/
theorem PlainStep.vec {args : List (Src × Nat)} {f : LaneFn} (hu : ∀ d ∈ (shapeIn i s).dst, d.1.uniform = false)
    (hx : exec i s = Machine.vec (shapeIn i s) r.op.toNat r.len r.st args (srForm i) f s) : PlainStep i s :=
  .issue _ hx hraw hd rfl (.goGroup fun c _ => .vecGroup (fun _ h => List.mem_map_of_mem h) hu args _ f c.slot)

/-- The uniform instructions. -/
theorem PlainStep.uni {args : List (Src × Nat)} {f : LaneFn} (hsr : srForm i = false) (hu : ∀ d ∈ (shapeIn i s).dst, d.1.uniform = true)
    (hx : exec i s = Machine.uni (shapeIn i s) r.op.toNat r.len r.st args f s) : PlainStep i s :=
  .issue _ hx hraw hd rfl (.goGroup fun c _ => by rw [hsr]; exact .uniGroup (fun _ h => List.mem_map_of_mem h) hu args f c.slot)

end

/-! ### The instructions with effects of their own -/

section
variable {s : State}

/-- Lanes of the active ones, with values for them. -/
theorem Group.Wrote.putPicked {α : Type} {ds : List RegName} {m : Mask} {g : Group} {dst : List (RegName × Nat)} (hd : ∀ d ∈ dst, d.1 ∈ ds)
    (hu : ∀ d ∈ dst, d.1.uniform = false) (slot : Nat) (k : Nat → α) (f : α → DWord) :
    g.Wrote ds m (g.put slot dst (((lanes m).map (fun l => (l, k l))).map (fun r => (r.1, f r.2)))) := by
  simpa [Function.comp_def] using putLanes (g := g) (m := m) hd hu slot (fun l => f (k l))

theorem plainStep_vtos {h : Hd} {x : WVtos} : PlainStep (.vtos h x) s :=
  .issue (execVtos h x s) rfl rfl rfl rfl (.goGroup fun c _ => .putUniform (fun _ hd => List.mem_map_of_mem hd) (sOp_dst h.a _ _) c.slot _)

theorem plainStep_stov {h : Hd} {x : WTy} : PlainStep (.stov h x) s :=
  .issue (execStov h x s) rfl rfl rfl rfl (.goGroup fun c _ => .putLanes (fun _ hd => List.mem_map_of_mem hd) (vOp_dst h.a _ _) c.slot _)

theorem plainStep_klop {h : Hd} {x : WLut} : PlainStep (.klop h x) s :=
  .issue (execKlop h x s) rfl rfl rfl rfl (.goGroup fun c _ => .putUniform (fun _ hd => List.mem_map_of_mem hd) (kOp_dst h.a _) c.slot _)

theorem plainStep_plop {h : Hd} {x : WLut} : PlainStep (.plop h x) s :=
  .issue (execPlop h x s) rfl rfl rfl rfl (.goGroup fun c _ => .putLanes (fun _ hd => List.mem_map_of_mem hd) (pOp_dst h.a _) c.slot _)

theorem plainStep_ballot {h : Hd} : PlainStep (.ballot h) s :=
  .issueAlways (execBallot h s) rfl rfl rfl rfl (.goGroup fun c _ => .putUniform (fun _ hd => List.mem_map_of_mem hd) (sOp_dst h.a _ _) c.slot _)

theorem plainStep_vote {h : Hd} {x : WVote} : PlainStep (.vote h x) s :=
  .issue (execVote h x s) rfl rfl rfl rfl (.goGroup fun c _ => .putLanes (fun _ hd => List.mem_map_of_mem hd) (pOp_dst h.a _) c.slot _)

theorem plainStep_psum {h : Hd} {x : WAlu} : PlainStep (.psum h x) s :=
  .issue (execPsum h x s) rfl rfl rfl rfl (.goGroup fun c _ =>
    .trans (.putPicked (fun _ hd => List.mem_map_of_mem hd) (vOp_dst h.a _ _) c.slot _ _) (.flags c.slot _ _))

/-- ISEL in both forms. -/
theorem PlainStep.isel {i : Instr} {r : Raw} {h : Hd} {args : List (Src × Nat)} (hraw : rawOf i = some r)
    (hx : exec i s = iselEff (shapeIn i s) r.len h args s) (hop : r.op = 0x3A) (hst : r.st = h.st) (hsr : srForm i = false) (hd : (shapeIn i s).drain = false)
    (hu : ∀ d ∈ (shapeIn i s).dst, d.1.uniform = false) : PlainStep i s := by
  refine .issue _ hx hraw hd (by rw [hop, hst]; rfl) (.goGroup fun c g => ?_)
  rw [hsr]
  exact .putLanes (fun _ hd => List.mem_map_of_mem hd) hu c.slot _

/-- SSEL in both forms. -/
theorem PlainStep.ssel {i : Instr} {r : Raw} {h : Hd} {args : List (Src × Nat)} (hraw : rawOf i = some r)
    (hx : exec i s = sselEff (shapeIn i s) r.len h args s) (hop : r.op = 0x1C) (hst : r.st = h.st) (hsr : srForm i = false) (hd : (shapeIn i s).drain = false)
    (hu : ∀ d ∈ (shapeIn i s).dst, d.1.uniform = true) : PlainStep i s := by
  refine .issue _ hx hraw hd (by rw [hop, hst]; rfl) (.goGroup fun c g => ?_)
  rw [hsr]
  exact .uniGroup (fun _ hd => List.mem_map_of_mem hd) hu _ _ c.slot

theorem shapePack4_frame (h : Hd) (x : WCvt) : (shapePack4 h x).drain = false ∧ (shapePack4 h x).dst = (vOp h.a 1).regs.map (fun r => (r, 6)) := by
  unfold shapePack4
  dsimp only
  split <;> exact ⟨rfl, rfl⟩

theorem plainStep_cvt {h : Hd} {x : WCvt} : PlainStep (.cvt h x) s := by
  refine .issue (execCvt h x s) rfl rfl rfl (by unfold execCvt cvtIssue; rfl) (.goGroup fun c _ => ?_)
  exact .vecGroup (fun _ hd => List.mem_map_of_mem hd) (vOp_dst h.a _ _) _ _ _ c.slot

theorem plainStep_cvtn {h : Hd} {x : WCvt} : PlainStep (.cvtn h x) s := by
  refine .issue (execCvtn h x s) rfl rfl rfl (by unfold execCvtn cvtIssue; rfl) (.goGroup fun c _ => ?_)
  exact .vecGroup (fun _ hd => List.mem_map_of_mem hd) (vOp_dst h.a _ _) _ _ _ c.slot

theorem plainStep_pack4 {h : Hd} {x : WCvt} : PlainStep (.pack4 h x) s := by
  have hf : (shapeIn (.pack4 h x) s).drain = false ∧ (shapeIn (.pack4 h x) s).dst = (vOp h.a 1).regs.map (fun r => (r, 6)) := shapePack4_frame h x
  refine .issue (execPack4 h x s) rfl rfl hf.1 (by unfold execPack4 cvtIssue; rfl) (.goGroup fun c _ => ?_)
  exact .vecGroup (fun _ hd => List.mem_map_of_mem hd) (fun d hd => vOp_dst h.a 1 6 d (hf.2 ▸ hd)) _ _ _ c.slot

theorem plainStep_unpk4 {h : Hd} {x : WCvt} : PlainStep (.unpk4 h x) s := by
  refine .issue (execUnpk4 h x s) rfl rfl rfl rfl (.goGroup fun c g => .foldl fun b p hp => ?_)
  have hin : p.2 ∈ (shapeIn (.unpk4 h x) s).dst := (List.of_mem_zip hp).2
  exact .trans (.putPicked (by simpa using ⟨p.2.2, hin⟩) (by simpa using vOp_dst h.a 4 6 p.2 hin) c.slot _ _)
    (.flags c.slot _ _)

/-! Instructions that write a predicate beside their registers. -/

theorem shapeShfl_frame (h : Hd) (x : WShfl) : (shapeShfl h x).drain = false ∧
    (shapeShfl h x).dst = (vOp h.a (tyRegs x.ty)).regs.map (fun r => (r, 6)) ++ (if h.d == 7 then [] else (pOp h.d).regs.map (fun r => (r, 6))) := by
  unfold shapeShfl
  dsimp only
  split
  · exact ⟨rfl, (List.append_nil _).symm⟩
  · exact ⟨rfl, rfl⟩

theorem shapeMatch_frame (h : Hd) (x : WTy) : (shapeMatch h x).drain = false ∧
    (shapeMatch h x).dst = (vOp h.a 1).regs.map (fun r => (r, 6)) ++ (if h.d == 7 then [] else (pOp h.d).regs.map (fun r => (r, 6))) := by
  unfold shapeMatch
  dsimp only
  split
  · exact ⟨rfl, (List.append_nil _).symm⟩
  · exact ⟨rfl, rfl⟩

/-- Registers of lanes, with or without a predicate. -/
theorem withPred_dst {a d : BitVec 9} {n lat : Nat} {c : Bool} {x : RegName × Nat}
    (h : x ∈ (vOp a n).regs.map (fun r => (r, lat)) ++ (if c then [] else (pOp d).regs.map (fun r => (r, lat)))) : x.1.uniform = false := by
  obtain h | h := List.mem_append.mp h
  · exact vOp_dst a n lat x h
  · cases c with
    | true => cases h
    | false => exact pOp_dst d lat x h

/-- Values for the registers and for the predicate of a shape, from what each active lane gives. -/
theorem Group.Wrote.putBoth {α : Type} {sh : Shape} {m : Mask} {g : Group} (hu : ∀ d ∈ sh.dst, d.1.uniform = false) (slot : Nat) (k : Nat → α)
    (fv fp : α → DWord) : g.Wrote (sh.dst.map (fun d => d.1)) m
      ((g.put slot sh.vdst (((lanes m).map (fun l => (l, k l))).map (fun r => (r.1, fv r.2)))).put slot sh.pdst
        (((lanes m).map (fun l => (l, k l))).map (fun r => (r.1, fp r.2)))) :=
  .trans (.putPicked (fun _ hd => List.mem_map_of_mem (List.mem_filter.mp hd).1) (fun d hd => hu d (List.mem_filter.mp hd).1) slot k fv)
    (.putPicked (fun _ hd => List.mem_map_of_mem (List.mem_filter.mp hd).1) (fun d hd => hu d (List.mem_filter.mp hd).1) slot k fp)

/-- What SHFL gives a lane: whether its source is missing, and the value (R164). -/
def shflLane (h : Hd) (x : WShfl) (slot : Nat) (g : Group) (l : Nat) : Bool × DWord :=
  let src := shflSrc x.mode.toNat l (if x.imm then lo32 (sx x.imm20) else g.rv slot h.c.toNat l).toNat
  (src.isNone, srcLane g slot (src.getD l) (tyRegs x.ty) (.v h.b.toNat))

/-- A lane's class of MATCH: the active lanes of its value (R169). -/
def matchClass (h : Hd) (x : WTy) (slot : Nat) (act : Mask) (g : Group) (l : Nat) : Mask :=
  let a := fun k => srcLane g slot k (tyRegs x.ty) (.v h.b.toNat)
  maskOfList ((lanes act).filter (fun k => a k == a l))

/-- What MATCH gives of a class (R169). -/
def matchVal (h : Hd) (eq : Mask) : DWord := if bit h.mod 0 then zx eq else BitVec.ofNat 64 (lowLane eq)

theorem plainStep_shfl {h : Hd} {x : WShfl} : PlainStep (.shfl h x) s := by
  obtain ⟨hd, hdst⟩ := shapeShfl_frame h x
  have hu : ∀ d ∈ (shShfl h x).dst, d.1.uniform = false := fun d hd => withPred_dst (hdst ▸ hd)
  refine .issue (execShfl h x s) rfl rfl hd (by unfold execShfl; rfl) ?_
  exact .goGroup fun c g => .putBoth (sh := shShfl h x) (g := g) hu c.slot (shflLane h x c.slot g) (fun r => r.2) (fun r => truth r.1)

theorem plainStep_matchV {h : Hd} {x : WTy} : PlainStep (.matchV h x) s := by
  obtain ⟨hd, hdst⟩ := shapeMatch_frame h x
  have hu : ∀ d ∈ (shMatchV h x).dst, d.1.uniform = false := fun d hd => withPred_dst (hdst ▸ hd)
  refine .issue (execMatchV h x s) rfl rfl hd (by unfold execMatchV; rfl) ?_
  exact .goGroup fun c g => .putBoth (sh := shMatchV h x) (g := g) hu c.slot (matchClass h x c.slot c.act g) (matchVal h) (fun r => truth (r == c.act))

theorem plainStep_pair {h : Hd} {x : WPair} : PlainStep (.pair h x) s := by
  have hput : ∀ (c : Iss) (g b : Group) (f : Half), (RegName.v f.d) ∈ (shapeIn (.pair h x) s).dst.map (fun d => d.1) →
      b.Wrote ((shapeIn (.pair h x) s).dst.map (fun d => d.1)) c.act
        ((b.put c.slot [(.v f.d, halfLat f)] ((halfRun g c.slot c.act f).map (fun r => (r.1, r.2.1)))).flags c.slot (halfLat f)
          (orFlags ((halfRun g c.slot c.act f).map (fun r => r.2.2)))) := fun c g b f hd =>
    .trans (.putPicked (by simpa using hd) (by simp [RegName.uniform]) c.slot _ _) (.flags c.slot _ _)
  exact .issue (execPair h x s) rfl rfl rfl rfl (.goGroup fun c g =>
    .trans (hput c g g (halves h x).1 (List.mem_map_of_mem List.mem_cons_self))
      (hput c g _ (halves h x).2 (List.mem_map_of_mem (List.mem_cons_of_mem _ List.mem_cons_self))))

/-! REDUX. -/

theorem insertBy_perm {α : Type} (le : α → α → Bool) (x : α) (l : List α) : (insertBy le x l).Perm (x :: l) := by
  induction l with
  | nil => exact .refl _
  | cons y l ih =>
    unfold insertBy
    split
    · exact .refl _
    · exact (ih.cons y).trans (.swap x y l)

theorem sortBy_perm {α : Type} (le : α → α → Bool) (l : List α) : (sortBy le l).Perm l := by
  induction l with
  | nil => exact .refl _
  | cons x l ih => exact (insertBy_perm le x _).trans (ih.cons x)

/-- The active lanes of a segment of REDUX (R168). -/
def segment (w : Nat) (act : Mask) (i : Nat) : Mask := act &&& maskOf (fun l => l / w == i)

theorem mem_lanes_segment {w : Nat} {act : Mask} {i l : Nat} : l ∈ lanes (segment w act i) ↔ l ∈ lanes act ∧ l / w = i := by
  simp only [mem_lanes, segment, bit_and, bit_maskOf, Bool.and_eq_true, decide_eq_true_eq, beq_iff_eq]
  tauto

theorem segments_eq (w : Nat) (act : Mask) : segments w act = ((List.range (32 / w)).map (segment w act)).filter (fun m => m != 0) := rfl

/-- Lanes of segments, each taken from a segment of its own. -/
theorem nodup_flatMap_segments {w : Nat} {act : Mask} {f : Mask → List Nat} (hn : ∀ m, (f m).Nodup) (hf : ∀ m, m ≠ 0 → ∀ l ∈ f m, l ∈ lanes m) :
    ((segments w act).flatMap f).Nodup := by
  have hmem : ∀ m ∈ segments w act, ∀ l ∈ f m, l ∈ lanes m := fun m hm => hf m (by simpa using (List.mem_filter.mp hm).2)
  have hdisj : ((List.range (32 / w)).map (segment w act)).Pairwise (fun m n => ∀ l, l ∈ lanes m → l ∉ lanes n) := by
    rw [List.pairwise_map]
    exact List.nodup_range.imp (fun hij l (hl : l ∈ _) hl' => hij ((mem_lanes_segment.mp hl).2.symm.trans (mem_lanes_segment.mp hl').2))
  rw [List.nodup_flatMap]
  refine ⟨fun m _ => hn m, ?_⟩
  have hd := hdisj.sublist (List.filter_sublist (p := fun m => m != 0))
  refine hd.imp_of_mem (fun {m n} hm hn' h => ?_)
  exact fun l hl hl' => h l (hmem m hm l hl) (hmem n hn' l hl')

theorem segments_lanes {w : Nat} {act : Mask} {m : Mask} (h : m ∈ segments w act) {l : Nat} (hl : l ∈ lanes m) : l ∈ lanes act := by
  obtain ⟨i, -, rfl⟩ := List.mem_map.mp (List.mem_filter.mp h).1
  exact (mem_lanes_segment.mp hl).1

theorem plainStep_redux {h : Hd} {x : WRedux} : PlainStep (.redux h x) s := by
  refine .issue (execRedux h x s) rfl rfl rfl rfl (.goGroup fun c g => .trans (.put (fun d hd => ?_) c.slot) (.flags c.slot _ _))
  have hpick : ∀ m, (if x.lead then [lowLane m] else lanes m).Nodup := fun m => by
    split
    · exact List.nodup_singleton _
    · exact lanes_nodup m
  have hin : ∀ m, m ≠ 0 → ∀ l ∈ (if x.lead then [lowLane m] else lanes m), l ∈ lanes m := fun m hm l hl => by
    split at hl
    · rw [List.mem_singleton.mp hl]
      exact lowLane_mem hm
    · exact hl
  refine fits_lanes (List.mem_map_of_mem hd) (vOp_dst h.a _ _ d hd) ?_ ?_
  · refine (((sortBy_perm _ _).map _).nodup_iff).mpr ?_
    have := nodup_flatMap_segments (w := 2 ^ x.width.toNat) (act := c.act) hpick hin
    simpa [List.flatMap_map, List.map_flatMap, Function.comp_def] using this
  · intro l hl
    have hl' := ((sortBy_perm _ _).map _).mem_iff.mp hl
    simp only [List.map_flatMap, List.flatMap_map, List.map_map, Function.comp_def, List.map_id', List.mem_flatMap] at hl'
    obtain ⟨m, hm, hlm⟩ := hl'
    exact segments_lanes hm (hin m (by simpa using (List.mem_filter.mp hm).2) l hlm)

end

/-! ### Every instruction of the families -/

/-- Each instruction of the arithmetic families issues as a plain effect. -/
theorem plainStep_of_isPlain {i : Instr} (hp : isPlain i = true) (s : State) : PlainStep i s := by
  cases i <;> cases hp
  case nopZ1 f => exact .issue (execNopZ1 f s) rfl rfl rfl rfl (.idle rfl)
  case nop h => exact .issue (execNop h s) rfl rfl rfl rfl (.idle rfl)
  case fenceZ1 f => exact .issue (execFenceZ1 f s) rfl rfl rfl rfl (.idle rfl)
  case fence h x => exact .issue (execFence h x s) rfl rfl rfl rfl (.idle rfl)
  case pref h x => exact .issue (execPref h x s) rfl rfl rfl rfl (.idle rfl)
  case pref5w h x l => exact .issue (execPref5w h x l s) rfl rfl rfl rfl (.idle rfl)
  case saddI1 f | ssubI1 f | smulI1 f | smulhI1 f | sandI1 f | sorI1 f | sxorI1 f | sshlI1 f | sshrI1 f | ssraI1 f | sminI1 f | smaxI1 f |
    smovU1 f | sldiM1 f | sffsU1 f | spopU1 f =>
    exact .uni rfl rfl rfl (sOp_dst f.a 1 _) rfl
  case sadd h x | ssub h x | smul h x | smulh h x | sand h x | sor h x | sxor h x | sshl h x | sshr h x | ssra h x | smin h x | smax h x |
    smov h x | sldi h x | sffs h x | spop h x =>
    exact .uni rfl rfl rfl (sOp_dst h.a _ _) rfl
  case sadd5w h x l | ssub5w h x l | smul5w h x l | smulh5w h x l | sand5w h x l | sor5w h x l | sxor5w h x l | sshl5w h x l | sshr5w h x l
    | ssra5w h x l | smin5w h x l | smax5w h x l | sldi5w h x l =>
    exact .uni rfl rfl rfl (sOp_dst h.a _ _) rfl
  case scmp h x =>
    exact .uni rfl rfl rfl (kOp_dst h.a _) rfl
  case scmp5w h x l =>
    exact .uni rfl rfl rfl (kOp_dst h.a _) rfl
  case iaddI1 f | isubI1 f | imulI1 f | imulhI1 f | iabsU1 f | inegU1 f | iminI1 f | imaxI1 f | ishlI1 f | ishrI1 f | israI1 f | iandI1 f |
    iorI1 f | ixorI1 f | popcU1 f | clzU1 f | brevU1 f | movU1 f | moviM1 f =>
    exact .vec rfl rfl (vOp_dst f.a 1 _) rfl
  case iadd h x | isub h x | imul h x | imulh h x | iabs h x | ineg h x | imin h x | imax h x | ishl h x | ishr h x | isra h x | iand h x |
    ior h x | ixor h x | lop3 h x | popc h x | clz h x | brev h x | bfe h x | bfi h x | fadd h x | fsub h x | fmul h x | fmin h x | fmax h x
    | frnd h x | fclass h x | fscale h x | frcp h x | frsq h x | fsqrt h x | fex2 h x | flg2 h x | fsin h x | fcos h x | ftanh h x | hadd2 h
    x | hmul2 h x | mov h x | movi h x =>
    exact .vec rfl rfl (vOp_dst h.a _ _) rfl
  case iadd5w h x l | isub5w h x l | imul5w h x l | imulh5w h x l | imin5w h x l | imax5w h x l | ishl5w h x l | ishr5w h x l | isra5w h x l
    | iand5w h x l | ior5w h x l | ixor5w h x l | lop35w h x l | bfe5w h x l | bfi5w h x l | fadd5w h x l | fsub5w h x l | fmul5w h x l |
    fmin5w h x l | fmax5w h x l | frnd5w h x l | fclass5w h x l | fscale5w h x l | hadd25w h x l | hmul25w h x l | movi5w h x l =>
    exact .vec rfl rfl (vOp_dst h.a _ _) rfl
  case imad h x | ffma h x | hfma2 h x =>
    exact .vec rfl (vShape_drain _ _ _ _ _ _) (fun d hd => vOp_dst h.a _ _ d (vShape_dst _ _ _ _ _ _ ▸ hd)) rfl
  case imad5w h x l | ffma5w h x l | hfma25w h x l =>
    exact .vec rfl (vShape_drain _ _ _ _ _ _) (fun d hd => vOp_dst h.a _ _ d (vShape_dst _ _ _ _ _ _ ▸ hd)) rfl
  case icmp h x | fcmp h x =>
    exact .vec rfl rfl (pOp_dst h.a _) rfl
  case icmp5w h x l | fcmp5w h x l =>
    exact .vec rfl rfl (pOp_dst h.a _) rfl
  case plop _ _ => exact plainStep_plop
  case vtos _ _ => exact plainStep_vtos
  case stov _ _ => exact plainStep_stov
  case klop _ _ => exact plainStep_klop
  case cvt _ _ => exact plainStep_cvt
  case cvtn _ _ => exact plainStep_cvtn
  case pack4 _ _ => exact plainStep_pack4
  case unpk4 _ _ => exact plainStep_unpk4
  case shfl _ _ => exact plainStep_shfl
  case ballot _ => exact plainStep_ballot
  case vote _ _ => exact plainStep_vote
  case psum _ _ => exact plainStep_psum
  case redux _ _ => exact plainStep_redux
  case matchV _ _ => exact plainStep_matchV
  case pair _ _ => exact plainStep_pair
  case isel h x => exact .isel rfl rfl rfl rfl rfl rfl (vOp_dst h.a _ _)
  case isel5w h x l => exact .isel rfl rfl rfl rfl rfl rfl (vOp_dst h.a _ _)
  case ssel h x => exact .ssel rfl rfl rfl rfl rfl rfl (sOp_dst h.a _ _)
  case ssel5w h x l => exact .ssel rfl rfl rfl rfl rfl rfl (sOp_dst h.a _ _)

/-- Settles O8, by the plain effect of each instruction. -/
theorem plainCompletes : Obligations.PlainCompletes := by
  unfold Obligations.PlainCompletes
  exact fun i s c hp hs hi => (plainStep_of_isPlain hp s).completes hs hi

/-- Settles O9: the group is framed by its effect, and memory by O8. -/
theorem plainFrame : Obligations.PlainFrame := by
  unfold Obligations.PlainFrame
  intro i s t c hp hs hi hok ht
  have hfr := (plainStep_of_isPlain hp s).framed hs hi hok ht
  obtain ⟨u, hu, -, ⟨hmem, hundef, -⟩, -⟩ := (plainStep_of_isPlain hp s).completes hs hi
  obtain rfl : u = t := by rw [hu] at ht; exact Host.Outcome.next.inj ht
  obtain ⟨hpend, hsame, hgain, hfinal, hexited, hchip, hsp, hcnt, hallot⟩ := hfr.of_seeded
  refine ⟨hsame, hpend, hgain, hfinal, hexited, hchip, hsp, hcnt, hallot, fun k => ?_, fun l hl => ?_⟩
  · unfold State.byteAt undefAt
    rw [hmem, hundef]
  · rw [hfr.seed]
    exact Group.seeded_seed _ _ _ hl

/-! ### BALLOT -/

theorem bit_rpm (g : Group) (slot n : Nat) {l : Nat} (hl : l < 32) : bit (g.rpm slot n) l = g.rp slot n l := by
  simp [Group.rpm, hl]

theorem bit_predMask (g : Group) (slot : Nat) (h : Hd) {l : Nat} (hl : l < 32) :
    bit (predMask g slot h) l = (g.rp slot h.b.toNat l != bit h.mod 0) := by
  unfold predMask
  split
  · next hn => simp [hn, hl, bit_rpm]
  · next hn => simp [hn, hl, bit_rpm]

/-- The value that a uniform destination of one register finally holds. -/
theorem Group.finalS_write (g : Group) (slot n lat : Nat) (x : Word) : (g.write slot (.s n) [(0, x)] lat).finalS n = x := by
  have ht : RegName.takes (.s n) [(0, x)] :=
    ⟨List.nodup_singleton 0, fun y hy => by rw [List.mem_singleton.mp hy]; exact ⟨Nat.succ_pos 31, fun _ => rfl⟩⟩
  exact (final_write_self g slot lat ht ⟨by decide, fun _ => rfl⟩ :)

/-- The mask of BALLOT. -/
def ballotMask (h : Hd) (c : Iss) (g : Group) : Mask := c.act &&& predMask g c.slot h

/-- An instruction that needs no active lane, and whose effect goes on to a settled state, completes unless its guard is never (R47). -/
theorem completes_of_always {i : Instr} {s s2 : State} {c : Iss} {r : Raw} {body : Iss → State → Eff} (hraw : rawOf i = some r)
    (hx : exec i s = issueWith (shapeIn i s) r.op.toNat r.len r.st.toNat true body s) (hi : issueOf i s = some c)
    (hn : neverRuns ((begun i s).group c.place) c.slot (shapeIn i s) = false) (hb : body c (begun i s) = .go s2) (hs : s2.settled = true) :
    Completes i s c s2 := by
  have hc : canIssue (shapeIn i s) r.op.toNat r.len r.st.toNat s = some c := by simpa [issueOf, hraw] using hi
  obtain ⟨hp, hsl, -⟩ := canIssue_fields hc
  rw [hp, hsl] at hn
  obtain ⟨buf, h⟩ := issueWith_go (always := true) hc hn (.inr rfl) hb
  refine ⟨buf, (drainFor s s.cur (shapeIn i s)).group s.cur.1, ?_⟩
  rw [hx, h, ← hp, ← hsl]
  refine finish_settled (s := markIssued (advance (taken i s c s2) c buf) _) ?_
  simpa using hs

theorem ballot_completes {h : Hd} {s : State} {c : Iss} (hs : s.settled = true) (hi : issueOf (.ballot h) s = some c)
    (hn : neverRuns ((begun (.ballot h) s).group c.place) c.slot (shapeIn (.ballot h) s) = false) :
    ∃ s2, Completes (.ballot h) s c s2 ∧ (s2.group c.place).finalS h.a.toNat = ballotMask h c ((begun (.ballot h) s).group c.place) := by
  have hb : begun (.ballot h) s = s := begun_of_not_drain rfl
  obtain ⟨g0, f, hg, -⟩ := canIssue_some (show canIssue (shapeIn (.ballot h) s) 0x69 3 h.st.toNat s = some c from hi)
  have hp : c.place = s.cur.1 := (canIssue_fields (show canIssue (shapeIn (.ballot h) s) 0x69 3 h.st.toNat s = some c from hi)).1
  rw [← hp] at hg
  refine ⟨_, completes_of_always (body := fun c s => goGroup s c (fun g => g.put c.slot (shBallot h).dst [(0, zx (ballotMask h c g))])) rfl
    ((rfl : exec (.ballot h) s = execBallot h s).trans rfl) hi hn rfl (by simpa using hs), ?_⟩
  rw [hb, State.group_modGroup _ hg]
  show (Group.write _ _ (.s h.a.toNat) [(0, lo32 (zx _))] 6).finalS _ = _
  rw [Group.finalS_write, lo32_zx]

/-- Settles O14: the mask of an issue that needs no active lane, and the decoder's answer. -/
theorem ballotResult : Obligations.BallotResult := by
  unfold Obligations.BallotResult
  refine ⟨fun h s c hs hi hn => ?_, fun w0 w1 w2 ws => decodeWords_ballot_illegal⟩
  obtain ⟨s2, hc, hv⟩ := ballot_completes hs hi hn
  refine ⟨s2, hc, fun l hl => ?_⟩
  rw [hv, ballotMask, bit_and, bit_predMask _ _ _ hl]

end Sys2Proof.Machine
end


section
/-! Transfers of control that leave the control stack alone: BRA, BRX, and BRC with a uniform outcome (R45, R115, R134). -/
namespace Sys2Proof.Machine

/-! ### A plain transfer -/

theorem onlyGroups_trans {a b d : State} (h1 : onlyGroups a b) (h2 : onlyGroups b d) : onlyGroups a d := by
  obtain ⟨x1, x2, x3, x4, x5, x6, x7, x8, x9, x10, x11, x12, x13, x14, x15⟩ := h1
  obtain ⟨y1, y2, y3, y4, y5, y6, y7, y8, y9, y10, y11, y12, y13, y14, y15⟩ := h2
  exact ⟨y1.trans x1, y2.trans x2, y3.trans x3, y4.trans x4, y5.trans x5, y6.trans x6, y7.trans x7, y8.trans x8, y9.trans x9,
    y10.trans x10, y11.trans x11, y12.trans x12, y13.trans x13, y14.trans x14, y15.trans x15⟩

theorem onlyGroups_modGroup (s : State) (p : Nat) (u : Group → Group) : onlyGroups s (s.modGroup p u) := by simp [onlyGroups]

theorem Group.nearOf_sp {g g' : Group} (h : g.nearOf g') : g'.sp = g.sp := by
  have e : g'.unbuffered.sp = g.unbuffered.sp := by rw [show g'.unbuffered = _ from h]
  exact e

@[simp] theorem Group.setFrag_sp (g : Group) (n : Nat) (f : Option Frag) : (g.setFrag n f).sp = g.sp := by
  unfold setFrag
  split <;> rfl

/-- What a transfer of control leaves: the fragment at the target, and the rest of the state. -/
def Transfers (i : Instr) (s : State) (c : Iss) (pc : DWord) : Prop :=
  ∃ t, exec i s = .next t ∧ wentTo c pc s t ∧ onlyGroups s t ∧ sameOthers c s t ∧ (t.group c.place).sp = (s.group c.place).sp

section
variable {i : Instr} {s : State} {c : Iss} {body : Iss → State → Eff} {pc : DWord}

/-- An instruction that is ready and whose effect is a plain transfer. -/
theorem transfers_of_jump (hi : IssuedBy i s body) (hr : Ready i s c) (hb : body c (begun i s) = jump (begun i s) c pc) : Transfers i s c pc := by
  obtain ⟨buf, g, e⟩ := exec_of_ready hi hr
  rw [hb] at e
  have hnear := hr.near
  have hset : (begun i s).settled = true := (begun_settled i s).trans hr.1
  obtain ⟨f, hf, hmask, hsup, -⟩ := hr.issuer
  obtain ⟨b, hfb⟩ := Group.nearOf_frag hr.nearOf hf
  have hthe : theFrag (begun i s) c = { f with buf := b } := by simp only [theFrag, hfb, Option.getD_some]
  let s2 := setSlot (begun i s) c c.slot (some ((theFrag (begun i s) c).moved (begun i s) c pc))
  let s3 := supersede s2 s.serial c.place ((shapeIn i s).dst.map (fun x => x.1)) c.act
  have hg : s3.group c.place = ((begun i s).group c.place).setFrag c.slot (some ((theFrag (begun i s) c).moved (begun i s) c pc)) := by
    have h3 : s3.group c.place = s2.group c.place := by simp [State.group, s3, supersede_groups]
    rw [h3]
    exact State.group_modGroup _ hr.find_begun
  refine ⟨markIssued s3 g, e.trans (finish_settled (by simpa [s3, s2, setSlot] using hset)),
    ⟨⟨(theFrag (begun i s) c).moved (begun i s) c pc, ?_, rfl, ?_, ?_⟩, ?_, ?_⟩, ?_, fun p hp => ?_, ?_⟩
  · exact (congrArg (fun x : Group => x.frag c.slot) hg).trans (Group.frag_setFrag _ _ _)
  · rw [hthe]
    exact hmask.symm
  · rw [hthe]
    exact hsup.symm
  · exact (congrArg Group.h hg).trans ((Group.setFrag_h _ _ _).trans (Group.nearOf_h hr.nearOf))
  · exact (congrArg Group.park hg).trans ((Group.setFrag_park _ _ _).trans (Group.nearOf_park hr.nearOf))
  · exact onlyGroups_trans hnear.only (onlyGroups_trans (onlyGroups_modGroup _ _ _) (Near.supersede s2 _ _ c.place _ _).only)
  · show ffind s3.groups p = _
    rw [show s3.groups = s2.groups from supersede_groups _ _ _ _ _]
    exact (State.find_modGroup_ne _ _ hp).trans (hnear.others p hp)
  · exact (congrArg Group.sp hg).trans ((Group.setFrag_sp _ _ _).trans (Group.nearOf_sp hr.nearOf))

end

/-! ### The branches -/

section
variable {s : State} {c : Iss}

theorem bra_transfers {h : Hd} {x : WOff} (hr : Ready (.bra h x) s c) : Transfers (.bra h x) s c (relTo c x.off) :=
  transfers_of_jump (body := fun c s => jump s c (relTo c x.off)) ⟨_, rfl, rfl⟩ hr rfl

theorem braJ1_transfers {f : F1} (hr : Ready (.braJ1 f) s c) : Transfers (.braJ1 f) s c (relTo c (j1Off f)) :=
  transfers_of_jump (body := fun c s => jump s c (relTo c (j1Off f))) ⟨_, rfl, rfl⟩ hr rfl

theorem brx_transfers {h : Hd} (hr : Ready (.brx h) s c) : Transfers (.brx h) s c (((begun (.brx h) s).group c.place).rs64 c.slot h.b.toNat) :=
  transfers_of_jump (body := fun c s => jump s c ((s.group c.place).rs64 c.slot h.b.toNat)) ⟨_, rfl, rfl⟩ hr rfl

/-- The effect of BRC (R115). -/
def brcEff (h : Hd) (x : WOff) (c : Iss) (s : State) : Eff :=
  let g := s.group c.place
  let t := brcTaken g c h
  let n := c.mask &&& ~~~t
  if n = 0 then jump s c (relTo c x.off)
  else if t = 0 then jump s c c.npc
  else if !pushRoom s c (if (g.frag (1 - c.slot)).isNone then 1 else 2) then overflowEff s c
  else csEff s c.place (diverge s c t n (relTo c x.off) (relTo c (h.d ++ h.c)))

theorem brc_issuedBy (h : Hd) (x : WOff) (s : State) : IssuedBy (.brc h x) s (brcEff h x) := ⟨_, rfl, rfl⟩

/-- The lanes that take a BRC, lane by lane (R115). -/
theorem brcTaken_eq (g : Group) (c : Iss) (h : Hd) :
    brcTaken g c h = maskOf (fun l => bit c.mask l && (g.rp c.slot h.b.toNat l != bit h.mod 0)) := by
  refine bit_ext fun l hl => ?_
  have hp := bit_predMask g c.slot h hl
  rw [bit_maskOf, decide_eq_true hl, Bool.true_and, ← hp]
  exact bit_and c.mask (predMask g c.slot h) l

variable {h : Hd} {x : WOff} (hr : Ready (.brc h x) s c)
include hr

theorem brc_all_transfers (ht : brcTaken ((begun (.brc h x) s).group c.place) c h = c.mask) : Transfers (.brc h x) s c (relTo c x.off) := by
  refine transfers_of_jump (brc_issuedBy h x s) hr (if_pos ?_)
  rw [ht, BitVec.and_not_self]

theorem brc_none_transfers (ht : brcTaken ((begun (.brc h x) s).group c.place) c h = 0) (hm : c.mask ≠ 0) : Transfers (.brc h x) s c c.npc := by
  refine transfers_of_jump (brc_issuedBy h x s) hr ((if_neg ?_).trans (if_pos ht))
  rw [ht]
  exact fun e => hm (BitVec.and_allOnes.symm.trans e)

theorem brc_npc : c.npc = c.pc + 12 := by
  obtain ⟨-, hi, -⟩ := hr
  have hc : canIssue (shapeIn (.brc h x) s) 0x04 3 h.st.toNat s = some c := hi
  exact (canIssue_fields hc).2.2.2

end

/-- Settles O15: every target is reached by a plain transfer. -/
theorem branchesTransfer : Obligations.BranchesTransfer := by
  unfold Obligations.BranchesTransfer
  have hgoes : ∀ {i : Instr} {s : State} {c : Iss} {pc : DWord}, Transfers i s c pc →
      ∃ t, exec i s = .next t ∧ wentTo c pc s t ∧ onlyGroups s t ∧ sameOthers c s t :=
    fun ⟨t, hx, hw, ho, hs, _⟩ => ⟨t, hx, hw, ho, hs⟩
  refine ⟨fun s c => ⟨fun h x hr => hgoes (bra_transfers hr), fun f hr => hgoes (braJ1_transfers hr), fun h hr => hgoes (brx_transfers hr)⟩,
    fun h x s c hr => ⟨fun ht => ?_, fun ht hm => ?_⟩⟩
  · obtain ⟨t, hx, hw, -, -, hsp⟩ := brc_all_transfers hr ((brcTaken_eq _ _ _).trans ht)
    exact ⟨t, hx, hw, hsp⟩
  · obtain ⟨t, hx, hw, -, -, hsp⟩ := brc_none_transfers hr ((brcTaken_eq _ _ _).trans ht) hm
    exact ⟨t, hx, brc_npc hr ▸ hw, hsp⟩

end Sys2Proof.Machine
end

section
/-! The mode check (R63, R65, R107): which instructions it concerns, and the PRIV trap that it raises in user mode. -/
namespace Sys2Proof.Machine

/-! ### The instructions that the mode check concerns -/

/-- The registers that WSR writes in supervisor mode alone (R107). -/
def readOnlyRegs : List Nat := [0x00, 0x01, 0x02, 0x03, 0x04, 0x05, 0x06, 0x07, 0x08, 0x09, 0x0D, 0x0E, 0x0F, 0x10, 0x11, 0x12, 0x13, 0x14,
    0x15, 0x2A, 0x2B, 0x2C]

theorem mem_readOnlyRegs {n : Nat} (h : sregListed n = true) : sregRO n = true ↔ n ∈ readOnlyRegs := by
  have hn : n < 46 := by
    simp only [sregListed, Bool.or_eq_true, Bool.and_eq_true, decide_eq_true_eq] at h
    omega
  have hall : ∀ k : Fin 46, sregListed k = true → (sregRO k = true ↔ k.val ∈ readOnlyRegs) := by decide
  exact hall ⟨n, hn⟩ h

/-- Whether an instruction fails the mode check in user mode. -/
def privileged : Instr → Bool
  | .svret _ | .pgpoolGet _ | .pgpoolPut _ | .pgmap _ | .pgmapFwd _ | .tlbinv _ | .apreplay _ => true
  | .wsrU1 f => sregRO f.b.toNat
  | .wsr h => sregRO h.b.toNat
  | _ => false

theorem vShape_priv (p : Alu) (h : Hd) (x : WAlu) (lit : Option (BitVec 60)) (a : Opd) (dp : Option Opd) : (vShape p h x lit a dp).priv = false := by
  unfold vShape
  dsimp only
  split <;> rfl

theorem repSlot_priv (sh : Shape) (rep : Bool) (slot : BitVec 10) (cl : Bool) (cpos : BitVec 4) : (repSlot sh rep slot cl cpos).priv = sh.priv := by
  unfold repSlot
  split <;> rfl

theorem shapeRsr_priv (a b : BitVec 9) : (shapeRsr a b).priv = false := by
  unfold shapeRsr
  dsimp only
  split <;> rfl

theorem shapeWsr_priv (a b : BitVec 9) : (shapeWsr a b).priv = sregRO b.toNat := by
  unfold shapeWsr
  dsimp only
  split <;> rfl

theorem shapeWait_priv (h : Hd) (x : WWait) (cont : Bool) : (shapeWait h x cont).priv = false := by
  unfold shapeWait
  dsimp only
  split <;> rfl

theorem shBartest_priv (h : Hd) (x : WSlot) : (shBartest h x).priv = false := by
  unfold shBartest
  dsimp only
  split <;> rfl

theorem shapeGlaunch_priv (h : Hd) : (shapeGlaunch h).priv = false := by
  unfold shapeGlaunch
  dsimp only
  split <;> rfl

theorem shapeShfl_priv (h : Hd) (x : WShfl) : (shapeShfl h x).priv = false := by
  unfold shapeShfl
  dsimp only
  split <;> rfl

theorem shapePack4_priv (h : Hd) (x : WCvt) : (shapePack4 h x).priv = false := by
  unfold shapePack4
  dsimp only
  split <;> rfl

theorem shapeMatch_priv (h : Hd) (x : WTy) : (shapeMatch h x).priv = false := by
  unfold shapeMatch
  dsimp only
  split <;> rfl

theorem optP_priv (sh : Shape) (f : BitVec 9) : (optP sh f).priv = sh.priv := by
  unfold optP
  split <;> rfl

/-- What the words of an instruction say of the mode check (R65). -/
theorem shapeIn_priv (i : Instr) (s : State) : (shapeIn i s).priv = privileged i := by
  cases i
  case rsrU1 f => exact shapeRsr_priv f.a f.b
  case rsr h => exact shapeRsr_priv h.a h.b
  case wsrU1 f => exact shapeWsr_priv f.a f.b
  case wsr h => exact shapeWsr_priv h.a h.b
  case waitc h x | yieldc h x => exact shapeWait_priv h x _
  case imad h x | ffma h x | hfma2 h x => exact vShape_priv _ h x _ _ _
  case imad5w h x l | ffma5w h x l | hfma25w h x l => exact vShape_priv _ h x _ _ _
  case cpy h x | cpy2d h x | cpys h x => exact repSlot_priv _ _ _ _ _
  case pfx h x | accst h x | ascat h x => exact repSlot_priv _ _ _ _ _
  case appop h x => exact (optP_priv (optP _ _) _).trans (optP_priv _ _)
  case agath h x => exact (repSlot_priv _ _ _ _ _).trans (optP_priv _ _)
  case bartest h x => exact shBartest_priv h x
  case glaunch h => exact shapeGlaunch_priv h
  case shfl h x => exact shapeShfl_priv h x
  case pack4 h x => exact shapePack4_priv h x
  case matchV h x => exact shapeMatch_priv h x
  all_goals rfl

theorem shapeWsr_listed {a b : BitVec 9} (h : (shapeWsr a b).ok = true) : sregListed b.toNat = true := by
  unfold shapeWsr at h
  dsimp only at h
  split at h
  · exact h
  · exact (Bool.and_eq_true_iff.mp h).1

theorem withHd_ok {h : Hd} {sh : Shape} (e : (withHd h sh).ok = true) : sh.ok = true := by
  simp only [withHd, Bool.and_eq_true] at e
  exact e.1.1.1.1.1

/-- The supervisor instructions and the writes of read-only registers. -/
def Supervisor (i : Instr) : Prop :=
  (∃ f, i = .svret f ∨ (i = .wsrU1 f ∧ f.b.toNat ∈ readOnlyRegs)) ∨
  (∃ h, i = .pgpoolGet h ∨ i = .pgpoolPut h ∨ i = .pgmap h ∨ i = .pgmapFwd h ∨ i = .tlbinv h ∨ i = .apreplay h ∨
    (i = .wsr h ∧ h.b.toNat ∈ readOnlyRegs))

theorem supervisor_of_privileged {i : Instr} {s : State} (hok : (shapeIn i s).ok = true) (hp : privileged i = true) : Supervisor i := by
  cases i
  case svret f => exact .inl ⟨f, .inl rfl⟩
  case wsrU1 f => exact .inl ⟨f, .inr ⟨rfl, (mem_readOnlyRegs (shapeWsr_listed hok)).mp hp⟩⟩
  case pgpoolGet h => exact .inr ⟨h, .inl rfl⟩
  case pgpoolPut h => exact .inr ⟨h, .inr (.inl rfl)⟩
  case pgmap h => exact .inr ⟨h, .inr (.inr (.inl rfl))⟩
  case pgmapFwd h => exact .inr ⟨h, .inr (.inr (.inr (.inl rfl)))⟩
  case tlbinv h => exact .inr ⟨h, .inr (.inr (.inr (.inr (.inl rfl))))⟩
  case apreplay h => exact .inr ⟨h, .inr (.inr (.inr (.inr (.inr (.inl rfl)))))⟩
  case wsr h => exact .inr ⟨h, .inr (.inr (.inr (.inr (.inr (.inr ⟨rfl, (mem_readOnlyRegs (shapeWsr_listed (withHd_ok hok))).mp hp⟩)))))⟩
  all_goals cases hp

theorem listed_of_readOnly {n : Nat} (h : n ∈ readOnlyRegs) : sregRO n = true :=
  (by decide : ∀ k ∈ readOnlyRegs, sregRO k = true) n h

theorem privileged_of_supervisor {i : Instr} (h : Supervisor i) : privileged i = true := by
  obtain ⟨f, rfl | ⟨rfl, hr⟩⟩ | ⟨h, rfl | rfl | rfl | rfl | rfl | rfl | ⟨rfl, hr⟩⟩ := h
  case inl.inr | inr.inr.inr.inr.inr.inr.inr => exact listed_of_readOnly hr
  all_goals rfl

/-- Each of them issues as an effect. -/
theorem supervisor_issuedBy {i : Instr} (h : Supervisor i) (s : State) : ∃ body, IssuedBy i s body := by
  obtain ⟨f, rfl | ⟨rfl, -⟩⟩ | ⟨h, rfl | rfl | rfl | rfl | rfl | rfl | ⟨rfl, -⟩⟩ := h
  · exact ⟨_, _, rfl, (rfl : _ = execSvret f s).trans (by unfold execSvret; rfl)⟩
  · exact ⟨_, wsrU1_issuedBy f s⟩
  · exact ⟨_, _, rfl, (rfl : _ = execPgpoolGet h s).trans (by unfold execPgpoolGet; rfl)⟩
  · exact ⟨_, _, rfl, (rfl : _ = execPgpoolPut h s).trans (by unfold execPgpoolPut; rfl)⟩
  · exact ⟨_, _, rfl, (rfl : _ = execPgmap h s).trans (by unfold execPgmap; rfl)⟩
  · exact ⟨_, _, rfl, (rfl : _ = execPgmapFwd h s).trans (by unfold execPgmapFwd; rfl)⟩
  · exact ⟨_, _, rfl, (rfl : _ = execTlbinv h s).trans (by unfold execTlbinv; rfl)⟩
  · exact ⟨_, _, rfl, (rfl : _ = execApreplay h s).trans (by unfold execApreplay; rfl)⟩
  · exact ⟨_, wsr_issuedBy h s⟩

/-! ### The trap -/

theorem causeOf_codeOf (cls : Nat) {cause : Nat} (h : cause < 4096) : causeOf (codeOf cls cause) = cause := by
  simp only [causeOf, codeOf, bits, BitVec.extractLsb'_toNat, BitVec.toNat_ofNat, Nat.shiftRight_zero]
  omega

section
variable {s : State} {c : Iss} {f : FaultInfo}

/-- The context in which an issue has been noted. -/
theorem issueNoted_ctx {x : Frag} (hx : (s.group c.place).frag c.slot = some x) :
    (issueNoted s c).ctx ((issueNoted s c).group c.place).page = s.ctx (s.group c.place).page := by
  have hp : ((issueNoted s c).group c.place).page = (s.group c.place).page := by
    rw [issueNoted, State.group_modGroup _ (State.find_of_frag hx)]
    unfold Group.modFrag Group.setFrag
    split <;> rfl
  rw [hp]
  simp [State.ctx, issueNoted]

/-- A fault that covers the guard's lanes is raised like one of exactly those lanes. -/
theorem raise_covering (hsup : c.sup = false) (hcov : c.full &&& ~~~f.mask = 0)
    (hd : dispOf ((issueNoted s c).ctx ((issueNoted s c).group c.place).page).d f.code f.first = .handler) (hc : causeOf f.code < 0x800) :
    raise s c [f] = raise s { c with full := f.mask } [f] := by
  rw [raise_handler (c := { c with full := f.mask }) hsup rfl hd hc]
  unfold raise raiseFor
  dsimp only
  rw [show s.modGroup c.place _ = issueNoted s c from rfl, show issueNoted s { c with full := f.mask } = issueNoted s c from rfl]
  generalize issueNoted s c = u at *
  have hone : lanesOf [f] = f.mask := by simp [lanesOf]
  have htrap : ¬ 0x800 ≤ causeOf f.code := by omega
  simp [sortBy, insertBy, hsup, hd, hone, hcov, htrap]

end

section
variable {sh : Shape} {op len st : Nat} {al : Bool} {body : Iss → State → Eff} {s : State} {f : Frag}
  (hf : (s.group s.cur.1).frag s.cur.2 = some f) (hm : mayIssue s (s.group s.cur.1) f = true)
  (hb : blocked s s.cur.1 s.cur.2 sh = false) (hd : asyncDue s s.cur.1 s.cur.2 = none)
  (hform : formFault s (s.group s.cur.1) f sh = false) (hpriv : sh.priv = true) (hsup : f.sup = false)
include hf hm hb hd hform hpriv hsup

/-- A well-formed instruction that fails the mode check raises PRIV for the fragment's whole mask (steps 5 and 6 of R65). -/
theorem issueWith_priv :
    let c := issOf sh op len st s.cur.1 s.cur.2 ((drainFor s s.cur sh).group s.cur.1) f
    issueWith sh op len st al body s =
      finish (markIssued (raise s c [.plain (codeOf (classOf c.op) cPriv) c.mask]) ((drainFor s s.cur sh).group s.cur.1)) := by
  intro c
  have hslot : slotFault s (s.group s.cur.1) sh = false := by
    simp only [formFault, Bool.or_eq_false_iff] at hform
    exact hform.1.2
  have hmask : issueMask s (s.group s.cur.1) c sh = c.mask := by simp [issueMask, hslot]
  have hfault : issueFault s (s.group s.cur.1) f c sh = some cPriv := by simp [issueFault, hform, hpriv, hsup]
  simp only [issueWith, State.find_of_frag hf, hf, hm, hb, hd, Eff.gate, Bool.not_true, Bool.or_self, Bool.false_eq_true, if_false]
  rw [hfault]
  dsimp only
  rw [hmask]
  rfl

theorem priv_inHandler (hs : s.settled = true) (c : Iss)
    (hc : c = issOf sh op len st s.cur.1 s.cur.2 ((drainFor s s.cur sh).group s.cur.1) f) (hh : handles s c 5 = true) :
    ∃ t, issueWith sh op len st al body s = .next t ∧ inHandler c s t (codeOf (classOf c.op) cPriv) 0 c.mask 0 c.pc false := by
  have hx := issueWith_priv (op := op) (len := len) (st := st) (al := al) (body := body) hf hm hb hd hform hpriv hsup
  dsimp only at hx
  rw [← hc] at hx
  have hmask : c.mask = f.mask := by rw [hc]; rfl
  have hfmt : c.fmt = f.fmt := by rw [hc]; rfl
  have husr : c.sup = false := by rw [hc]; exact hsup
  have hplace : c.place = s.cur.1 := by rw [hc]; rfl
  have hslot : c.slot = s.cur.2 := by rw [hc]; rfl
  have hcov : c.full &&& ~~~c.mask = 0 := by
    rw [hc]
    show (f.mask &&& _) &&& ~~~f.mask = 0
    rw [BitVec.and_comm f.mask, BitVec.and_assoc, BitVec.and_not_self]
    exact BitVec.and_zero
  have hcause : causeOf (codeOf (classOf c.op) cPriv) = 5 := causeOf_codeOf _ (by decide)
  have hx' : (s.group c.place).frag c.slot = some f := by rw [hplace, hslot]; exact hf
  have hdisp : dispOf (s.ctx (s.group c.place).page).d (codeOf (classOf c.op) cPriv) false = .handler := by
    simp only [dispOf, hcause, show hndBit 5 = some 5 from rfl, show bit (s.ctx (s.group c.place).page).d.hnden 5 = true from hh, if_true]
  have hlow : causeOf (codeOf (classOf c.op) cPriv) < 0x800 := by rw [hcause]; decide
  have hraise : raise s c [.plain (codeOf (classOf c.op) cPriv) c.mask] = raise s { c with full := c.mask } [.plain (codeOf (classOf c.op) cPriv) c.mask] :=
    raise_covering husr hcov (by rw [issueNoted_ctx hx']; exact hdisp) hlow
  obtain ⟨hin, hset⟩ := raise_inHandler (s := s) (s1 := s) (c := { c with full := c.mask }) (f := .plain (codeOf (classOf c.op) cPriv) c.mask)
    hx' rfl rfl hmask hfmt (congrArg (Option.map (fun y : Frag => y.rsp)) hx') husr rfl hdisp hlow ((drainFor s s.cur sh).group s.cur.1)
  rw [← hraise] at hin hset
  exact ⟨_, hx.trans (finish_settled (hset.trans hs)), hin⟩

end

/-- Settles O22: a legal form needs supervisor mode exactly when it is listed, and the mode check comes before every effect. -/
theorem privilegedTrapsInUserMode : Obligations.PrivilegedTrapsInUserMode := by
  unfold Obligations.PrivilegedTrapsInUserMode
  refine ⟨fun i s hok => ⟨fun hp => supervisor_of_privileged hok ((shapeIn_priv i s).symm.trans hp),
    fun h => (shapeIn_priv i s).trans (privileged_of_supervisor h)⟩, fun i s r f c hraw h hs hf hm hsup hb hd hform hc hh => ?_⟩
  obtain ⟨body, r', hraw', hx⟩ := supervisor_issuedBy h s
  obtain rfl : r = r' := Option.some.inj (hraw.symm.trans hraw')
  rw [hx]
  exact priv_inHandler hf hm hb hd hform ((shapeIn_priv i s).trans (privileged_of_supervisor h)) hsup hs c hc hh

end Sys2Proof.Machine
end


section
/-! The results of the arithmetic families: what the lanes of a destination finally hold, and the results of the vector and the uniform instructions
from what their lanes compute (R50, R85, R143). -/
namespace Sys2Proof.Machine

/-! ### Writes to the lanes of a list -/

/-- Lanes of a register, each once. -/
def RegName.lanesOk (r : RegName) (ls : List Nat) : Prop := ls.Nodup ∧ ∀ l ∈ ls, r.hasLane l

theorem lanesOk_lanes {r : RegName} (hr : r.uniform = false) (m : Mask) : r.lanesOk (lanes m) :=
  ⟨lanes_nodup m, fun _ hl => ⟨(mem_lanes.mp hl).1, fun hu => by simp [hr] at hu⟩⟩

theorem lanesOk_zero (r : RegName) : r.lanesOk [0] :=
  ⟨List.nodup_singleton 0, fun l hl => by rw [List.mem_singleton.mp hl]; exact ⟨by decide, fun _ => rfl⟩⟩

section
variable {r r' : RegName} {ls : List Nat} {l : Nat}

theorem RegName.lanesOk.takes (h : r.lanesOk ls) (f : Nat → Word) : r.takes (ls.map (fun l => (l, f l))) :=
  ⟨by simpa [Function.comp_def] using h.1, fun x hx => by
    obtain ⟨l, hl, rfl⟩ := List.mem_map.mp hx
    exact h.2 l hl⟩

/-- A lane that a write names. -/
theorem Group.final_write_mem (g : Group) (slot lat : Nat) (h : r.lanesOk ls) (hl : l ∈ ls) (f : Nat → Word) :
    (g.write slot r (ls.map (fun l => (l, f l))) lat).final r l = r.seen (f l) := by
  rw [final_write_self g slot lat (h.takes f) (h.2 l hl), ffind_map, if_pos hl]
  rfl

/-- A lane that a write does not name. -/
theorem Group.final_write_not_mem (g : Group) (slot lat : Nat) (h : r.lanesOk ls) (hr : r.hasLane l) (hl : l ∉ ls) (f : Nat → Word) :
    (g.write slot r (ls.map (fun l => (l, f l))) lat).final r l = g.final r l := by
  rw [final_write_self g slot lat (h.takes f) hr, ffind_map, if_neg hl]
  rfl

theorem Group.final_write_other (g : Group) (slot lat : Nat) (h : r.lanesOk ls) (hr : r' ≠ r) (hl : l < 32) (f : Nat → Word) :
    (g.write slot r (ls.map (fun l => (l, f l))) lat).final r' l = g.final r' l := final_write_ne g slot lat hr (h.takes f) hl

end

/-- A put of one register is its write. -/
theorem Group.put_one (g : Group) (slot lat : Nat) (r : RegName) (ls : List Nat) (f : Nat → DWord) :
    g.put slot [(r, lat)] (ls.map (fun l => (l, f l))) = g.write slot r (ls.map (fun l => (l, lo32 (f l)))) lat := by
  simp [put, Function.comp_def]

/-- A put of a pair writes the low half, then the high one. -/
theorem Group.put_two (g : Group) (slot lat : Nat) (r r' : RegName) (ls : List Nat) (f : Nat → DWord) :
    g.put slot [(r, lat), (r', lat)] (ls.map (fun l => (l, f l))) =
      (g.write slot r (ls.map (fun l => (l, lo32 (f l)))) lat).write slot r' (ls.map (fun l => (l, hi32 (f l)))) lat := by
  simp [put, Function.comp_def]

/-- The destination of `w` registers from `a`. -/
def destOf (reg : Nat → RegName) (a w lat : Nat) : List (RegName × Nat) := ((rangeFrom a w).map reg).map (fun r => (r, lat))

section
variable {reg : Nat → RegName} {ls : List Nat} {l : Nat} {w : Nat}

/-- What a destination of one or two registers finally holds. -/
theorem Group.final_put_dest (g : Group) (slot a lat : Nat) (hw : w = 1 ∨ w = 2) (hreg : ∀ n, reg n ≠ reg (n + 1)) (hok : ∀ n, (reg n).lanesOk ls)
    (f : Nat → DWord) (hl : l ∈ ls) :
    (g.put slot (destOf reg a w lat) (ls.map (fun l => (l, f l)))).final (reg a) l = (reg a).seen (lo32 (f l)) ∧
    (w = 2 → (g.put slot (destOf reg a w lat) (ls.map (fun l => (l, f l)))).final (reg (a + 1)) l = (reg (a + 1)).seen (hi32 (f l))) := by
  obtain rfl | rfl := hw
  · refine ⟨?_, nofun⟩
    show (g.put slot [(reg a, lat)] _).final _ l = _
    rw [put_one, final_write_mem g slot lat (hok a) hl]
  · show (g.put slot [(reg a, lat), (reg (a + 1), lat)] _).final _ l = _ ∧ (_ → (g.put slot [(reg a, lat), (reg (a + 1), lat)] _).final _ l = _)
    rw [put_two]
    exact ⟨by rw [final_write_other _ slot lat (hok (a + 1)) (hreg a) ((hok a).2 l hl).1, final_write_mem g slot lat (hok a) hl],
      fun _ => final_write_mem _ slot lat (hok (a + 1)) hl _⟩

end

/-! ### Vector instructions -/

/-- In the lanes of a mask, `w` registers from `a` finally hold the values of a function, whose flags FSTAT finally gains: `g'` of `g`. -/
def Group.Results (g g' : Group) (a w : Nat) (m : Mask) (f : Nat → DWord × Flags) : Prop :=
  (∀ l ∈ lanes m, g'.finalV a l = lo32 (f l).1 ∧ (w = 2 → g'.finalV (a + 1) l = hi32 (f l).1)) ∧
  g'.finalFlags = g.finalFlags ||| orFlags ((lanes m).map (fun l => (f l).2))

theorem Group.put_finalFlags (g : Group) (slot : Nat) (dst : List (RegName × Nat)) (vals : List (Nat × DWord)) :
    (g.put slot dst vals).finalFlags = g.finalFlags := by
  unfold put
  split
  · rfl
  · exact bankOf_finalFlags (bankOf_write g _ _ _ _)
  · exact (bankOf_finalFlags (bankOf_write _ _ _ _ _)).trans (bankOf_finalFlags (bankOf_write g _ _ _ _))

theorem Group.flags_final (g : Group) (slot lat : Nat) (f : Flags) (r : RegName) (l : Nat) : (g.flags slot lat f).final r l = g.final r l := by
  unfold flags
  split <;> rfl

theorem Group.seeded_finalFlags (g : Group) (sr : Bool) (m : Mask) : (g.seeded sr m).finalFlags = g.finalFlags := by cases sr <;> rfl

/-- The flags of lanes that raise none. -/
theorem orFlags_zero (ls : List Nat) : orFlags (ls.map (fun _ => (0 : Flags))) = 0 := by
  induction ls with
  | nil => rfl
  | cons l ls ih => simpa [orFlags] using ih

theorem orFlags_of_zero {ls : List Nat} {f : Nat → Flags} (h : ∀ l ∈ ls, f l = 0) : orFlags (ls.map f) = 0 := by
  rw [List.map_congr_left h, orFlags_zero]

section
variable {g : Group} {a w lat : Nat} {m : Mask} (hw : w = 1 ∨ w = 2)
include hw

theorem Group.finalV_put_lanes (slot : Nat) (f : Nat → DWord) {l : Nat} (hl : l ∈ lanes m) :
    (g.put slot (destOf .v a w lat) ((lanes m).map (fun l => (l, f l)))).finalV a l = lo32 (f l) ∧
    (w = 2 → (g.put slot (destOf .v a w lat) ((lanes m).map (fun l => (l, f l)))).finalV (a + 1) l = hi32 (f l)) :=
  final_put_dest (reg := .v) g slot a lat hw (fun n h => by simp at h) (fun _ => lanesOk_lanes rfl m) f hl

/-- A result without flags. -/
theorem Group.Results.put (slot : Nat) (f : Nat → DWord) :
    g.Results (g.put slot (destOf .v a w lat) ((lanes m).map (fun l => (l, f l)))) a w m (fun l => (f l, 0)) :=
  ⟨fun _ hl => finalV_put_lanes hw slot f hl, by rw [put_finalFlags, orFlags_zero]; exact BitVec.or_zero.symm⟩

/-- A result with flags, after SEED has advanced. -/
theorem Group.Results.flags (sr : Bool) (b : Mask) (slot k : Nat) (f : Nat → DWord × Flags) :
    g.Results (((g.seeded sr b).put slot (destOf .v a w lat) ((lanes m).map (fun l => (l, (f l).1)))).flags slot k
      (orFlags ((lanes m).map (fun l => (f l).2)))) a w m f :=
  ⟨fun l hl => by
      simp only [finalV_eq, flags_final]
      exact finalV_put_lanes hw slot (fun l => (f l).1) hl,
    by rw [flags_finalFlags, put_finalFlags, seeded_finalFlags]⟩

end

/-- The SEED state that a lane's operation uses (R95). -/
def seedOf (i : Instr) (g : Group) (l : Nat) : Word := if srForm i then seedStep (fget g.seed l 0) else fget g.seed l 0

theorem seeded_lane (i : Instr) (g : Group) {m : Mask} {l : Nat} (hl : l ∈ lanes m) : fget (g.seeded (srForm i) m).seed l 0 = seedOf i g l := by
  obtain ⟨hlt, hb⟩ := mem_lanes.mp hl
  rw [Group.seeded_seed _ _ _ hlt, seedOf]
  simp only [hb, and_true]

theorem Group.Results.congr {g g' : Group} {a w : Nat} {m : Mask} {f f' : Nat → DWord × Flags} (h : g.Results g' a w m f)
    (hf : ∀ l ∈ lanes m, f l = f' l) : g.Results g' a w m f' :=
  ⟨fun l hl => hf l hl ▸ h.1 l hl, by rw [h.2, List.map_congr_left (fun l hl => congrArg Prod.snd (hf l hl))]⟩

/-- What the shared shape of the per-lane instructions leaves. -/
theorem Group.Results.vecGroup {g : Group} {a w lat : Nat} {m : Mask} (hw : w = 1 ∨ w = 2) (i : Instr) (args : List (Src × Nat)) (f : LaneFn) (slot : Nat) :
    g.Results (Machine.vecGroup (destOf .v a w lat) args (srForm i) f slot m g) a w m
      (fun l => f (seedOf i g l) (args.map (fun x => srcLane g slot l x.2 x.1))) := by
  have h := Results.flags (g := g) (a := a) (lat := lat) (m := m) hw (srForm i) m slot (latOf (destOf .v a w lat))
    (fun l => f (fget (g.seeded (srForm i) m).seed l 0) (args.map (fun x => srcLane g slot l x.2 x.1)))
  refine Results.congr (f := fun l => f (fget (g.seeded (srForm i) m).seed l 0) (args.map (fun x => srcLane g slot l x.2 x.1))) ?_
    (fun l hl => by rw [seeded_lane i g hl])
  simpa [Machine.vecGroup, seeded, Function.comp_def] using h

section
variable {i : Instr} {s : State} {c : Iss} {a w lat : Nat}

/-- The results of an instruction whose effect changes its own group. -/
theorem FlaggedResult.of_group {u : Iss → Group → Group} {F : Group → Word → Nat → DWord × Flags} (hi : IssuedBy i s (fun c s => goGroup s c (u c)))
    (h : Ready i s c → ∀ g : Group, g.Results (u c g) a w c.act (fun l => F g (seedOf i g l) l)) : FlaggedResult i s c a w F := fun hr => by
  obtain ⟨s2, hc, hg⟩ := completes_of_goGroup hi hr (u := u c) rfl
  refine ⟨s2, hc, ?_⟩
  rw [hg]
  exact h hr _

theorem FlaggedResult.laneResult {F : Group → Word → Nat → DWord × Flags} (h : FlaggedResult i s c a w F) {v : Group → Nat → Word}
    (hv : ∀ g q l, lo32 (F g q l).1 = v g l) : LaneResult i s c a v := fun hr => by
  obtain ⟨s2, hc, hres, -⟩ := h hr
  exact ⟨s2, hc, fun l hl => (hres l hl).1.trans (hv _ _ l)⟩

variable {r : Raw} {args : List (Src × Nat)} {f : LaneFn} (hraw : rawOf i = some r)

include hraw in
theorem vec_issuedBy {sr : Bool} (hx : exec i s = vec (shapeIn i s) r.op.toNat r.len r.st args sr f s) :
    IssuedBy i s (fun c s1 => goGroup s1 c (vecGroup (shapeIn i s).dst args sr f c.slot c.act)) := ⟨r, hraw, hx⟩

include hraw in
theorem uni_issuedBy (hx : exec i s = uni (shapeIn i s) r.op.toNat r.len r.st args f s) :
    IssuedBy i s (fun c s1 => goGroup s1 c (uniGroup (shapeIn i s).dst args f c.slot)) := ⟨r, hraw, hx⟩

include hraw in
/-- The results of a vector instruction are what its function gives of its operands. -/
theorem FlaggedResult.vec (hx : exec i s = Machine.vec (shapeIn i s) r.op.toNat r.len r.st args (srForm i) f s)
    (hd : (shapeIn i s).dst = destOf .v a w lat) (hw : w = 1 ∨ w = 2) {F : Group → Word → Nat → DWord × Flags}
    (hF : Ready i s c → ∀ g q l, f q (args.map (fun x => srcLane g c.slot l x.2 x.1)) = F g q l) : FlaggedResult i s c a w F :=
  .of_group (vec_issuedBy hraw hx) fun hr g => (hd ▸ Group.Results.vecGroup hw i args f c.slot).congr fun l _ => hF hr g _ l

end

/-! ### Uniform instructions -/

section
variable {i : Instr} {s : State} {c : Iss} {a w lat : Nat}

theorem Group.finalS_put_dest (g : Group) (slot : Nat) (hw : w = 1 ∨ w = 2) (x : DWord) :
    (g.put slot (destOf .s a w lat) [(0, x)]).finalS a = lo32 x ∧ (w = 2 → (g.put slot (destOf .s a w lat) [(0, x)]).finalS (a + 1) = hi32 x) :=
  final_put_dest (reg := .s) (ls := [0]) g slot a lat hw (fun n h => by simp at h) (fun n => lanesOk_zero (.s n)) (fun _ => x) List.mem_cons_self

/-- The results of a uniform instruction whose effect changes its own group. -/
theorem FlaggedUni.of_group {u : Iss → Group → Group} {F : Group → DWord × Flags} (hi : IssuedBy i s (fun c s => goGroup s c (u c)))
    (h : Ready i s c → ∀ g : Group, (u c g).finalS a = lo32 (F g).1 ∧ (w = 2 → (u c g).finalS (a + 1) = hi32 (F g).1) ∧
      (u c g).finalFlags = g.finalFlags ||| (F g).2) : FlaggedUni i s c a w F := fun hr => by
  obtain ⟨s2, hc, hg⟩ := completes_of_goGroup hi hr (u := u c) rfl
  refine ⟨s2, hc, ?_⟩
  rw [hg]
  exact h hr _

theorem FlaggedUni.uniResult {F : Group → DWord × Flags} (h : FlaggedUni i s c a w F) {v : Group → Word} (hv : ∀ g, lo32 (F g).1 = v g) :
    UniResult i s c a v := fun hr => by
  obtain ⟨s2, hc, hres, -⟩ := h hr
  exact ⟨s2, hc, hres.trans (hv _)⟩

theorem Group.uniGroup_results (g : Group) (slot : Nat) (hw : w = 1 ∨ w = 2) (args : List (Src × Nat)) (f : LaneFn) :
    let x := f 0 (args.map (fun x => srcLane g slot 0 x.2 x.1))
    let g' := uniGroup (destOf .s a w lat) args f slot g
    g'.finalS a = lo32 x.1 ∧ (w = 2 → g'.finalS (a + 1) = hi32 x.1) ∧ g'.finalFlags = g.finalFlags ||| x.2 := by
  intro x g'
  have h := finalS_put_dest (a := a) (lat := lat) g slot hw x.1
  have hf : ∀ n, g'.finalS n = (g.put slot (destOf .s a w lat) [(0, x.1)]).finalS n := fun n => flags_final _ slot _ x.2 (.s n) 0
  rw [hf, hf]
  exact ⟨h.1, h.2, (flags_finalFlags _ _ _ _).trans (by rw [put_finalFlags])⟩

variable {r : Raw} {args : List (Src × Nat)} {f : LaneFn}

/-- The results of a uniform instruction are what its function gives of its operands. -/
theorem FlaggedUni.uni (hraw : rawOf i = some r) (hx : exec i s = Machine.uni (shapeIn i s) r.op.toNat r.len r.st args f s)
    (hd : (shapeIn i s).dst = destOf .s a w lat) (hw : w = 1 ∨ w = 2) {F : Group → DWord × Flags}
    (hF : Ready i s c → ∀ g, f 0 (args.map (fun x => srcLane g c.slot 0 x.2 x.1)) = F g) : FlaggedUni i s c a w F :=
  .of_group (uni_issuedBy hraw hx) fun hr g => by
    rw [← hF hr g, hd]
    exact g.uniGroup_results c.slot hw args f

end

/-! ### Predicates -/

/-- A predicate that is not always true reads what was written to it. -/
theorem Group.finalP_write (g : Group) {slot lat n l : Nat} {m : Mask} (hn : n ≠ 7) (hl : l ∈ lanes m) (b : Nat → Bool) :
    (g.write slot (.p n) ((lanes m).map (fun l => (l, lo32 (truth (b l))))) lat).finalP n l = b l := by
  rw [finalP_eq, final_write_mem g slot lat (lanesOk_lanes rfl m) hl]
  cases h : b l <;> simp [RegName.seen, truth, lo32, hn]

theorem Group.finalK_write (g : Group) {slot lat n : Nat} (hn : n ≠ 3) (b : Bool) :
    (g.write slot (.k n) [(0, lo32 (truth b))] lat).finalK n = b := by
  rw [finalK_eq]
  have h := final_write_mem g slot lat (lanesOk_zero (.k n)) List.mem_cons_self (fun _ => lo32 (truth b))
  refine (congrArg (· != 0) h).trans ?_
  cases b <;> simp [RegName.seen, truth, lo32, hn]

section
variable {i : Instr} {s : State} {c : Iss} {r : Raw} {args : List (Src × Nat)} {f : LaneFn} {a lat : Nat}

/-- A comparison of lanes writes its condition to a predicate, and FSTAT finally gains its flags. -/
theorem vec_predicate (hraw : rawOf i = some r) (hx : exec i s = vec (shapeIn i s) r.op.toNat r.len r.st args false f s)
    (hd : (shapeIn i s).dst = [(.p a, lat)]) {F : Group → Nat → Bool × Flags}
    (hF : Ready i s c → ∀ g q l, f q (args.map (fun x => srcLane g c.slot l x.2 x.1)) = (truth (F g l).1, (F g l).2)) (hr : Ready i s c) :
    ∃ s2, Completes i s c s2 ∧
      (a ≠ 7 → ∀ l ∈ lanes c.act, (s2.group c.place).finalP a l = (F ((begun i s).group c.place) l).1) ∧
      (s2.group c.place).finalFlags =
        ((begun i s).group c.place).finalFlags ||| orFlags ((lanes c.act).map (fun l => (F ((begun i s).group c.place) l).2)) := by
  obtain ⟨s2, hc, hg⟩ := completes_of_goGroup (vec_issuedBy hraw hx) hr rfl
  generalize (begun i s).group c.place = g at hg
  have hg' : s2.group c.place = (g.write c.slot (.p a) ((lanes c.act).map (fun l => (l, lo32 (truth (F g l).1)))) lat).flags c.slot lat
      (orFlags ((lanes c.act).map (fun l => (F g l).2))) := by
    rw [hg, hd]
    simp [vecGroup, Group.put, latOf, hF hr, Function.comp_def]
  refine ⟨s2, hc, ?_⟩
  rw [hg']
  refine ⟨fun ha l hl => ?_, ?_⟩
  · rw [Group.finalP_eq, Group.flags_final, ← Group.finalP_eq]
    exact Group.finalP_write g ha hl (fun l => (F g l).1)
  · rw [Group.flags_finalFlags, Group.bankOf_finalFlags (Group.bankOf_write g _ _ _ _)]

/-- A uniform instruction writes a condition to a uniform predicate. -/
theorem goGroup_uniform_predicate {u : Iss → Group → Group} (hi : IssuedBy i s (fun c s => goGroup s c (u c))) {F : Group → Bool}
    (hF : ∀ g : Group, ∃ k fl, u c g = (g.write c.slot (.k a) [(0, lo32 (truth (F g)))] lat).flags c.slot k fl ∨
      u c g = g.write c.slot (.k a) [(0, lo32 (truth (F g)))] lat) (hr : Ready i s c) (ha : a ≠ 3) :
    ∃ s2, Completes i s c s2 ∧ (s2.group c.place).finalK a = F ((begun i s).group c.place) := by
  obtain ⟨s2, hc, hg⟩ := completes_of_goGroup hi hr (u := u c) rfl
  refine ⟨s2, hc, ?_⟩
  rw [hg]
  obtain ⟨k, fl, h | h⟩ := hF ((begun i s).group c.place)
  · rw [h, Group.finalK_eq, Group.flags_final, ← Group.finalK_eq]
    exact Group.finalK_write _ ha _
  · rw [h]
    exact Group.finalK_write _ ha _

end

end Sys2Proof.Machine
end


section
/-! The integers of a TYPE (R73): its value of a register or pair, a result modulo 2^N, a clamped one, and each operation of R136 and R144 to R148
in these terms. -/
namespace Sys2Proof.Machine

/-! ### Numbers of N bits -/

/-- An integer modulo 2^N, of the range of the signed or the unsigned type of N bits. -/
def numOf (N : Nat) (sg : Bool) (i : Int) : Int := if sg ∧ 2 ^ (N - 1) ≤ i % 2 ^ N then i % 2 ^ N - 2 ^ N else i % 2 ^ N

/-- The least and the greatest number of a type. -/
def leastOf (N : Nat) (sg : Bool) : Int := if sg then -2 ^ (N - 1) else 0
def greatestOf (N : Nat) (sg : Bool) : Int := if sg then 2 ^ (N - 1) - 1 else 2 ^ N - 1

/-- A result modulo 2^N. -/
def wrapOf (N : Nat) (sg : Bool) (i : Int) : DWord × Flags := (BitVec.ofInt 64 (numOf N sg i), 0)

/-- A result, clamped under SAT (R73, R85). -/
def outOf (N : Nat) (sg sat : Bool) (i : Int) : DWord × Flags :=
  if sat then (BitVec.ofInt 64 (max (leastOf N sg) (min (greatestOf N sg) i)),
    if leastOf N sg ≤ i ∧ i ≤ greatestOf N sg then 0 else fOF ||| fNX)
  else wrapOf N sg i

section
variable {N : Nat} {sg : Bool} {i j : Int}

theorem numOf_congr (h : i % 2 ^ N = j % 2 ^ N) : numOf N sg i = numOf N sg j := by simp only [numOf, h]

theorem numOf_emod : numOf N sg i % 2 ^ N = i % 2 ^ N := by
  unfold numOf
  split
  · rw [Int.sub_emod_right, Int.emod_emod_of_dvd _ (Int.dvd_refl _)]
  · exact Int.emod_emod_of_dvd _ (Int.dvd_refl _)

theorem numOf_numOf : numOf N sg (numOf N sg i) = numOf N sg i := numOf_congr numOf_emod

theorem two_pow_pred (h : 0 < N) : (2 : Int) ^ N = 2 * 2 ^ (N - 1) := by
  obtain ⟨n, rfl⟩ := Nat.exists_eq_succ_of_ne_zero h.ne'
  rw [Nat.succ_sub_one, pow_succ, Int.mul_comm]

/-- A number of the range is itself. -/
theorem numOf_of_mem (hN : 0 < N) (hl : leastOf N sg ≤ i) (hh : i ≤ greatestOf N sg) : numOf N sg i = i := by
  have hp := two_pow_pred hN
  have hpos : (0 : Int) < 2 ^ (N - 1) := by positivity
  unfold numOf
  cases sg
  · simp only [leastOf, greatestOf, Bool.false_eq_true, if_false, false_and] at hl hh ⊢
    exact Int.emod_eq_of_lt hl (by omega)
  · simp only [leastOf, greatestOf, if_true, true_and] at hl hh ⊢
    by_cases hi : 0 ≤ i
    · rw [Int.emod_eq_of_lt hi (by omega), if_neg (by omega)]
    · rw [← Int.add_emod_right, Int.emod_eq_of_lt (a := i + 2 ^ N) (by omega) (by omega), if_pos (by omega)]
      omega

end

/-! ### Integer types -/

/-- An integer TYPE of N bits (R73). -/
structure IntForm (t : Ty) (N : Nat) (sg : Bool) : Prop where
  bits : tyBits t = N
  signed : tySigned t = sg
  regs : tyRegs t = if N = 64 then 2 else 1
  imm : immKOf t = if N = 64 then .int64 else .int32
  size : N = 8 ∨ N = 16 ∨ N = 32 ∨ N = 64

theorem intForm_of_mem {t : Ty} {N : Nat} {sg : Bool} (h : (t, N, sg) ∈ [(Ty.i8, 8, true), (Ty.n8, 8, false), (Ty.i16, 16, true),
    (Ty.n16, 16, false), (Ty.i32, 32, true), (Ty.n32, 32, false), (Ty.i64, 64, true), (Ty.n64, 64, false)]) : IntForm t N sg := by
  simp only [List.mem_cons, List.not_mem_nil, or_false, Prod.mk.injEq] at h
  rcases h with ⟨rfl, rfl, rfl⟩ | ⟨rfl, rfl, rfl⟩ | ⟨rfl, rfl, rfl⟩ | ⟨rfl, rfl, rfl⟩ | ⟨rfl, rfl, rfl⟩ | ⟨rfl, rfl, rfl⟩ | ⟨rfl, rfl, rfl⟩ |
    ⟨rfl, rfl, rfl⟩ <;> exact ⟨rfl, rfl, rfl, rfl, by decide⟩

namespace IntForm
variable {t : Ty} {N : Nat} {sg : Bool} (h : IntForm t N sg)
include h

theorem pos : 0 < N := by rcases h.size with rfl | rfl | rfl | rfl <;> decide
theorem le : N ≤ 64 := by rcases h.size with rfl | rfl | rfl | rfl <;> decide
omit h in
theorem regs_cases : (if N = 64 then 2 else 1) = 1 ∨ (if N = 64 then 2 else 1) = 2 := by split <;> simp

theorem intVal_eq (y : DWord) : intVal t y = numOf N sg y.toNat := by
  have hc : (2 ^ (N - 1) : Nat) ≤ y.toNat % 2 ^ N ↔ (2 : Int) ^ (N - 1) ≤ (y.toNat : Int) % 2 ^ N := by exact_mod_cast Iff.rfl
  unfold intVal numOf
  simp only [h.bits, h.signed, Bool.and_eq_true, decide_eq_true_eq, hc, Int.natCast_emod, Nat.cast_pow, Nat.cast_ofNat]

theorem numOf_ofInt (i : Int) : numOf N sg (BitVec.ofInt 64 i).toNat = numOf N sg i := by
  refine numOf_congr ?_
  have hd : (2 : Int) ^ N ∣ 2 ^ 64 := pow_dvd_pow 2 h.le
  rw [BitVec.toNat_ofInt, Int.toNat_of_nonneg (Int.emod_nonneg _ (by decide))]
  exact Int.emod_emod_of_dvd i hd

theorem intWrap_eq (i : Int) : intWrap t i = BitVec.ofInt 64 (numOf N sg i) := by rw [intWrap, h.intVal_eq, h.numOf_ofInt]

theorem intRange_eq : intRange t = (leastOf N sg, greatestOf N sg) := by
  unfold intRange leastOf greatestOf
  simp only [h.bits, h.signed]
  cases sg <;> rfl

theorem least_le_greatest : leastOf N sg ≤ greatestOf N sg := by
  have hpos : (0 : Int) < 2 ^ (N - 1) := by positivity
  have hpos' : (0 : Int) < 2 ^ N := by positivity
  cases sg <;> simp only [leastOf, greatestOf, Bool.false_eq_true, if_false, if_true] <;> omega

theorem intClamp_eq (i : Int) : intClamp t i = max (leastOf N sg) (min (greatestOf N sg) i) := by
  have hle := h.least_le_greatest
  unfold intClamp
  simp only [h.intRange_eq]
  omega

theorem intOut_eq (sat : Bool) (i : Int) : intOut t sat i = outOf N sg sat i := by
  have hle := h.least_le_greatest
  cases sat
  · exact Prod.ext (h.intWrap_eq i) rfl
  · have hval : numOf N sg (max (leastOf N sg) (min (greatestOf N sg) i)) = max (leastOf N sg) (min (greatestOf N sg) i) :=
      numOf_of_mem h.pos (by omega) (by omega)
    have hchg : (max (leastOf N sg) (min (greatestOf N sg) i) != i) = !decide (leastOf N sg ≤ i ∧ i ≤ greatestOf N sg) := by
      rw [bne, Bool.not_inj_iff, beq_eq_decide, decide_eq_decide]
      omega
    simp only [intOut, outOf, if_true, h.intClamp_eq, h.intWrap_eq, hval, hchg, flagIf]
    by_cases hin : leastOf N sg ≤ i ∧ i ≤ greatestOf N sg <;> simp [hin]

theorem intMad_eq (sat : Bool) (a b c : DWord) :
    intMad t sat a b c = outOf N sg sat (numOf N sg a.toNat * numOf N sg b.toNat + numOf N sg c.toNat) := by
  simp only [intMad, h.intOut_eq, h.intVal_eq]

/-! The two-operand operations (R144). -/

section
variable (sat : Bool) (y z : DWord)

theorem intOp_add : intOp .add t sat y z = outOf N sg sat (numOf N sg y.toNat + numOf N sg z.toNat) := by
  simp only [intOp, h.intOut_eq, h.intVal_eq]

theorem intOp_sub : intOp .sub t sat y z = outOf N sg sat (numOf N sg y.toNat - numOf N sg z.toNat) := by
  simp only [intOp, h.intOut_eq, h.intVal_eq]

theorem intOp_mul : intOp .mul t sat y z = outOf N sg sat (numOf N sg y.toNat * numOf N sg z.toNat) := by
  simp only [intOp, h.intOut_eq, h.intVal_eq]

theorem intOp_mulh : intOp .mulh t sat y z = wrapOf N sg (numOf N sg y.toNat * numOf N sg z.toNat / 2 ^ N) := by
  simp only [intOp, h.intWrap_eq, h.intVal_eq, h.bits, wrapOf]

theorem intOp_and : intOp .and t sat y z = wrapOf N sg (y &&& z).toNat := by
  simp only [intOp, h.intWrap_eq, h.intVal_eq, numOf_numOf, wrapOf]

theorem intOp_or : intOp .or t sat y z = wrapOf N sg (y ||| z).toNat := by
  simp only [intOp, h.intWrap_eq, h.intVal_eq, numOf_numOf, wrapOf]

theorem intOp_xor : intOp .xor t sat y z = wrapOf N sg (y ^^^ z).toNat := by
  simp only [intOp, h.intWrap_eq, h.intVal_eq, numOf_numOf, wrapOf]

theorem intOp_min : intOp .min t sat y z =
    wrapOf N sg (if numOf N sg z.toNat < numOf N sg y.toNat then numOf N sg z.toNat else numOf N sg y.toNat) := by
  simp only [intOp, h.intWrap_eq, h.intVal_eq, wrapOf]

theorem intOp_max : intOp .max t sat y z =
    wrapOf N sg (if numOf N sg y.toNat < numOf N sg z.toNat then numOf N sg z.toNat else numOf N sg y.toNat) := by
  simp only [intOp, h.intWrap_eq, h.intVal_eq, wrapOf]

theorem intOp_shl : intOp .shl t sat y z = wrapOf N sg (y.toNat * 2 ^ (z.toNat % N) : Nat) := by
  simp only [intOp, h.intWrap_eq, wrapOf, natVal, shiftBy, h.bits]
  refine congrArg (fun i => (BitVec.ofInt 64 i, (0 : Flags))) (numOf_congr ?_)
  push_cast
  exact (Int.mod_modEq _ _).mul_right _

theorem intOp_shr : intOp .shr t sat y z = wrapOf N sg (y.toNat % 2 ^ N / 2 ^ (z.toNat % N) : Nat) := by
  simp only [intOp, h.intWrap_eq, wrapOf, natVal, shiftBy, h.bits]

theorem sraVal_eq (n : Nat) : sraVal t y n = numOf N true y.toNat / 2 ^ n := by
  have hc : (2 ^ (N - 1) : Nat) ≤ y.toNat % 2 ^ N ↔ (2 : Int) ^ (N - 1) ≤ (y.toNat : Int) % 2 ^ N := by exact_mod_cast Iff.rfl
  unfold sraVal numOf natVal
  simp only [h.bits, hc, true_and, Int.natCast_emod, Nat.cast_pow, Nat.cast_ofNat]

theorem intOp_sra : intOp .sra t sat y z = wrapOf N sg (numOf N true y.toNat / 2 ^ (z.toNat % N)) := by
  simp only [intOp, h.intWrap_eq, h.sraVal_eq, wrapOf, shiftBy, h.bits]

end

end IntForm

end Sys2Proof.Machine
end


section
/-! Bits: the counts, the reversal and the bit fields of R147 and R148, the truth tables of R146, and the comparisons of R145. -/
namespace Sys2Proof.Machine

/-! ### Counts -/

theorem popc_eq {w : Nat} (x : BitVec w) : popc x = ((List.range w).filter (fun i => bit x i)).length := by
  have h : ∀ (l : List Nat) (n : Nat), l.foldl (fun n i => if bit x i then n + 1 else n) n = n + (l.filter (fun i => bit x i)).length := by
    intro l
    induction l with
    | nil => exact fun n => rfl
    | cons i l ih =>
      intro n
      rw [List.foldl_cons, ih, List.filter_cons]
      split
      · simp only [List.length_cons]
        omega
      · rfl
  exact (h (List.range w) 0).trans (Nat.zero_add _)

/-- The place of the first number that a predicate takes is how many before it it does not. -/
theorem find_range_eq (p : Nat → Bool) (w : Nat) :
    ((List.range w).find? p).getD w = ((List.range w).takeWhile (fun i => !p i)).length := by
  have h : ∀ n a, ((List.range' a n).find? p).getD (a + n) = a + ((List.range' a n).takeWhile (fun i => !p i)).length := by
    intro n
    induction n with
    | zero => exact fun a => rfl
    | succ n ih =>
      intro a
      rw [List.range'_succ, List.find?_cons, List.takeWhile_cons]
      cases hp : p a
      · have := ih (a + 1)
        rw [show a + (n + 1) = a + 1 + n by omega]
        simp only [Bool.not_false, if_true, List.length_cons]
        omega
      · simp
  simpa [List.range_eq_range'] using h w 0

theorem ffs_eq {w : Nat} (x : BitVec w) : ffs x = ((List.range w).takeWhile (fun i => !bit x i)).length := find_range_eq _ w

theorem clz_eq {w : Nat} (x : BitVec w) : clz x = ((List.range w).takeWhile (fun i => !bit x (w - 1 - i))).length :=
  find_range_eq (fun i => bit x (w - 1 - i)) w

/-- The low bits of a value. -/
theorem bit_ofNat_toNat {n w i : Nat} (x : BitVec n) (h : i < w) : bit (BitVec.ofNat w x.toNat) i = bit x i := by
  unfold bit
  rw [BitVec.getLsbD_ofNat, BitVec.getLsbD]
  simp [h]

theorem takeWhile_congr {α : Type} {p q : α → Bool} {l : List α} (h : ∀ x ∈ l, p x = q x) : l.takeWhile p = l.takeWhile q := by
  induction l with
  | nil => rfl
  | cons x l ih =>
    rw [List.takeWhile_cons, List.takeWhile_cons, h x List.mem_cons_self, ih (fun y hy => h y (List.mem_cons_of_mem x hy))]

section
variable {t : Ty} {N : Nat} (h : tyBits t = N)
include h

theorem lo32_popVal (y : DWord) : lo32 (popVal t y) = BitVec.ofNat 32 ((List.range N).filter (fun i => bit y i)).length := by
  rw [popVal, lo32_ofNat, h, popc_eq, List.filter_congr (fun i hi => bit_ofNat_toNat y (List.mem_range.mp hi))]

theorem lo32_clzVal (y : DWord) : lo32 (clzVal t y) = BitVec.ofNat 32 ((List.range N).takeWhile (fun i => !bit y (N - 1 - i))).length := by
  rw [clzVal, lo32_ofNat, h, clz_eq, takeWhile_congr (fun i hi => by
    have := List.mem_range.mp hi
    rw [bit_ofNat_toNat y (by omega)])]

theorem lo32_ffsVal (y : DWord) : lo32 (ffsVal t y) = BitVec.ofNat 32 ((List.range N).takeWhile (fun i => !bit y i)).length := by
  rw [ffsVal, lo32_ofNat, h, ffs_eq, takeWhile_congr (fun i hi => by rw [bit_ofNat_toNat y (List.mem_range.mp hi)])]

end

/-! ### Reversal -/

/-- The number that k steps of the reversal make. -/
def revSum (f : Nat → Bool) (k : Nat) : Nat := (List.range k).foldl (fun n i => 2 * n + natOf (f i)) 0

theorem testBit_revSum (f : Nat → Bool) (k j : Nat) : (revSum f k).testBit j = (decide (j < k) && f (k - 1 - j)) := by
  induction k generalizing j with
  | zero => simp [revSum]
  | succ k ih =>
    have hs : revSum f (k + 1) = 2 * revSum f k + natOf (f k) := by simp [revSum, List.range_succ]
    rw [hs]
    cases j with
    | zero => cases h : f k <;> simp [natOf, Nat.testBit_zero, h]
    | succ j =>
      have hd : (2 * revSum f k + natOf (f k)) / 2 = revSum f k := by
        cases f k <;> simp [natOf]; omega
      rw [Nat.testBit_succ, hd, ih, show k + 1 - 1 - (j + 1) = k - 1 - j by omega]
      simp only [Nat.add_lt_add_iff_right]

theorem brev_eq {w : Nat} (x : BitVec w) : brev x = x.reverse := by
  refine BitVec.eq_of_getLsbD_eq fun i hi => ?_
  show (BitVec.ofNat w (revSum (bit x) w)).getLsbD i = _
  rw [BitVec.getLsbD_ofNat, testBit_revSum, BitVec.getLsbD_reverse, BitVec.getMsbD]
  simp [hi, bit]

/-! ### Fields -/

/-- A shift count keeps its remainder in the low word. -/
theorem lo32_toNat_mod {N : Nat} (h : N = 8 ∨ N = 16 ∨ N = 32 ∨ N = 64) (x : DWord) : (lo32 x).toNat % N = x.toNat % N := by
  have hd : N ∣ 2 ^ 32 := by rcases h with rfl | rfl | rfl | rfl <;> decide
  rw [lo32, BitVec.toNat_setWidth, Nat.mod_mod_of_dvd _ hd]

theorem bits_lo32 (x : DWord) {lo n : Nat} (h : lo + n ≤ 32) : bits (lo32 x) lo n = bits x lo n := by
  refine BitVec.eq_of_getLsbD_eq fun i hi => ?_
  have h32 : lo + i < 32 := by omega
  simp [bits, lo32, hi, h32]

/-- The place and the length of the field that an operand names in a value of N bits (R147). -/
def startOf (N : Nat) (x : Word) : Nat := min (bits x 0 8).toNat N
def lengthOf (N : Nat) (x : Word) : Nat := min (bits x 8 8).toNat (N - startOf N x)

theorem startOf_add_lengthOf (N : Nat) (x : Word) : startOf N x + lengthOf N x ≤ N := by
  unfold lengthOf startOf
  omega

theorem fieldOf_eq {t : Ty} {N : Nat} (h : tyBits t = N) (x : DWord) : fieldOf t x = (startOf N (lo32 x), lengthOf N (lo32 x)) := by
  simp only [fieldOf, startOf, lengthOf, h, bits_lo32 x (show 0 + 8 ≤ 32 by decide), bits_lo32 x (show 8 + 8 ≤ 32 by decide)]

/-- BFE: the field, of a signed type with its sign (R147). -/
theorem IntForm.bfeVal_eq {t : Ty} {N : Nat} {sg : Bool} (h : IntForm t N sg) (y z : DWord) :
    let pos := startOf N (lo32 z)
    let len := lengthOf N (lo32 z)
    let field := y.toNat / 2 ^ pos % 2 ^ len
    (bfeVal t y z, (0 : Flags)) = wrapOf N sg (if sg ∧ 0 < len ∧ 2 ^ (len - 1) ≤ field then (field : Int) - 2 ^ len else field) := by
  intro pos len field
  have hle : pos + len ≤ N := startOf_add_lengthOf N _
  have hval : natVal t y / 2 ^ pos % 2 ^ len = field := by
    rw [natVal, h.bits]
    apply Nat.eq_of_testBit_eq
    intro i
    simp only [field, Nat.testBit_mod_two_pow, Nat.testBit_div_two_pow]
    by_cases hi : i < len
    · have : i + pos < N := by omega
      simp [hi, this]
    · simp [hi]
  unfold bfeVal
  simp only [fieldOf_eq h.bits, wrapOf, h.signed]
  by_cases hz : len = 0
  · have hf : field = 0 := by simp [field, hz, Nat.mod_one]
    simp only [show lengthOf N (lo32 z) = 0 from hz, if_true, hz, hf]
    have hpos : ¬ (2 : Int) ^ (N - 1) ≤ 0 := not_le.mpr (by positivity)
    simp [numOf, hpos]
  · have hp : 0 < len := Nat.pos_of_ne_zero hz
    rw [if_neg hz, h.intWrap_eq]
    simp only [show natVal t y / 2 ^ startOf N (lo32 z) % 2 ^ lengthOf N (lo32 z) = field from hval, Bool.and_eq_true, decide_eq_true_eq, hp, true_and]
    rfl

/-- BFI: the low bits of the first value in the place of the field (R147). -/
theorem bit_bfiVal {t : Ty} {N : Nat} (h : tyBits t = N) (hN : N ≤ 64) (y z old : DWord) {j : Nat} (hj : j < N) :
    bit (bfiVal t y z old) j =
      if startOf N (lo32 z) ≤ j ∧ j < startOf N (lo32 z) + lengthOf N (lo32 z) then bit y (j - startOf N (lo32 z)) else bit old j := by
  have hj64 : j < 64 := by omega
  unfold bfiVal
  simp only [fieldOf_eq h, bit_and, bit_or, bit_not]
  generalize startOf N (lo32 z) = pos
  generalize lengthOf N (lo32 z) = len
  have hm : bit (BitVec.ofNat 64 ((2 ^ len - 1) * 2 ^ pos)) j = decide (pos ≤ j ∧ j < pos + len) := by
    unfold bit
    rw [BitVec.getLsbD_ofNat, Nat.testBit_mul_two_pow, Nat.testBit_two_pow_sub_one]
    by_cases hp : pos ≤ j <;> simp [hp, hj64]
    omega
  have hv : bit (BitVec.ofNat 64 (y.toNat % 2 ^ len * 2 ^ pos)) j = (decide (pos ≤ j ∧ j < pos + len) && bit y (j - pos)) := by
    unfold bit
    rw [BitVec.getLsbD_ofNat, Nat.testBit_mul_two_pow, Nat.testBit_mod_two_pow, BitVec.getLsbD]
    by_cases hp : pos ≤ j <;> by_cases hl : j < pos + len <;> simp [hp, hl, hj64] <;> omega
  rw [hm, hv]
  by_cases hin : pos ≤ j ∧ j < pos + len <;> simp [hin, hj64]

/-! ### Truth tables and comparisons -/

theorem bit_lop3Val (t : BitVec 8) (a b c : DWord) {j : Nat} (h : j < 64) :
    bit (lop3Val t a b c) j = bit t ((if bit a j then 1 else 0) + 2 * (if bit b j then 1 else 0) + 4 * (if bit c j then 1 else 0)) := by
  rw [lop3Val, bit_bitsOf]
  simp [h, lutBit, natOf]

/-- The condition of a comparison of numbers (R137, R145). -/
def condOf (n : Nat) (y z : Int) : Bool :=
  match n with
  | 0 => decide (y = z)
  | 1 => decide (y ≠ z)
  | 2 => decide (y < z)
  | 3 => decide (y ≤ z)
  | 4 => decide (z < y)
  | _ => decide (z ≤ y)

theorem IntForm.intCmp_eq {t : Ty} {N : Nat} {sg : Bool} (h : IntForm t N sg) (n : Nat) (y z : DWord) :
    intCmp n t y z = condOf n (numOf N sg y.toNat) (numOf N sg z.toNat) := by
  unfold intCmp condOf
  simp only [h.intVal_eq]
  match n with
  | 0 => exact beq_eq_decide _ _
  | 1 => simp [bne, beq_eq_decide]
  | 2 | 3 | 4 | n + 5 => rfl

end Sys2Proof.Machine
end


section
/-! The operands of the three- and five-word forms (R43, R136, R142, R143), and the results of the integer instructions from their operations. -/
namespace Sys2Proof.Machine

/-! ### What the form rules ask -/

theorem vShape_aluOk {p : Alu} {h : Hd} {x : WAlu} {lit : Option (BitVec 60)} {a : Opd} {dp : Option Opd} (hok : (vShape p h x lit a dp).ok = true) :
    aluOk p h x lit = true := by
  unfold vShape at hok
  dsimp only at hok
  split at hok <;> simp_all [shape3, alsoReads]

theorem sShape_aluOk {p : Alu} {h : Hd} {x : WAlu} {lit : Option (BitVec 60)} {a : Opd} {dp : Option Opd} (hok : (sShape p h x lit a dp).ok = true) :
    aluOk p h x lit = true := by
  unfold sShape at hok
  simp_all [shape3]

section
variable {p : Alu} {h : Hd} {x : WAlu} {lit : Option (BitVec 60)}

theorem aluOk_ty (hok : aluOk p h x lit = true) : x.ty ∈ p.tys := by
  simp only [aluOk, Bool.and_eq_true, List.contains_iff_mem] at hok
  exact hok.1.1.1.1.1.1

/-- A literal leaves no place to IMM20 (R44). -/
theorem aluOk_literal {m : BitVec 60} (hok : aluOk p h x (some m) = true) : x.imm = false := by
  simp only [aluOk, immOk, Bool.and_eq_true] at hok
  simp_all

/-- A lone source is no immediate, but of a move of immediates (R142). -/
theorem aluOk_lone (hok : aluOk p h x lit = true) (hn : p.n = 1) (ha : p.acc = false) (ho : p.one = false) : x.imm = false := by
  simp only [aluOk, isAcc, ha, hn, ho] at hok
  simp_all

theorem aluOk_one (hok : aluOk p h x none = true) (ho : p.one = true) : x.imm = true := by
  simp only [aluOk, ho] at hok
  simp_all

end

/-! ### Sources -/

/-- Field B (R142). -/
def srcB (h : Hd) (x : WAlu) : Src := if x.ub then .s h.b.toNat else .v h.b.toNat

/-- A source that IMM20 or the literal may replace (R43). -/
def srcLast (k : ImmK) (x : WAlu) (lit : Option (BitVec 60)) (o : Src) : Src := if x.imm || lit.isSome then .imm (immVal k x.imm20 lit) else o

section
variable {p : Alu} {h : Hd} {x : WAlu} {lit : Option (BitVec 60)} {w1 w2 w3 : Nat} {ws : List Nat}

theorem vArgs_one (hn : p.n = 1) (ha : p.acc = false) (hws : p.ws = w1 :: ws) :
    vArgs p h x lit = [(srcLast p.k x lit (srcB h x), w1)] := by
  simp [vArgs, vSrcs, isAcc, hn, ha, hws, srcLast, srcB]

theorem vArgs_two (hn : p.n = 2) (ha : p.acc = false) (hws : p.ws = w1 :: w2 :: ws) :
    vArgs p h x lit = [(srcB h x, w1), (srcLast p.k x lit (.v h.c.toNat), w2)] := by
  simp [vArgs, vSrcs, isAcc, hn, ha, hws, srcLast, srcB, List.range_succ]

theorem vArgs_three (hn : p.n = 3) (ha : p.acc = false) (hws : p.ws = w1 :: w2 :: w3 :: ws) :
    vArgs p h x lit = [(srcB h x, w1), (.v h.c.toNat, w2), (srcLast p.k x lit (.v h.d.toNat), w3)] := by
  simp [vArgs, vSrcs, isAcc, hn, ha, hws, srcLast, srcB, List.range_succ]

/-- The sources of a multiply-add: under .acc field A is the addend (R143). -/
theorem vArgs_acc (hn : p.n = 3) (ha : p.acc = true) (hws : p.ws = w1 :: w2 :: w3 :: ws) :
    vArgs p h x lit = if bit h.mod 0 then [(srcB h x, w1), (srcLast p.k x lit (.v h.c.toNat), w2), (.v h.a.toNat, w3)]
      else [(srcB h x, w1), (.v h.c.toNat, w2), (srcLast p.k x lit (.v h.d.toNat), w3)] := by
  cases hb : bit h.mod 0 <;> simp [vArgs, vSrcs, isAcc, hn, ha, hws, hb, srcLast, srcB, List.range_succ]

theorem sArgs_one (hn : p.n = 1) (hws : p.ws = w1 :: ws) : sArgs p h x lit = [(srcLast p.k x lit (.s h.b.toNat), w1)] := by
  simp [sArgs, sSrcs, hn, hws, srcLast]

theorem sArgs_two (hn : p.n = 2) (hws : p.ws = w1 :: w2 :: ws) :
    sArgs p h x lit = [(.s h.b.toNat, w1), (srcLast p.k x lit (.s h.c.toNat), w2)] := by
  simp [sArgs, sSrcs, hn, hws, srcLast, List.range_succ]

end

/-! ### Operands of N bits -/

section
variable (N : Nat) (h : Hd) (x : WAlu) (lit : Option (BitVec 60)) (g : Group) (slot l : Nat)

/-- A register or pair of a lane, and a uniform one. -/
def regIn (q : BitVec 9) : DWord := if N = 64 then g.rv64 slot q.toNat l else (g.rv slot q.toNat l).setWidth 64
def uniIn (q : BitVec 9) : DWord := if N = 64 then g.rs64 slot q.toNat else (g.rs slot q.toNat).setWidth 64

/-- What IMM20 or the literal stands for (R43). -/
def immIn : DWord :=
  match lit with
  | some m => if N = 64 then m.signExtend 64 else (bits m 0 32).setWidth 64
  | none => x.imm20.signExtend 64

/-- The same of an operand of 32 bits. -/
def immWord : Word :=
  match lit with
  | some m => bits m 0 32
  | none => x.imm20.signExtend 32

/-- The operand of field B, the one of a field with what may replace it, and the latter of 32 bits. -/
def opB : DWord := if x.ub then uniIn N g slot h.b else regIn N g slot l h.b
def opLast (q : BitVec 9) : DWord := if x.imm || lit.isSome then immIn N x lit else regIn N g slot l q
def opUni (q : BitVec 9) : DWord := if x.imm || lit.isSome then immIn N x lit else uniIn N g slot q
def opWord : Word := if x.imm || lit.isSome then immWord x lit else g.rv slot h.c.toNat l
def opUniWord : Word := if x.imm || lit.isSome then immWord x lit else g.rs slot h.c.toNat

end

section
variable {t : Ty} {N : Nat} {sg : Bool} {h : Hd} {x : WAlu} {lit : Option (BitVec 60)} {g : Group} {slot l : Nat}

theorem srcLane_v (hr : tyRegs t = if N = 64 then 2 else 1) (q : BitVec 9) : srcLane g slot l (tyRegs t) (.v q.toNat) = regIn N g slot l q := by
  unfold srcLane regIn
  rw [hr]
  by_cases hN : N = 64 <;> simp [hN, zx]

theorem srcLane_s (hr : tyRegs t = if N = 64 then 2 else 1) (q : BitVec 9) : srcLane g slot l (tyRegs t) (.s q.toNat) = uniIn N g slot q := by
  unfold srcLane uniIn
  rw [hr]
  by_cases hN : N = 64 <;> simp [hN, zx]

theorem IntForm.immVal_eq (hf : IntForm t N sg) : immVal (immKOf t) x.imm20 lit = immIn N x lit := by
  rw [hf.imm]
  unfold immIn
  cases lit <;> by_cases hN : N = 64 <;> simp [hN, immVal, sx, zx]

theorem lo32_immVal : lo32 (immVal .int32 x.imm20 lit) = immWord x lit := by
  unfold immWord
  cases lit with
  | some m => exact lo32_zx _
  | none =>
    refine BitVec.eq_of_getLsbD_eq fun i hi => ?_
    have h64 : i < 64 := by omega
    simp [immVal, lo32, sx, BitVec.getElem_signExtend, hi, h64]

theorem IntForm.srcB_eq (hf : IntForm x.ty N sg) : srcLane g slot l (tyRegs x.ty) (srcB h x) = opB N h x g slot l := by
  unfold srcB opB
  split
  · exact srcLane_s hf.regs h.b
  · exact srcLane_v hf.regs h.b

theorem IntForm.srcLast_eq (hf : IntForm x.ty N sg) (q : BitVec 9) :
    srcLane g slot l (tyRegs x.ty) (srcLast (immKOf x.ty) x lit (.v q.toNat)) = opLast N x lit g slot l q := by
  unfold srcLast opLast
  split
  · exact hf.immVal_eq
  · exact srcLane_v hf.regs q

theorem IntForm.srcUni_eq (hf : IntForm x.ty N sg) (q : BitVec 9) :
    srcLane g slot l (tyRegs x.ty) (srcLast (immKOf x.ty) x lit (.s q.toNat)) = opUni N x lit g slot q := by
  unfold srcLast opUni
  split
  · exact hf.immVal_eq
  · exact srcLane_s hf.regs q

theorem lo32_srcLast : lo32 (srcLane g slot l 1 (srcLast .int32 x lit (.v h.c.toNat))) = opWord h x lit g slot l := by
  unfold srcLast opWord
  split
  · exact lo32_immVal
  · exact lo32_zx _

theorem lo32_srcUni : lo32 (srcLane g slot l 1 (srcLast .int32 x lit (.s h.c.toNat))) = opUniWord h x lit g slot := by
  unfold srcLast opUniWord
  split
  · exact lo32_immVal
  · exact lo32_zx _

end

/-! ### Results of the vector forms -/

/-- The registers of a result hold its bits. -/
theorem Group.Results.bit {g g' : Group} {a N : Nat} {m : Mask} {f : Nat → DWord × Flags} (hr : g.Results g' a (if N = 64 then 2 else 1) m f)
    (hN : N ≤ 32 ∨ N = 64) {l j : Nat} (hl : l ∈ lanes m) (hj : j < N) : bit (g'.finalV (a + j / 32) l) (j % 32) = bit (f l).1 j := by
  obtain ⟨hlo, hhi⟩ := hr.1 l hl
  by_cases h32 : j < 32
  · rw [Nat.div_eq_of_lt h32, Nat.mod_eq_of_lt h32, Nat.add_zero, hlo]
    simp [Machine.bit, lo32, h32]
  · obtain rfl : N = 64 := by omega
    obtain ⟨k, rfl⟩ : ∃ k, j = 32 + k := ⟨j - 32, by omega⟩
    have hk : k < 32 := by omega
    rw [show (32 + k) / 32 = 1 by omega, show (32 + k) % 32 = k by omega, hhi rfl]
    simp [Machine.bit, hi32, hk]

section
variable (i : Instr) (h : Hd) (x : WAlu) (lit : Option (BitVec 60)) (s : State) (c : Iss) (N : Nat)

/-- An instruction's destination of N bits holds an operation on its operands: two of N bits, one of N and one of 32 bits, three, or one. -/
def LaneTwo (op : DWord → DWord → DWord × Flags) : Prop := FlaggedResult i s c h.a.toNat (if N = 64 then 2 else 1)
  (fun g _ l => op (opB N h x g c.slot l) (opLast N x lit g c.slot l h.c))
def LaneWord (op : DWord → Word → DWord × Flags) : Prop := FlaggedResult i s c h.a.toNat (if N = 64 then 2 else 1)
  (fun g _ l => op (opB N h x g c.slot l) (opWord h x lit g c.slot l))
def LaneAcc (op : DWord → DWord → DWord → DWord × Flags) : Prop := FlaggedResult i s c h.a.toNat (if N = 64 then 2 else 1)
  (fun g _ l => op (opB N h x g c.slot l) (if bit h.mod 0 then opLast N x lit g c.slot l h.c else regIn N g c.slot l h.c)
    (if bit h.mod 0 then regIn N g c.slot l h.a else opLast N x lit g c.slot l h.d))
def LaneLone (op : DWord → DWord × Flags) : Prop := FlaggedResult i s c h.a.toNat (if N = 64 then 2 else 1)
  (fun g _ l => op (opB N h x g c.slot l))
def LaneCount (op : DWord → Word) : Prop := LaneResult i s c h.a.toNat (fun g l => op (opB N h x g c.slot l))

/-- The same of uniform instructions. -/
def UniTwo (op : DWord → DWord → DWord × Flags) : Prop := FlaggedUni i s c h.a.toNat (if N = 64 then 2 else 1)
  (fun g => op (uniIn N g c.slot h.b) (opUni N x lit g c.slot h.c))
def UniWord (op : DWord → Word → DWord × Flags) : Prop := FlaggedUni i s c h.a.toNat (if N = 64 then 2 else 1)
  (fun g => op (uniIn N g c.slot h.b) (opUniWord h x lit g c.slot))

end

/-- What a lone source is: no immediate, of a type that the entry allows (R142). -/
theorem vArgs_lone {p : Alu} {h : Hd} {x : WAlu} {a : Opd} {w : Nat} {ws : List Nat} (hok : (vShape p h x none a none).ok = true)
    (hp : p.n = 1 ∧ p.acc = false ∧ p.one = false) (hws : p.ws = w :: ws) : vArgs p h x none = [(srcB h x, w)] ∧ x.ty ∈ p.tys := by
  obtain ⟨hn, hacc, hone⟩ := hp
  have hal := vShape_aluOk hok
  have himm : x.imm = false := aluOk_lone hal hn hacc hone
  exact ⟨by rw [vArgs_one hn hacc hws, srcLast, if_neg (by simp [himm])], aluOk_ty hal⟩

section
variable {N : Nat} {sg : Bool} {h : Hd} {x : WAlu} {lit : Option (BitVec 60)} {i : Instr} {s : State} {c : Iss} {r : Raw}
  {args : List (Src × Nat)} {lat : Nat}

section
variable (hf : IntForm x.ty N sg) (hraw : rawOf i = some r) (hsr : srForm i = false)
include hf hraw hsr

/-- An integer instruction of any operands. -/
theorem IntForm.flagged {f : LaneFn} (hx : exec i s = vec (shapeIn i s) r.op.toNat r.len r.st args false f s)
    (hd : (shapeIn i s).dst = destOf .v h.a.toNat (tyRegs x.ty) lat) {F : Group → Nat → DWord × Flags}
    (hF : Ready i s c → ∀ g q l, f q (args.map (fun x => srcLane g c.slot l x.2 x.1)) = F g l) :
    FlaggedResult i s c h.a.toNat (if N = 64 then 2 else 1) (fun g _ l => F g l) := by
  rw [hf.regs] at hd
  exact .vec hraw (hsr ▸ hx) hd regs_cases hF

/-- Two sources of the type. -/
theorem IntForm.two {F op : DWord → DWord → DWord × Flags}
    (hx : exec i s = vec (shapeIn i s) r.op.toNat r.len r.st args false (fn2 F) s)
    (hd : (shapeIn i s).dst = destOf .v h.a.toNat (tyRegs x.ty) lat)
    (ha : args = [(srcB h x, tyRegs x.ty), (srcLast (immKOf x.ty) x lit (.v h.c.toNat), tyRegs x.ty)]) (hop : ∀ y z, F y z = op y z) :
    LaneTwo i h x lit s c N op :=
  hf.flagged hraw hsr hx hd fun _ g q l => by
    rw [← hop, ← hf.srcB_eq, ← hf.srcLast_eq, ha]
    rfl

/-- A source of the type and one of 32 bits. -/
theorem IntForm.word {F : DWord → DWord → DWord × Flags} {op : DWord → Word → DWord × Flags}
    (hx : exec i s = vec (shapeIn i s) r.op.toNat r.len r.st args false (fn2 F) s)
    (hd : (shapeIn i s).dst = destOf .v h.a.toNat (tyRegs x.ty) lat)
    (ha : args = [(srcB h x, tyRegs x.ty), (srcLast .int32 x lit (.v h.c.toNat), 1)]) (hop : ∀ y z, F y z = op y (lo32 z)) :
    LaneWord i h x lit s c N op :=
  hf.flagged hraw hsr hx hd fun _ g q l => by
    rw [← hf.srcB_eq, ← lo32_srcLast, ← hop, ha]
    rfl

/-- Three sources, of which under .acc the last is field A (R143). -/
theorem IntForm.acc {F op : DWord → DWord → DWord → DWord × Flags} {p : Alu}
    (hx : exec i s = vec (shapeIn i s) r.op.toNat r.len r.st (vArgs p h x lit) false (fn3 F) s)
    (hd : (shapeIn i s).dst = destOf .v h.a.toNat (tyRegs x.ty) lat) (hp : p.n = 3 ∧ p.acc = true ∧ p.k = immKOf x.ty)
    (hws : p.ws = [tyRegs x.ty, tyRegs x.ty, tyRegs x.ty]) (hop : ∀ y z u, F y z u = op y z u) :
    LaneAcc i h x lit s c N op :=
  hf.flagged hraw hsr hx hd fun _ g q l => by
    obtain ⟨hn, hacc, hk⟩ := hp
    rw [vArgs_acc hn hacc hws, hk, ← hop, ← hf.srcB_eq, ← hf.srcLast_eq, ← hf.srcLast_eq, ← srcLane_v hf.regs, ← srcLane_v hf.regs]
    split <;> rfl

/-- A source alone. -/
theorem IntForm.lone {p : Alu} {a : Opd} {F op : DWord → DWord × Flags} {ws : List Nat}
    (hx : exec i s = vec (shapeIn i s) r.op.toNat r.len r.st (vArgs p h x none) false (fn1 F) s)
    (hd : (shapeIn i s).dst = destOf .v h.a.toNat (tyRegs x.ty) lat) (hs : shapeIn i s = vShape p h x none a none)
    (hp : p.n = 1 ∧ p.acc = false ∧ p.one = false) (hws : p.ws = tyRegs x.ty :: ws) (hop : x.ty ∈ p.tys → ∀ y, F y = op y) :
    LaneLone i h x s c N op :=
  hf.flagged hraw hsr hx hd fun hr g q l => by
    obtain ⟨hargs, hty⟩ := vArgs_lone (hs ▸ hr.form) hp hws
    rw [← hop hty, ← hf.srcB_eq, hargs]
    rfl

/-- A count of a lone source, in 32 bits. -/
theorem IntForm.count {p : Alu} {a : Opd} {F : DWord → DWord} {op : DWord → Word} {ws : List Nat}
    (hx : exec i s = vec (shapeIn i s) r.op.toNat r.len r.st (vArgs p h x none) false (fn1 (fun y => (F y, 0))) s)
    (hd : (shapeIn i s).dst = destOf .v h.a.toNat 1 lat) (hs : shapeIn i s = vShape p h x none a none)
    (hp : p.n = 1 ∧ p.acc = false ∧ p.one = false) (hws : p.ws = tyRegs x.ty :: ws) (hop : ∀ y, lo32 (F y) = op y) :
    LaneCount i h x s c N op := by
  have hres : FlaggedResult i s c h.a.toNat 1 (fun g _ l => (F (opB N h x g c.slot l), 0)) :=
    .vec hraw (hsr ▸ hx) hd (.inl rfl) fun hr g q l => by
      rw [(vArgs_lone (hs ▸ hr.form) hp hws).1, ← hf.srcB_eq]
      rfl
  exact hres.laneResult fun g q l => hop _

omit hsr in
/-- ISEL's choice of its sources (R145). -/
theorem IntForm.isel (hx : exec i s = iselEff (shapeIn i s) r.len h args s) (hop : r.op = 0x3A) (hst : r.st = h.st)
    (hd : (shapeIn i s).dst = destOf .v h.a.toNat (tyRegs x.ty) lat)
    (ha : args = [(srcB h x, tyRegs x.ty), (srcLast (immKOf x.ty) x lit (.v h.c.toNat), tyRegs x.ty)]) :
    FlaggedResult i s c h.a.toNat (if N = 64 then 2 else 1) (fun g _ l =>
      (if g.rp c.slot h.d.toNat l != bit h.mod 0 then opB N h x g c.slot l else opLast N x lit g c.slot l h.c, 0)) := by
  rw [hf.regs] at hd
  refine .of_group ⟨r, hraw, hx.trans (by rw [hop, hst]; rfl)⟩ fun _ g => ?_
  rw [hd]
  refine (Group.Results.put regs_cases c.slot _).congr fun l _ => congrArg (fun v : DWord => (v, (0 : Flags))) ?_
  rw [← hf.srcB_eq, ← hf.srcLast_eq, ha]
  split <;> rfl

end

/-- A bit field insert, bit by bit (R147). -/
theorem IntForm.bfi (hf : IntForm x.ty N sg) (hraw : rawOf i = some r) (hsr : srForm i = false)
    (hx : exec i s = vec (shapeIn i s) r.op.toNat r.len r.st args false (fn3 (fun y z u => (bfiVal x.ty y z u, 0))) s)
    (hd : (shapeIn i s).dst = destOf .v h.a.toNat (tyRegs x.ty) lat)
    (ha : args = [(srcB h x, tyRegs x.ty), (.v h.c.toNat, 1), (srcLast (immKOf x.ty) x lit (.v h.d.toNat), tyRegs x.ty)])
    (hr : Ready i s c) : ∃ s2, Completes i s c s2 ∧ ∀ l ∈ lanes c.act, ∀ j, j < N →
      bit ((s2.group c.place).finalV (h.a.toNat + j / 32) l) (j % 32) =
        (if startOf N (((begun i s).group c.place).rv c.slot h.c.toNat l) ≤ j ∧
            j < startOf N (((begun i s).group c.place).rv c.slot h.c.toNat l) + lengthOf N (((begun i s).group c.place).rv c.slot h.c.toNat l) then
          bit (opB N h x ((begun i s).group c.place) c.slot l) (j - startOf N (((begun i s).group c.place).rv c.slot h.c.toNat l))
        else bit (opLast N x lit ((begun i s).group c.place) c.slot l h.d) j) := by
  have hres : FlaggedResult i s c h.a.toNat (if N = 64 then 2 else 1) (fun g _ l =>
      (bfiVal x.ty (opB N h x g c.slot l) (zx (g.rv c.slot h.c.toNat l)) (opLast N x lit g c.slot l h.d), 0)) :=
    hf.flagged hraw hsr hx hd fun _ g q l => by
      rw [← hf.srcB_eq, ← hf.srcLast_eq, ha]
      rfl
  obtain ⟨s2, hc, hg⟩ := hres hr
  refine ⟨s2, hc, fun l hl j hj => ?_⟩
  rw [Group.Results.bit hg (by have := hf.size; omega) hl hj, bit_bfiVal hf.bits hf.le _ _ _ hj, lo32_zx]

/-- A comparison of lanes (R145). -/
theorem IntForm.icmp (hf : IntForm x.ty N sg) (hraw : rawOf i = some r) {n : Nat}
    (hx : exec i s = vec (shapeIn i s) r.op.toNat r.len r.st args false (fn2 (fun a b => (truth (intCmp n x.ty a b), 0))) s)
    (hd : (shapeIn i s).dst = [(.p h.a.toNat, lat)])
    (ha : args = [(srcB h x, tyRegs x.ty), (srcLast (immKOf x.ty) x lit (.v h.c.toNat), tyRegs x.ty)]) (hr : Ready i s c) (h7 : h.a ≠ 7) :
    ∃ s2, Completes i s c s2 ∧ ∀ l ∈ lanes c.act, (s2.group c.place).finalP h.a.toNat l =
      condOf n (numOf N sg (opB N h x ((begun i s).group c.place) c.slot l).toNat)
        (numOf N sg (opLast N x lit ((begun i s).group c.place) c.slot l h.c).toNat) := by
  obtain ⟨s2, hc, hp, -⟩ := vec_predicate hraw hx hd (F := fun g l => (condOf n (numOf N sg (opB N h x g c.slot l).toNat)
    (numOf N sg (opLast N x lit g c.slot l h.c).toNat), 0)) (fun _ g q l => by
      rw [← hf.intCmp_eq, ← hf.srcB_eq, ← hf.srcLast_eq, ha]
      rfl) hr
  exact ⟨s2, hc, hp (fun h => h7 (BitVec.eq_of_toNat_eq h))⟩

end

/-! ### Moves of immediates -/

section
variable {p : Alu} {h : Hd} {x : WAlu} {lit : Option (BitVec 60)} {i : Instr} {s : State} {c : Iss} {r : Raw} {lat : Nat}

/-- The source of a move of immediates (R137, R170). -/
theorem srcLast_move (hok : aluOk p h x lit = true) (ho : p.one = true) (k : ImmK) (o : Src) : srcLast k x lit o = .imm (immVal k x.imm20 lit) := by
  refine if_pos ?_
  cases lit with
  | some m => exact Bool.or_true _
  | none => rw [aluOk_one hok ho, Bool.true_or]

/-- MOVI in both forms, of any type. -/
theorem movi_result (hraw : rawOf i = some r) (hsr : srForm i = false)
    (hx : exec i s = vec (shapeIn i s) r.op.toNat r.len r.st (vArgs (aluMovi x) h x lit) false (fn1 (fun a => (a, 0))) s)
    (hd : (shapeIn i s).dst = destOf .v h.a.toNat (tyRegs x.ty) lat) {a : Opd} {b : Bool}
    (hs : (shapeIn i s).ok = ((vShape (aluMovi x) h x lit a none).ok && b && !x.ub)) :
    FlaggedResult i s c h.a.toNat (tyRegs x.ty) (fun _ _ _ => (immVal (immKOf x.ty) x.imm20 lit, 0)) := by
  have hw : tyRegs x.ty = 1 ∨ tyRegs x.ty = 2 := by cases x.ty <;> simp [tyRegs]
  refine .vec hraw (hsr ▸ hx) hd hw fun hr g q l => ?_
  have hok := hr.form
  rw [hs, Bool.and_eq_true, Bool.and_eq_true] at hok
  rw [vArgs_one rfl rfl rfl, srcLast_move (vShape_aluOk hok.1.1) rfl]
  rfl

/-- SLDI in both forms. -/
theorem sldi_result (hraw : rawOf i = some r)
    (hx : exec i s = uni (shapeIn i s) r.op.toNat r.len r.st (sArgs (aluSldi x) h x lit) (fn1 (fun a => (a, 0))) s)
    (hd : (shapeIn i s).dst = destOf .s h.a.toNat (tyRegs x.ty) lat) {a : Opd} (hs : shapeIn i s = sShape (aluSldi x) h x lit a none) :
    FlaggedUni i s c h.a.toNat (tyRegs x.ty) (fun _ => (immVal (immKOf x.ty) x.imm20 lit, 0)) := by
  have hw : tyRegs x.ty = 1 ∨ tyRegs x.ty = 2 := by cases x.ty <;> simp [tyRegs]
  refine .uni hraw hx hd hw fun hr g => ?_
  rw [sArgs_one rfl rfl, srcLast_move (sShape_aluOk (hs ▸ hr.form)) rfl]
  rfl

end

/-! ### Results of the uniform forms -/

section
variable {N : Nat} {sg : Bool} {h : Hd} {x : WAlu} {lit : Option (BitVec 60)} {i : Instr} {s : State} {c : Iss} {r : Raw}
  {args : List (Src × Nat)} {lat : Nat} (hf : IntForm x.ty N sg) (hraw : rawOf i = some r)
include hf hraw

/-- A uniform instruction of any operands. -/
theorem IntForm.flaggedUni {f : LaneFn} (hx : exec i s = uni (shapeIn i s) r.op.toNat r.len r.st args f s)
    (hd : (shapeIn i s).dst = destOf .s h.a.toNat (tyRegs x.ty) lat) {F : Group → DWord × Flags}
    (hF : Ready i s c → ∀ g, f 0 (args.map (fun x => srcLane g c.slot 0 x.2 x.1)) = F g) :
    FlaggedUni i s c h.a.toNat (if N = 64 then 2 else 1) F := by
  rw [hf.regs] at hd
  exact .uni hraw hx hd regs_cases hF

/-- Two sources of the type. -/
theorem IntForm.uniTwo {F op : DWord → DWord → DWord × Flags} (hx : exec i s = uni (shapeIn i s) r.op.toNat r.len r.st args (fn2 F) s)
    (hd : (shapeIn i s).dst = destOf .s h.a.toNat (tyRegs x.ty) lat)
    (ha : args = [(.s h.b.toNat, tyRegs x.ty), (srcLast (immKOf x.ty) x lit (.s h.c.toNat), tyRegs x.ty)]) (hop : ∀ y z, F y z = op y z) :
    UniTwo i h x lit s c N op :=
  hf.flaggedUni hraw hx hd fun _ g => by
    rw [← hop, ← srcLane_s (l := 0) hf.regs, ← hf.srcUni_eq (l := 0), ha]
    rfl

/-- A source of the type and one of 32 bits. -/
theorem IntForm.uniWord {F : DWord → DWord → DWord × Flags} {op : DWord → Word → DWord × Flags}
    (hx : exec i s = uni (shapeIn i s) r.op.toNat r.len r.st args (fn2 F) s)
    (hd : (shapeIn i s).dst = destOf .s h.a.toNat (tyRegs x.ty) lat)
    (ha : args = [(.s h.b.toNat, tyRegs x.ty), (srcLast .int32 x lit (.s h.c.toNat), 1)]) (hop : ∀ y z, F y z = op y (lo32 z)) :
    UniWord i h x lit s c N op :=
  hf.flaggedUni hraw hx hd fun _ g => by
    rw [← srcLane_s (l := 0) hf.regs, ← lo32_srcUni (l := 0), ← hop, ha]
    rfl

/-- SMOV. -/
theorem IntForm.smov {p : Alu} {a : Opd} {ws : List Nat}
    (hx : exec i s = uni (shapeIn i s) r.op.toNat r.len r.st (sArgs p h x none) (fn1 (fun a => (a, 0))) s)
    (hd : (shapeIn i s).dst = destOf .s h.a.toNat (tyRegs x.ty) lat) (hs : shapeIn i s = sShape p h x none a none)
    (hp : p.n = 1 ∧ p.acc = false ∧ p.one = false) (hws : p.ws = tyRegs x.ty :: ws) :
    FlaggedUni i s c h.a.toNat (if N = 64 then 2 else 1) (fun g => (uniIn N g c.slot h.b, 0)) :=
  hf.flaggedUni hraw hx hd fun hr g => by
    obtain ⟨hn, hacc, hone⟩ := hp
    have himm : x.imm = false := aluOk_lone (sShape_aluOk (hs ▸ hr.form)) hn hacc hone
    rw [← srcLane_s (l := 0) hf.regs, sArgs_one hn hws, srcLast, if_neg (by simp [himm])]
    rfl

/-- SSEL's choice of its sources (R137). -/
theorem IntForm.ssel (hx : exec i s = sselEff (shapeIn i s) r.len h args s) (hop : r.op = 0x1C) (hst : r.st = h.st)
    (hd : (shapeIn i s).dst = destOf .s h.a.toNat (tyRegs x.ty) lat)
    (ha : args = [(.s h.b.toNat, tyRegs x.ty), (srcLast (immKOf x.ty) x lit (.s h.c.toNat), tyRegs x.ty)]) :
    FlaggedUni i s c h.a.toNat (if N = 64 then 2 else 1) (fun g =>
      (if g.rk c.slot h.d.toNat then uniIn N g c.slot h.b else opUni N x lit g c.slot h.c, 0)) := by
  rw [hf.regs] at hd
  refine .of_group ⟨r, hraw, hx.trans (by rw [hop, hst]; rfl)⟩ fun _ g => ?_
  rw [hd, ← srcLane_s (l := 0) hf.regs, ← hf.srcUni_eq (l := 0), ha]
  exact g.uniGroup_results c.slot regs_cases _ _

/-- A uniform comparison (R137). -/
theorem IntForm.scmp {n : Nat}
    (hx : exec i s = uni (shapeIn i s) r.op.toNat r.len r.st args (fn2 (fun a b => (truth (intCmp n x.ty a b), 0))) s)
    (hd : (shapeIn i s).dst = [(.k h.a.toNat, lat)])
    (ha : args = [(.s h.b.toNat, tyRegs x.ty), (srcLast (immKOf x.ty) x lit (.s h.c.toNat), tyRegs x.ty)]) (hr : Ready i s c) (h3 : h.a ≠ 3) :
    ∃ s2, Completes i s c s2 ∧ (s2.group c.place).finalK h.a.toNat =
      condOf n (numOf N sg (uniIn N ((begun i s).group c.place) c.slot h.b).toNat)
        (numOf N sg (opUni N x lit ((begun i s).group c.place) c.slot h.c).toNat) := by
  refine goGroup_uniform_predicate (lat := lat) (F := fun g => condOf n (numOf N sg (uniIn N g c.slot h.b).toNat)
    (numOf N sg (opUni N x lit g c.slot h.c).toNat)) (uni_issuedBy hraw hx) (fun g => ⟨lat, 0, .inl ?_⟩) hr
    (fun h => h3 (BitVec.eq_of_toNat_eq h))
  rw [← hf.intCmp_eq, ← srcLane_s (l := 0) hf.regs, ← hf.srcUni_eq (l := 0), hd, ha]
  rfl

end

end Sys2Proof.Machine
end


section
/-! The one-word forms (R45): operations on words of 32 bits. -/
namespace Sys2Proof.Machine

/-! ### Words as numbers -/

theorem intForm_i32 : IntForm .i32 32 true := ⟨rfl, rfl, rfl, rfl, by decide⟩
theorem intForm_n32 : IntForm .n32 32 false := ⟨rfl, rfl, rfl, rfl, by decide⟩

theorem lo32_ofInt (i : Int) : lo32 (BitVec.ofInt 64 i) = BitVec.ofInt 32 i := by
  apply BitVec.eq_of_toNat_eq
  rw [lo32, BitVec.toNat_setWidth, BitVec.toNat_ofInt, BitVec.toNat_ofInt]
  omega

theorem ofInt_numOf (sg : Bool) (i : Int) : BitVec.ofInt 32 (numOf 32 sg i) = BitVec.ofInt 32 i := by
  have h : numOf 32 sg i % 2 ^ 32 = i % 2 ^ 32 := numOf_emod
  apply BitVec.eq_of_toNat_eq
  rw [BitVec.toNat_ofInt, BitVec.toNat_ofInt]
  exact congrArg Int.toNat h

/-- A result's low word is the result modulo 2^32. -/
theorem lo32_wrapOf (sg : Bool) (i : Int) : lo32 (wrapOf 32 sg i).1 = BitVec.ofInt 32 i := (lo32_ofInt _).trans (ofInt_numOf sg i)

theorem lo32_outOf (sg : Bool) (i : Int) : lo32 (outOf 32 sg false i).1 = BitVec.ofInt 32 i := lo32_wrapOf sg i

theorem numOf_toInt (y : DWord) : numOf 32 true y.toNat = (lo32 y).toInt := by
  rw [BitVec.toInt_eq_toNat_cond, lo32, BitVec.toNat_setWidth]
  have hp : (2 : Int) ^ (32 - 1) = 2147483648 := by norm_num
  simp only [numOf, true_and, hp]
  split <;> split <;> omega

theorem ofInt_natCast32 (n : Nat) : BitVec.ofInt 32 (n : Int) = BitVec.ofNat 32 n := BitVec.ofInt_natCast 32 n

theorem ofNat_toNat32 (y : DWord) : BitVec.ofNat 32 y.toNat = lo32 y := rfl

theorem ofInt_sub32 (x y : Word) : BitVec.ofInt 32 (x.toInt - y.toInt) = x - y := by
  rw [Int.sub_eq_add_neg, BitVec.ofInt_add, BitVec.ofInt_neg, BitVec.ofInt_toInt, BitVec.ofInt_toInt, BitVec.sub_eq_add_neg]

/-! ### Each operation on words -/

section
variable (y z : DWord)

theorem word_add : lo32 (intOp .add .i32 false y z).1 = lo32 y + lo32 z := by
  rw [intForm_i32.intOp_add, lo32_outOf, numOf_toInt, numOf_toInt, BitVec.ofInt_add, BitVec.ofInt_toInt, BitVec.ofInt_toInt]

theorem word_sub : lo32 (intOp .sub .i32 false y z).1 = lo32 y - lo32 z := by
  rw [intForm_i32.intOp_sub, lo32_outOf, numOf_toInt, numOf_toInt, ofInt_sub32]

theorem word_mul : lo32 (intOp .mul .i32 false y z).1 = lo32 y * lo32 z := by
  rw [intForm_i32.intOp_mul, lo32_outOf, numOf_toInt, numOf_toInt, BitVec.ofInt_mul, BitVec.ofInt_toInt, BitVec.ofInt_toInt]

theorem word_mulh : lo32 (intOp .mulh .i32 false y z).1 = BitVec.ofInt 32 ((lo32 y).toInt * (lo32 z).toInt / 2 ^ 32) := by
  rw [intForm_i32.intOp_mulh, lo32_wrapOf, numOf_toInt, numOf_toInt]

theorem word_min : lo32 (intOp .min .i32 false y z).1 = if (lo32 z).slt (lo32 y) then lo32 z else lo32 y := by
  rw [intForm_i32.intOp_min, lo32_wrapOf, numOf_toInt, numOf_toInt, BitVec.slt_eq_decide]
  by_cases h : (lo32 z).toInt < (lo32 y).toInt <;> simp [h]

theorem word_max : lo32 (intOp .max .i32 false y z).1 = if (lo32 y).slt (lo32 z) then lo32 z else lo32 y := by
  rw [intForm_i32.intOp_max, lo32_wrapOf, numOf_toInt, numOf_toInt, BitVec.slt_eq_decide]
  by_cases h : (lo32 y).toInt < (lo32 z).toInt <;> simp [h]

theorem word_sra : lo32 (intOp .sra .i32 false y z).1 = (lo32 y).sshiftRight ((lo32 z).toNat % 32) := by
  rw [intForm_i32.intOp_sra, lo32_wrapOf, numOf_toInt, lo32_toNat_mod (by decide), BitVec.sshiftRight_eq, Int.shiftRight_eq_div_pow]
  norm_cast

theorem word_and : lo32 (intOp .and .n32 false y z).1 = lo32 y &&& lo32 z := by
  rw [intForm_n32.intOp_and, lo32_wrapOf, ofInt_natCast32, ofNat_toNat32]
  exact BitVec.setWidth_and

theorem word_or : lo32 (intOp .or .n32 false y z).1 = lo32 y ||| lo32 z := by
  rw [intForm_n32.intOp_or, lo32_wrapOf, ofInt_natCast32, ofNat_toNat32]
  exact BitVec.setWidth_or

theorem word_xor : lo32 (intOp .xor .n32 false y z).1 = lo32 y ^^^ lo32 z := by
  rw [intForm_n32.intOp_xor, lo32_wrapOf, ofInt_natCast32, ofNat_toNat32]
  exact BitVec.setWidth_xor

theorem word_shl : lo32 (intOp .shl .n32 false y z).1 = lo32 y <<< ((lo32 z).toNat % 32) := by
  rw [intForm_n32.intOp_shl, lo32_wrapOf, ofInt_natCast32, lo32_toNat_mod (by decide)]
  apply BitVec.eq_of_toNat_eq
  rw [BitVec.toNat_ofNat, BitVec.toNat_shiftLeft, lo32, BitVec.toNat_setWidth, Nat.shiftLeft_eq, Nat.mod_mul_mod]

theorem word_shr : lo32 (intOp .shr .n32 false y z).1 = lo32 y >>> ((lo32 z).toNat % 32) := by
  rw [intForm_n32.intOp_shr, lo32_wrapOf, ofInt_natCast32, lo32_toNat_mod (by decide)]
  apply BitVec.eq_of_toNat_eq
  rw [BitVec.toNat_ofNat, BitVec.toNat_ushiftRight, lo32, BitVec.toNat_setWidth, Nat.shiftRight_eq_div_pow]
  exact Nat.mod_eq_of_lt (lt_of_le_of_lt (Nat.div_le_self _ _) (Nat.mod_lt _ (by decide)))

theorem word_abs : lo32 (intOut .i32 false (intVal .i32 y).natAbs).1 = if (lo32 y).slt 0 then -(lo32 y) else lo32 y := by
  rw [intForm_i32.intOut_eq, lo32_outOf, intForm_i32.intVal_eq, numOf_toInt, BitVec.slt_eq_decide, show (0 : Word).toInt = 0 from rfl]
  by_cases h : (lo32 y).toInt < 0
  · rw [Int.ofNat_natAbs_of_nonpos h.le, BitVec.ofInt_neg, BitVec.ofInt_toInt]
    simp [h]
  · rw [Int.natAbs_of_nonneg (not_lt.mp h), BitVec.ofInt_toInt]
    simp [h]

theorem word_neg : lo32 (intOut .i32 false (-(intVal .i32 y))).1 = -(lo32 y) := by
  rw [intForm_i32.intOut_eq, lo32_outOf, intForm_i32.intVal_eq, numOf_toInt, BitVec.ofInt_neg, BitVec.ofInt_toInt]

end

theorem bit_lo32 (y : DWord) {i : Nat} (h : i < 32) : bit (lo32 y) i = bit y i := by simp [bit, lo32, h]

section
variable (y : DWord)

theorem word_popc : lo32 (popVal .n32 y) = BitVec.ofNat 32 ((List.range 32).filter (fun i => bit (lo32 y) i)).length := by
  rw [lo32_popVal (N := 32) rfl, List.filter_congr (fun i hi => bit_lo32 y (List.mem_range.mp hi))]

theorem word_clz : lo32 (clzVal .n32 y) = BitVec.ofNat 32 ((List.range 32).takeWhile (fun i => !bit (lo32 y) (31 - i))).length := by
  rw [lo32_clzVal (N := 32) rfl]
  exact congrArg (fun l : List Nat => BitVec.ofNat 32 l.length) (takeWhile_congr fun i _ => by rw [bit_lo32 y (by omega)])

theorem word_ffs : lo32 (ffsVal .n32 y) = BitVec.ofNat 32 ((List.range 32).takeWhile (fun i => !bit (lo32 y) i)).length := by
  rw [lo32_ffsVal (N := 32) rfl]
  exact congrArg (fun l : List Nat => BitVec.ofNat 32 l.length) (takeWhile_congr fun i hi => by rw [bit_lo32 y (List.mem_range.mp hi)])

theorem word_brev : lo32 (brevVal .n32 y) = (lo32 y).reverse := by
  rw [brevVal, lo32_ofNat, brev_eq]
  exact BitVec.ofNat_toNat _ _

end

/-! ### The moulds -/

theorem lo32_imm9 (f : F1) : lo32 (sx f.b) = f.b.signExtend 32 := by
  refine BitVec.eq_of_getLsbD_eq fun i hi => ?_
  have h64 : i < 64 := by omega
  simp [lo32, sx, BitVec.getElem_signExtend, hi, h64]

section
variable (i : Instr) (f : F1) (s : State) (c : Iss)

/-- Field A holds an operation on field A and the immediate, in mould I1, or on field B, in mould U1 (R45). -/
def LaneI1 (op : Word → Word → Word) : Prop := LaneResult i s c f.a.toNat (fun g l => op (g.rv c.slot f.a.toNat l) (f.b.signExtend 32))
def LaneU1 (op : Word → Word) : Prop := LaneResult i s c f.a.toNat (fun g l => op (g.rv c.slot f.b.toNat l))
def UniI1 (op : Word → Word → Word) : Prop := UniResult i s c f.a.toNat (fun g => op (g.rs c.slot f.a.toNat) (f.b.signExtend 32))
def UniU1 (op : Word → Word) : Prop := UniResult i s c f.a.toNat (fun g => op (g.rs c.slot f.b.toNat))

end

section
variable {i : Instr} {s : State} {c : Iss} {r : Raw} {f : F1} {lat : Nat} (hraw : rawOf i = some r)
include hraw

section
variable (hsr : srForm i = false) (hd : (shapeIn i s).dst = destOf .v f.a.toNat 1 lat)
include hsr hd

/-- Mould I1: field A and the immediate. -/
theorem lane_i1 {F : DWord → DWord → DWord × Flags} {op : Word → Word → Word}
    (hx : exec i s = vec (shapeIn i s) r.op.toNat r.len r.st (i1 false f) false (fn2 F) s) (hop : ∀ y z, lo32 (F y z).1 = op (lo32 y) (lo32 z)) :
    LaneI1 i f s c op := by
  have h : FlaggedResult i s c f.a.toNat 1 (fun g _ l => F (zx (g.rv c.slot f.a.toNat l)) (sx f.b)) :=
    .vec (args := i1 false f) hraw (by rw [hsr]; exact hx) hd (.inl rfl) fun _ _ _ _ => rfl
  exact h.laneResult fun g _ l => by rw [hop, lo32_zx, lo32_imm9]

/-- Mould U1: field B. -/
theorem lane_u1 {F : DWord → DWord × Flags} {op : Word → Word}
    (hx : exec i s = vec (shapeIn i s) r.op.toNat r.len r.st (u1 false f) false (fn1 F) s) (hop : ∀ y, lo32 (F y).1 = op (lo32 y)) :
    LaneU1 i f s c op := by
  have h : FlaggedResult i s c f.a.toNat 1 (fun g _ l => F (zx (g.rv c.slot f.b.toNat l))) :=
    .vec (args := u1 false f) hraw (by rw [hsr]; exact hx) hd (.inl rfl) fun _ _ _ _ => rfl
  exact h.laneResult fun g _ l => by rw [hop, lo32_zx]

/-- Mould M1: the immediate. -/
theorem lane_m1 (hx : exec i s = vec (shapeIn i s) r.op.toNat r.len r.st (m1 f) false (fn1 (fun a => (a, 0))) s) :
    LaneResult i s c f.a.toNat (fun _ _ => f.b.signExtend 32) := by
  have h : FlaggedResult i s c f.a.toNat 1 (fun _ _ _ => (sx f.b, 0)) := .vec hraw (hsr ▸ hx) hd (.inl rfl) fun _ _ _ _ => rfl
  exact h.laneResult fun _ _ _ => lo32_imm9 f

end

section
variable (hd : (shapeIn i s).dst = destOf .s f.a.toNat 1 lat)
include hd

theorem uni_i1 {F : DWord → DWord → DWord × Flags} {op : Word → Word → Word}
    (hx : exec i s = uni (shapeIn i s) r.op.toNat r.len r.st (i1 true f) (fn2 F) s) (hop : ∀ y z, lo32 (F y z).1 = op (lo32 y) (lo32 z)) :
    UniI1 i f s c op := by
  have h : FlaggedUni i s c f.a.toNat 1 (fun g => F (zx (g.rs c.slot f.a.toNat)) (sx f.b)) := .uni hraw hx hd (.inl rfl) fun _ _ => rfl
  exact h.uniResult fun g => by rw [hop, lo32_zx, lo32_imm9]

theorem uni_u1 {F : DWord → DWord × Flags} {op : Word → Word}
    (hx : exec i s = uni (shapeIn i s) r.op.toNat r.len r.st (u1 true f) (fn1 F) s) (hop : ∀ y, lo32 (F y).1 = op (lo32 y)) :
    UniU1 i f s c op := by
  have h : FlaggedUni i s c f.a.toNat 1 (fun g => F (zx (g.rs c.slot f.b.toNat))) := .uni hraw hx hd (.inl rfl) fun _ _ => rfl
  exact h.uniResult fun g => by rw [hop, lo32_zx]

theorem uni_m1 (hx : exec i s = uni (shapeIn i s) r.op.toNat r.len r.st (m1 f) (fn1 (fun a => (a, 0))) s) :
    UniResult i s c f.a.toNat (fun _ => f.b.signExtend 32) := by
  have h : FlaggedUni i s c f.a.toNat 1 (fun _ => (sx f.b, 0)) := .uni hraw hx hd (.inl rfl) fun _ _ => rfl
  exact h.uniResult fun _ => lo32_imm9 f

end

end

end Sys2Proof.Machine
end


section
/-! The other instructions of the statement of results (R45, R137, R146), and NaN operands of .f32 (R89). -/
namespace Sys2Proof.Machine

/-! ### Between the register files, and uniform predicates -/

theorem intForm_raw {t : Ty} {N : Nat} (h : (t, N) ∈ [(Ty.n32, 32), (Ty.n64, 64)]) : IntForm t N false := by
  refine intForm_of_mem ?_
  simp only [List.mem_cons, List.not_mem_nil, or_false, Prod.mk.injEq] at h
  obtain ⟨rfl, rfl⟩ | ⟨rfl, rfl⟩ := h <;> simp

section
variable {h : Hd} {s : State} {c : Iss} {N : Nat} {sg : Bool}

theorem stov_result {x : WTy} (hf : IntForm x.ty N sg) :
    FlaggedResult (.stov h x) s c h.a.toNat (if N = 64 then 2 else 1) (fun g _ _ => (uniIn N g c.slot h.b, 0)) := by
  have hi : IssuedBy (.stov h x) s (fun c s => goGroup s c (fun g => g.put c.slot (destOf .v h.a.toNat (tyRegs x.ty) 4)
      ((lanes c.act).map (fun l => (l, srcLane g c.slot 0 (tyRegs x.ty) (.s h.b.toNat)))))) :=
    ⟨_, rfl, (rfl : exec (.stov h x) s = execStov h x s).trans rfl⟩
  rw [hf.regs] at hi
  refine .of_group hi fun _ g => (Group.Results.put IntForm.regs_cases c.slot _).congr fun l _ => ?_
  rw [← hf.regs, srcLane_s hf.regs]

theorem vtos_result {x : WVtos} (hf : IntForm x.ty N sg) :
    FlaggedUni (.vtos h x) s c h.a.toNat (if N = 64 then 2 else 1)
      (fun g => (regIn N g c.slot (if bit h.mod 0 then (lanes c.mask).headD 0 else x.lane.toNat) h.b, 0)) := by
  have hi : IssuedBy (.vtos h x) s (fun c s => goGroup s c (fun g => g.put c.slot (destOf .s h.a.toNat (tyRegs x.ty) 4)
      [(0, srcLane g c.slot (if bit h.mod 0 then lowLane c.mask else x.lane.toNat) (tyRegs x.ty) (.v h.b.toNat))])) :=
    ⟨_, rfl, (rfl : exec (.vtos h x) s = execVtos h x s).trans rfl⟩
  rw [hf.regs] at hi
  refine .of_group hi fun _ g => ?_
  rw [← hf.regs, srcLane_v hf.regs, hf.regs, Group.put_finalFlags]
  obtain ⟨hlo, hhi⟩ := Group.finalS_put_dest (a := h.a.toNat) (lat := 4) g c.slot (IntForm.regs_cases (N := N))
    (regIn N g c.slot (if bit h.mod 0 then lowLane c.mask else x.lane.toNat) h.b)
  exact ⟨hlo, hhi, BitVec.or_zero.symm⟩

theorem spop_result {x : WTy} (hf : IntForm x.ty N sg) :
    UniResult (.spop h x) s c h.a.toNat (fun g => BitVec.ofNat 32 ((List.range N).filter (fun i => bit (uniIn N g c.slot h.b) i)).length) := by
  have hr : FlaggedUni (.spop h x) s c h.a.toNat 1 (fun g => (popVal x.ty (uniIn N g c.slot h.b), 0)) :=
    .uni (lat := 2) rfl rfl rfl (.inl rfl) fun _ g => by
      rw [← srcLane_s (l := 0) hf.regs]
      rfl
  exact hr.uniResult fun g => lo32_popVal hf.bits _

theorem sffs_result {x : WTy} (hf : IntForm x.ty N sg) :
    UniResult (.sffs h x) s c h.a.toNat
      (fun g => BitVec.ofNat 32 ((List.range N).takeWhile (fun i => !bit (uniIn N g c.slot h.b) i)).length) := by
  have hr : FlaggedUni (.sffs h x) s c h.a.toNat 1 (fun g => (ffsVal x.ty (uniIn N g c.slot h.b), 0)) :=
    .uni (lat := 2) rfl rfl rfl (.inl rfl) fun _ g => by
      rw [← srcLane_s (l := 0) hf.regs]
      rfl
  exact hr.uniResult fun g => lo32_ffsVal hf.bits _

theorem klop_result {x : WLut} (hr : Ready (.klop h x) s c) (h3 : h.a ≠ 3) : ∃ s2, Completes (.klop h x) s c s2 ∧
    (s2.group c.place).finalK h.a.toNat = lutBit x.lut (((begun (.klop h x) s).group c.place).rk c.slot h.b.toNat)
      (((begun (.klop h x) s).group c.place).rk c.slot h.c.toNat) (((begun (.klop h x) s).group c.place).rk c.slot h.d.toNat) := by
  have hi : IssuedBy (.klop h x) s (fun c s => goGroup s c (fun g => g.put c.slot (shKlop h).dst
      [(0, truth (lutBit x.lut (g.rk c.slot h.b.toNat) (g.rk c.slot h.c.toNat) (g.rk c.slot h.d.toNat)))])) :=
    ⟨_, rfl, (rfl : exec (.klop h x) s = execKlop h x s).trans rfl⟩
  exact goGroup_uniform_predicate (F := fun g => lutBit x.lut (g.rk c.slot h.b.toNat) (g.rk c.slot h.c.toNat) (g.rk c.slot h.d.toNat)) hi
    (fun g => ⟨0, 0, .inr rfl⟩) hr (fun e => h3 (BitVec.eq_of_toNat_eq e))

/-! ### LOP3 -/

/-- The last source of LOP3 (R146). -/
def lop3Last (N : Nat) (h : Hd) (lit : Option (BitVec 60)) (g : Group) (slot l : Nat) : DWord :=
  match lit with
  | some m => if N = 64 then m.signExtend 64 else (bits m 0 32).setWidth 64
  | none => regIn N g slot l h.d

theorem lop3_operands {x : WLop3} (hf : IntForm x.ty N sg) (lit : Option (BitVec 60)) (g : Group) (slot l : Nat) :
    (lop3Args h x lit).map (fun a => srcLane g slot l a.2 a.1) =
      [if x.ub then uniIn N g slot h.b else regIn N g slot l h.b, regIn N g slot l h.c, lop3Last N h lit g slot l] := by
  have hb : srcLane g slot l (tyRegs x.ty) (if x.ub then .s h.b.toNat else .v h.b.toNat) =
      if x.ub then uniIn N g slot h.b else regIn N g slot l h.b := by
    split
    · exact srcLane_s hf.regs h.b
    · exact srcLane_v hf.regs h.b
  have hl : srcLane g slot l (tyRegs x.ty) (match lit with
      | some _ => .imm (immVal (immKOf x.ty) 0 lit)
      | none => .v h.d.toNat) = lop3Last N h lit g slot l := by
    cases lit with
    | none => exact srcLane_v hf.regs h.d
    | some m =>
      show immVal (immKOf x.ty) 0 (some m) = if N = 64 then m.signExtend 64 else (bits m 0 32).setWidth 64
      rw [hf.imm]
      by_cases hN : N = 64 <;> simp [hN, immVal, sx, zx]
  rw [← hb, ← hl, ← srcLane_v hf.regs]
  rfl

theorem lop3_result {x : WLop3} (hf : IntForm x.ty N sg) (hN : N ≤ 32 ∨ N = 64) {i : Instr} {r : Raw} {lit : Option (BitVec 60)} {lat : Nat}
    (hraw : rawOf i = some r) (hsr : srForm i = false)
    (hx : exec i s = vec (shapeIn i s) r.op.toNat r.len r.st (lop3Args h x lit) false (fn3 (fun a b c => (lop3Val x.lut a b c, 0))) s)
    (hd : (shapeIn i s).dst = destOf .v h.a.toNat (tyRegs x.ty) lat) (hr : Ready i s c) : ∃ s2, Completes i s c s2 ∧ ∀ l ∈ lanes c.act, ∀ j, j < N →
      bit ((s2.group c.place).finalV (h.a.toNat + j / 32) l) (j % 32) =
        bit x.lut ((if bit (if x.ub then uniIn N ((begun i s).group c.place) c.slot h.b else regIn N ((begun i s).group c.place) c.slot l h.b) j then 1 else 0)
          + 2 * (if bit (regIn N ((begun i s).group c.place) c.slot l h.c) j then 1 else 0)
          + 4 * (if bit (lop3Last N h lit ((begun i s).group c.place) c.slot l) j then 1 else 0)) := by
  have hres : FlaggedResult i s c h.a.toNat (if N = 64 then 2 else 1) (fun g _ l => (lop3Val x.lut
      (if x.ub then uniIn N g c.slot h.b else regIn N g c.slot l h.b) (regIn N g c.slot l h.c) (lop3Last N h lit g c.slot l), 0)) := by
    rw [hf.regs] at hd
    exact .vec hraw (by rw [hsr]; exact hx) hd IntForm.regs_cases fun _ g q l => by
      rw [lop3_operands hf]
      rfl
  obtain ⟨s2, hc, hg⟩ := hres hr
  have hle := hf.le
  exact ⟨s2, hc, fun l hl j hj => (Group.Results.bit hg hN hl hj).trans (bit_lop3Val _ _ _ _ (by omega))⟩

end

/-! ### NaN operands -/

/-- A NaN of .f32. -/
def f32NaN (x : Word) : Prop := bits x 23 8 = 0xFF ∧ bits x 0 23 ≠ 0

theorem f32NaN_iff (x : Word) : f32NaN x ↔ x.toNat / 2 ^ 23 % 2 ^ 8 = 255 ∧ x.toNat % 2 ^ 23 ≠ 0 := by
  have he : (bits x 23 8).toNat = x.toNat / 2 ^ 23 % 2 ^ 8 := by simp [bits, Nat.shiftRight_eq_div_pow]
  have hf : (bits x 0 23).toNat = x.toNat % 2 ^ 23 := by simp [bits]
  unfold f32NaN
  rw [← BitVec.toNat_inj, ne_eq, ← BitVec.toNat_inj, he, hf]
  exact Iff.rfl

/-- The NaN that a word of .f32 holds. -/
def nanOf (x : Word) : Num :=
  .nan (x.toNat / 2 ^ 31 % 2 == 1) (x.toNat % 2 ^ 23 * 2 ^ 57) (decide (x.toNat % 2 ^ 23 < 2 ^ 22))

theorem fltVal_f32 (x : Word) : fltVal .f32 (zx x) = (Fm.f32.value false x.toNat).1 := by
  have h : (zx x).toNat % 2 ^ 32 = x.toNat := by
    have := x.isLt
    rw [zx, BitVec.toNat_setWidth]
    omega
  show (Fm.f32.value false ((zx x).toNat % 2 ^ 32)).1 = _
  rw [h]

theorem f32_value (c : Nat) : Fm.f32.value false c =
    if c / 2 ^ 23 % 2 ^ 8 = 255 then
      (if c % 2 ^ 23 = 0 then .inf (c / 2 ^ 31 % 2 == 1)
        else .nan (c / 2 ^ 31 % 2 == 1) (c % 2 ^ 23 * 2 ^ 57) (decide (c % 2 ^ 23 < 2 ^ 22)), 0)
    else (if c / 2 ^ 23 % 2 ^ 8 = 0 then .fin (c / 2 ^ 31 % 2 == 1) (c % 2 ^ 23) (Fm.f32.emin - (23 : Nat))
      else .fin (c / 2 ^ 31 % 2 == 1) (2 ^ 23 + c % 2 ^ 23) ((c / 2 ^ 23 % 2 ^ 8 : Nat) - 1 + Fm.f32.emin - (23 : Nat)), 0) := rfl

theorem fltVal_nan {x : Word} (h : f32NaN x) : fltVal .f32 (zx x) = nanOf x := by
  obtain ⟨he, hf⟩ := (f32NaN_iff x).mp h
  rw [fltVal_f32, f32_value, if_pos he, if_neg hf]
  rfl

theorem fltVal_number {x : Word} (h : ¬ f32NaN x) : (fltVal .f32 (zx x)).isNaN = false := by
  rw [f32NaN_iff] at h
  rw [fltVal_f32, f32_value]
  by_cases he : x.toNat / 2 ^ 23 % 2 ^ 8 = 255
  · have hf : x.toNat % 2 ^ 23 = 0 := by
      by_contra hne
      exact h ⟨he, hne⟩
    rw [if_pos he, if_pos hf]
    rfl
  · rw [if_neg he]
    dsimp only
    split <;> rfl

/-- Setting a bit of the fraction leaves the bits above it. -/
theorem or_quiet (x : Nat) : x ||| 2 ^ 22 = 2 ^ 23 * (x / 2 ^ 23) + (x % 2 ^ 23 ||| 2 ^ 22) := by
  have hlt : x % 2 ^ 23 ||| 2 ^ 22 < 2 ^ 23 := Nat.or_lt_two_pow (Nat.mod_lt _ (by decide)) (by decide)
  apply Nat.eq_of_testBit_eq
  intro i
  rw [Nat.testBit_two_pow_mul_add _ hlt, Nat.testBit_or, Nat.testBit_or, Nat.testBit_mod_two_pow, Nat.testBit_two_pow, Nat.testBit_div_two_pow]
  by_cases hi : i < 23
  · simp [hi]
  · have h22 : ¬ 22 = i := by omega
    simp [hi, h22, Nat.sub_add_cancel (not_lt.mp hi)]

/-- A fraction's payload made quiet. -/
theorem quiet_fraction (f : Nat) : (f * 2 ^ 57 ||| quietBit ||| quietBit) / 2 ^ 57 = f ||| 2 ^ 22 := by
  apply Nat.eq_of_testBit_eq
  intro i
  simp only [quietBit, Nat.testBit_div_two_pow, Nat.testBit_or, Nat.testBit_mul_two_pow, Nat.testBit_two_pow]
  by_cases hi : i = 22
  · simp [hi]
  · have h79 : ¬ 79 = i + 57 := by omega
    have h22 : ¬ 22 = i := by omega
    simp [h79, h22]

/-- A NaN made quiet and rounded is the word with its quiet bit set (R89, R90). -/
theorem round_nan (mode : Mode) (sat : Bool) {x : Word} (h : f32NaN x) :
    BitVec.ofNat 64 (roundTo .f32 mode sat (nanOf x).quiet).1 = zx (x ||| 0x00400000) := by
  obtain ⟨he, -⟩ := (f32NaN_iff x).mp h
  have hx := x.isLt
  have hval : (roundTo .f32 mode sat (nanOf x).quiet).1 =
      255 * 2 ^ 23 + (x.toNat % 2 ^ 23 ||| 2 ^ 22) + if x.toNat / 2 ^ 31 % 2 == 1 then 2 ^ 31 else 0 := by
    rw [← quiet_fraction]
    rfl
  have hor : (x ||| 0x00400000).toNat = 2 ^ 23 * (x.toNat / 2 ^ 23) + (x.toNat % 2 ^ 23 ||| 2 ^ 22) :=
    (BitVec.toNat_or x _).trans (or_quiet x.toNat)
  have heq : (roundTo .f32 mode sat (nanOf x).quiet).1 = (x ||| 0x00400000).toNat := by
    rw [hval, hor]
    by_cases hs : x.toNat / 2 ^ 31 % 2 = 1
    · simp only [hs, beq_self_eq_true, if_true]
      omega
    · simp only [beq_iff_eq, hs, if_false]
      omega
  rw [heq]
  exact BitVec.ofNat_toNat _ _

section
variable {f : Fm} {mode : Mode} {sat : Bool} {x y : Num}

theorem fAdd_nan {n : Num} (h : firstNaN [x, y] = some n) : (fAdd f mode sat x y).1 = (roundTo f mode sat n).1 := by
  simp only [fAdd, h]

theorem fMul_nan {n : Num} (h : firstNaN [x, y] = some n) : (fMul f mode sat x y).1 = (roundTo f mode sat n).1 := by
  simp only [fMul, h]

end

theorem firstNaN_left (a : Word) (y : Num) : firstNaN [nanOf a, y] = some (nanOf a).quiet := rfl

theorem firstNaN_right {x : Num} (h : x.isNaN = false) (b : Word) : firstNaN [x, nanOf b] = some (nanOf b).quiet := by
  cases x with
  | nan s p g => cases h
  | _ => rfl

/-- An operation of which the first NaN operand is one made quiet gives it. -/
theorem fltOp_nan (o : FltOp) (rnd : BitVec 3) (r : BitVec 16) (sat : Bool) {a b n : Word} (hn : f32NaN n)
    (h : ∀ neg : Bool, firstNaN [fltVal .f32 (zx a), if neg then (fltVal .f32 (zx b)).neg else fltVal .f32 (zx b)] = some (nanOf n).quiet) :
    (fltOp o .f32 rnd r sat (zx a) (zx b)).1 = zx (n ||| 0x00400000) := by
  refine Eq.trans ?_ (round_nan (modeOf rnd r) sat hn)
  cases o with
  | add => exact congrArg (BitVec.ofNat 64) (fAdd_nan (h false))
  | sub => exact congrArg (BitVec.ofNat 64) (fAdd_nan (h true))
  | mul => exact congrArg (BitVec.ofNat 64) (fMul_nan (h false))

theorem fltOp_nan_first (o : FltOp) (rnd : BitVec 3) (r : BitVec 16) (sat : Bool) {a : Word} (b : Word) (ha : f32NaN a) :
    (fltOp o .f32 rnd r sat (zx a) (zx b)).1 = zx (a ||| 0x00400000) :=
  fltOp_nan o rnd r sat ha fun neg => by rw [fltVal_nan ha, firstNaN_left]

theorem fltOp_nan_second (o : FltOp) (rnd : BitVec 3) (r : BitVec 16) (sat : Bool) {a b : Word} (ha : ¬ f32NaN a) (hb : f32NaN b) :
    (fltOp o .f32 rnd r sat (zx a) (zx b)).1 = zx (b ||| 0x00400000) :=
  fltOp_nan o rnd r sat hb fun neg => by
    have hneg : (if neg then (nanOf b).neg else nanOf b) = nanOf b := by cases neg <;> rfl
    rw [fltVal_nan hb, hneg, firstNaN_right (fltVal_number ha)]

end Sys2Proof.Machine
end


section
/-! The results of the integer, uniform, bit and move instructions. -/
namespace Sys2Proof.Machine

/-! ### One word -/

section
variable (f : F1) (s : State) (c : Iss)

theorem laneI1_results :
    LaneI1 (.iaddI1 f) f s c (· + ·) ∧ LaneI1 (.isubI1 f) f s c (· - ·) ∧ LaneI1 (.imulI1 f) f s c (· * ·) ∧
    LaneI1 (.iandI1 f) f s c (· &&& ·) ∧ LaneI1 (.iorI1 f) f s c (· ||| ·) ∧ LaneI1 (.ixorI1 f) f s c (· ^^^ ·) ∧
    LaneI1 (.imulhI1 f) f s c (fun x y => BitVec.ofInt 32 (x.toInt * y.toInt / 2 ^ 32)) ∧
    LaneI1 (.iminI1 f) f s c (fun x y => if y.slt x then y else x) ∧ LaneI1 (.imaxI1 f) f s c (fun x y => if x.slt y then y else x) ∧
    LaneI1 (.ishlI1 f) f s c (fun x y => x <<< (y.toNat % 32)) ∧ LaneI1 (.ishrI1 f) f s c (fun x y => x >>> (y.toNat % 32)) ∧
    LaneI1 (.israI1 f) f s c (fun x y => x.sshiftRight (y.toNat % 32)) :=
  ⟨lane_i1 rfl rfl rfl (by rfl) word_add, lane_i1 rfl rfl rfl (by rfl) word_sub, lane_i1 rfl rfl rfl (by rfl) word_mul,
    lane_i1 rfl rfl rfl (by rfl) word_and, lane_i1 rfl rfl rfl (by rfl) word_or, lane_i1 rfl rfl rfl (by rfl) word_xor,
    lane_i1 rfl rfl rfl (by rfl) word_mulh, lane_i1 rfl rfl rfl (by rfl) word_min, lane_i1 rfl rfl rfl (by rfl) word_max,
    lane_i1 rfl rfl rfl (by rfl) word_shl, lane_i1 rfl rfl rfl (by rfl) word_shr, lane_i1 rfl rfl rfl (by rfl) word_sra⟩

theorem uniI1_results :
    UniI1 (.saddI1 f) f s c (· + ·) ∧ UniI1 (.ssubI1 f) f s c (· - ·) ∧ UniI1 (.smulI1 f) f s c (· * ·) ∧
    UniI1 (.sandI1 f) f s c (· &&& ·) ∧ UniI1 (.sorI1 f) f s c (· ||| ·) ∧ UniI1 (.sxorI1 f) f s c (· ^^^ ·) ∧
    UniI1 (.smulhI1 f) f s c (fun x y => BitVec.ofInt 32 (x.toInt * y.toInt / 2 ^ 32)) ∧
    UniI1 (.sminI1 f) f s c (fun x y => if y.slt x then y else x) ∧ UniI1 (.smaxI1 f) f s c (fun x y => if x.slt y then y else x) ∧
    UniI1 (.sshlI1 f) f s c (fun x y => x <<< (y.toNat % 32)) ∧ UniI1 (.sshrI1 f) f s c (fun x y => x >>> (y.toNat % 32)) ∧
    UniI1 (.ssraI1 f) f s c (fun x y => x.sshiftRight (y.toNat % 32)) :=
  ⟨uni_i1 rfl rfl (by rfl) word_add, uni_i1 rfl rfl (by rfl) word_sub, uni_i1 rfl rfl (by rfl) word_mul,
    uni_i1 rfl rfl (by rfl) word_and, uni_i1 rfl rfl (by rfl) word_or, uni_i1 rfl rfl (by rfl) word_xor,
    uni_i1 rfl rfl (by rfl) word_mulh, uni_i1 rfl rfl (by rfl) word_min, uni_i1 rfl rfl (by rfl) word_max,
    uni_i1 rfl rfl (by rfl) word_shl, uni_i1 rfl rfl (by rfl) word_shr, uni_i1 rfl rfl (by rfl) word_sra⟩

theorem oneSource_results :
    LaneU1 (.movU1 f) f s c (fun x => x) ∧ LaneU1 (.iabsU1 f) f s c (fun x => if x.slt 0 then -x else x) ∧ LaneU1 (.inegU1 f) f s c (fun x => -x) ∧
    LaneU1 (.popcU1 f) f s c (fun x => BitVec.ofNat 32 ((List.range 32).filter (fun i => bit x i)).length) ∧
    LaneU1 (.clzU1 f) f s c (fun x => BitVec.ofNat 32 ((List.range 32).takeWhile (fun i => !bit x (31 - i))).length) ∧
    LaneU1 (.brevU1 f) f s c BitVec.reverse ∧
    UniU1 (.smovU1 f) f s c (fun x => x) ∧
    UniU1 (.spopU1 f) f s c (fun x => BitVec.ofNat 32 ((List.range 32).filter (fun i => bit x i)).length) ∧
    UniU1 (.sffsU1 f) f s c (fun x => BitVec.ofNat 32 ((List.range 32).takeWhile (fun i => !bit x i)).length) :=
  ⟨lane_u1 rfl rfl rfl (by rfl) (fun _ => rfl), lane_u1 rfl rfl rfl (by rfl) word_abs, lane_u1 rfl rfl rfl (by rfl) word_neg,
    lane_u1 rfl rfl rfl (by rfl) word_popc, lane_u1 rfl rfl rfl (by rfl) word_clz, lane_u1 rfl rfl rfl (by rfl) word_brev,
    uni_u1 rfl rfl (by rfl) (fun _ => rfl), uni_u1 rfl rfl (by rfl) word_popc, uni_u1 rfl rfl (by rfl) word_ffs⟩

end

/-! ### Three and five words -/

section
variable (N : Nat) (sg sat : Bool)

/-- The operations on numbers that R144 names: sums, differences and products, the high product, the lesser and the greater, and the shifts. -/
def opAdd (y z : DWord) : DWord × Flags := outOf N sg sat (numOf N sg y.toNat + numOf N sg z.toNat)
def opSub (y z : DWord) : DWord × Flags := outOf N sg sat (numOf N sg y.toNat - numOf N sg z.toNat)
def opMul (y z : DWord) : DWord × Flags := outOf N sg sat (numOf N sg y.toNat * numOf N sg z.toNat)
def opHigh (y z : DWord) : DWord × Flags := wrapOf N sg (numOf N sg y.toNat * numOf N sg z.toNat / 2 ^ N)
def opMin (y z : DWord) : DWord × Flags := wrapOf N sg (if numOf N sg z.toNat < numOf N sg y.toNat then numOf N sg z.toNat else numOf N sg y.toNat)
def opMax (y z : DWord) : DWord × Flags := wrapOf N sg (if numOf N sg y.toNat < numOf N sg z.toNat then numOf N sg z.toNat else numOf N sg y.toNat)
def opShl (y : DWord) (z : Word) : DWord × Flags := wrapOf N sg (y.toNat * 2 ^ (z.toNat % N) : Nat)
def opShr (y : DWord) (z : Word) : DWord × Flags := wrapOf N sg (y.toNat % 2 ^ N / 2 ^ (z.toNat % N) : Nat)
def opSra (y : DWord) (z : Word) : DWord × Flags := wrapOf N sg (numOf N true y.toNat / 2 ^ (z.toNat % N))

end

section
variable (i j : Instr) (h : Hd) (x : WAlu) (m : BitVec 60) (s : State) (c : Iss) (N : Nat)

/-- Both forms of an instruction, the second with the literal in place of its last source. -/
def BothTwo (op : DWord → DWord → DWord × Flags) : Prop := LaneTwo i h x none s c N op ∧ LaneTwo j h x (some m) s c N op
def BothWord (op : DWord → Word → DWord × Flags) : Prop := LaneWord i h x none s c N op ∧ LaneWord j h x (some m) s c N op
def BothUni (op : DWord → DWord → DWord × Flags) : Prop := UniTwo i h x none s c N op ∧ UniTwo j h x (some m) s c N op
def BothUniWord (op : DWord → Word → DWord × Flags) : Prop := UniWord i h x none s c N op ∧ UniWord j h x (some m) s c N op

end

section
variable {h : Hd} {x : WAlu} {m : BitVec 60} {s : State} {c : Iss} {N : Nat} {sg : Bool} (hf : IntForm x.ty N sg) {o : IntOp} {i j : Instr}
include hf

/-- The vector instructions of two sources of the type, by their operations. -/
theorem IntForm.bothTwo (hm : (o, i, j) ∈ [(IntOp.add, Instr.iadd h x, Instr.iadd5w h x m), (.sub, .isub h x, .isub5w h x m),
      (.mul, .imul h x, .imul5w h x m), (.mulh, .imulh h x, .imulh5w h x m), (.and, .iand h x, .iand5w h x m), (.or, .ior h x, .ior5w h x m),
      (.xor, .ixor h x, .ixor5w h x m), (.min, .imin h x, .imin5w h x m), (.max, .imax h x, .imax5w h x m)])
    {op : DWord → DWord → DWord × Flags} (hop : ∀ y z, intOp o x.ty x.sat y z = op y z) : BothTwo i j h x m s c N op := by
  simp only [List.mem_cons, List.not_mem_nil, or_false, Prod.mk.injEq] at hm
  rcases hm with ⟨rfl, rfl, rfl⟩ | ⟨rfl, rfl, rfl⟩ | ⟨rfl, rfl, rfl⟩ | ⟨rfl, rfl, rfl⟩ | ⟨rfl, rfl, rfl⟩ | ⟨rfl, rfl, rfl⟩ | ⟨rfl, rfl, rfl⟩ |
    ⟨rfl, rfl, rfl⟩ | ⟨rfl, rfl, rfl⟩ <;>
  exact ⟨hf.two rfl rfl (by rfl) rfl (vArgs_two rfl rfl rfl) hop, hf.two rfl rfl (by rfl) rfl (vArgs_two rfl rfl rfl) hop⟩

/-- The vector shifts. -/
theorem IntForm.bothWord (hm : (o, i, j) ∈ [(IntOp.shl, Instr.ishl h x, Instr.ishl5w h x m), (.shr, .ishr h x, .ishr5w h x m),
      (.sra, .isra h x, .isra5w h x m)])
    {op : DWord → Word → DWord × Flags} (hop : ∀ y z, intOp o x.ty false y z = op y (lo32 z)) : BothWord i j h x m s c N op := by
  simp only [List.mem_cons, List.not_mem_nil, or_false, Prod.mk.injEq] at hm
  rcases hm with ⟨rfl, rfl, rfl⟩ | ⟨rfl, rfl, rfl⟩ | ⟨rfl, rfl, rfl⟩ <;>
  exact ⟨hf.word rfl rfl (by rfl) rfl (vArgs_two rfl rfl rfl) hop, hf.word rfl rfl (by rfl) rfl (vArgs_two rfl rfl rfl) hop⟩

/-- The uniform instructions of two sources of the type. -/
theorem IntForm.bothUni (hm : (o, i, j) ∈ [(IntOp.add, Instr.sadd h x, Instr.sadd5w h x m), (.sub, .ssub h x, .ssub5w h x m),
      (.mul, .smul h x, .smul5w h x m), (.mulh, .smulh h x, .smulh5w h x m), (.and, .sand h x, .sand5w h x m), (.or, .sor h x, .sor5w h x m),
      (.xor, .sxor h x, .sxor5w h x m), (.min, .smin h x, .smin5w h x m), (.max, .smax h x, .smax5w h x m)])
    {op : DWord → DWord → DWord × Flags} (hop : ∀ y z, intOp o x.ty x.sat y z = op y z) : BothUni i j h x m s c N op := by
  simp only [List.mem_cons, List.not_mem_nil, or_false, Prod.mk.injEq] at hm
  rcases hm with ⟨rfl, rfl, rfl⟩ | ⟨rfl, rfl, rfl⟩ | ⟨rfl, rfl, rfl⟩ | ⟨rfl, rfl, rfl⟩ | ⟨rfl, rfl, rfl⟩ | ⟨rfl, rfl, rfl⟩ | ⟨rfl, rfl, rfl⟩ |
    ⟨rfl, rfl, rfl⟩ | ⟨rfl, rfl, rfl⟩ <;>
  exact ⟨hf.uniTwo rfl (by rfl) rfl (sArgs_two rfl rfl) hop, hf.uniTwo rfl (by rfl) rfl (sArgs_two rfl rfl) hop⟩

/-- The uniform shifts. -/
theorem IntForm.bothUniWord (hm : (o, i, j) ∈ [(IntOp.shl, Instr.sshl h x, Instr.sshl5w h x m), (.shr, .sshr h x, .sshr5w h x m),
      (.sra, .ssra h x, .ssra5w h x m)])
    {op : DWord → Word → DWord × Flags} (hop : ∀ y z, intOp o x.ty false y z = op y (lo32 z)) : BothUniWord i j h x m s c N op := by
  simp only [List.mem_cons, List.not_mem_nil, or_false, Prod.mk.injEq] at hm
  rcases hm with ⟨rfl, rfl, rfl⟩ | ⟨rfl, rfl, rfl⟩ | ⟨rfl, rfl, rfl⟩ <;>
  exact ⟨hf.uniWord rfl (by rfl) rfl (sArgs_two rfl rfl) hop, hf.uniWord rfl (by rfl) rfl (sArgs_two rfl rfl) hop⟩

theorem IntForm.intOp_shl_word (y z : DWord) : intOp .shl x.ty false y z = opShl N sg y (lo32 z) := by
  rw [hf.intOp_shl, opShl, lo32_toNat_mod hf.size]

theorem IntForm.intOp_shr_word (y z : DWord) : intOp .shr x.ty false y z = opShr N sg y (lo32 z) := by
  rw [hf.intOp_shr, opShr, lo32_toNat_mod hf.size]

theorem IntForm.intOp_sra_word (y z : DWord) : intOp .sra x.ty false y z = opSra N sg y (lo32 z) := by
  rw [hf.intOp_sra, opSra, lo32_toNat_mod hf.size]

/-- The uniform instructions' results. -/
theorem IntForm.uni_results :
    BothUni (.sadd h x) (.sadd5w h x m) h x m s c N (opAdd N sg x.sat) ∧ BothUni (.ssub h x) (.ssub5w h x m) h x m s c N (opSub N sg x.sat) ∧
    BothUni (.smul h x) (.smul5w h x m) h x m s c N (opMul N sg x.sat) ∧ BothUni (.smulh h x) (.smulh5w h x m) h x m s c N (opHigh N sg) ∧
    BothUni (.sand h x) (.sand5w h x m) h x m s c N (fun y z => wrapOf N sg (y &&& z).toNat) ∧
    BothUni (.sor h x) (.sor5w h x m) h x m s c N (fun y z => wrapOf N sg (y ||| z).toNat) ∧
    BothUni (.sxor h x) (.sxor5w h x m) h x m s c N (fun y z => wrapOf N sg (y ^^^ z).toNat) ∧
    BothUniWord (.sshl h x) (.sshl5w h x m) h x m s c N (opShl N sg) ∧ BothUniWord (.sshr h x) (.sshr5w h x m) h x m s c N (opShr N sg) ∧
    BothUniWord (.ssra h x) (.ssra5w h x m) h x m s c N (opSra N sg) ∧
    BothUni (.smin h x) (.smin5w h x m) h x m s c N (opMin N sg) ∧ BothUni (.smax h x) (.smax5w h x m) h x m s c N (opMax N sg) :=
  ⟨hf.bothUni (o := .add) (by simp) (hf.intOp_add _), hf.bothUni (o := .sub) (by simp) (hf.intOp_sub _),
    hf.bothUni (o := .mul) (by simp) (hf.intOp_mul _), hf.bothUni (o := .mulh) (by simp) (hf.intOp_mulh _),
    hf.bothUni (o := .and) (by simp) (hf.intOp_and _), hf.bothUni (o := .or) (by simp) (hf.intOp_or _),
    hf.bothUni (o := .xor) (by simp) (hf.intOp_xor _), hf.bothUniWord (o := .shl) (by simp) hf.intOp_shl_word,
    hf.bothUniWord (o := .shr) (by simp) hf.intOp_shr_word, hf.bothUniWord (o := .sra) (by simp) hf.intOp_sra_word,
    hf.bothUni (o := .min) (by simp) (hf.intOp_min _), hf.bothUni (o := .max) (by simp) (hf.intOp_max _)⟩

/-- The vector instructions' results. -/
theorem IntForm.lane_results :
    BothTwo (.iadd h x) (.iadd5w h x m) h x m s c N (opAdd N sg x.sat) ∧ BothTwo (.isub h x) (.isub5w h x m) h x m s c N (opSub N sg x.sat) ∧
    BothTwo (.imul h x) (.imul5w h x m) h x m s c N (opMul N sg x.sat) ∧ BothTwo (.imulh h x) (.imulh5w h x m) h x m s c N (opHigh N sg) ∧
    BothTwo (.iand h x) (.iand5w h x m) h x m s c N (fun y z => wrapOf N sg (y &&& z).toNat) ∧
    BothTwo (.ior h x) (.ior5w h x m) h x m s c N (fun y z => wrapOf N sg (y ||| z).toNat) ∧
    BothTwo (.ixor h x) (.ixor5w h x m) h x m s c N (fun y z => wrapOf N sg (y ^^^ z).toNat) ∧
    BothTwo (.imin h x) (.imin5w h x m) h x m s c N (opMin N sg) ∧ BothTwo (.imax h x) (.imax5w h x m) h x m s c N (opMax N sg) ∧
    BothWord (.ishl h x) (.ishl5w h x m) h x m s c N (opShl N sg) ∧ BothWord (.ishr h x) (.ishr5w h x m) h x m s c N (opShr N sg) ∧
    BothWord (.isra h x) (.isra5w h x m) h x m s c N (opSra N sg) :=
  ⟨hf.bothTwo (o := .add) (by simp) (hf.intOp_add _), hf.bothTwo (o := .sub) (by simp) (hf.intOp_sub _),
    hf.bothTwo (o := .mul) (by simp) (hf.intOp_mul _), hf.bothTwo (o := .mulh) (by simp) (hf.intOp_mulh _),
    hf.bothTwo (o := .and) (by simp) (hf.intOp_and _), hf.bothTwo (o := .or) (by simp) (hf.intOp_or _),
    hf.bothTwo (o := .xor) (by simp) (hf.intOp_xor _), hf.bothTwo (o := .min) (by simp) (hf.intOp_min _),
    hf.bothTwo (o := .max) (by simp) (hf.intOp_max _), hf.bothWord (o := .shl) (by simp) hf.intOp_shl_word,
    hf.bothWord (o := .shr) (by simp) hf.intOp_shr_word, hf.bothWord (o := .sra) (by simp) hf.intOp_sra_word⟩

/-- BREV turns the bits of its type around (R148). -/
theorem IntForm.brevVal_eq (ht : x.ty ∈ rawTys) (y : DWord) :
    (brevVal x.ty y, (0 : Flags)) = (if N = 64 then y.reverse else (lo32 y).reverse.setWidth 64, 0) := by
  refine congrArg (fun v : DWord => (v, (0 : Flags))) ?_
  have hb := hf.bits
  simp only [rawTys, List.mem_cons, List.not_mem_nil, or_false] at ht
  obtain ht | ht := ht
  · rw [ht] at hb ⊢
    obtain rfl : 32 = N := hb
    rw [brevVal, brev_eq, BitVec.ofNat_toNat]
    rfl
  · rw [ht] at hb ⊢
    obtain rfl : 64 = N := hb
    rw [brevVal, brev_eq, BitVec.ofNat_toNat]
    show ((BitVec.ofNat 64 y.toNat).reverse.setWidth 64) = _
    rw [BitVec.ofNat_toNat, BitVec.setWidth_eq, BitVec.setWidth_eq]
    rfl

/-- The results of one source, and the moves. -/
theorem IntForm.lone_results :
    LaneLone (.iabs h x) h x s c N (fun y => outOf N sg x.sat (numOf N sg y.toNat).natAbs) ∧
    LaneLone (.ineg h x) h x s c N (fun y => outOf N sg x.sat (-(numOf N sg y.toNat))) ∧
    LaneCount (.popc h x) h x s c N (fun y => BitVec.ofNat 32 ((List.range N).filter (fun i => bit y i)).length) ∧
    LaneCount (.clz h x) h x s c N (fun y => BitVec.ofNat 32 ((List.range N).takeWhile (fun i => !bit y (N - 1 - i))).length) ∧
    LaneLone (.brev h x) h x s c N (fun y => (if N = 64 then y.reverse else (lo32 y).reverse.setWidth 64, 0)) ∧
    LaneLone (.mov h x) h x s c N (fun y => (y, 0)) :=
  ⟨hf.lone rfl rfl (by rfl) rfl rfl ⟨rfl, rfl, rfl⟩ rfl fun _ y => by rw [hf.intOut_eq, hf.intVal_eq],
    hf.lone rfl rfl (by rfl) rfl rfl ⟨rfl, rfl, rfl⟩ rfl fun _ y => by rw [hf.intOut_eq, hf.intVal_eq],
    hf.count rfl rfl (by rfl) rfl rfl ⟨rfl, rfl, rfl⟩ rfl (lo32_popVal hf.bits),
    hf.count rfl rfl (by rfl) rfl rfl ⟨rfl, rfl, rfl⟩ rfl (lo32_clzVal hf.bits),
    hf.lone rfl rfl (by rfl) rfl rfl ⟨rfl, rfl, rfl⟩ rfl fun ht y => hf.brevVal_eq ht y,
    hf.lone rfl rfl (by rfl) rfl rfl ⟨rfl, rfl, rfl⟩ rfl fun _ _ => rfl⟩

end

end Sys2Proof.Machine
end


section
/-! The results of the integer, uniform, bit and move instructions. -/
namespace Sys2Proof.Machine

section
variable {h : Hd} {x : WAlu} {m : BitVec 60} {s : State} {c : Iss} {N : Nat} {sg : Bool}

/-- A multiply-add of numbers (R144). -/
def opMad (N : Nat) (sg sat : Bool) (y z u : DWord) : DWord × Flags :=
  outOf N sg sat (numOf N sg y.toNat * numOf N sg z.toNat + numOf N sg u.toNat)

/-- A field of a number (R147). -/
def opField (N : Nat) (sg : Bool) (y : DWord) (z : Word) : DWord × Flags :=
  wrapOf N sg (if sg ∧ 0 < lengthOf N z ∧ 2 ^ (lengthOf N z - 1) ≤ y.toNat / 2 ^ startOf N z % 2 ^ lengthOf N z then
    ((y.toNat / 2 ^ startOf N z % 2 ^ lengthOf N z : Nat) : Int) - 2 ^ lengthOf N z else (y.toNat / 2 ^ startOf N z % 2 ^ lengthOf N z : Nat))

variable (hf : IntForm x.ty N sg)
include hf

/-- MOVI of an integer type (R170). -/
theorem IntForm.movi_results :
    FlaggedResult (.movi h x) s c h.a.toNat (if N = 64 then 2 else 1) (fun _ _ _ => (immIn N x none, 0)) ∧
    FlaggedResult (.movi5w h x m) s c h.a.toNat (if N = 64 then 2 else 1) (fun _ _ _ => (immIn N x (some m), 0)) := by
  rw [← hf.regs, ← hf.immVal_eq, ← hf.immVal_eq]
  exact ⟨movi_result rfl rfl (by rfl) rfl rfl, movi_result rfl rfl (by rfl) rfl rfl⟩

/-- SLDI (R137). -/
theorem IntForm.sldi_results :
    FlaggedUni (.sldi h x) s c h.a.toNat (if N = 64 then 2 else 1) (fun _ => (immIn N x none, 0)) ∧
    FlaggedUni (.sldi5w h x m) s c h.a.toNat (if N = 64 then 2 else 1) (fun _ => (immIn N x (some m), 0)) := by
  rw [← hf.regs, ← hf.immVal_eq, ← hf.immVal_eq]
  exact ⟨sldi_result rfl (by rfl) rfl rfl, sldi_result rfl (by rfl) rfl rfl⟩

theorem IntForm.imad_results :
    LaneAcc (.imad h x) h x none s c N (opMad N sg x.sat) ∧ LaneAcc (.imad5w h x m) h x (some m) s c N (opMad N sg x.sat) := by
  have hdst := fun lit => vShape_dst { aluI x 3 intTys true (latMul x.ty) with acc := true, mod := 1 } h x lit (vOp h.a (tyRegs x.ty)) none
  exact ⟨hf.acc rfl rfl (by rfl) (hdst none) ⟨rfl, rfl, rfl⟩ rfl (hf.intMad_eq _),
    hf.acc rfl rfl (by rfl) (hdst (some m)) ⟨rfl, rfl, rfl⟩ rfl (hf.intMad_eq _)⟩

theorem IntForm.bfe_results : BothWord (.bfe h x) (.bfe5w h x m) h x m s c N (opField N sg) :=
  ⟨hf.word rfl rfl (by rfl) rfl (vArgs_two rfl rfl rfl) hf.bfeVal_eq, hf.word rfl rfl (by rfl) rfl (vArgs_two rfl rfl rfl) hf.bfeVal_eq⟩

end

/-- The immediates of the floating types (R43). -/
theorem immVal_flt {x : WAlu} {m : BitVec 60} {narrow wide : DWord} (hm : (x.ty, narrow, wide) ∈
    [(Ty.f32, (x.imm20 ++ 0#12).setWidth 64, (bits m 0 32).setWidth 64), (Ty.f64, x.imm20 ++ 0#44, m ++ 0#4),
      (Ty.f16, (bits x.imm20 0 16 ++ bits x.imm20 0 16).setWidth 64, (bits m 0 32).setWidth 64),
      (Ty.bf16, (bits x.imm20 0 16 ++ bits x.imm20 0 16).setWidth 64, (bits m 0 32).setWidth 64)]) :
    immVal (immKOf x.ty) x.imm20 none = narrow ∧ immVal (immKOf x.ty) x.imm20 (some m) = wide := by
  simp only [List.mem_cons, List.not_mem_nil, or_false, Prod.mk.injEq] at hm
  rcases hm with ⟨ht, rfl, rfl⟩ | ⟨ht, rfl, rfl⟩ | ⟨ht, rfl, rfl⟩ | ⟨ht, rfl, rfl⟩ <;> rw [ht] <;> exact ⟨rfl, rfl⟩

/-- Settles O10: the one-word forms on words, the others on each integer type from their operations, and the NaN operands of .f32. -/
theorem arithmeticResults : Obligations.ArithmeticResults := by
  unfold Obligations.ArithmeticResults
  refine ⟨fun f s c => ?_, fun h x m s c N sg hm => ?_, fun h x m s c narrow wide hm => ?_, fun h s c t N hm => ?_, fun h x s c hr h3 => ?_,
    fun o rnd r sat a b => ⟨fltOp_nan_first o rnd r sat b, fltOp_nan_second o rnd r sat⟩⟩
  · obtain ⟨add, sub, mul, and, or, xor, mulh, min, max, shl, shr, sra⟩ := laneI1_results f s c
    obtain ⟨uadd, usub, umul, uand, uor, uxor, umulh, umin, umax, ushl, ushr, usra⟩ := uniI1_results f s c
    obtain ⟨mov, abs, neg, popc, clz, brev, umov, upop, uffs⟩ := oneSource_results f s c
    exact ⟨add, sub, mul, and, or, xor, mulh, min, max, shl, shr, sra, uadd, usub, umul, uand, uor, uxor, umulh, umin, umax, ushl, ushr, usra,
      mov, abs, neg, popc, clz, brev, umov, upop, uffs, lane_m1 (i := .moviM1 f) rfl rfl rfl rfl, uni_m1 (i := .sldiM1 f) rfl rfl rfl⟩
  · have hf := intForm_of_mem hm
    obtain ⟨add, sub, mul, mulh, and, or, xor, min, max, shl, shr, sra⟩ := hf.lane_results (h := h) (m := m) (s := s) (c := c)
    obtain ⟨abs, neg, popc, clz, brev, mov⟩ := hf.lone_results (h := h) (s := s) (c := c)
    obtain ⟨uadd, usub, umul, umulh, uand, uor, uxor, ushl, ushr, usra, umin, umax⟩ := hf.uni_results (h := h) (m := m) (s := s) (c := c)
    refine ⟨⟨add, sub, mul, mulh, and, or, xor, min, max, shl, shr, sra, abs, neg, popc, clz, brev, mov, hf.movi_results⟩, hf.imad_results,
      ⟨hf.isel (i := .isel h x) rfl rfl rfl rfl rfl (vArgs_two rfl rfl rfl), hf.isel (i := .isel5w h x m) rfl rfl rfl rfl rfl (vArgs_two rfl rfl rfl)⟩,
      hf.bfe_results, ?_, ?_,
      ⟨uadd, usub, umul, umulh, uand, uor, uxor, ushl, ushr, usra, umin, umax,
        hf.smov (i := .smov h x) rfl rfl rfl rfl ⟨rfl, rfl, rfl⟩ rfl, hf.sldi_results⟩, ?_, ?_⟩
    · rintro i lit (⟨rfl, rfl⟩ | ⟨rfl, rfl⟩) hr
      · exact hf.bfi rfl rfl (by rfl) rfl (vArgs_three rfl rfl rfl) hr
      · exact hf.bfi rfl rfl (by rfl) rfl (vArgs_three rfl rfl rfl) hr
    · rintro i lit (⟨rfl, rfl⟩ | ⟨rfl, rfl⟩) hr h7
      · exact hf.icmp rfl (by rfl) rfl (vArgs_two rfl rfl rfl) hr h7
      · exact hf.icmp rfl (by rfl) rfl (vArgs_two rfl rfl rfl) hr h7
    · rintro i lit (⟨rfl, rfl⟩ | ⟨rfl, rfl⟩)
      · exact hf.ssel (i := .ssel h x) rfl rfl rfl rfl rfl (sArgs_two rfl rfl)
      · exact hf.ssel (i := .ssel5w h x m) rfl rfl rfl rfl rfl (sArgs_two rfl rfl)
    · rintro i lit (⟨rfl, rfl⟩ | ⟨rfl, rfl⟩) hr h3
      · exact hf.scmp rfl (by rfl) rfl (sArgs_two rfl rfl) hr h3
      · exact hf.scmp rfl (by rfl) rfl (sArgs_two rfl rfl) hr h3
  · have hv : immVal (immKOf x.ty) x.imm20 none = narrow ∧ immVal (immKOf x.ty) x.imm20 (some m) = wide := immVal_flt hm
    rw [← hv.1, ← hv.2]
    exact ⟨movi_result rfl rfl (by rfl) rfl rfl, movi_result rfl rfl (by rfl) rfl rfl⟩
  · have hf := intForm_raw hm
    have hN : N ≤ 32 ∨ N = 64 := by
      have := hf.size
      omega
    refine ⟨?_, ?_, ?_⟩
    · rintro x rfl
      exact ⟨spop_result hf, sffs_result hf, stov_result hf⟩
    · rintro x rfl
      exact vtos_result hf
    · rintro x m i lit rfl (⟨rfl, rfl⟩ | ⟨rfl, rfl⟩) hr
      · exact lop3_result hf hN (i := .lop3 h x) (lit := none) rfl rfl rfl rfl hr
      · exact lop3_result hf hN (i := .lop35w h x m) (lit := some m) rfl rfl rfl rfl hr
  · exact klop_result hr h3

end Sys2Proof.Machine
end


section
/-! The results of the floating instructions (R149 to R157): the operation on the operands that the fields name, in both forms. -/
namespace Sys2Proof.Machine

theorem tyRegs_cases (t : Ty) : tyRegs t = 1 ∨ tyRegs t = 2 := by cases t <;> simp [tyRegs]

/-! ### Operands of a type -/

section
variable (h : Hd) (x : WAlu) (lit : Option (BitVec 60)) (g : Group) (slot l : Nat)

/-- Field B, a field with what may replace it, and a field alone, of the type's width. -/
def fltB : DWord := srcLane g slot l (tyRegs x.ty) (srcB h x)
def fltLast (q : BitVec 9) : DWord := srcLane g slot l (tyRegs x.ty) (srcLast (immKOf x.ty) x lit (.v q.toNat))
def fltReg (q : BitVec 9) : DWord := srcLane g slot l (tyRegs x.ty) (.v q.toNat)

/-- The second and the third source of a multiply-add (R143). -/
def fltMid : DWord := if bit h.mod 0 then fltLast x lit g slot l h.c else fltReg x g slot l h.c
def fltAdd : DWord := if bit h.mod 0 then fltReg x g slot l h.a else fltLast x lit g slot l h.d

end

section
variable (i : Instr) (h : Hd) (x : WAlu) (lit : Option (BitVec 60)) (s : State) (c : Iss) (w : Nat)

/-- An instruction's destination holds an operation of the lane's random state and its operands. -/
def FltTwo (op : Word → DWord → DWord → DWord × Flags) : Prop :=
  FlaggedResult i s c h.a.toNat w (fun g q l => op q (fltB h x g c.slot l) (fltLast x lit g c.slot l h.c))
def FltMad (op : Word → DWord → DWord → DWord → DWord × Flags) : Prop :=
  FlaggedResult i s c h.a.toNat w (fun g q l => op q (fltB h x g c.slot l) (fltMid h x lit g c.slot l) (fltAdd h x lit g c.slot l))
def FltLone (op : DWord → DWord × Flags) : Prop := FlaggedResult i s c h.a.toNat w (fun g _ l => op (fltB h x g c.slot l))
def FltLiteral (op : DWord → DWord × Flags) : Prop := FlaggedResult i s c h.a.toNat w (fun g _ l => op (fltLast x lit g c.slot l h.c))

end

/-! ### Both forms -/

section
variable {i : Instr} {h : Hd} {x : WAlu} {lit : Option (BitVec 60)} {s : State} {c : Iss} {w lat : Nat} {r : Raw} {p : Alu} {f : LaneFn}
  (hraw : rawOf i = some r) (hx : exec i s = vec (shapeIn i s) r.op.toNat r.len r.st (vArgs p h x lit) (srForm i) f s)
  (hd : (shapeIn i s).dst = destOf .v h.a.toNat w lat) (hw : w = 1 ∨ w = 2)
include hraw hx hd hw

theorem flt_two
    (ha : Ready i s c → vArgs p h x lit = [(srcB h x, tyRegs x.ty), (srcLast (immKOf x.ty) x lit (.v h.c.toNat), tyRegs x.ty)])
    {op : Word → DWord → DWord → DWord × Flags} (hop : ∀ q y z, f q [y, z] = op q y z) : FltTwo i h x lit s c w op :=
  .vec hraw hx hd hw fun hr g q l => by
    rw [ha hr]
    exact hop q _ _

theorem flt_mad
    (ha : Ready i s c → vArgs p h x lit =
      if bit h.mod 0 then [(srcB h x, tyRegs x.ty), (srcLast (immKOf x.ty) x lit (.v h.c.toNat), tyRegs x.ty), (.v h.a.toNat, tyRegs x.ty)]
      else [(srcB h x, tyRegs x.ty), (.v h.c.toNat, tyRegs x.ty), (srcLast (immKOf x.ty) x lit (.v h.d.toNat), tyRegs x.ty)])
    {op : Word → DWord → DWord → DWord → DWord × Flags} (hop : ∀ q y z u, f q [y, z, u] = op q y z u) : FltMad i h x lit s c w op :=
  .vec hraw hx hd hw fun hr g q l => by
    rw [ha hr, fltMid, fltAdd]
    split <;> exact hop q _ _ _

end

section
variable {i : Instr} {h : Hd} {x : WAlu} {s : State} {c : Iss} {w lat : Nat} {r : Raw} {p : Alu}
  (hraw : rawOf i = some r) (hsr : srForm i = false)
  (hd : (shapeIn i s).dst = destOf .v h.a.toNat w lat) (hw : w = 1 ∨ w = 2)
include hraw hsr hd hw

/-- A source alone. -/
theorem flt_lone {a : Opd} {op : DWord → DWord × Flags} {ws : List Nat} {w1 : Nat}
    (hx : exec i s = vec (shapeIn i s) r.op.toNat r.len r.st (vArgs p h x none) false (fn1 op) s)
    (hs : shapeIn i s = vShape p h x none a none) (hp : p.n = 1 ∧ p.acc = false ∧ p.one = false) (hws : p.ws = w1 :: ws)
    (hty : x.ty ∈ p.tys → w1 = tyRegs x.ty) : FltLone i h x s c w op :=
  .vec (args := vArgs p h x none) hraw (by rw [hsr]; exact hx) hd hw fun hr g q l => by
    obtain ⟨hargs, ht⟩ := vArgs_lone (hs ▸ hr.form) hp hws
    rw [hargs, hty ht]
    rfl

/-- The literal alone. -/
theorem flt_literal {m : BitVec 60} {op : DWord → DWord × Flags} {ws : List Nat}
    (hx : exec i s = vec (shapeIn i s) r.op.toNat r.len r.st (vArgs p h x (some m)) false (fn1 op) s)
    (hp : p.n = 1 ∧ p.acc = false ∧ p.k = immKOf x.ty) (hws : p.ws = tyRegs x.ty :: ws) : FltLiteral i h x (some m) s c w op :=
  .vec (args := vArgs p h x (some m)) hraw (by rw [hsr]; exact hx) hd hw fun _ g q l => by
    obtain ⟨hn, hacc, hk⟩ := hp
    rw [vArgs_one hn hacc hws, hk, fltLast, srcLast, srcLast, if_pos (by simp), if_pos (by simp)]
    rfl

end

/-! ### Packed halves -/

/-- The types of packed halves are of one register and expand their immediates as halves (R157). -/
theorem half_ty {t : Ty} (ht : t ∈ [Ty.f16, Ty.bf16]) : tyRegs t = 1 ∧ immKOf t = .f16 := by
  simp only [List.mem_cons, List.not_mem_nil, or_false] at ht
  obtain rfl | rfl := ht <;> exact ⟨rfl, rfl⟩

section
variable {i : Instr} {h : Hd} {x : WAlu} {lit : Option (BitVec 60)} {s : State} {c : Iss} {a : Opd}

theorem half_two (hs : shapeIn i s = vShape (aluH 2) h x lit a none) (hr : Ready i s c) :
    vArgs (aluH 2) h x lit = [(srcB h x, tyRegs x.ty), (srcLast (immKOf x.ty) x lit (.v h.c.toNat), tyRegs x.ty)] := by
  obtain ⟨hw, hk⟩ := half_ty (aluOk_ty (vShape_aluOk (hs ▸ hr.form)))
  rw [hw, hk]
  exact vArgs_two rfl rfl rfl

theorem half_mad (hs : shapeIn i s = vShape { aluH 3 with acc := true, mod := 1 } h x lit a none) (hr : Ready i s c) :
    vArgs { aluH 3 with acc := true, mod := 1 } h x lit =
      if bit h.mod 0 then [(srcB h x, tyRegs x.ty), (srcLast (immKOf x.ty) x lit (.v h.c.toNat), tyRegs x.ty), (.v h.a.toNat, tyRegs x.ty)]
      else [(srcB h x, tyRegs x.ty), (.v h.c.toNat, tyRegs x.ty), (srcLast (immKOf x.ty) x lit (.v h.d.toNat), tyRegs x.ty)] := by
  obtain ⟨hw, hk⟩ := half_ty (aluOk_ty (vShape_aluOk (hs ▸ hr.form)))
  rw [hw, hk]
  exact vArgs_acc rfl rfl rfl

end

/-! ### The families -/

section
variable {h : Hd} {x : WAlu} {m : BitVec 60} {s : State} {c : Iss}

/-- A rounding operation of two operands, with the lane's random bits. -/
def fltRounded (o : FltOp) (x : WAlu) (q : Word) (y z : DWord) : DWord × Flags := fltOp o x.ty x.rnd (seedRnd q 0) x.sat y z

/-- FADD, FSUB, FMUL, FMIN and FMAX. -/
theorem fltTwo_results :
    (FltTwo (.fadd h x) h x none s c (tyRegs x.ty) (fltRounded .add x) ∧ FltTwo (.fadd5w h x m) h x (some m) s c (tyRegs x.ty) (fltRounded .add x)) ∧
    (FltTwo (.fsub h x) h x none s c (tyRegs x.ty) (fltRounded .sub x) ∧ FltTwo (.fsub5w h x m) h x (some m) s c (tyRegs x.ty) (fltRounded .sub x)) ∧
    (FltTwo (.fmul h x) h x none s c (tyRegs x.ty) (fltRounded .mul x) ∧ FltTwo (.fmul5w h x m) h x (some m) s c (tyRegs x.ty) (fltRounded .mul x)) ∧
    (FltTwo (.fmin h x) h x none s c (tyRegs x.ty) (fun _ => fltMinMax false x.ty) ∧
      FltTwo (.fmin5w h x m) h x (some m) s c (tyRegs x.ty) (fun _ => fltMinMax false x.ty)) ∧
    (FltTwo (.fmax h x) h x none s c (tyRegs x.ty) (fun _ => fltMinMax true x.ty) ∧
      FltTwo (.fmax5w h x m) h x (some m) s c (tyRegs x.ty) (fun _ => fltMinMax true x.ty)) := by
  have hw := tyRegs_cases x.ty
  refine ⟨⟨?_, ?_⟩, ⟨?_, ?_⟩, ⟨?_, ?_⟩, ⟨?_, ?_⟩, ?_, ?_⟩ <;>
  exact flt_two rfl (by rfl) rfl hw (fun _ => vArgs_two rfl rfl rfl) (fun _ _ _ => rfl)

/-- FFMA. -/
theorem ffma_results :
    FltMad (.ffma h x) h x none s c (tyRegs x.ty) (fun q => fltFma x.ty x.rnd (seedRnd q 0) x.sat) ∧
    FltMad (.ffma5w h x m) h x (some m) s c (tyRegs x.ty) (fun q => fltFma x.ty x.rnd (seedRnd q 0) x.sat) := by
  have hdst := fun lit => vShape_dst { aluF x 3 true rndAny with acc := true, mod := 1 } h x lit (vOp h.a (tyRegs x.ty)) none
  exact ⟨flt_mad rfl (by rfl) (by exact hdst none) (tyRegs_cases x.ty) (fun _ => vArgs_acc rfl rfl rfl) (fun _ _ _ _ => rfl),
    flt_mad rfl (by rfl) (by exact hdst (some m)) (tyRegs_cases x.ty) (fun _ => vArgs_acc rfl rfl rfl) (fun _ _ _ _ => rfl)⟩

/-- HADD2 and HMUL2. -/
theorem halfTwo_results :
    (FltTwo (.hadd2 h x) h x none s c 1 (fun q y z => packed (fun j => fltOp .add x.ty x.rnd (seedRnd q j) x.sat (elem16 y j) (elem16 z j))) ∧
      FltTwo (.hadd25w h x m) h x (some m) s c 1
        (fun q y z => packed (fun j => fltOp .add x.ty x.rnd (seedRnd q j) x.sat (elem16 y j) (elem16 z j)))) ∧
    (FltTwo (.hmul2 h x) h x none s c 1 (fun q y z => packed (fun j => fltOp .mul x.ty x.rnd (seedRnd q j) x.sat (elem16 y j) (elem16 z j))) ∧
      FltTwo (.hmul25w h x m) h x (some m) s c 1
        (fun q y z => packed (fun j => fltOp .mul x.ty x.rnd (seedRnd q j) x.sat (elem16 y j) (elem16 z j)))) := by
  refine ⟨⟨?_, ?_⟩, ?_, ?_⟩ <;>
  exact flt_two rfl (by rfl) rfl (.inl rfl) (half_two rfl) (fun _ _ _ => rfl)

/-- HFMA2. -/
theorem hfma2_results :
    FltMad (.hfma2 h x) h x none s c 1
      (fun q y z u => packed (fun j => fltFma x.ty x.rnd (seedRnd q j) x.sat (elem16 y j) (elem16 z j) (elem16 u j))) ∧
    FltMad (.hfma25w h x m) h x (some m) s c 1
      (fun q y z u => packed (fun j => fltFma x.ty x.rnd (seedRnd q j) x.sat (elem16 y j) (elem16 z j) (elem16 u j))) := by
  have hdst := fun lit => vShape_dst { aluH 3 with acc := true, mod := 1 } h x lit (vOp h.a 1) none
  exact ⟨flt_mad rfl (by rfl) (by exact hdst none) (.inl rfl) (half_mad rfl) (fun _ _ _ _ => rfl),
    flt_mad rfl (by rfl) (by exact hdst (some m)) (.inl rfl) (half_mad rfl) (fun _ _ _ _ => rfl)⟩

/-- FRND and FCLASS. -/
theorem fltLone_results :
    FltLone (.frnd h x) h x s c (tyRegs x.ty) (fun y => fltOut (fRound (fmOf x.ty) (modeOf x.rnd 0) (fltVal x.ty y))) ∧
    FltLiteral (.frnd5w h x m) h x (some m) s c (tyRegs x.ty) (fun y => fltOut (fRound (fmOf x.ty) (modeOf x.rnd 0) (fltVal x.ty y))) ∧
    FltLone (.fclass h x) h x s c 1 (fun y => (BitVec.ofNat 64 (fClass (fmOf x.ty) (fltVal x.ty y)), 0)) ∧
    FltLiteral (.fclass5w h x m) h x (some m) s c 1 (fun y => (BitVec.ofNat 64 (fClass (fmOf x.ty) (fltVal x.ty y)), 0)) :=
  ⟨flt_lone rfl rfl rfl (tyRegs_cases x.ty) (by rfl) rfl ⟨rfl, rfl, rfl⟩ rfl fun _ => rfl,
    flt_literal rfl rfl rfl (tyRegs_cases x.ty) (by rfl) ⟨rfl, rfl, rfl⟩ rfl,
    flt_lone rfl rfl rfl (.inl rfl) (by rfl) rfl ⟨rfl, rfl, rfl⟩ rfl fun _ => rfl,
    flt_literal rfl rfl rfl (.inl rfl) (by rfl) ⟨rfl, rfl, rfl⟩ rfl⟩

/-- The special functions. -/
theorem special_results {i : Instr} {k : Special} (hm : (i, k) ∈ [(Instr.frcp h x, Special.rcp), (.frsq h x, .rsq), (.fsqrt h x, .sqrt),
    (.fex2 h x, .ex2), (.flg2 h x, .lg2), (.fsin h x, .sin), (.fcos h x, .cos), (.ftanh h x, .tanh)]) :
    FltLone i h x s c 1 (fun y => fltOut (specialFn k (fmOf x.ty) (tyCode x.ty).toNat (modeOf x.rnd 0) x.sat (fltCode x.ty y))) := by
  have hty : x.ty ∈ [Ty.f32, Ty.f16, Ty.bf16] → 1 = tyRegs x.ty := fun ht => by
    simp only [List.mem_cons, List.not_mem_nil, or_false] at ht
    obtain ht | ht | ht := ht <;> rw [ht] <;> rfl
  simp only [List.mem_cons, List.not_mem_nil, or_false, Prod.mk.injEq] at hm
  rcases hm with ⟨rfl, rfl⟩ | ⟨rfl, rfl⟩ | ⟨rfl, rfl⟩ | ⟨rfl, rfl⟩ | ⟨rfl, rfl⟩ | ⟨rfl, rfl⟩ | ⟨rfl, rfl⟩ | ⟨rfl, rfl⟩ <;>
  exact flt_lone rfl rfl rfl (.inl rfl) (by rfl) rfl ⟨rfl, rfl, rfl⟩ rfl hty

/-- FSCALE, whose count is of 32 bits. -/
theorem fscale_result {i : Instr} {r : Raw} {lit : Option (BitVec 60)} {lat : Nat} (hraw : rawOf i = some r) (hsr : srForm i = isSr x.rnd)
    (hx : exec i s = vec (shapeIn i s) r.op.toNat r.len r.st (vArgs (aluScale x) h x lit) (isSr x.rnd) (fun q l =>
      fltOut (fScale (fmOf x.ty) (modeOf x.rnd (seedRnd q 0)) x.sat (fltVal x.ty (l.getD 0 0)) (intVal .i32 (l.getD 1 0)))) s)
    (hd : (shapeIn i s).dst = destOf .v h.a.toNat (tyRegs x.ty) lat) :
    FlaggedResult i s c h.a.toNat (tyRegs x.ty) (fun g q l => fltOut (fScale (fmOf x.ty) (modeOf x.rnd (seedRnd q 0)) x.sat
      (fltVal x.ty (fltB h x g c.slot l)) (intVal .i32 (srcLane g c.slot l 1 (srcLast .int32 x lit (.v h.c.toNat)))))) :=
  .vec (args := vArgs (aluScale x) h x lit) hraw (by rw [hsr]; exact hx) hd (tyRegs_cases x.ty) fun _ g q l => by
    rw [vArgs_two rfl rfl rfl]
    rfl

/-- FCMP. -/
theorem fcmp_result {i : Instr} {r : Raw} {lit : Option (BitVec 60)} {lat n : Nat} (hraw : rawOf i = some r)
    (hx : exec i s = vec (shapeIn i s) r.op.toNat r.len r.st (vArgs (aluF x 2 false [0]) h x lit) false
      (fn2 (fun y z => (truth (fCompare n (fltVal x.ty y) (fltVal x.ty z)).1, (fCompare n (fltVal x.ty y) (fltVal x.ty z)).2))) s)
    (hd : (shapeIn i s).dst = [(.p h.a.toNat, lat)]) (hr : Ready i s c) : ∃ s2, Completes i s c s2 ∧
      (h.a ≠ 7 → ∀ l ∈ lanes c.act, (s2.group c.place).finalP h.a.toNat l =
        (fCompare n (fltVal x.ty (fltB h x ((begun i s).group c.place) c.slot l))
          (fltVal x.ty (fltLast x lit ((begun i s).group c.place) c.slot l h.c))).1) ∧
      (s2.group c.place).finalFlags = ((begun i s).group c.place).finalFlags ||| orFlags ((lanes c.act).map (fun l =>
        (fCompare n (fltVal x.ty (fltB h x ((begun i s).group c.place) c.slot l))
          (fltVal x.ty (fltLast x lit ((begun i s).group c.place) c.slot l h.c))).2)) := by
  obtain ⟨s2, hc, hp, hfl⟩ := vec_predicate hraw hx hd (F := fun g l => fCompare n (fltVal x.ty (fltB h x g c.slot l))
    (fltVal x.ty (fltLast x lit g c.slot l h.c))) (fun _ g q l => by
      rw [vArgs_two rfl rfl rfl]
      rfl) hr
  exact ⟨s2, hc, fun h7 => hp (fun e => h7 (BitVec.eq_of_toNat_eq e)), hfl⟩

end

end Sys2Proof.Machine
end


section
/-! The results of the conversions (R158 to R161) and of PAIR (R57), which write several registers of their own latencies. -/
namespace Sys2Proof.Machine

/-! ### Registers written one after another -/

/-- A v-register to write with a latency, and what each lane gives it and FSTAT. -/
structure LaneWrite where
  reg : Nat
  lat : Nat
  val : Nat → DWord × Flags

/-- The write of one register with its flags. -/
def Group.putLane (g : Group) (slot : Nat) (m : Mask) (w : LaneWrite) : Group :=
  let rs := (lanes m).map (fun l => (l, w.val l))
  (g.put slot [(.v w.reg, w.lat)] (rs.map (fun r => (r.1, r.2.1)))).flags slot w.lat (orFlags (rs.map (fun r => r.2.2)))

section
variable {slot : Nat} {m : Mask} {w : LaneWrite} {l : Nat}

theorem Group.putLane_eq (g : Group) : g.putLane slot m w =
    (g.write slot (.v w.reg) ((lanes m).map (fun l => (l, lo32 (w.val l).1))) w.lat).flags slot w.lat (orFlags ((lanes m).map (fun l => (w.val l).2))) := by
  simp [putLane, put, Function.comp_def]

theorem Group.putLane_finalV (g : Group) (hl : l ∈ lanes m) : (g.putLane slot m w).finalV w.reg l = lo32 (w.val l).1 := by
  rw [putLane_eq, finalV_eq, flags_final]
  exact final_write_mem g slot w.lat (lanesOk_lanes rfl m) hl _

theorem Group.putLane_finalV_ne (g : Group) (hl : l ∈ lanes m) {n : Nat} (hn : n ≠ w.reg) : (g.putLane slot m w).finalV n l = g.finalV n l := by
  rw [putLane_eq, finalV_eq, flags_final]
  exact final_write_other g slot w.lat (lanesOk_lanes rfl m) (fun e => hn (RegName.v.inj e)) (mem_lanes.mp hl).1 _

theorem Group.putLane_finalFlags (g : Group) :
    (g.putLane slot m w).finalFlags = g.finalFlags ||| orFlags ((lanes m).map (fun l => (w.val l).2)) := by
  rw [putLane_eq, flags_finalFlags, bankOf_finalFlags (bankOf_write _ _ _ _ _)]

theorem orFlags_append (a b : List Flags) : orFlags (a ++ b) = orFlags a ||| orFlags b := by
  have h : ∀ (l : List Flags) (x : Flags), l.foldl (fun a b => a ||| b) x = x ||| orFlags l := by
    intro l
    induction l with
    | nil => exact fun x => BitVec.or_zero.symm
    | cons y l ih =>
      intro x
      have h0 : (0 : Flags) ||| y = y := BitVec.zero_or
      rw [List.foldl_cons, ih, show orFlags (y :: l) = l.foldl (fun a b => a ||| b) (0 ||| y) from rfl, h0, ih y, BitVec.or_assoc]
  rw [orFlags, List.foldl_append, h]
  rfl

/-- Writes to registers of which none is written twice. -/
theorem Group.putLanes_finalV {ws : List LaneWrite} (hnd : (ws.map LaneWrite.reg).Nodup) (hl : l ∈ lanes m) (g : Group) :
    (∀ w ∈ ws, (ws.foldl (fun g w => g.putLane slot m w) g).finalV w.reg l = lo32 (w.val l).1) ∧
    ∀ n, n ∉ ws.map LaneWrite.reg → (ws.foldl (fun g w => g.putLane slot m w) g).finalV n l = g.finalV n l := by
  induction ws generalizing g with
  | nil => exact ⟨nofun, fun _ _ => rfl⟩
  | cons w ws ih =>
    rw [List.map_cons, List.nodup_cons] at hnd
    obtain ⟨hmem, hne⟩ := ih hnd.2 (g.putLane slot m w)
    refine ⟨fun u hu => ?_, fun n hn => ?_⟩
    · obtain rfl | hu := List.mem_cons.mp hu
      · exact (hne u.reg hnd.1).trans (g.putLane_finalV hl)
      · exact hmem u hu
    · rw [List.map_cons, List.mem_cons, not_or] at hn
      exact (hne n hn.2).trans (g.putLane_finalV_ne hl hn.1)

theorem Group.putLanes_finalFlags (ws : List LaneWrite) (g : Group) : (ws.foldl (fun g w => g.putLane slot m w) g).finalFlags =
    g.finalFlags ||| orFlags (ws.flatMap (fun w => (lanes m).map (fun l => (w.val l).2))) := by
  induction ws generalizing g with
  | nil => exact BitVec.or_zero.symm
  | cons w ws ih => rw [List.foldl_cons, ih, putLane_finalFlags, List.flatMap_cons, orFlags_append, BitVec.or_assoc]

end

/-! ### Conversions -/

section
variable {h : Hd} {x : WCvt} {s : State} {c : Iss}

/-- The results of a conversion. -/
theorem FlaggedResult.cvt {i : Instr} {a w lat : Nat} {args : List (Src × Nat)} {f : BitVec 2 → LaneFn}
    (hi : IssuedBy i s (fun c s1 => goGroup s1 c (vecGroup (destOf .v a w lat) args (srForm i) (f c.fmt) c.slot c.act))) (hw : w = 1 ∨ w = 2)
    {F : Group → Word → Nat → DWord × Flags} (hF : ∀ g q l, f c.fmt q (args.map (fun x => srcLane g c.slot l x.2 x.1)) = F g q l) :
    FlaggedResult i s c a w F :=
  .of_group hi fun _ g => (Group.Results.vecGroup hw i args (f c.fmt) c.slot).congr fun l _ => hF g _ l

theorem cvt_result : FlaggedResult (.cvt h x) s c h.a.toNat (tyRegs x.ty)
    (fun g q l => cvtElem x c.fmt q 0 (srcLane g c.slot l (tyRegs x.sty) (.v h.b.toNat))) :=
  .cvt (lat := 6) (args := [(.v h.b.toNat, tyRegs x.sty)]) (f := fun fmt q l => cvtElem x fmt q 0 (l.getD 0 0))
    ⟨_, rfl, by
      show execCvt h x s = _
      unfold execCvt cvtIssue
      rfl⟩ (tyRegs_cases x.ty) fun _ _ _ => rfl

theorem cvtn_result : FlaggedResult (.cvtn h x) s c h.a.toNat 1
    (fun g q l => packed (fun j => cvtElem x c.fmt q j (if j = 0 then zx (g.rv c.slot h.b.toNat l) else zx (g.rv c.slot h.c.toNat l)))) :=
  .cvt (lat := 6) (args := [(.v h.b.toNat, 1), (.v h.c.toNat, 1)]) (f := fun fmt q l => packed (fun j => cvtElem x fmt q j (l.getD j 0)))
    ⟨_, rfl, by
      show execCvtn h x s = _
      unfold execCvtn cvtIssue
      rfl⟩ (.inl rfl) fun _ _ _ => rfl

theorem pack4_result : FlaggedResult (.pack4 h x) s c h.a.toNat 1
    (fun g q l => pack4Val x (bit h.mod 0) c.fmt q (g.rv64 c.slot h.b.toNat l) (g.rv64 c.slot h.c.toNat l) (zx (g.rv c.slot h.a.toNat l))) :=
  .cvt (lat := 6) (args := [(.v h.b.toNat, 2), (.v h.c.toNat, 2), (.v h.a.toNat, 1)])
    (f := fun fmt q l => pack4Val x (bit h.mod 0) fmt q (l.getD 0 0) (l.getD 1 0) (l.getD 2 0))
    ⟨_, rfl, by
      show execPack4 h x s = _
      unfold execPack4 cvtIssue
      rw [show (shPack4 h x).dst = destOf .v h.a.toNat 1 6 from (shapePack4_frame h x).2]
      rfl⟩ (.inl rfl) fun _ _ _ => rfl

/-- What UNPK4 gives of element j of a lane's register (R161). -/
def unpk4Val (h : Hd) (x : WCvt) (fmt : BitVec 2) (slot : Nat) (g : Group) (j l : Nat) : DWord × Flags :=
  cvtElem x fmt 0 j (BitVec.ofNat 64 ((g.rv slot h.b.toNat l).toNat / 2 ^ (packPlace x.sty (bit h.mod 0) j).1 %
    2 ^ (packPlace x.sty (bit h.mod 0) j).2))

/-- The four registers that UNPK4 writes. -/
def unpk4Writes (h : Hd) (x : WCvt) (fmt : BitVec 2) (slot : Nat) (g : Group) : List LaneWrite :=
  (List.range 4).map (fun j => { reg := h.a.toNat + j, lat := 6, val := unpk4Val h x fmt slot g j })

theorem unpk4_result (hr : Ready (.unpk4 h x) s c) : ∃ s2, Completes (.unpk4 h x) s c s2 ∧
    (∀ j, j < 4 → ∀ l ∈ lanes c.act, (s2.group c.place).finalV (h.a.toNat + j) l =
      lo32 (unpk4Val h x c.fmt c.slot ((begun (.unpk4 h x) s).group c.place) j l).1) ∧
    (s2.group c.place).finalFlags = ((begun (.unpk4 h x) s).group c.place).finalFlags ||| orFlags ((List.range 4).flatMap (fun j =>
      (lanes c.act).map (fun l => (unpk4Val h x c.fmt c.slot ((begun (.unpk4 h x) s).group c.place) j l).2))) := by
  have hi : IssuedBy (.unpk4 h x) s (fun c s1 => goGroup s1 c (fun g =>
      (unpk4Writes h x c.fmt c.slot g).foldl (fun g w => g.putLane c.slot c.act w) g)) :=
    ⟨_, rfl, by
      show execUnpk4 h x s = _
      unfold execUnpk4
      rfl⟩
  obtain ⟨s2, hc, hg⟩ := completes_of_goGroup hi hr rfl
  refine ⟨s2, hc, ?_⟩
  rw [hg]
  generalize (begun (.unpk4 h x) s).group c.place = g
  have hnd : ((unpk4Writes h x c.fmt c.slot g).map LaneWrite.reg).Nodup := by
    simp only [unpk4Writes, List.map_map, Function.comp_def]
    exact List.nodup_range.map (fun _ _ e => Nat.add_left_cancel e)
  refine ⟨fun j hj l hl => ?_, ?_⟩
  · exact (Group.putLanes_finalV hnd hl g).1 _ (List.mem_map_of_mem (List.mem_range.mpr hj))
  · rw [Group.putLanes_finalFlags, unpk4Writes, List.flatMap_map]

end

/-! ### PAIR -/

section
variable {h : Hd} {x : WPair} {s : State} {c : Iss}

/-- The halves of a well-formed PAIR write different registers (R57). -/
theorem halves_ne (hok : (shapePair h x).ok = true) : (halves h x).1.d ≠ (halves h x).2.d := by
  simp only [shapePair, Bool.and_eq_true, bne_iff_ne] at hok
  exact hok.1.1.1.1.2

/-- What a half gives a lane (R57). -/
def pairVal (slot : Nat) (g : Group) (f : Half) (l : Nat) : DWord × Flags :=
  halfVal f (g.rp slot (f.op % 8) l) (zx (g.rv slot f.a l)) (zx (g.rv slot f.b l)) (zx (g.rv slot f.d l))

/-- The register that a half writes. -/
def halfWrite (slot : Nat) (g : Group) (f : Half) : LaneWrite := { reg := f.d, lat := halfLat f, val := pairVal slot g f }

theorem pair_result (hr : Ready (.pair h x) s c) : ∃ s2, Completes (.pair h x) s c s2 ∧
    (∀ f ∈ [(halves h x).1, (halves h x).2], ∀ l ∈ lanes c.act, (s2.group c.place).finalV f.d l =
      lo32 (pairVal c.slot ((begun (.pair h x) s).group c.place) f l).1) ∧
    (s2.group c.place).finalFlags = ((begun (.pair h x) s).group c.place).finalFlags ||| orFlags ([(halves h x).1, (halves h x).2].flatMap (fun f =>
      (lanes c.act).map (fun l => (pairVal c.slot ((begun (.pair h x) s).group c.place) f l).2))) := by
  have hi : IssuedBy (.pair h x) s (fun c s1 => goGroup s1 c (fun g =>
      ([(halves h x).1, (halves h x).2].map (halfWrite c.slot g)).foldl (fun g w => g.putLane c.slot c.act w) g)) :=
    ⟨_, rfl, by
      show execPair h x s = _
      unfold execPair
      rfl⟩
  obtain ⟨s2, hc, hg⟩ := completes_of_goGroup hi hr rfl
  refine ⟨s2, hc, ?_⟩
  rw [hg]
  generalize (begun (.pair h x) s).group c.place = g
  have hnd : (([(halves h x).1, (halves h x).2].map (halfWrite c.slot g)).map LaneWrite.reg).Nodup := by
    simpa [halfWrite] using halves_ne hr.form
  refine ⟨fun f hf l hl => ?_, ?_⟩
  · exact (Group.putLanes_finalV hnd hl g).1 _ (List.mem_map_of_mem hf)
  · rw [Group.putLanes_finalFlags, List.flatMap_map]
    rfl

end

end Sys2Proof.Machine
end


section
/-! The results of VOTE, SHFL and MATCH (R164, R166, R169). -/
namespace Sys2Proof.Machine

/-! ### VOTE -/

theorem popc_lanes (m : Mask) : popc m = (lanes m).length := popc_eq m

/-- The active lanes whose predicate, negated by MOD bit 26, is true. -/
theorem lanes_predMask (g : Group) (slot : Nat) (h : Hd) (m : Mask) :
    lanes (m &&& predMask g slot h) = (lanes m).filter (fun l => g.rp slot h.b.toNat l != bit h.mod 0) := by
  unfold lanes
  rw [List.filter_filter]
  refine List.filter_congr fun l hl => ?_
  rw [bit_and, bit_predMask _ _ _ (List.mem_range.mp hl), Bool.and_comm]

/-- A vote over n lanes of which t are true (R166). -/
theorem voteVal_iff {mode : Nat} (hm : mode < 4) (n t : Nat) : voteVal mode n t = true ↔
    (mode = 0 ∧ t = n) ∨ (mode = 1 ∧ 0 < t) ∨ (mode = 2 ∧ (t = n ∨ t = 0)) ∨ (mode = 3 ∧ n < 2 * t) := by
  match mode with
  | 0 => simp [voteVal]
  | 1 => simp [voteVal, Nat.succ_le_iff]
  | 2 => simp [voteVal, or_comm]
  | 3 => simp [voteVal]
  | n + 4 => omega

section
variable {h : Hd} {s : State} {c : Iss}

theorem vote_result {x : WVote} (hr : Ready (.vote h x) s c) (h7 : h.a ≠ 7) : ∃ s2, Completes (.vote h x) s c s2 ∧
    ∀ l ∈ lanes c.act, (s2.group c.place).finalP h.a.toNat l = voteVal x.mode.toNat (lanes c.act).length
      ((lanes c.act).filter (fun l => ((begun (.vote h x) s).group c.place).rp c.slot h.b.toNat l != bit h.mod 0)).length := by
  have hi : IssuedBy (.vote h x) s (fun c s1 => goGroup s1 c (fun g => g.put c.slot [(.p h.a.toNat, 6)]
      ((lanes c.act).map (fun l => (l, truth (voteVal x.mode.toNat (popc c.act) (popc (c.act &&& predMask g c.slot h)))))))) :=
    ⟨_, rfl, by
      show execVote h x s = _
      unfold execVote
      rfl⟩
  obtain ⟨s2, hc, hg⟩ := completes_of_goGroup hi hr rfl
  refine ⟨s2, hc, fun l hl => ?_⟩
  rw [hg, Group.put_one, popc_lanes, popc_lanes, lanes_predMask]
  exact Group.finalP_write _ (fun e => h7 (BitVec.eq_of_toNat_eq e)) hl (fun _ => _)

end

/-! ### A result with a predicate -/

/-- The destination of `w` registers from `a`, with a predicate in field D unless that is p7. -/
def withPred (a w : Nat) (d : BitVec 9) (lat : Nat) : List (RegName × Nat) :=
  destOf .v a w lat ++ (if d == 7 then [] else [(.p d.toNat, lat)])

section
variable {sh : Shape} {a w lat : Nat} {d : BitVec 9} (hd : sh.dst = withPred a w d lat)
include hd

theorem vdst_withPred : sh.vdst = destOf .v a w lat := by
  have hv : (destOf .v a w lat).filter (fun d => match d.1 with
      | .v _ => true
      | _ => false) = destOf .v a w lat := List.filter_eq_self.mpr (by simp [destOf])
  unfold Shape.vdst
  rw [hd, withPred, List.filter_append]
  refine (congrArg (· ++ _) hv).trans ?_
  split <;> simp

theorem pdst_withPred : sh.pdst = if d == 7 then [] else [(.p d.toNat, lat)] := by
  have hv : (destOf .v a w lat).filter (fun d => match d.1 with
      | .p _ => true
      | _ => false) = [] := List.filter_eq_nil_iff.mpr (by simp [destOf])
  unfold Shape.pdst
  rw [hd, withPred, List.filter_append]
  refine (congrArg (· ++ _) hv).trans ?_
  split <;> simp

/-- What the registers and the predicate finally hold. -/
theorem Group.putBoth_final (hw : w = 1 ∨ w = 2) (g : Group) (slot : Nat) (m : Mask) (fv : Nat → DWord) (fp : Nat → Bool) {g' : Group}
    (hg : g' = (g.put slot sh.vdst ((lanes m).map (fun l => (l, fv l)))).put slot sh.pdst ((lanes m).map (fun l => (l, truth (fp l)))))
    {l : Nat} (hl : l ∈ lanes m) :
    g'.finalV a l = lo32 (fv l) ∧ (w = 2 → g'.finalV (a + 1) l = hi32 (fv l)) ∧ (d ≠ 7 → g'.finalP d.toNat l = fp l) := by
  have hv := finalV_put_lanes (g := g) (a := a) (lat := lat) hw slot fv hl
  rw [vdst_withPred hd, pdst_withPred hd] at hg
  by_cases h7 : d = 7
  · rw [h7] at hg
    rw [hg]
    exact ⟨hv.1, hv.2, fun h => absurd h7 h⟩
  · rw [if_neg (by simpa using h7), put_one] at hg
    have hn : d.toNat ≠ 7 := fun e => h7 (BitVec.eq_of_toNat_eq e)
    have hkeep : ∀ n, g'.finalV n l = (g.put slot (destOf .v a w lat) ((lanes m).map (fun l => (l, fv l)))).finalV n l := fun n => by
      rw [hg, finalV_eq, finalV_eq]
      exact final_write_other _ slot lat (lanesOk_lanes rfl m) (by simp) (mem_lanes.mp hl).1 _
    refine ⟨(hkeep a).trans hv.1, fun h2 => (hkeep (a + 1)).trans (hv.2 h2), fun _ => ?_⟩
    rw [hg]
    exact finalP_write _ hn hl fp

end

/-! ### SHFL -/

section
variable {h : Hd} {s : State} {c : Iss}

/-- The index operand of SHFL (R164). -/
def shflIndex (h : Hd) (x : WShfl) (slot : Nat) (g : Group) (l : Nat) : Word := if x.imm then x.imm20.signExtend 32 else g.rv slot h.c.toNat l

/-- The lane that a mode and an index name, which may be none of the 32 (R164). -/
def shflLaneNo (mode l k : Nat) : Int :=
  match mode with
  | 0 => k
  | 1 => ((BitVec.ofNat 32 l ^^^ BitVec.ofNat 32 k).toNat : Int)
  | 2 => (l : Int) - k
  | 3 => (l : Int) + k
  | _ => ((l : Int) + k) % 32

theorem shflSrc_eq {mode l k : Nat} (hl : l < 32) (hk : k < 2 ^ 32) :
    shflSrc mode l k = if 0 ≤ shflLaneNo mode l k ∧ shflLaneNo mode l k < 32 then some (shflLaneNo mode l k).toNat else none := by
  have hsome : ∀ n : Nat, (some n).filter (fun i => decide (i < 32)) = if (0 : Int) ≤ n ∧ (n : Int) < 32 then some (n : Int).toNat else none := fun n => by
    by_cases hn : n < 32
    · rw [if_pos (by omega)]
      simp [hn]
    · rw [if_neg (by omega)]
      simp [not_lt.mp hn]
  match mode with
  | 0 => exact hsome k
  | 1 =>
    have hx : (BitVec.ofNat 32 l ^^^ BitVec.ofNat 32 k).toNat = l ^^^ k := by
      rw [BitVec.toNat_xor, BitVec.toNat_ofNat, BitVec.toNat_ofNat, Nat.mod_eq_of_lt (by omega), Nat.mod_eq_of_lt hk]
    unfold shflLaneNo
    rw [hx]
    exact hsome (l ^^^ k)
  | 2 =>
    by_cases hle : k ≤ l
    · have hcast : (l : Int) - k = ((l - k : Nat) : Int) := by omega
      have := hsome (l - k)
      rw [← hcast] at this
      simpa [shflSrc, shflLaneNo, hle] using this
    · rw [if_neg (by simp only [shflLaneNo]; omega)]
      simp [shflSrc, hle]
  | 3 => exact (hsome (l + k)).trans (by rw [Nat.cast_add]; rfl)
  | n + 4 => exact (hsome ((l + k) % 32)).trans (by rw [Int.natCast_emod, Nat.cast_add]; rfl)

theorem lo32_signExtend20 (b : BitVec 20) : lo32 (sx b) = b.signExtend 32 := by
  refine BitVec.eq_of_getLsbD_eq fun i hi => ?_
  have h64 : i < 64 := by omega
  simp [lo32, sx, BitVec.getElem_signExtend, hi, h64]

theorem shflLane_eq (x : WShfl) (slot : Nat) (g : Group) (l : Nat) : shflLane h x slot g l =
    ((shflSrc x.mode.toNat l (shflIndex h x slot g l).toNat).isNone,
      srcLane g slot ((shflSrc x.mode.toNat l (shflIndex h x slot g l).toNat).getD l) (tyRegs x.ty) (.v h.b.toNat)) := by
  simp only [shflLane, lo32_signExtend20]
  rfl

@[simp] theorem lo32_cat (a b : Word) : lo32 (cat a b) = b := by
  rw [lo32_eq_bits]
  exact BitVec.extractLsb'_append_eq_right

@[simp] theorem hi32_cat (a b : Word) : hi32 (cat a b) = a := BitVec.extractLsb'_append_eq_left

/-- A copy of a register or pair of a lane. -/
theorem srcLane_copy (t : Ty) (ht : t ∈ rawTys) (g : Group) (slot l n : Nat) :
    lo32 (srcLane g slot l (tyRegs t) (.v n)) = g.rv slot n l ∧
    (t = .n64 → hi32 (srcLane g slot l (tyRegs t) (.v n)) = g.rv slot (n + 1) l) := by
  simp only [rawTys, List.mem_cons, List.not_mem_nil, or_false] at ht
  obtain rfl | rfl := ht
  · exact ⟨lo32_zx _, nofun⟩
  · exact ⟨lo32_cat _ _, fun _ => hi32_cat _ _⟩

theorem shfl_ty {x : WShfl} (hr : Ready (.shfl h x) s c) : x.ty ∈ rawTys := by
  have hok : (shapeShfl h x).ok = true := hr.form
  unfold shapeShfl at hok
  dsimp only at hok
  split at hok <;> simp_all [shape3, alsoWrites]

/-- SHFL gives each active lane the lane that its index names, or its own value where that is none. -/
theorem shfl_result {x : WShfl} (hr : Ready (.shfl h x) s c) : ∃ s2, Completes (.shfl h x) s c s2 ∧ ∀ l ∈ lanes c.act,
    (s2.group c.place).finalV h.a.toNat l = lo32 (shflLane h x c.slot ((begun (.shfl h x) s).group c.place) l).2 ∧
    (tyRegs x.ty = 2 → (s2.group c.place).finalV (h.a.toNat + 1) l = hi32 (shflLane h x c.slot ((begun (.shfl h x) s).group c.place) l).2) ∧
    (h.d ≠ 7 → (s2.group c.place).finalP h.d.toNat l = (shflLane h x c.slot ((begun (.shfl h x) s).group c.place) l).1) := by
  have hi : IssuedBy (.shfl h x) s (fun c s1 => goGroup s1 c (fun g =>
      let rs := (lanes c.act).map (fun l => (l, shflLane h x c.slot g l))
      (g.put c.slot (shShfl h x).vdst (rs.map (fun r => (r.1, r.2.2)))).put c.slot (shShfl h x).pdst (rs.map (fun r => (r.1, truth r.2.1))))) :=
    ⟨_, rfl, by
      show execShfl h x s = _
      unfold execShfl
      rfl⟩
  obtain ⟨s2, hc, hg⟩ := completes_of_goGroup hi hr rfl
  refine ⟨s2, hc, fun l hl => ?_⟩
  exact Group.putBoth_final (sh := shShfl h x) (shapeShfl_frame h x).2 (tyRegs_cases x.ty) ((begun (.shfl h x) s).group c.place) c.slot c.act
    (fun l => (shflLane h x c.slot ((begun (.shfl h x) s).group c.place) l).2)
    (fun l => (shflLane h x c.slot ((begun (.shfl h x) s).group c.place) l).1) (by rw [hg]; simp only [List.map_map, Function.comp_def]) hl

/-- What SHFL copies to a lane, and whether its predicate reports that the lane named none (R164). -/
theorem shfl_copies {x : WShfl} (hr : Ready (.shfl h x) s c) : ∃ s2, Completes (.shfl h x) s c s2 ∧ ∀ l ∈ lanes c.act, ∀ n : Int,
    n = shflLaneNo x.mode.toNat l (shflIndex h x c.slot ((begun (.shfl h x) s).group c.place) l).toNat →
    ∀ (k : Nat) (out : Bool), (if 0 ≤ n ∧ n < 32 then k = n.toNat ∧ out = false else k = l ∧ out = true) →
      (s2.group c.place).finalV h.a.toNat l = ((begun (.shfl h x) s).group c.place).rv c.slot h.b.toNat k ∧
      (x.ty = .n64 → (s2.group c.place).finalV (h.a.toNat + 1) l = ((begun (.shfl h x) s).group c.place).rv c.slot (h.b.toNat + 1) k) ∧
      (h.d ≠ 7 → (s2.group c.place).finalP h.d.toNat l = out) := by
  obtain ⟨s2, hc, hv⟩ := shfl_result hr
  refine ⟨s2, hc, fun l hl n hn k out hk => ?_⟩
  obtain ⟨hlo, hhi, hp⟩ := hv l hl
  generalize (begun (.shfl h x) s).group c.place = g at *
  have hsrc := shflSrc_eq (mode := x.mode.toNat) (mem_lanes.mp hl).1 (shflIndex h x c.slot g l).isLt
  rw [← hn] at hsrc
  have hval : shflLane h x c.slot g l = (out, srcLane g c.slot k (tyRegs x.ty) (.v h.b.toNat)) := by
    rw [shflLane_eq, hsrc]
    by_cases hin : 0 ≤ n ∧ n < 32
    · rw [if_pos hin] at hk ⊢
      obtain ⟨rfl, rfl⟩ := hk
      rfl
    · rw [if_neg hin] at hk ⊢
      obtain ⟨rfl, rfl⟩ := hk
      rfl
  rw [hval] at hlo hhi hp
  obtain ⟨clo, chi⟩ := srcLane_copy x.ty (shfl_ty hr) g c.slot k h.b.toNat
  exact ⟨hlo.trans clo, fun ht => (hhi (by rw [ht]; rfl)).trans (chi ht), hp⟩

end

/-! ### MATCH -/

section
variable {h : Hd} {s : State} {c : Iss}

theorem matchV_ty {x : WTy} (hr : Ready (.matchV h x) s c) : x.ty ∈ rawTys := by
  have hok : (shapeMatch h x).ok = true := hr.form
  unfold shapeMatch at hok
  dsimp only at hok
  split at hok <;> simp_all [shape3, alsoWrites]

/-- A lane's value of MATCH. -/
def matchOperand (h : Hd) (x : WTy) (slot : Nat) (g : Group) (l : Nat) : DWord := srcLane g slot l (tyRegs x.ty) (.v h.b.toNat)

theorem bit_matchClass (x : WTy) (slot : Nat) (m : Mask) (g : Group) (l : Nat) {k : Nat} (hk : k < 32) :
    bit (matchClass h x slot m g l) k = (bit m k && matchOperand h x slot g k == matchOperand h x slot g l) := by
  unfold matchClass maskOfList
  rw [bit_maskOf, Bool.eq_iff_iff]
  simp [hk, mem_lanes_iff hk, matchOperand]

theorem lanes_matchClass (x : WTy) (slot : Nat) (m : Mask) (g : Group) (l : Nat) :
    lanes (matchClass h x slot m g l) = (lanes m).filter (fun k => matchOperand h x slot g k == matchOperand h x slot g l) := by
  unfold lanes
  rw [List.filter_filter]
  refine List.filter_congr fun k hk => ?_
  rw [bit_matchClass x slot m g l (List.mem_range.mp hk), Bool.and_comm]

/-- A lane's class is every active lane when all their values are the lane's. -/
theorem matchClass_eq_iff (x : WTy) (slot : Nat) (m : Mask) (g : Group) (l : Nat) :
    (matchClass h x slot m g l == m) = true ↔ ∀ k ∈ lanes m, matchOperand h x slot g k = matchOperand h x slot g l := by
  rw [beq_iff_eq]
  refine ⟨fun he k hk => ?_, fun hall => bit_ext fun k hk => ?_⟩
  · obtain ⟨hlt, hb⟩ := mem_lanes.mp hk
    have := bit_matchClass (h := h) x slot m g l hlt
    rw [he, hb] at this
    simpa using this.symm
  · rw [bit_matchClass x slot m g l hk]
    cases hb : bit m k with
    | false => rfl
    | true => simp [hall k ((mem_lanes_iff hk).mpr hb)]

theorem matchV_result {x : WTy} (hr : Ready (.matchV h x) s c) : ∃ s2, Completes (.matchV h x) s c s2 ∧ ∀ l ∈ lanes c.act,
    (s2.group c.place).finalV h.a.toNat l = lo32 (matchVal h (matchClass h x c.slot c.act ((begun (.matchV h x) s).group c.place) l)) ∧
    (h.d ≠ 7 → (s2.group c.place).finalP h.d.toNat l = (matchClass h x c.slot c.act ((begun (.matchV h x) s).group c.place) l == c.act)) := by
  have hi : IssuedBy (.matchV h x) s (fun c s1 => goGroup s1 c (fun g =>
      let rs := (lanes c.act).map (fun l => (l, matchClass h x c.slot c.act g l))
      (g.put c.slot (shMatchV h x).vdst (rs.map (fun r => (r.1, matchVal h r.2)))).put c.slot (shMatchV h x).pdst
        (rs.map (fun r => (r.1, truth (r.2 == c.act)))))) :=
    ⟨_, rfl, by
      show execMatchV h x s = _
      unfold execMatchV
      rfl⟩
  obtain ⟨s2, hc, hg⟩ := completes_of_goGroup hi hr rfl
  refine ⟨s2, hc, fun l hl => ?_⟩
  obtain ⟨hv, -, hp⟩ := Group.putBoth_final (sh := shMatchV h x) (g' := s2.group c.place) (shapeMatch_frame h x).2 (.inl rfl) ((begun (.matchV h x) s).group c.place) c.slot c.act
    (fun l => matchVal h (matchClass h x c.slot c.act ((begun (.matchV h x) s).group c.place) l))
    (fun l => matchClass h x c.slot c.act ((begun (.matchV h x) s).group c.place) l == c.act)
    (by rw [hg]; simp only [List.map_map, Function.comp_def]) hl
  exact ⟨hv, hp⟩

end

end Sys2Proof.Machine
end


section
/-! The reduction tree of R101 and R102: it is the tree of its halves, and of an associative operation the fold over the lanes of its mask. -/
namespace Sys2Proof.Machine

/-! ### Trees -/

section
variable {α β : Type} {op : α → α → α}

/-- Neighbours of the terms of an even place. -/
theorem pairUp_range' (f : Nat → α) (m b : Nat) :
    pairUp ((List.range' (2 * b) (2 * m)).map f) = (List.range' b m).map (fun i => (f (2 * i), f (2 * i + 1))) := by
  induction m generalizing b with
  | zero => rfl
  | succ m ih =>
    have h := ih (b + 1)
    rw [show 2 * (m + 1) = 2 * m + 1 + 1 by omega, List.range'_succ, List.range'_succ, List.range'_succ]
    simp only [List.map_cons, pairUp]
    rw [show 2 * b + 1 + 1 = 2 * (b + 1) by omega, h]

/-- The tree of twice the terms is the tree of the combined neighbours. -/
theorem treeOf_pairs (f : Nat → α) (n j : Nat) : treeOf op (n + 1) f (2 * j) = treeOf op n (fun i => op (f (2 * i)) (f (2 * i + 1))) j := by
  induction n generalizing j with
  | zero => rfl
  | succ n ih =>
    show op (treeOf op (n + 1) f (2 * j)) (treeOf op (n + 1) f (2 * j + 2 ^ (n + 1))) = _
    rw [show 2 * j + 2 ^ (n + 1) = 2 * (j + 2 ^ n) by rw [pow_succ]; omega, ih, ih]
    rfl

/-- The tree that combines neighbours first is the tree of the halves. -/
theorem treeFold_range (f : Nat → α) (n : Nat) : treeFold op n ((List.range (2 ^ n)).map f) = some (treeOf op n f 0) := by
  induction n generalizing f with
  | zero => rfl
  | succ n ih =>
    have hlen : ((List.range (2 ^ (n + 1))).map f).length ≠ 1 := by
      rw [List.length_map, List.length_range, pow_succ]
      have := Nat.pos_of_ne_zero (pow_ne_zero n (two_ne_zero (α := Nat)))
      omega
    have hstep : ∀ l : List α, l.length ≠ 1 → treeFold op (n + 1) l = treeFold op n ((pairUp l).map (fun p => op p.1 p.2)) := fun l hl => by
      match l with
      | [] => rfl
      | [x] => exact absurd rfl hl
      | x :: y :: l => rfl
    have hpair := pairUp_range' f (2 ^ n) 0
    rw [hstep _ hlen, List.range_eq_range', show 2 ^ (n + 1) = 2 * 2 ^ n by rw [pow_succ, Nat.mul_comm]]
    rw [show 0 = 2 * 0 from rfl, hpair, List.map_map, ← List.range_eq_range']
    exact (ih _).trans (congrArg some (treeOf_pairs f n 0).symm)

theorem treeOf_congr {f g : Nat → α} {op' : α → α → α} (hop : ∀ x y, op x y = op' x y) (h : ∀ i, f i = g i) (n b : Nat) :
    treeOf op n f b = treeOf op' n g b := by rw [funext h, funext₂ hop]

/-- A map that takes one operation to another takes the tree to the other's. -/
theorem treeOf_hom {op' : β → β → β} {φ : α → β} (h : ∀ x y, φ (op x y) = op' (φ x) (φ y)) (f : Nat → α) (n b : Nat) :
    φ (treeOf op n f b) = treeOf op' n (fun i => φ (f i)) b := by
  induction n generalizing b with
  | zero => rfl
  | succ n ih => rw [treeOf, h, ih, ih, treeOf]

/-- What the terms have and the operation keeps, the tree has. -/
theorem treeOf_of_forall {P : α → Prop} (hop : ∀ x y, P x → P y → P (op x y)) {f : Nat → α} (h : ∀ i, P (f i)) (n b : Nat) : P (treeOf op n f b) := by
  induction n generalizing b with
  | zero => exact h b
  | succ n ih => exact hop _ _ (ih b) (ih _)

/-! ### Associative operations -/

/-- An associative operation with an identity. -/
structure Reduces (op : α → α → α) (e : α) : Prop where
  assoc : ∀ x y z, op (op x y) z = op x (op y z)
  left : ∀ x, op e x = x
  right : ∀ x, op x e = x

/-- An operation that an injective map takes to an associative one with an identity. -/
theorem Reduces.of_injective {e : α} {op' : β → β → β} {k : α → β} (hk : Function.Injective k) (h : ∀ x y, k (op x y) = op' (k x) (k y))
    (ha : ∀ x y z, op' (op' x y) z = op' x (op' y z)) (hl : ∀ x, op' (k e) (k x) = k x) (hr : ∀ x, op' (k x) (k e) = k x) : Reduces op e :=
  ⟨fun x y z => hk (by simp only [h, ha]), fun x => hk ((h _ _).trans (hl x)), fun x => hk ((h _ _).trans (hr x))⟩

variable {e : α} (hr : Reduces op e)
include hr

theorem Reduces.op_foldl (l : List α) (a : α) : op a (l.foldl op e) = l.foldl op a := by
  have h : ∀ (l : List α) (a b : α), op a (l.foldl op b) = l.foldl op (op a b) := by
    intro l
    induction l with
    | nil => exact fun a b => rfl
    | cons x l ih => exact fun a b => by rw [List.foldl_cons, List.foldl_cons, ih, hr.assoc]
  rw [h, hr.right]

/-- The tree of an associative operation folds its terms. -/
theorem Reduces.treeOf_eq (f : Nat → α) (n b : Nat) : treeOf op n f b = ((List.range' b (2 ^ n)).map f).foldl op e := by
  induction n generalizing b with
  | zero => exact (hr.left _).symm
  | succ n ih =>
    rw [treeOf, ih, ih, hr.op_foldl, ← List.foldl_append, ← List.map_append, List.range'_append_1, pow_succ, Nat.mul_two]

/-- Terms that are the identity may be left out. -/
theorem Reduces.foldl_filter (p : Nat → Bool) (g : Nat → α) (l : List Nat) (a : α) :
    (l.map (fun k => if p k then g k else e)).foldl op a = ((l.filter p).map g).foldl op a := by
  induction l generalizing a with
  | nil => rfl
  | cons k l ih =>
    rw [List.map_cons, List.foldl_cons, List.filter_cons]
    cases hp : p k
    · simp only [Bool.false_eq_true, if_false, hr.right a]
      exact ih a
    · simp only [if_true, List.map_cons, List.foldl_cons]
      exact ih _

end

/-! ### The tree of a reduction -/

/-- One step of a reduction with its flags. -/
def redFlagged (o : RedOp) (t : Ty) (rnd : BitVec 3) (x y : DWord × Flags) : DWord × Flags :=
  ((redStep o t rnd x.1 y.1).1, x.2 ||| y.2 ||| (redStep o t rnd x.1 y.1).2)

theorem redTree_eq (o : RedOp) (t : Ty) (rnd : BitVec 3) (m : Mask) (a : Nat → DWord) :
    redTree o t rnd m a = treeOf (redFlagged o t rnd) 5 (fun l => (if bit m l then a l else redId o t, 0)) 0 := by
  have h := treeFold_range (op := redFlagged o t rnd) (fun l => (if bit m l then a l else redId o t, 0)) 5
  exact congrArg (fun x => Option.getD x (redId o t, 0)) h

theorem bit_eq_mem_lanes (m : Mask) (l : Nat) : bit m l = decide (l ∈ lanes m) := by
  rw [Bool.eq_iff_iff, decide_eq_true_eq, mem_lanes]
  exact ⟨fun h => ⟨BitVec.lt_of_getLsbD h, h⟩, And.right⟩

/-- What a map to an associative operation makes of a reduction's tree: the fold over the lanes of the mask. -/
theorem redTree_hom {β : Type} {op : β → β → β} {o : RedOp} {t : Ty} {rnd : BitVec 3} {φ : DWord → β} (hr : Reduces op (φ (redId o t)))
    (hstep : ∀ x y, φ (redStep o t rnd x y).1 = op (φ x) (φ y)) (m : Mask) (a : Nat → DWord) :
    φ (redTree o t rnd m a).1 = ((lanes m).map (fun l => φ (a l))).foldl op (φ (redId o t)) := by
  have hterm : ∀ l, φ (if bit m l then a l else redId o t) = if bit m l then φ (a l) else φ (redId o t) := fun l => by split <;> rfl
  rw [redTree_eq]
  refine (treeOf_hom (op := redFlagged o t rnd) (φ := fun x : DWord × Flags => φ x.1) (op' := op) (fun x y => hstep x.1 y.1) _ 5 0).trans ?_
  simp only [hterm]
  rw [hr.treeOf_eq]
  exact hr.foldl_filter _ _ _ _

/-- An integer operation without SAT raises no flag. -/
theorem intOp_flags (o : IntOp) (t : Ty) (x y : DWord) : (intOp o t false x y).2 = 0 := by cases o <;> rfl

/-- A reduction of an integer type raises no flag. -/
theorem redTree_flags {o : RedOp} {t : Ty} (ht : t ≠ .f32) (rnd : BitVec 3) (m : Mask) (a : Nat → DWord) : (redTree o t rnd m a).2 = 0 := by
  have hstep : ∀ x y, (redStep o t rnd x y).2 = 0 := fun x y => by
    cases o <;> simp only [redStep, ht, if_false] <;> exact intOp_flags _ _ _ _
  rw [redTree_eq]
  refine treeOf_of_forall (P := fun x : DWord × Flags => x.2 = 0) (fun x y hx hy => ?_) (fun _ => rfl) 5 0
  show x.2 ||| y.2 ||| _ = 0
  rw [hx, hy, hstep]
  rfl

end Sys2Proof.Machine
end


section
/-! The reductions of the integer types (R167, R168): each operation is an associative one on words of the type's width, so that the tree of a
reduction is the fold over the lanes in ascending order. -/
namespace Sys2Proof.Machine

/-! ### Words of the width of a type -/

/-- The number of a word of N bits. -/
def wordNum {N : Nat} (sg : Bool) (b : BitVec N) : Int := numOf N sg b.toNat

theorem ofInt_numOf_width {N : Nat} (sg : Bool) (i : Int) : BitVec.ofInt N (numOf N sg i) = BitVec.ofInt N i := by
  refine BitVec.eq_of_toNat_eq ?_
  have h : numOf N sg i % (2 ^ N : Nat) = i % (2 ^ N : Nat) := by
    push_cast
    exact numOf_emod
  rw [BitVec.toNat_ofInt, BitVec.toNat_ofInt, h]

theorem ofInt_wordNum {N : Nat} (sg : Bool) (b : BitVec N) : BitVec.ofInt N (wordNum sg b) = b :=
  (ofInt_numOf_width sg _).trans (by rw [BitVec.ofInt_natCast, BitVec.ofNat_toNat, BitVec.setWidth_eq])

theorem wordNum_injective {N : Nat} (sg : Bool) : Function.Injective (wordNum sg : BitVec N → Int) :=
  Function.LeftInverse.injective (ofInt_wordNum sg)

theorem wordNum_setWidth {N : Nat} (sg : Bool) (y : DWord) : wordNum sg (y.setWidth N) = numOf N sg y.toNat := by
  refine numOf_congr ?_
  rw [BitVec.toNat_setWidth]
  push_cast
  exact Int.emod_emod_of_dvd _ (Int.dvd_refl _)

theorem wordNum_ofInt {N : Nat} (sg : Bool) (i : Int) : wordNum sg (BitVec.ofInt N i) = numOf N sg i := by
  refine numOf_congr ?_
  have hpos : (0 : Int) < 2 ^ N := by positivity
  rw [BitVec.toNat_ofInt, Int.toNat_of_nonneg (Int.emod_nonneg _ (by exact_mod_cast hpos.ne'))]
  push_cast
  exact Int.emod_emod_of_dvd _ (Int.dvd_refl _)

theorem setWidth_ofInt {N : Nat} (h : N ≤ 64) (i : Int) : (BitVec.ofInt 64 i).setWidth N = BitVec.ofInt N i := by
  refine BitVec.eq_of_toNat_eq ?_
  have hd : (2 : Int) ^ N ∣ 2 ^ 64 := pow_dvd_pow 2 h
  have hpos : (0 : Int) < 2 ^ N := by positivity
  zify
  rw [BitVec.toNat_setWidth, BitVec.toNat_ofInt, BitVec.toNat_ofInt]
  push_cast
  rw [Int.toNat_of_nonneg (Int.emod_nonneg _ (by decide)), Int.toNat_of_nonneg (Int.emod_nonneg _ hpos.ne')]
  exact Int.emod_emod_of_dvd i hd

/-- A number of a type is in its range. -/
theorem numOf_mem {N : Nat} (hN : 0 < N) (sg : Bool) (i : Int) : leastOf N sg ≤ numOf N sg i ∧ numOf N sg i ≤ greatestOf N sg := by
  have hp := two_pow_pred hN
  have hpos : (0 : Int) < 2 ^ N := by positivity
  have hlow := Int.emod_nonneg i hpos.ne'
  have hhigh := Int.emod_lt_of_pos i hpos
  unfold numOf leastOf greatestOf
  cases sg
  · simp only [Bool.false_eq_true, if_false, false_and]
    omega
  · simp only [if_true, true_and]
    split <;> omega

/-! ### The operations -/

/-- An operation of REDUX on words of N bits. -/
def wordOp (N : Nat) (sg : Bool) (o : RedOp) (a b : BitVec N) : BitVec N :=
  match o with
  | .add => a + b
  | .min => if wordNum sg b < wordNum sg a then b else a
  | .max => if wordNum sg a < wordNum sg b then b else a
  | .and => a &&& b
  | .or => a ||| b
  | .xor => a ^^^ b

namespace IntForm
variable {t : Ty} {N : Nat} {sg : Bool} (h : IntForm t N sg)
include h

theorem setWidth_wrapOf (i : Int) : (wrapOf N sg i).1.setWidth N = BitVec.ofInt N i :=
  (setWidth_ofInt h.le _).trans (ofInt_numOf_width sg i)

theorem setWidth_wrapOf_toNat (y : DWord) : (wrapOf N sg y.toNat).1.setWidth N = y.setWidth N := by
  rw [h.setWidth_wrapOf, BitVec.ofInt_natCast, BitVec.ofNat_toNat]

theorem setWidth_wrapOf_numOf (y : DWord) : (wrapOf N sg (numOf N sg y.toNat)).1.setWidth N = y.setWidth N := by
  rw [h.setWidth_wrapOf, ofInt_numOf_width, BitVec.ofInt_natCast, BitVec.ofNat_toNat]

theorem setWidth_intWrap (i : Int) : (intWrap t i).setWidth N = BitVec.ofInt N i := by
  rw [h.intWrap_eq]
  exact h.setWidth_wrapOf i

theorem ne_f32 : t ≠ .f32 := fun ht => by
  have := h.imm
  rw [ht] at this
  cases hN : decide (N = 64) <;> simp_all [immKOf]

/-- A step of a reduction on the low N bits. -/
theorem setWidth_redStep (o : RedOp) (rnd : BitVec 3) (y z : DWord) :
    (redStep o t rnd y z).1.setWidth N = wordOp N sg o (y.setWidth N) (z.setWidth N) := by
  have hf := h.ne_f32
  cases o <;> simp only [redStep, hf, if_false, wordOp, wordNum_setWidth]
  case add =>
    rw [h.intOp_add]
    exact (h.setWidth_wrapOf _).trans (by
      rw [BitVec.ofInt_add, ofInt_numOf_width, ofInt_numOf_width, BitVec.ofInt_natCast, BitVec.ofInt_natCast, BitVec.ofNat_toNat, BitVec.ofNat_toNat])
  case min =>
    rw [h.intOp_min]
    split <;> exact h.setWidth_wrapOf_numOf _
  case max =>
    rw [h.intOp_max]
    split <;> exact h.setWidth_wrapOf_numOf _
  case and => rw [h.intOp_and, h.setWidth_wrapOf_toNat, BitVec.setWidth_and]
  case or => rw [h.intOp_or, h.setWidth_wrapOf_toNat, BitVec.setWidth_or]
  case xor => rw [h.intOp_xor, h.setWidth_wrapOf_toNat, BitVec.setWidth_xor]

/-- Each operation is associative, and its identity is the one that lanes outside the mask supply. -/
theorem reduces_wordOp (o : RedOp) : Reduces (wordOp N sg o) ((redId o t).setWidth N) := by
  have hf := h.ne_f32
  have hle := h.least_le_greatest
  have h0 : (0 : DWord).setWidth N = 0#N := BitVec.setWidth_zero _ _
  have hmem : ∀ x : BitVec N, leastOf N sg ≤ wordNum sg x ∧ wordNum sg x ≤ greatestOf N sg := fun x => numOf_mem h.pos sg _
  cases o <;> simp only [redId, hf, if_false, h.intRange_eq, h.setWidth_intWrap]
  case add => exact h0 ▸ ⟨BitVec.add_assoc, BitVec.zero_add, BitVec.add_zero⟩
  case min =>
    have he : wordNum sg (BitVec.ofInt N (greatestOf N sg)) = greatestOf N sg := (wordNum_ofInt sg _).trans (numOf_of_mem h.pos hle (le_refl _))
    refine .of_injective (op' := min) (wordNum_injective sg) (fun x y => ?_) min_assoc (fun x => ?_) (fun x => ?_)
    · rw [wordOp, apply_ite (wordNum sg)]
      omega
    · rw [he, min_eq_right (hmem x).2]
    · rw [he, min_eq_left (hmem x).2]
  case max =>
    have he : wordNum sg (BitVec.ofInt N (leastOf N sg)) = leastOf N sg := (wordNum_ofInt sg _).trans (numOf_of_mem h.pos (le_refl _) hle)
    refine .of_injective (op' := max) (wordNum_injective sg) (fun x y => ?_) max_assoc (fun x => ?_) (fun x => ?_)
    · rw [wordOp, apply_ite (wordNum sg)]
      omega
    · rw [he, max_eq_right (hmem x).1]
    · rw [he, max_eq_left (hmem x).1]
  case and =>
    have he : BitVec.ofInt N (-1) = BitVec.allOnes N := (BitVec.ofInt_neg (n := 1)).trans (by rw [show BitVec.ofInt N 1 = 1#N from BitVec.ofInt_natCast N 1, BitVec.neg_one_eq_allOnes])
    rw [he]
    exact ⟨BitVec.and_assoc, fun _ => BitVec.allOnes_and, fun _ => BitVec.and_allOnes⟩
  case or => exact h0 ▸ ⟨BitVec.or_assoc, fun _ => BitVec.zero_or, fun _ => BitVec.or_zero⟩
  case xor => exact h0 ▸ ⟨BitVec.xor_assoc, fun _ => BitVec.zero_xor, fun _ => BitVec.xor_zero⟩

/-- The tree of a reduction on the low N bits is the fold over the lanes of its mask. -/
theorem setWidth_redTree (o : RedOp) (rnd : BitVec 3) (m : Mask) (a : Nat → DWord) : (redTree o t rnd m a).1.setWidth N =
    ((lanes m).map (fun l => (a l).setWidth N)).foldl (wordOp N sg o) ((redId o t).setWidth N) :=
  redTree_hom (φ := fun y => y.setWidth N) (h.reduces_wordOp o) (h.setWidth_redStep o rnd) m a

end IntForm

/-! ### The folds of R167 and R168 -/

/-- Two values that agree in the bits of a type leave the same in its register or pair. -/
theorem IntForm.halves_congr {t : Ty} {N : Nat} {sg : Bool} (h : IntForm t N sg) (h32 : 32 ≤ N) {y z : DWord} (he : y.setWidth N = z.setWidth N) :
    lo32 y = lo32 z ∧ (tyRegs t = 2 → hi32 y = hi32 z) := by
  refine ⟨?_, fun h2 => ?_⟩
  · have := congrArg (fun b : BitVec N => b.setWidth 32) he
    simpa [lo32, BitVec.setWidth_setWidth_of_le _ h32] using this
  · have h64 : N = 64 := by
      have := h.regs
      by_contra hn
      rw [if_neg hn] at this
      omega
    subst h64
    rw [BitVec.setWidth_eq, BitVec.setWidth_eq] at he
    rw [he]

/-- The sum of the values of lanes. -/
theorem IntForm.setWidth_sum {t : Ty} {N : Nat} {sg : Bool} (h : IntForm t N sg) (l : List DWord) :
    l.sum.setWidth N = (l.map (fun y => y.setWidth N)).foldl (wordOp N sg .add) ((redId .add t).setWidth N) := by
  have hr := h.reduces_wordOp .add
  induction l with
  | nil => simp [redId, h.ne_f32]
  | cons y l ih =>
    rw [List.sum_cons, BitVec.setWidth_add _ _ h.le, ih, List.map_cons, List.foldl_cons, hr.left]
    exact hr.op_foldl _ _

/-- The order of a type's values as registers hold them. -/
def belowOf (t : Ty) (y z : DWord) : Bool :=
  match t with
  | .i32 => (lo32 y).slt (lo32 z)
  | .i64 => y.slt z
  | _ => y.ult z

/-- The reduction of values, in order (R168). -/
def foldOf (o : Nat) (t : Ty) (y : DWord) (ys : List DWord) : DWord :=
  match o with
  | 0 => ys.foldl (· + ·) y
  | 1 => ys.foldl (fun y z => if belowOf t y z then y else z) y
  | 2 => ys.foldl (fun y z => if belowOf t y z then z else y) y
  | 3 => ys.foldl (· &&& ·) y
  | 4 => ys.foldl (· ||| ·) y
  | _ => ys.foldl (· ^^^ ·) y

/-- A fold that a map takes to another's, on values of which the operation keeps a property. -/
theorem foldl_hom_of {α β : Type} {op : α → α → α} {op' : β → β → β} {φ : α → β} {P : α → Prop}
    (h : ∀ y z, P y → P z → P (op y z) ∧ φ (op y z) = op' (φ y) (φ z)) {y : α} {ys : List α} (hy : P y) (hys : ∀ z ∈ ys, P z) :
    φ (ys.foldl op y) = (ys.map φ).foldl op' (φ y) := by
  induction ys generalizing y with
  | nil => rfl
  | cons z ys ih =>
    obtain ⟨hp, he⟩ := h y z hy (hys z List.mem_cons_self)
    rw [List.foldl_cons, ih hp (fun z hz => hys z (List.mem_cons_of_mem _ hz)), he, List.map_cons, List.foldl_cons]

/-- A value as a source register or pair of a type gives it. -/
def Fits32 (t : Ty) (y : DWord) : Prop := t = .n32 → y.toNat < 2 ^ 32

/-- The integer types that REDUX takes. -/
theorem redux_intForm {t : Ty} (ht : t ∈ [Ty.i32, .n32, .i64, .n64]) : ∃ N sg, IntForm t N sg ∧ 32 ≤ N ∧
    ∀ y z, Fits32 t y → Fits32 t z → belowOf t y z = decide (numOf N sg y.toNat < numOf N sg z.toNat) := by
  simp only [List.mem_cons, List.not_mem_nil, or_false] at ht
  obtain rfl | rfl | rfl | rfl := ht
  · refine ⟨32, true, intForm_of_mem (by simp), le_refl _, fun y z _ _ => ?_⟩
    rw [numOf_toInt, numOf_toInt]
    rfl
  · refine ⟨32, false, intForm_of_mem (by simp), le_refl _, fun y z hy hz => ?_⟩
    have := hy rfl
    have := hz rfl
    refine decide_eq_decide.mpr ?_
    show y.toNat < z.toNat ↔ (y.toNat : Int) % 2 ^ 32 < (z.toNat : Int) % 2 ^ 32
    omega
  · refine ⟨64, true, intForm_of_mem (by simp), by decide, fun y z _ _ => ?_⟩
    have hnum : ∀ y : DWord, numOf 64 true y.toNat = y.toInt := fun y => by
      have := y.isLt
      rw [BitVec.toInt_eq_toNat_cond]
      simp only [numOf, true_and]
      split <;> split <;> omega
    rw [hnum, hnum]
    rfl
  · refine ⟨64, false, intForm_of_mem (by simp), by decide, fun y z _ _ => ?_⟩
    have := y.isLt
    have := z.isLt
    refine decide_eq_decide.mpr ?_
    show y.toNat < z.toNat ↔ (y.toNat : Int) % 2 ^ 64 < (z.toNat : Int) % 2 ^ 64
    omega

section
variable {t : Ty} {N : Nat} {sg : Bool} (h : IntForm t N sg)
  (hb : ∀ y z, Fits32 t y → Fits32 t z → belowOf t y z = decide (numOf N sg y.toNat < numOf N sg z.toNat))
include h hb

/-- The fold on the low N bits. -/
theorem IntForm.setWidth_foldOf {o : Nat} (ho : o < 6) {y : DWord} {ys : List DWord} (hy : Fits32 t y) (hys : ∀ z ∈ ys, Fits32 t z) :
    (foldOf o t y ys).setWidth N = (ys.map (fun z => z.setWidth N)).foldl (wordOp N sg (redOpOf o)) (y.setWidth N) := by
  have hany : ∀ {op : DWord → DWord → DWord} {op' : BitVec N → BitVec N → BitVec N},
      (∀ y z, (op y z).setWidth N = op' (y.setWidth N) (z.setWidth N)) →
      (ys.foldl op y).setWidth N = (ys.map (fun z => z.setWidth N)).foldl op' (y.setWidth N) := fun hop =>
    foldl_hom_of (P := fun _ => True) (φ := fun z : DWord => z.setWidth N) (fun y z _ _ => ⟨trivial, hop y z⟩) trivial fun _ _ => trivial
  have htie : ∀ y z : DWord, numOf N sg y.toNat = numOf N sg z.toNat → y.setWidth N = z.setWidth N := fun y z he =>
    wordNum_injective sg (by rw [wordNum_setWidth, wordNum_setWidth, he])
  match o with
  | 0 => exact hany fun y z => BitVec.setWidth_add _ _ h.le
  | 1 =>
    refine foldl_hom_of (P := Fits32 t) (φ := fun z : DWord => z.setWidth N) (fun y z hy hz => ⟨by split <;> assumption, ?_⟩) hy hys
    simp only [hb y z hy hz, redOpOf, wordOp, wordNum_setWidth, decide_eq_true_eq]
    rcases lt_trichotomy (numOf N sg y.toNat) (numOf N sg z.toNat) with hlt | he | hlt
    · rw [if_pos hlt, if_neg hlt.not_gt]
    · rw [if_neg he.not_lt, if_neg he.not_gt, htie y z he]
    · rw [if_neg hlt.not_gt, if_pos hlt]
  | 2 =>
    refine foldl_hom_of (P := Fits32 t) (φ := fun z : DWord => z.setWidth N) (fun y z hy hz => ⟨by split <;> assumption, ?_⟩) hy hys
    simp only [hb y z hy hz, redOpOf, wordOp, wordNum_setWidth, decide_eq_true_eq]
    split <;> rfl
  | 3 => exact hany fun y z => BitVec.setWidth_and
  | 4 => exact hany fun y z => BitVec.setWidth_or
  | 5 => exact hany fun y z => BitVec.setWidth_xor

/-- The tree of a reduction over lanes that are not none leaves what the fold over them leaves. -/
theorem IntForm.redTree_eq_foldOf (h32 : 32 ≤ N) {o : Nat} (ho : o < 6) (rnd : BitVec 3) {m : Mask} {a : Nat → DWord} (ha : ∀ l, Fits32 t (a l))
    {y : DWord} {ys : List DWord} (hl : (lanes m).map a = y :: ys) :
    lo32 (redTree (redOpOf o) t rnd m a).1 = lo32 (foldOf o t y ys) ∧ (tyRegs t = 2 → hi32 (redTree (redOpOf o) t rnd m a).1 = hi32 (foldOf o t y ys)) := by
  have hfit : ∀ z ∈ y :: ys, Fits32 t z := fun z hz => by
    rw [← hl] at hz
    obtain ⟨l, -, rfl⟩ := List.mem_map.mp hz
    exact ha l
  have hmap : (lanes m).map (fun l => (a l).setWidth N) = (y :: ys).map (fun z => z.setWidth N) := by rw [← hl, List.map_map]; rfl
  refine h.halves_congr h32 ?_
  rw [h.setWidth_redTree, hmap, h.setWidth_foldOf hb ho (hfit y List.mem_cons_self) fun z hz => hfit z (List.mem_cons_of_mem _ hz), List.map_cons,
    List.foldl_cons, (h.reduces_wordOp (redOpOf o)).left]

end

end Sys2Proof.Machine
end


section
/-! The results of PSUM and REDUX (R167, R168). -/
namespace Sys2Proof.Machine

/-! ### Flags and lanes of masks -/

theorem bit_orFlags (l : List Flags) (i : Nat) : bit (orFlags l) i = l.any (fun f => bit f i) := by
  have h : ∀ (l : List Flags) (a : Flags), bit (l.foldl (fun a b => a ||| b) a) i = (bit a i || l.any (fun f => bit f i)) := by
    intro l
    induction l with
    | nil => exact fun a => by simp
    | cons f l ih => exact fun a => by rw [List.foldl_cons, ih, bit_or, List.any_cons, Bool.or_assoc]
  exact (h l 0).trans (by simp [bit])

/-- Which flags are gained depends on no order and no multiplicity. -/
theorem orFlags_congr_mem {l l' : List Flags} (h : ∀ f, f ∈ l ↔ f ∈ l') : orFlags l = orFlags l' :=
  bit_ext fun i _ => by
    rw [bit_orFlags, bit_orFlags, Bool.eq_iff_iff, List.any_eq_true, List.any_eq_true]
    simp only [h]

theorem lanes_and_maskOf (m : Mask) (p : Nat → Bool) : lanes (m &&& maskOf p) = (lanes m).filter p := by
  unfold lanes
  rw [List.filter_filter]
  refine List.filter_congr fun l hl => ?_
  rw [bit_and, bit_maskOf, decide_eq_true (List.mem_range.mp hl), Bool.true_and, Bool.and_comm]

/-! ### The trees of .f32 -/

/-- A sum of .f32 in which the identity leaves the other operand unchanged (R102). -/
def sumFlagged (rnd : BitVec 3) (y z : DWord × Flags) : DWord × Flags :=
  if y.1 = 0x80000000 then (z.1, y.2 ||| z.2) else if z.1 = 0x80000000 then (y.1, y.2 ||| z.2)
  else ((fltOp .add .f32 rnd 0 false y.1 z.1).1, y.2 ||| z.2 ||| (fltOp .add .f32 rnd 0 false y.1 z.1).2)

theorem redFlagged_add (rnd : BitVec 3) (y z : DWord × Flags) : redFlagged .add .f32 rnd y z = sumFlagged rnd y z := by
  unfold redFlagged redStep sumFlagged
  simp only [redId, if_true]
  split
  · exact Prod.ext rfl BitVec.or_zero
  · split
    · exact Prod.ext rfl BitVec.or_zero
    · rfl

/-- A minimum, or a maximum, of .f32. -/
def minMaxFlagged (max : Bool) (y z : DWord × Flags) : DWord × Flags :=
  ((fltMinMax max .f32 y.1 z.1).1, y.2 ||| z.2 ||| (fltMinMax max .f32 y.1 z.1).2)

/-- The tree of a reduction of .f32 over the lanes of a list (R101). -/
def fltTree (o : Nat) (rnd : BitVec 3) (ks : List Nat) (a : Nat → DWord) : DWord × Flags :=
  treeOf (if o = 0 then sumFlagged rnd else minMaxFlagged (o == 2)) 5
    (fun k => (if k ∈ ks then a k else if o = 0 then 0x80000000 else if o = 1 then 0x7F800000 else 0xFF800000, 0)) 0

theorem redTree_f32 {o : Nat} (ho : o < 3) (rnd : BitVec 3) (m : Mask) (a : Nat → DWord) :
    redTree (redOpOf o) .f32 rnd m a = fltTree o rnd (lanes m) a := by
  have hterm : ∀ (e : DWord) (l : Nat), (if bit m l then a l else e) = if l ∈ lanes m then a l else e := fun e l => by
    simp only [bit_eq_mem_lanes, decide_eq_true_eq]
  rw [redTree_eq]
  match o with
  | 0 => exact treeOf_congr (redFlagged_add rnd) (fun l => congrArg (·, 0) (hterm _ l)) 5 0
  | 1 => exact treeOf_congr (fun _ _ => rfl) (fun l => congrArg (·, 0) (hterm _ l)) 5 0
  | 2 => exact treeOf_congr (fun _ _ => rfl) (fun l => congrArg (·, 0) (hterm _ l)) 5 0

/-! ### PSUM -/

/-- A lane's value of a register or pair of a type. -/
def laneVal (t : Ty) (slot b : Nat) (g : Group) (l : Nat) : DWord := srcLane g slot l (tyRegs t) (.v b)

theorem fits32_laneVal (t : Ty) (slot b : Nat) (g : Group) (l : Nat) : Fits32 t (laneVal t slot b g l) := fun ht => by
  subst ht
  show (zx (g.rv slot b l)).toNat < 2 ^ 32
  have := (g.rv slot b l).isLt
  rw [zx, BitVec.toNat_setWidth]
  omega

/-- Results that leave the same in the registers. -/
theorem Group.Results.congr_halves {g g' : Group} {a w : Nat} {m : Mask} {f f' : Nat → DWord × Flags} (h : g.Results g' a w m f)
    (hf : ∀ l ∈ lanes m, lo32 (f l).1 = lo32 (f' l).1 ∧ (w = 2 → hi32 (f l).1 = hi32 (f' l).1) ∧ (f l).2 = (f' l).2) : g.Results g' a w m f' :=
  ⟨fun l hl => ⟨(h.1 l hl).1.trans (hf l hl).1, fun h2 => ((h.1 l hl).2 h2).trans ((hf l hl).2.1 h2)⟩,
    h.2.trans (by rw [List.map_congr_left fun l hl => (hf l hl).2.2])⟩

section
variable {h : Hd} {s : State} {c : Iss}

/-- The lanes that PSUM adds up for a lane. -/
def psumLanes (h : Hd) (m : Mask) (l : Nat) : List Nat := (lanes m).filter (fun k => decide (k < l) || (k == l && !bit h.mod 0))

/-- A lane's sum (R167). -/
def psumVal (h : Hd) (x : WAlu) (slot : Nat) (m : Mask) (g : Group) (l : Nat) : DWord × Flags :=
  if x.ty = .f32 then fltTree 0 x.rnd (psumLanes h m l) (laneVal x.ty slot h.b.toNat g)
  else (((psumLanes h m l).map (laneVal x.ty slot h.b.toNat g)).sum, 0)

theorem psum_ty {x : WAlu} (hr : Ready (.psum h x) s c) : x.ty = .f32 ∨ x.ty ∈ [Ty.i32, .n32, .i64, .n64] := by
  have hok : (vShape (aluPsum x) h x none (vOp h.a (tyRegs x.ty)) none).ok = true := (Bool.and_eq_true _ _ ▸ hr.form : _ ∧ _).1
  have ht : x.ty ∈ [Ty.i32, .n32, .i64, .n64, .f32] := aluOk_ty (vShape_aluOk hok)
  simp only [List.mem_cons, List.not_mem_nil, or_false] at ht ⊢
  tauto

/-- The tree of the lanes up to a lane leaves its sum. -/
theorem redTree_psum {x : WAlu} (ht : x.ty = .f32 ∨ x.ty ∈ [Ty.i32, .n32, .i64, .n64]) (slot : Nat) (m : Mask) (g : Group) (l : Nat) :
    let r := redTree .add x.ty x.rnd (m &&& maskOf (fun k => decide (k < l) || (k == l && !bit h.mod 0))) (laneVal x.ty slot h.b.toNat g)
    lo32 r.1 = lo32 (psumVal h x slot m g l).1 ∧ (tyRegs x.ty = 2 → hi32 r.1 = hi32 (psumVal h x slot m g l).1) ∧ r.2 = (psumVal h x slot m g l).2 := by
  intro r
  obtain hf | hi := ht
  · have hr : r = psumVal h x slot m g l := by
      show redTree _ _ _ _ _ = _
      rw [psumVal, if_pos hf, hf]
      exact (redTree_f32 (o := 0) (by decide) _ _ _).trans (by rw [lanes_and_maskOf]; rfl)
    rw [hr]
    exact ⟨rfl, fun _ => rfl, rfl⟩
  · obtain ⟨N, sg, hform, h32, -⟩ := redux_intForm hi
    rw [psumVal, if_neg hform.ne_f32]
    have hval : r.1.setWidth N = ((psumLanes h m l).map (laneVal x.ty slot h.b.toNat g)).sum.setWidth N := by
      rw [hform.setWidth_sum, hform.setWidth_redTree, lanes_and_maskOf, List.map_map]
      rfl
    obtain ⟨hlo, hhi⟩ := hform.halves_congr h32 hval
    exact ⟨hlo, hhi, redTree_flags hform.ne_f32 _ _ _⟩

theorem psum_result {x : WAlu} : FlaggedResult (.psum h x) s c h.a.toNat (tyRegs x.ty) (fun g _ l => psumVal h x c.slot c.act g l) := by
  have hi : IssuedBy (.psum h x) s (fun c s1 => goGroup s1 c (fun g =>
      let rs := (lanes c.act).map (fun l =>
        (l, redTree .add x.ty x.rnd (c.act &&& maskOf (fun k => decide (k < l) || (k == l && !bit h.mod 0))) (laneVal x.ty c.slot h.b.toNat g)))
      (g.put c.slot (shPsum h x).dst (rs.map (fun r => (r.1, r.2.1)))).flags c.slot (latOf (shPsum h x).dst) (orFlags (rs.map (fun r => r.2.2))))) :=
    ⟨_, rfl, by
      show execPsum h x s = _
      unfold execPsum
      rfl⟩
  refine .of_group hi fun hr g => ?_
  have hdst : (shPsum h x).dst = destOf .v h.a.toNat (tyRegs x.ty) 12 := rfl
  have hres := Group.Results.flags (g := g) (a := h.a.toNat) (lat := 12) (m := c.act) (tyRegs_cases x.ty) false 0 c.slot
    (latOf (destOf .v h.a.toNat (tyRegs x.ty) 12)) (fun l =>
      redTree .add x.ty x.rnd (c.act &&& maskOf (fun k => decide (k < l) || (k == l && !bit h.mod 0))) (laneVal x.ty c.slot h.b.toNat g))
  refine Group.Results.congr_halves ?_ (fun l _ => redTree_psum (psum_ty hr) c.slot c.act g l)
  simpa only [hdst, List.map_map, Function.comp_def, Group.seeded, Bool.false_eq_true, if_false] using hres

end

/-! ### Writes of distinct lanes -/

theorem ffind_eq_some_of_mem {β : Type} {m : FMap β} (hn : (m.map (fun x => x.1)).Nodup) {k : Nat} {v : β} (h : (k, v) ∈ m) : ffind m k = some v := by
  obtain ⟨u, hu⟩ := ffind_some_of_mem (List.mem_map_of_mem (f := fun x : Nat × β => x.1) h)
  have heq : (k, u) = (k, v) := List.inj_on_of_nodup_map hn (mem_of_ffind hu) h rfl
  rw [hu, (Prod.mk.inj heq).2]

section
variable {g : Group} {a w lat slot : Nat} {vals : List (Nat × DWord)} (hw : w = 1 ∨ w = 2) (hn : (vals.map (fun x => x.1)).Nodup)
  (hl : ∀ x ∈ vals, x.1 < 32)
include hn hl

theorem takes_vals (r : Nat) (f : DWord → Word) : (RegName.v r).takes (vals.map (fun x => (x.1, f x.2))) :=
  ⟨by simpa [Function.comp_def] using hn, fun x hx => by
    obtain ⟨y, hy, rfl⟩ := List.mem_map.mp hx
    exact ⟨hl y hy, nofun⟩⟩

/-- What a write of values to lanes of a v-register finally leaves. -/
theorem Group.finalV_write_vals (g : Group) (r : Nat) (f : DWord → Word) {l : Nat} (h32 : l < 32) :
    (∀ v, (l, v) ∈ vals → (g.write slot (.v r) (vals.map (fun x => (x.1, f x.2))) lat).finalV r l = f v) ∧
    (l ∉ vals.map (fun x => x.1) → (g.write slot (.v r) (vals.map (fun x => (x.1, f x.2))) lat).finalV r l = g.finalV r l) := by
  have hself := g.final_write_self slot lat (takes_vals hn hl r f) (l := l) ⟨h32, nofun⟩
  refine ⟨fun v hv => ?_, fun hout => ?_⟩
  · rw [ffind_eq_some_of_mem (by simpa [Function.comp_def] using hn) (List.mem_map_of_mem (f := fun x : Nat × DWord => (x.1, f x.2)) hv)] at hself
    exact hself
  · rw [ffind_none_of_not_mem (by simpa [Function.comp_def] using hout)] at hself
    exact hself

include hw

/-- What a put of values to lanes finally leaves in the destination. -/
theorem Group.finalV_put_vals (g : Group) {l : Nat} (h32 : l < 32) :
    let g' := g.put slot (destOf .v a w lat) vals
    (∀ v, (l, v) ∈ vals → g'.finalV a l = lo32 v ∧ (w = 2 → g'.finalV (a + 1) l = hi32 v)) ∧
    (l ∉ vals.map (fun x => x.1) → g'.finalV a l = g.finalV a l ∧ (w = 2 → g'.finalV (a + 1) l = g.finalV (a + 1) l)) := by
  intro g'
  have hlow := finalV_write_vals hn hl (lat := lat) (slot := slot) g a lo32 h32
  obtain rfl | rfl := hw
  · exact ⟨fun v hv => ⟨hlow.1 v hv, nofun⟩, fun hout => ⟨hlow.2 hout, nofun⟩⟩
  · have hhigh := finalV_write_vals hn hl (lat := lat) (slot := slot) (g.write slot (.v a) (vals.map (fun x => (x.1, lo32 x.2))) lat) (a + 1) hi32 h32
    have hkeep : g'.finalV a l = (g.write slot (.v a) (vals.map (fun x => (x.1, lo32 x.2))) lat).finalV a l := by
      rw [finalV_eq, finalV_eq]
      exact final_write_ne _ slot lat (by simp) (takes_vals hn hl (a + 1) hi32) h32
    have hother : (g.write slot (.v a) (vals.map (fun x => (x.1, lo32 x.2))) lat).finalV (a + 1) l = g.finalV (a + 1) l := by
      rw [finalV_eq, finalV_eq]
      exact final_write_ne _ slot lat (by simp) (takes_vals hn hl a lo32) h32
    exact ⟨fun v hv => ⟨hkeep.trans (hlow.1 v hv), fun _ => hhigh.1 v hv⟩,
      fun hout => ⟨hkeep.trans (hlow.2 hout), fun _ => (hhigh.2 hout).trans hother⟩⟩

end

end Sys2Proof.Machine
end


section
/-! The result of REDUX (R168): each active lane's segment, and what its lanes get. -/
namespace Sys2Proof.Machine

/-! ### Segments -/

section
variable {act : Mask} {w : Nat} {l : Nat}

/-- The active lanes of a lane's segment. -/
def segOf (w : Nat) (act : Mask) (l : Nat) : Mask := segment w act (l / w)

theorem lanes_segOf : lanes (segOf w act l) = (lanes act).filter (fun k => k / w == l / w) := lanes_and_maskOf act _

theorem mem_lanes_segOf (hl : l ∈ lanes act) : l ∈ lanes (segOf w act l) := mem_lanes_segment.mpr ⟨hl, rfl⟩

theorem segOf_mem_segments (hw : w ∣ 32) (hl : l ∈ lanes act) : segOf w act l ∈ segments w act := by
  have hne : segOf w act l ≠ 0 := fun he => by
    have := (mem_lanes.mp (mem_lanes_segOf (w := w) hl)).2
    rw [he] at this
    simp [bit] at this
  rw [segments_eq]
  exact List.mem_filter.mpr ⟨List.mem_map.mpr ⟨l / w, List.mem_range.mpr (Nat.div_lt_div_of_lt_of_dvd hw (mem_lanes.mp hl).1), rfl⟩, by simpa using hne⟩

/-- A segment is that of each of its lanes. -/
theorem eq_segOf {m : Mask} (hm : m ∈ segments w act) (hl : l ∈ lanes m) : m = segOf w act l := by
  rw [segments_eq] at hm
  obtain ⟨i, -, rfl⟩ := List.mem_map.mp (List.mem_filter.mp hm).1
  rw [segOf, (mem_lanes_segment.mp hl).2]

theorem segments_ne_zero {m : Mask} (hm : m ∈ segments w act) : m ≠ 0 := by simpa using (List.mem_filter.mp hm).2

/-- The flags of the segments are those of the active lanes' segments. -/
theorem orFlags_segments (hw : w ∣ 32) (f : Mask → Flags) :
    orFlags ((segments w act).map f) = orFlags ((lanes act).map (fun l => f (segOf w act l))) :=
  orFlags_congr_mem fun x => by
    simp only [List.mem_map]
    constructor
    · rintro ⟨m, hm, rfl⟩
      have hlow := lowLane_mem (segments_ne_zero hm)
      exact ⟨lowLane m, segments_lanes hm hlow, by rw [← eq_segOf hm hlow]⟩
    · rintro ⟨l, hl, rfl⟩
      exact ⟨_, segOf_mem_segments hw hl, rfl⟩

end

/-! ### The values that REDUX writes -/

/-- The lanes of a segment that get its value. -/
def takers (lead : Bool) (m : Mask) : List Nat := if lead then [lowLane m] else lanes m

/-- The lanes that get a value, with the value of their segment. -/
def reduxVals (lead : Bool) (w : Nat) (act : Mask) (f : Mask → DWord) : List (Nat × DWord) :=
  (segments w act).flatMap (fun m => (takers lead m).map (fun l => (l, f m)))

section
variable {act : Mask} {w l : Nat} {lead : Bool} {f : Mask → DWord}

theorem takers_nodup (lead : Bool) (m : Mask) : (takers lead m).Nodup := by
  unfold takers
  split
  · exact List.nodup_singleton _
  · exact lanes_nodup m

theorem takers_lanes {m : Mask} (hm : m ≠ 0) (hl : l ∈ takers lead m) : l ∈ lanes m := by
  unfold takers at hl
  split at hl
  · rw [List.mem_singleton.mp hl]
    exact lowLane_mem hm
  · exact hl

theorem mem_takers {m : Mask} (hl : l ∈ lanes m) : l ∈ takers lead m ↔ lead = false ∨ (lanes m).head? = some l := by
  unfold takers lowLane
  cases lead
  · simp [hl]
  · cases hm : lanes m with
    | nil => simp [hm] at hl
    | cons k ks => simp [eq_comm]

theorem keys_reduxVals : (reduxVals lead w act f).map (fun x => x.1) = (segments w act).flatMap (takers lead) := by
  simp [reduxVals, List.map_flatMap, Function.comp_def]

/-- The values REDUX writes, by rising lane: distinct lanes below 32. -/
theorem sorted_reduxVals_ok (le : Nat × DWord → Nat × DWord → Bool) :
    ((sortBy le (reduxVals lead w act f)).map (fun x => x.1)).Nodup ∧ ∀ x ∈ sortBy le (reduxVals lead w act f), x.1 < 32 := by
  have hperm := sortBy_perm le (reduxVals lead w act f)
  refine ⟨(hperm.map _).nodup_iff.mpr ?_, fun x hx => ?_⟩
  · rw [keys_reduxVals]
    exact nodup_flatMap_segments (takers_nodup lead) (fun m hm l hl => takers_lanes hm hl)
  · obtain ⟨m, hm, hx⟩ := List.mem_flatMap.mp (hperm.mem_iff.mp hx)
    obtain ⟨l, hl, rfl⟩ := List.mem_map.mp hx
    exact (mem_lanes.mp (takers_lanes (segments_ne_zero hm) hl)).1

/-- An active lane gets its segment's value when it is one of those that do. -/
theorem mem_reduxVals (hw : w ∣ 32) (hl : l ∈ lanes act) (hp : l ∈ takers lead (segOf w act l)) : (l, f (segOf w act l)) ∈ reduxVals lead w act f :=
  List.mem_flatMap.mpr ⟨_, segOf_mem_segments hw hl, List.mem_map_of_mem hp⟩

theorem mem_takers_of_mem_keys (h : l ∈ (reduxVals lead w act f).map (fun x => x.1)) : l ∈ takers lead (segOf w act l) := by
  rw [keys_reduxVals] at h
  obtain ⟨m, hm, hl⟩ := List.mem_flatMap.mp h
  rwa [← eq_segOf hm (takers_lanes (segments_ne_zero hm) hl)]

end

/-! ### REDUX -/

section
variable {h : Hd} {s : State} {c : Iss}

/-- The reduction of a mask's lanes. -/
def reduxTree (h : Hd) (x : WRedux) (slot : Nat) (g : Group) (m : Mask) : DWord × Flags :=
  redTree (redOpOf (bits h.mod 0 3).toNat) x.ty x.rnd m (laneVal x.ty slot h.b.toNat g)

/-- What a REDUX of a legal form names. -/
theorem redux_form {x : WRedux} (hr : Ready (.redux h x) s c) : (bits h.mod 0 3).toNat < 6 ∧ 2 ^ x.width.toNat ∣ 32 ∧
    (x.ty = .f32 ∧ (bits h.mod 0 3).toNat < 3 ∨ x.ty ∈ [Ty.i32, .n32, .i64, .n64]) := by
  have hok : (shapeRedux h x).ok = true := hr.form
  unfold shapeRedux shape3 at hok
  simp only [Bool.and_eq_true, decide_eq_true_eq, List.contains_iff_mem] at hok
  have hop : (bits h.mod 0 3).toNat < 6 ∧ x.ty ∈ (if (bits h.mod 0 3).toNat < 3 then [Ty.i32, .n32, .i64, .n64, .f32] else rawTys) ∧ x.width.toNat ≤ 5 := by
    tauto
  obtain ⟨ho, hty, hwidth⟩ := hop
  refine ⟨ho, pow_dvd_pow 2 hwidth, ?_⟩
  split at hty
  · simp only [List.mem_cons, List.not_mem_nil, or_false] at hty ⊢
    tauto
  · simp only [rawTys, List.mem_cons, List.not_mem_nil, or_false] at hty ⊢
    tauto

/-- REDUX writes each segment's reduction to the lanes that get it, and leaves the others as they are (R168). -/
theorem redux_result {x : WRedux} (hr : Ready (.redux h x) s c) : ∃ s2, Completes (.redux h x) s c s2 ∧
    let g := (begun (.redux h x) s).group c.place
    let g' := s2.group c.place
    let seg (l : Nat) := segOf (2 ^ x.width.toNat) c.act l
    (∀ l ∈ lanes c.act,
      (x.lead = false ∨ (lanes (seg l)).head? = some l → g'.finalV h.a.toNat l = lo32 (reduxTree h x c.slot g (seg l)).1 ∧
        (tyRegs x.ty = 2 → g'.finalV (h.a.toNat + 1) l = hi32 (reduxTree h x c.slot g (seg l)).1)) ∧
      (x.lead = true → (lanes (seg l)).head? ≠ some l → g'.finalV h.a.toNat l = g.finalV h.a.toNat l ∧
        (tyRegs x.ty = 2 → g'.finalV (h.a.toNat + 1) l = g.finalV (h.a.toNat + 1) l))) ∧
    g'.finalFlags = g.finalFlags ||| orFlags ((lanes c.act).map (fun l => (reduxTree h x c.slot g (seg l)).2)) := by
  have hi : IssuedBy (.redux h x) s (fun c s1 => goGroup s1 c (fun g =>
      let rs := (segments (2 ^ x.width.toNat) c.act).map (fun m => (m, reduxTree h x c.slot g m))
      let vals := rs.flatMap (fun r => (takers x.lead r.1).map (fun l => (l, r.2.1)))
      (g.put c.slot (shRedux h x).dst (sortBy (fun p q => decide (p.1 ≤ q.1)) vals)).flags c.slot (latOf (shRedux h x).dst)
        (orFlags (rs.map (fun r => r.2.2))))) :=
    ⟨_, rfl, by
      show execRedux h x s = _
      unfold execRedux
      rfl⟩
  obtain ⟨-, hw, -⟩ := redux_form hr
  obtain ⟨s2, hc, hg⟩ := completes_of_goGroup hi hr rfl
  refine ⟨s2, hc, ?_⟩
  intro g g' seg
  have hdst : (shRedux h x).dst = destOf .v h.a.toNat (tyRegs x.ty) 12 := rfl
  obtain ⟨vals, hvals⟩ : ∃ vals, vals = sortBy (fun p q : Nat × DWord => decide (p.1 ≤ q.1))
      (reduxVals x.lead (2 ^ x.width.toNat) c.act (fun m => (reduxTree h x c.slot g m).1)) := ⟨_, rfl⟩
  have hperm := hvals ▸ sortBy_perm (fun p q : Nat × DWord => decide (p.1 ≤ q.1))
    (reduxVals x.lead (2 ^ x.width.toNat) c.act (fun m => (reduxTree h x c.slot g m).1))
  have hg' : g' = (g.put c.slot (destOf .v h.a.toNat (tyRegs x.ty) 12) vals).flags c.slot (latOf (shRedux h x).dst)
      (orFlags ((segments (2 ^ x.width.toNat) c.act).map (fun m => (reduxTree h x c.slot g m).2))) := by
    rw [hvals]
    refine hg.trans ?_
    simp only [List.flatMap_map, List.map_map, Function.comp_def, hdst]
    rfl
  obtain ⟨hn, h32⟩ := hvals ▸ sorted_reduxVals_ok (lead := x.lead) (w := 2 ^ x.width.toNat) (act := c.act)
    (f := fun m => (reduxTree h x c.slot g m).1) (fun p q : Nat × DWord => decide (p.1 ≤ q.1))
  have hfin : ∀ n l, g'.finalV n l = (g.put c.slot (destOf .v h.a.toNat (tyRegs x.ty) 12) vals).finalV n l := fun n l => by
    rw [hg', Group.finalV_eq, Group.flags_final, ← Group.finalV_eq]
  refine ⟨fun l hl => ?_, ?_⟩
  · obtain ⟨hset, hkeep⟩ := Group.finalV_put_vals (a := h.a.toNat) (lat := 12) (slot := c.slot) (tyRegs_cases x.ty) hn h32 g (mem_lanes.mp hl).1
    have hpick := mem_takers (lead := x.lead) (mem_lanes_segOf (w := 2 ^ x.width.toNat) hl)
    rw [hfin, hfin]
    refine ⟨fun hget => hset _ (hperm.mem_iff.mpr (mem_reduxVals hw hl (hpick.mpr hget))), fun hlead hhead => hkeep fun hmem => ?_⟩
    obtain hf | hh := hpick.mp (mem_takers_of_mem_keys ((hperm.map _).mem_iff.mp hmem))
    · rw [hlead] at hf
      cases hf
    · exact hhead hh
  · rw [hg', Group.flags_finalFlags, Group.put_finalFlags, orFlags_segments hw]

/-- The reduction of a segment, on the types that REDUX takes. -/
theorem reduxTree_value {x : WRedux} (hr : Ready (.redux h x) s c) (slot : Nat) (g : Group) (m : Mask) :
    (x.ty = .f32 → reduxTree h x slot g m = fltTree (bits h.mod 0 3).toNat x.rnd (lanes m) (laneVal x.ty slot h.b.toNat g)) ∧
    (x.ty ≠ .f32 → (reduxTree h x slot g m).2 = 0 ∧ ∀ y ys, (lanes m).map (laneVal x.ty slot h.b.toNat g) = y :: ys →
      lo32 (reduxTree h x slot g m).1 = lo32 (foldOf (bits h.mod 0 3).toNat x.ty y ys) ∧
      (tyRegs x.ty = 2 → hi32 (reduxTree h x slot g m).1 = hi32 (foldOf (bits h.mod 0 3).toNat x.ty y ys))) := by
  obtain ⟨ho, -, hty⟩ := redux_form hr
  refine ⟨fun hf => ?_, fun hf => ⟨redTree_flags hf _ _ _, fun y ys hys => ?_⟩⟩
  · obtain ⟨-, h3⟩ | hi := hty
    · unfold reduxTree
      rw [hf]
      exact redTree_f32 h3 _ _ _
    · rw [hf] at hi
      simp at hi
  · obtain ⟨hf', -⟩ | hi := hty
    · exact absurd hf' hf
    · obtain ⟨N, sg, hform, h32, hb⟩ := redux_intForm hi
      exact hform.redTree_eq_foldOf hb h32 ho x.rnd (fits32_laneVal x.ty slot h.b.toNat g) hys

end

end Sys2Proof.Machine
end


section
/-! The results of the floating, conversion, PAIR and cross-lane instructions, together. -/
namespace Sys2Proof.Machine

section
variable {h : Hd} {s : State} {c : Iss}

/-! ### VOTE -/

/-- A lane's predicate, negated by MOD bit 26 (R46). -/
def lanePred (h : Hd) (slot : Nat) (g : Group) (l : Nat) : Bool := g.rp slot h.b.toNat l != bit h.mod 0

theorem vote_mode {x : WVote} (hr : Ready (.vote h x) s c) : x.mode.toNat < 4 := by
  have hok : (shapeVote h x).ok = true := hr.form
  unfold shapeVote shape3 at hok
  simp only [Bool.and_eq_true, decide_eq_true_eq] at hok
  tauto

/-- What each mode of VOTE reports of the active lanes' predicates (R166). -/
theorem voteVal_lanes {mode : BitVec 3} (hm : mode.toNat < 4) (ls : List Nat) (p : Nat → Bool) :
    voteVal mode.toNat ls.length (ls.filter p).length = true ↔
      (mode = 0 ∧ ∀ k ∈ ls, p k = true) ∨ (mode = 1 ∧ ∃ k ∈ ls, p k = true) ∨
      (mode = 2 ∧ ((∀ k ∈ ls, p k = true) ∨ ∀ k ∈ ls, ¬ p k = true)) ∨ (mode = 3 ∧ ls.length < 2 * (ls.filter p).length) := by
  have hnum : ∀ n : Nat, n < 4 → (mode.toNat = n ↔ mode = BitVec.ofNat 3 n) := fun n hn => by
    rw [← BitVec.toNat_inj, BitVec.toNat_ofNat, Nat.mod_eq_of_lt (by omega)]
  rw [voteVal_iff hm, hnum 0 (by decide), hnum 1 (by decide), hnum 2 (by decide), hnum 3 (by decide), List.length_filter_eq_length_iff,
    List.length_filter_pos_iff, List.length_eq_zero_iff, List.filter_eq_nil_iff]
  rfl

theorem vote_holds {x : WVote} (hr : Ready (.vote h x) s c) (h7 : h.a ≠ 7) : ∃ s2, Completes (.vote h x) s c s2 ∧
    let p (l : Nat) : Prop := lanePred h c.slot ((begun (.vote h x) s).group c.place) l = true
    ∀ l ∈ lanes c.act, ((s2.group c.place).finalP h.a.toNat l = true ↔
      (x.mode = 0 ∧ ∀ k ∈ lanes c.act, p k) ∨ (x.mode = 1 ∧ ∃ k ∈ lanes c.act, p k) ∨
      (x.mode = 2 ∧ ((∀ k ∈ lanes c.act, p k) ∨ ∀ k ∈ lanes c.act, ¬ p k)) ∨
      (x.mode = 3 ∧ (lanes c.act).length < 2 * ((lanes c.act).filter (lanePred h c.slot ((begun (.vote h x) s).group c.place))).length)) := by
  obtain ⟨s2, hc, hv⟩ := vote_result hr h7
  refine ⟨s2, hc, fun l hl => ?_⟩
  rw [hv l hl]
  exact voteVal_lanes (vote_mode hr) (lanes c.act) (lanePred h c.slot _)

/-! ### SHFL -/

/-- A lane finally holds a lane's register, or pair of a 64-bit type. -/
def Copies (h : Hd) (t : Ty) (slot : Nat) (g g' : Group) (l k : Nat) : Prop :=
  g'.finalV h.a.toNat l = g.rv slot h.b.toNat k ∧ (t = .n64 → g'.finalV (h.a.toNat + 1) l = g.rv slot (h.b.toNat + 1) k)

theorem shfl_holds {x : WShfl} (hr : Ready (.shfl h x) s c) : ∃ s2, Completes (.shfl h x) s c s2 ∧
    let g := (begun (.shfl h x) s).group c.place
    let n (l : Nat) : Int := shflLaneNo x.mode.toNat l (shflIndex h x c.slot g l).toNat
    ∀ l ∈ lanes c.act,
      (0 ≤ n l ∧ n l < 32 → Copies h x.ty c.slot g (s2.group c.place) l (n l).toNat ∧ (h.d ≠ 7 → (s2.group c.place).finalP h.d.toNat l = false)) ∧
      (n l < 0 ∨ 32 ≤ n l → Copies h x.ty c.slot g (s2.group c.place) l l ∧ (h.d ≠ 7 → (s2.group c.place).finalP h.d.toNat l = true)) := by
  obtain ⟨s2, hc, hv⟩ := shfl_copies hr
  refine ⟨s2, hc, ?_⟩
  intro g n l hl
  refine ⟨fun hin => ?_, fun hout => ?_⟩
  · obtain ⟨hlo, hhi, hp⟩ := hv l hl (n l) rfl (n l).toNat false (by rw [if_pos hin]; exact ⟨rfl, rfl⟩)
    exact ⟨⟨hlo, hhi⟩, hp⟩
  · obtain ⟨hlo, hhi, hp⟩ := hv l hl (n l) rfl l true (by rw [if_neg (by omega)]; exact ⟨rfl, rfl⟩)
    exact ⟨⟨hlo, hhi⟩, hp⟩

/-! ### MATCH -/

/-- A lane's register, or pair of a 64-bit type. -/
def rawVal (h : Hd) (t : Ty) (slot : Nat) (g : Group) (l : Nat) : DWord := if t = .n64 then g.rv64 slot h.b.toNat l else zx (g.rv slot h.b.toNat l)

theorem matchOperand_eq {x : WTy} (ht : x.ty ∈ rawTys) (slot : Nat) (g : Group) : matchOperand h x slot g = rawVal h x.ty slot g := by
  simp only [rawTys, List.mem_cons, List.not_mem_nil, or_false] at ht
  unfold rawVal matchOperand
  obtain ht | ht := ht <;> rw [ht] <;> rfl

theorem lowLane_eq {m : Mask} {k : Nat} (hk : (lanes m).head? = some k) : lowLane m = k := by
  unfold lowLane
  rw [List.headD_eq_head?_getD, hk]
  rfl

theorem match_holds {x : WTy} (hr : Ready (.matchV h x) s c) : ∃ s2, Completes (.matchV h x) s c s2 ∧
    let v := rawVal h x.ty c.slot ((begun (.matchV h x) s).group c.place)
    ∀ l ∈ lanes c.act,
      (bit h.mod 0 = true → ∀ k, k < 32 → bit ((s2.group c.place).finalV h.a.toNat l) k = (bit c.act k && v k == v l)) ∧
      (bit h.mod 0 = false → ∀ k, ((lanes c.act).filter (fun k => v k == v l)).head? = some k →
        (s2.group c.place).finalV h.a.toNat l = BitVec.ofNat 32 k) ∧
      (h.d ≠ 7 → ((s2.group c.place).finalP h.d.toNat l = true ↔ ∀ k ∈ lanes c.act, v k = v l)) := by
  obtain ⟨s2, hc, hv⟩ := matchV_result hr
  refine ⟨s2, hc, ?_⟩
  intro v l hl
  obtain ⟨hval, hp⟩ := hv l hl
  have hop : matchOperand h x c.slot ((begun (.matchV h x) s).group c.place) = v := matchOperand_eq (matchV_ty hr) _ _
  refine ⟨fun hm k hk => ?_, fun hm k hk => ?_, fun h7 => ?_⟩
  · rw [hval, matchVal, if_pos hm, lo32_zx, bit_matchClass x c.slot c.act _ l hk, hop]
  · rw [← hop, ← lanes_matchClass] at hk
    rw [hval, matchVal, if_neg (by simp [hm]), lowLane_eq hk]
    exact BitVec.setWidth_ofNat_of_le (by decide) k
  · rw [hp h7, matchClass_eq_iff, hop]

/-! ### REDUX -/

/-- The active lanes of a lane's segment of REDUX, in order. -/
def segLanes (x : WRedux) (act : Mask) (l : Nat) : List Nat := (lanes act).filter (fun k => k / 2 ^ x.width.toNat == l / 2 ^ x.width.toNat)

theorem redux_holds {x : WRedux} (hr : Ready (.redux h x) s c) : ∃ s2, Completes (.redux h x) s c s2 ∧
    let g := (begun (.redux h x) s).group c.place
    let g' := s2.group c.place
    let o := (bits h.mod 0 3).toNat
    let flt (l : Nat) := fltTree o x.rnd (segLanes x c.act l) (laneVal x.ty c.slot h.b.toNat g)
    let holds (l : Nat) (y : DWord) : Prop := g'.finalV h.a.toNat l = lo32 y ∧ (tyRegs x.ty = 2 → g'.finalV (h.a.toNat + 1) l = hi32 y)
    (∀ l ∈ lanes c.act,
      (x.lead = false ∨ (segLanes x c.act l).head? = some l →
        (x.ty = .f32 → holds l (flt l).1) ∧
        (x.ty ≠ .f32 → ∀ y ys, (segLanes x c.act l).map (laneVal x.ty c.slot h.b.toNat g) = y :: ys → holds l (foldOf o x.ty y ys))) ∧
      (x.lead = true → (segLanes x c.act l).head? ≠ some l → g'.finalV h.a.toNat l = g.finalV h.a.toNat l ∧
        (tyRegs x.ty = 2 → g'.finalV (h.a.toNat + 1) l = g.finalV (h.a.toNat + 1) l))) ∧
    g'.finalFlags = g.finalFlags ||| (if x.ty = .f32 then orFlags ((lanes c.act).map (fun l => (flt l).2)) else 0) := by
  obtain ⟨s2, hc, hres, hfl⟩ := redux_result hr
  refine ⟨s2, hc, ?_⟩
  intro g g' o flt holds
  have hseg : ∀ l, lanes (segOf (2 ^ x.width.toNat) c.act l) = segLanes x c.act l := fun l => lanes_segOf
  have hval := fun l => reduxTree_value hr c.slot g (segOf (2 ^ x.width.toNat) c.act l)
  simp only [hseg] at hres hval
  refine ⟨fun l hl => ⟨fun hget => ?_, (hres l hl).2⟩, ?_⟩
  · obtain ⟨hlo, hhi⟩ := (hres l hl).1 hget
    refine ⟨fun hf => ?_, fun hf y ys hys => ?_⟩
    · have ht := (hval l).1 hf
      exact ⟨hlo.trans (by rw [ht]), fun h2 => (hhi h2).trans (by rw [ht])⟩
    · obtain ⟨vlo, vhi⟩ := ((hval l).2 hf).2 y ys hys
      exact ⟨hlo.trans vlo, fun h2 => (hhi h2).trans (vhi h2)⟩
  · refine hfl.trans (congrArg (g.finalFlags ||| ·) ?_)
    split
    · next hf => rw [List.map_congr_left fun l _ => congrArg Prod.snd ((hval l).1 hf)]
    · next hf => exact orFlags_of_zero fun l _ => ((hval l).2 hf).1

end

/-! ### Together -/

/-- Settles O11: each family's operation on its operands, and for the cross-lane instructions what they compute of the active lanes. -/
theorem floatAndCrossLaneResults : Obligations.FloatAndCrossLaneResults := by
  unfold Obligations.FloatAndCrossLaneResults
  refine ⟨fun h x m s c => ?_, fun h x s c => ⟨cvt_result, cvtn_result, pack4_result, unpk4_result⟩, fun h x s c => pair_result,
    fun h s c => ⟨fun x => vote_holds, fun x => shfl_holds, fun x => match_holds, fun x => psum_result, fun x => redux_holds⟩⟩
  obtain ⟨add, sub, mul, min, max⟩ := fltTwo_results (h := h) (x := x) (m := m) (s := s) (c := c)
  obtain ⟨frnd, frnd5w, fclass, fclass5w⟩ := fltLone_results (h := h) (x := x) (m := m) (s := s) (c := c)
  obtain ⟨hadd, hmul⟩ := halfTwo_results (h := h) (x := x) (m := m) (s := s) (c := c)
  refine ⟨add, sub, mul, ffma_results, min, max,
    ⟨fscale_result (i := .fscale h x) rfl rfl (by rfl) rfl, fscale_result (i := .fscale5w h x m) rfl rfl (by rfl) rfl⟩,
    frnd, frnd5w, fclass, fclass5w, fun i k => special_results, hadd, hmul, hfma2_results, ?_⟩
  rintro i lit (⟨rfl, rfl⟩ | ⟨rfl, rfl⟩) hr
  · exact fcmp_result (i := .fcmp h x) (n := (bits h.mod 0 4).toNat) rfl (by rfl) rfl hr
  · exact fcmp_result (i := .fcmp5w h x m) (n := (bits h.mod 0 4).toNat) rfl (by rfl) rfl hr

end Sys2Proof.Machine
end

section
/-! Sums, differences and products of finite .f32 values that .f32 holds exactly (R75, R86, R149): every finite encoding is a sign, a significand and
an exponent; the exact result names the same number as the encoding that holds it, and rounding such a value drops nothing. -/
namespace Sys2Proof.Machine

/-! ### Signed fixed-point numbers -/

/-- A signed significand times a power of two. -/
def signedVal (s : Bool) (m a : Nat) : Int := (if s then -1 else 1) * (m * 2 ^ a : Nat)

theorem signedVal_not (s : Bool) (m a : Nat) : signedVal (!s) m a = -signedVal s m a := by
  unfold signedVal
  cases s <;> simp

theorem signedVal_natAbs (s : Bool) (m a : Nat) : (signedVal s m a).natAbs = m * 2 ^ a := by
  rw [signedVal, Int.natAbs_mul, Int.natAbs_natCast]
  cases s <;> simp

theorem signedVal_neg_iff {s : Bool} {m a : Nat} (h : signedVal s m a ≠ 0) : signedVal s m a < 0 ↔ s = true := by
  have hpos : 0 < m * 2 ^ a := by
    rw [← signedVal_natAbs s]
    exact Int.natAbs_pos.mpr h
  unfold signedVal
  generalize m * 2 ^ a = y at hpos
  cases s
  · simp
  · simpa using hpos

/-- Two ways to write a number other than 0 have its sign and its magnitude. -/
theorem signedVal_inj {s t : Bool} {m n a b : Nat} (h : signedVal s m a = signedVal t n b) (h0 : signedVal t n b ≠ 0) :
    s = t ∧ m * 2 ^ a = n * 2 ^ b := by
  refine ⟨?_, by rw [← signedVal_natAbs s, h, signedVal_natAbs]⟩
  rw [Bool.eq_iff_iff, ← signedVal_neg_iff (h ▸ h0), ← signedVal_neg_iff h0, h]

theorem signedVal_mul (s t : Bool) (m n a b : Nat) : signedVal s m a * signedVal t n b = signedVal (s != t) (m * n) (a + b) := by
  unfold signedVal
  push_cast
  cases s <;> cases t <;> simp <;> ring

theorem signedVal_shift (s : Bool) (m a d : Nat) : signedVal s m a * 2 ^ d = signedVal s m (a + d) := by
  unfold signedVal
  push_cast
  ring

/-- A number as the sign and magnitude that an exact sum is written with. -/
theorem signedVal_of_int (z : Int) (a : Nat) : signedVal (decide (z < 0)) z.natAbs a = z * 2 ^ a := by
  unfold signedVal
  push_cast
  by_cases hz : z < 0
  · simp only [hz, decide_true, if_true, abs_of_neg hz]
    ring
  · simp [hz, abs_of_nonneg (not_lt.mp hz)]

theorem finAt_signedVal (s : Bool) (m d : Nat) {a c : Nat} (h : c ≤ a) :
    finAt s m ((a : Int) - d) ((c : Int) - d) * 2 ^ c = signedVal s m a := by
  have hsub : ((a : Int) - d - ((c : Int) - d)).toNat = a - c := by omega
  have hpow : m * 2 ^ a = m * 2 ^ (a - c) * 2 ^ c := by rw [mul_assoc, ← pow_add, Nat.sub_add_cancel h]
  rw [finAt, signedVal, hsub, hpow]
  cases s <;> simp

/-- The sum of two nonzero finite values is taken at the lower of their exponents. -/
theorem addFin_nonzero (mode : Mode) (s t : Bool) {m n : Nat} (e k : Int) (hm : m ≠ 0) (hn : n ≠ 0) :
    addFin mode s m e t n k =
      if finAt s m e (min e k) + finAt t n k (min e k) = 0 then .fin (mode == .rm) 0 0
      else .fin (decide (finAt s m e (min e k) + finAt t n k (min e k) < 0)) (finAt s m e (min e k) + finAt t n k (min e k)).natAbs (min e k) := by
  unfold addFin
  rw [if_neg (by simp [hm]), if_neg hm, if_neg hn]
  rfl

/-- The exact sum of two finite values, other than 0, is their numbers' sum. -/
theorem addFin_signedVal (mode : Mode) (s t : Bool) (m n a b d : Nat) (h0 : signedVal s m a + signedVal t n b ≠ 0) :
    ∃ u k, ∃ j : Nat, addFin mode s m ((a : Int) - d) t n ((b : Int) - d) = .fin u k ((j : Int) - d) ∧
      signedVal u k j = signedVal s m a + signedVal t n b := by
  by_cases hm : m = 0
  · have hs : signedVal s m a = 0 := by simp [signedVal, hm]
    have hn : n ≠ 0 := by
      rintro rfl
      exact h0 (by simp [signedVal, hm])
    exact ⟨t, n, b, by simp [addFin, hm, hn], by rw [hs, zero_add]⟩
  by_cases hn : n = 0
  · exact ⟨s, m, a, by simp [addFin, hm, hn], by simp [signedVal, hn]⟩
  have hmin : min ((a : Int) - d) (b - d) = ((min a b : Nat) : Int) - d := by omega
  have hval := congrArg₂ (· + ·) (finAt_signedVal s m d (min_le_left a b)) (finAt_signedVal t n d (min_le_right a b))
  rw [← add_mul] at hval
  have hz : finAt s m ((a : Int) - d) ((min a b : Nat) - d) + finAt t n ((b : Int) - d) ((min a b : Nat) - d) ≠ 0 := fun hz =>
    h0 (by rw [← hval, hz, zero_mul])
  refine ⟨_, _, min a b, ?_, (signedVal_of_int _ _).trans hval⟩
  rw [addFin_nonzero mode s t _ _ hm hn, hmin, if_neg hz]

/-! ### Finite encodings of .f32 -/

/-- The significand of a finite encoding, with its hidden bit (R75). -/
def f32Sig (x : Word) : Nat := if bits x 23 8 = 0 then (bits x 0 23).toNat else 2 ^ 23 + (bits x 0 23).toNat

/-- The exponent of its last bit, from that of a subnormal on. -/
def f32Exp (x : Word) : Nat := (bits x 23 8).toNat - 1

/-- A finite encoding's value in units of 2^-149. -/
def f32Units (x : Word) : Int := signedVal (bit x 31) (f32Sig x) (f32Exp x)

theorem f32Units_eq (x : Word) : f32Units x = (if bit x 31 then -1 else 1) *
    (if bits x 23 8 = 0 then ((bits x 0 23).toNat : Int) else (2 ^ 23 + (bits x 0 23).toNat : Int) * 2 ^ ((bits x 23 8).toNat - 1)) := by
  unfold f32Units signedVal f32Sig f32Exp
  by_cases h : bits x 23 8 = 0
  · rw [if_pos h, if_pos h, h]
    simp
  · rw [if_neg h, if_neg h]
    push_cast
    rfl

theorem f32_exponent (x : Word) : (bits x 23 8).toNat = x.toNat / 2 ^ 23 % 2 ^ 8 := by simp [bits, Nat.shiftRight_eq_div_pow]

theorem f32_fraction (x : Word) : (bits x 0 23).toNat = x.toNat % 2 ^ 23 := by simp [bits]

theorem f32_sign (x : Word) : bit x 31 = (x.toNat / 2 ^ 31 % 2 == 1) := by
  rw [bit, BitVec.getLsbD, Nat.testBit_eq_decide_div_mod_eq]
  rfl

theorem f32_exponent_zero_iff (x : Word) : bits x 23 8 = 0 ↔ x.toNat / 2 ^ 23 % 2 ^ 8 = 0 := by
  rw [← BitVec.toNat_inj, f32_exponent]
  rfl

section
variable {x : Word} (hx : bits x 23 8 ≠ 0xFF)
include hx

theorem f32_exponent_lt : x.toNat / 2 ^ 23 % 2 ^ 8 < 255 := by
  have hne : x.toNat / 2 ^ 23 % 2 ^ 8 ≠ 255 := by
    rw [← f32_exponent]
    exact fun h => hx (BitVec.eq_of_toNat_eq h)
  omega

/-- What a finite encoding reads as. -/
theorem fltVal_f32_finite : fltVal .f32 (zx x) = .fin (bit x 31) (f32Sig x) ((f32Exp x : Int) - (149 : Nat)) := by
  rw [fltVal_f32, f32_value, if_neg (f32_exponent_lt hx).ne, f32_sign, f32Sig, f32Exp, f32_exponent, f32_fraction]
  by_cases h : x.toNat / 2 ^ 23 % 2 ^ 8 = 0
  · rw [if_pos h, if_pos ((f32_exponent_zero_iff x).mpr h), h]
    rfl
  · have he : ((x.toNat / 2 ^ 23 % 2 ^ 8 : Nat) : Int) - 1 + Fm.f32.emin - (23 : Nat) = ((x.toNat / 2 ^ 23 % 2 ^ 8 - 1 : Nat) : Int) - (149 : Nat) := by
      simp only [Fm.emin]
      omega
    rw [if_neg h, if_neg (mt (f32_exponent_zero_iff x).mp h), he]

theorem f32Exp_le : f32Exp x ≤ 253 := by
  have hlt := f32_exponent_lt hx
  rw [f32Exp, f32_exponent]
  omega

end

theorem f32Sig_lt (x : Word) : f32Sig x < 2 ^ 24 := by
  have h := (bits x 0 23).isLt
  unfold f32Sig
  split <;> omega

/-- A significand without its hidden bit is a subnormal's. -/
theorem f32_normal_or_least (x : Word) : 2 ^ 23 ≤ f32Sig x ∨ f32Exp x = 0 := by
  unfold f32Sig f32Exp
  by_cases h : bits x 23 8 = 0
  · right
    rw [h]
    rfl
  · left
    rw [if_neg h]
    exact Nat.le_add_right _ _

theorem f32_encoding (x : Word) : Fm.f32.signed (bit x 31) (f32Exp x * 2 ^ 23 + f32Sig x) = x.toNat := by
  have hlt := x.isLt
  rw [Fm.signed, f32_sign, f32Exp, f32Sig, f32_exponent, f32_fraction]
  simp only [f32_exponent_zero_iff, Fm.width, beq_iff_eq]
  split <;> split <;> omega

/-! ### Rounding -/

theorem log2_mul_two_pow {n : Nat} (hn : n ≠ 0) (k : Nat) : (n * 2 ^ k).log2 = n.log2 + k := by
  rw [Nat.log2_eq_iff (by positivity), pow_add, pow_add, pow_add]
  have hle := (Nat.le_log2 hn).mp le_rfl
  have hlt := (Nat.log2_lt hn).mp (Nat.lt_succ_self n.log2)
  refine ⟨Nat.mul_le_mul_right _ hle, ?_⟩
  rw [mul_right_comm, ← pow_add]
  exact Nat.mul_lt_mul_of_pos_right hlt (Nat.two_pow_pos k)

/-- Bits dropped off a multiple of their place are zero. -/
theorem dropBits_exact {n : Nat} (hn : n ≠ 0) (k : Nat) : (dropBits (n * 2 ^ k) k).1 = n ∧ (dropBits (n * 2 ^ k) k).2.zero = true := by
  have hlog := log2_mul_two_pow hn k
  unfold dropBits
  split
  · next h => simp [h]
  · rw [if_neg (by omega)]
    simp

/-- A magnitude cut at a place, and what is dropped (R86). -/
def cutAt (m : Nat) (e q : Int) : Nat × Rest := if q ≤ e then (m * 2 ^ (e - q).toNat, Rest.mk true .lt 0) else dropBits m (q - e).toNat

theorem significand_ne_zero {m n a b : Nat} (hn : n ≠ 0) (hv : m * 2 ^ a = n * 2 ^ b) : m ≠ 0 := by
  rintro rfl
  rw [zero_mul] at hv
  exact hn (by simpa using hv.symm)

section
variable {m n a b : Nat} {e q : Int} (hn : n ≠ 0) (hv : m * 2 ^ a = n * 2 ^ b) (hq : q - b = e - a)
include hn hv hq

/-- A magnitude cut at the place of a significand that holds it is that significand, and nothing is dropped. -/
theorem cutAt_exact : (cutAt m e q).1 = n ∧ (cutAt m e q).2.zero = true := by
  unfold cutAt
  split
  · next h =>
    have hpow : (2 : Nat) ^ a = 2 ^ (e - q).toNat * 2 ^ b := by rw [← pow_add, show (e - q).toNat + b = a by omega]
    exact ⟨Nat.eq_of_mul_eq_mul_right (Nat.two_pow_pos b) (by rw [mul_assoc, ← hpow, hv]), rfl⟩
  · next h =>
    have hpow : (2 : Nat) ^ b = 2 ^ (q - e).toNat * 2 ^ a := by rw [← pow_add, show (q - e).toNat + a = b by omega]
    have hm : m = n * 2 ^ (q - e).toNat := Nat.eq_of_mul_eq_mul_right (Nat.two_pow_pos a) (by rw [hv, mul_assoc, hpow])
    rw [hm]
    exact dropBits_exact hn _

theorem leading_bit : (m.log2 : Int) + e = n.log2 + q := by
  have hlog := congrArg Nat.log2 hv
  rw [log2_mul_two_pow (significand_ne_zero hn hv), log2_mul_two_pow hn] at hlog
  omega

end

/-- A finite encoding's values are rounded at its own last bit. -/
theorem f32_place {n j : Nat} (hn : n ≠ 0) (hlt : n < 2 ^ 24) (hnorm : 2 ^ 23 ≤ n ∨ j = 0) :
    max ((n.log2 : Int) + ((j : Int) - 149)) (-126) = (j : Int) - 126 := by
  have hhigh : n.log2 < 24 := (Nat.log2_lt hn).mpr hlt
  obtain hnorm | rfl := hnorm
  · have hlow : 23 ≤ n.log2 := (Nat.le_log2 hn).mpr hnorm
    omega
  · omega

/-- Rounding of a finite value other than 0 into .f32 (R86). -/
theorem roundTo_f32 (mode : Mode) (sat s : Bool) {m : Nat} (e : Int) (hm : m ≠ 0) :
    roundTo .f32 mode sat (.fin s m e) =
      let top := (m.log2 : Int) + e
      let q := max top (-126) - (24 : Nat) + 1
      let y := cutAt m e q
      let u := if goesUp mode s y.1 y.2 then y.1 + 1 else y.1
      if Fm.f32.maxQ < q || (q = Fm.f32.maxQ && Fm.f32.maxM < u) then overflowOut .f32 s mode sat
      else (Fm.f32.signed s ((max top (-126) - -126).toNat * 2 ^ 23 + u), flagIf (!y.2.zero) fNX ||| flagIf (decide (top < -126) && !y.2.zero) fUF) := by
  unfold roundTo
  simp only [hm, reduceCtorEq, decide_false, Bool.false_and, Bool.false_eq_true, if_false]
  rfl

/-- A value other than 0 that a finite encoding holds is rounded to it, without flags. -/
theorem roundTo_f32_exact {x : Word} (hx : bits x 23 8 ≠ 0xFF) (h0 : f32Units x ≠ 0) (mode : Mode) (sat : Bool) {s : Bool} {m a d : Nat}
    (hv : signedVal s m a = f32Units x * 2 ^ d) : roundTo .f32 mode sat (.fin s m ((a : Int) - (149 + d : Nat))) = (x.toNat, 0) := by
  have hn : f32Sig x ≠ 0 := fun hn => h0 (by simp [f32Units, signedVal, hn])
  have hd : f32Units x * 2 ^ d ≠ 0 := mul_ne_zero h0 (by positivity)
  rw [f32Units, signedVal_shift] at hv hd
  obtain ⟨rfl, hmag⟩ := signedVal_inj hv hd
  have hq : (f32Exp x : Int) - 149 - (f32Exp x + d : Nat) = (a : Int) - (149 + d : Nat) - a := by omega
  obtain ⟨hcut, hzero⟩ := cutAt_exact hn hmag hq
  have htop : max ((m.log2 : Int) + ((a : Int) - (149 + d : Nat))) (-126) = (f32Exp x : Int) - 126 := by
    rw [leading_bit hn hmag hq]
    exact f32_place hn (f32Sig_lt x) (f32_normal_or_least x)
  have hplace : (f32Exp x : Int) - 126 - (24 : Nat) + 1 = (f32Exp x : Int) - 149 := by omega
  have hexp : ((f32Exp x : Int) - 126 - -126).toNat = f32Exp x := by omega
  have hle : ¬ Fm.f32.maxQ < (f32Exp x : Int) - 149 := by
    have := f32Exp_le hx
    simp only [Fm.maxQ]
    omega
  have hlt : ¬ Fm.f32.maxM < f32Sig x := not_lt.mpr (Nat.le_pred_of_lt (f32Sig_lt x))
  rw [roundTo_f32 mode sat _ _ (significand_ne_zero hn hmag)]
  simp only [htop, hplace, hexp, hcut, hzero, goesUp, Bool.not_true, Bool.false_and, Bool.and_false, Bool.false_eq_true, if_false, hle, hlt,
    decide_false, Bool.or_self, f32_encoding]
  rfl

/-! ### Operations -/

section
variable (f : Fm) (mode : Mode) (sat s t : Bool) (m n : Nat) (e k : Int)

theorem fAdd_fin : fAdd f mode sat (.fin s m e) (.fin t n k) = roundTo f mode sat (addFin mode s m e t n k) :=
  Prod.ext rfl (BitVec.zero_or)

theorem fMul_fin : fMul f mode sat (.fin s m e) (.fin t n k) = roundTo f mode sat (.fin (s != t) (m * n) (e + k)) :=
  Prod.ext rfl (BitVec.zero_or)

end

section
variable {k : Word} (hk : bits k 23 8 ≠ 0xFF) (h0 : f32Units k ≠ 0) (mode : Mode) (sat : Bool) {s t : Bool} {m n a b : Nat}
include hk h0

theorem fAdd_exact (h : f32Units k = signedVal s m a + signedVal t n b) :
    fAdd .f32 mode sat (.fin s m ((a : Int) - (149 : Nat))) (.fin t n ((b : Int) - (149 : Nat))) = (k.toNat, 0) := by
  obtain ⟨u, z, j, hsum, hval⟩ := addFin_signedVal mode s t m n a b 149 (h ▸ h0)
  rw [fAdd_fin, hsum, roundTo_f32_exact (d := 0) hk h0 mode sat (by rw [hval, h, pow_zero, mul_one])]

theorem fMul_exact (h : f32Units k * 2 ^ 149 = signedVal s m a * signedVal t n b) :
    fMul .f32 mode sat (.fin s m ((a : Int) - (149 : Nat))) (.fin t n ((b : Int) - (149 : Nat))) = (k.toNat, 0) := by
  have he : (a : Int) - (149 : Nat) + ((b : Int) - (149 : Nat)) = ((a + b : Nat) : Int) - (149 + 149 : Nat) := by omega
  rw [fMul_fin, he, roundTo_f32_exact hk h0 mode sat (by rw [h, signedVal_mul])]

end

/-- Settles O12: both operands and the result are signed significands at powers of two, and rounding the exact result drops nothing. -/
theorem exactFloatResults : Obligations.ExactFloatResults := by
  unfold Obligations.ExactFloatResults
  intro rnd r sat a b k
  simp only [← f32Units_eq]
  intro ha hb hk h0
  have hout : fltOut (k.toNat, 0) = (zx k, 0) := congrArg (·, 0) (BitVec.ofNat_toNat 64 k)
  simp only [fltOp, fltVal_f32_finite ha, fltVal_f32_finite hb, ← hout]
  refine ⟨fun h => ?_, fun h => ?_, fun h => ?_⟩
  · exact congrArg fltOut (fAdd_exact hk h0 _ sat h)
  · exact congrArg fltOut (fAdd_exact hk h0 _ sat (by rw [h, signedVal_not]; exact sub_eq_add_neg _ _))
  · exact congrArg fltOut (fMul_exact hk h0 _ sat h)

end Sys2Proof.Machine
end

section
/-! ACCWR .add into an element that holds a NaN (R317): the element is the accumulating destination, the last operand, so a lane's NaN is the
first one and the one that is kept (R89). The statement has the element first. -/
namespace Sys2Proof.Machine.TwoNaNs

/-- The positive quiet NaN that the element holds. -/
def held : Acc := 0x7FFF80000000000000000000

/-- The negative quiet NaN that every lane supplies. -/
def supplied : Acc := 0xFFFF80000000000000000000

/-- The 32 lanes' values. -/
def values : List Acc := List.replicate 32 supplied

/-- ACCWR .add of row 0, quarter 0 of tile 0. -/
def write : Op :=
  { id := 1, place := 0, page := 0, team := 0, core := 0, pc := 0, op := 0xCD, fmt := 0, reg := none, todo := [3], ripe := [], stop := none,
    flags := 0, kind := .matrix 0 (.accwr 0 0 false true values) }

/-- The tile of which element 0 is a NaN. -/
def tile : Tile := { el := [(0, held)], nan := true, inf := false }

/-- A running context's team with the tile and the operation. -/
def state : State :=
  { State.reset with
    teams := [(0, { Team.empty with tiles := [(0, tile)] })], ops := [write], ctxs := [(0, { Ctx.reset with state := 2 })] }

/-- Element 0 of the team's tile 0. -/
def element (x : Tile) : Acc := fget x.el 0 0

/-- Element 0 of tile 0 after a step. -/
def elementAfter : Host.Outcome State Fault Refusal → Option Acc
  | .next t => some (element ((t.team 0).tile 0))
  | _ => none

/-- The sum of the statement, with the element as the first operand. -/
def elementFirst (y : Acc) (l : Nat) : Acc := BitVec.ofNat 96 (fAdd .acc .rn false (accVal (fget tile.el (elemNo 0 0 false l) 0)) (accVal y)).1

theorem settled_state : state.settled = true := by decide +kernel
theorem matAt_state : matAt state 1 = some (write, 0, .accwr 0 0 false true values) := by decide +kernel
theorem tile_state : (state.team 0).tile 0 = tile := by decide +kernel
theorem elementAfter_accwrDone : elementAfter (exec (.accwrDone 1) state) = some supplied := by decide +kernel
theorem element_put_elementFirst :
    element (tile.put (((List.range 32).zip values).map (fun p => (elemNo 0 0 false p.1, elementFirst p.2 p.1)))) = held := by decide +kernel

end Sys2Proof.Machine.TwoNaNs

namespace Sys2Proof.Machine

/-- Refutes O45: ACCWR .add of a NaN to an element that holds another keeps the lane's NaN, and the statement asks for the element's. -/
theorem not_matrixEvents : ¬ Obligations.MatrixEvents := by
  unfold Obligations.MatrixEvents
  intro h
  obtain ⟨-, completions⟩ := h
  obtain ⟨-, accwr, -⟩ := completions TwoNaNs.state 1 TwoNaNs.write 0 _ TwoNaNs.settled_state TwoNaNs.matAt_state rfl
  obtain ⟨t, hnext, -, htile⟩ := accwr 0 0 false true TwoNaNs.values rfl
  have hafter : TwoNaNs.elementAfter (exec (.accwrDone 1) TwoNaNs.state) = some TwoNaNs.held := by
    rw [hnext, ← TwoNaNs.element_put_elementFirst, ← TwoNaNs.tile_state]
    exact congrArg (fun x => some (TwoNaNs.element x)) htile
  rw [TwoNaNs.elementAfter_accwrDone] at hafter
  exact absurd hafter (by decide)

end Sys2Proof.Machine
end

section
/-! Statements of the sequencer that a state refutes. -/
namespace Sys2Proof.Machine.SequencerStates

/-- The fields of an instruction without operands, under the guard that always holds. -/
def bareHead : Hd := { b := 0, a := 0, st := 0, mod := 0, hold := 0, guard := 7, d := 0, c := 0 }

/-- A fragment of some lanes in user mode, without an entry. -/
def userFrag (m : Mask) : Frag := { OrphanGroup.frag with mask := m, rsp := 0xFFFF, sup := false }

/-- A running context with room for eight entries, and one group. -/
def running (g : Group) : State :=
  { State.reset with groups := [(0, g)], ctxs := [(0, { Ctx.reset with state := 2, d := { Ctx.reset.d with csentries := 8 } })] }

/-- Lanes 0 and 1 in slot 0, lane 0 with p1, and lane 2 in slot 1 with v5 in its operand buffer. -/
def twoFrags : State :=
  running { Group.empty with
    slot0 := some (userFrag 3), slot1 := some { userFrag 4 with buf := some 5 }, p := [(1, 1)], allot := 64, ended := false }

/-- BRC on p1, to the instruction 5 words on. -/
def diverging : Instr := .brc { bareHead with b := 1 } ⟨5⟩

/-- Its issue. -/
def brcIss : Iss := { place := 0, slot := 0, pc := 0, npc := 12, op := 4, st := 0, fmt := 0, mask := 3, full := 3, act := 3, sup := false }

/-- The operand buffer of the fragment in slot 1 after a step. -/
def otherBuf : Host.Outcome State Fault Refusal → Option (Option Nat)
  | .next t => ((t.group 0).frag 1).map (fun f => f.buf)
  | _ => none

theorem diverging_ready : Ready diverging twoFrags brcIss := by unfold Ready; decide +kernel
theorem otherBuf_exec : otherBuf (exec diverging twoFrags) = some none := by decide +kernel

/-- An entry of a CALL. -/
def callEntry : Entry := { kind := .call, pc := 0, mask := 1, aux := 0, link := 0xFFFF, vreg := 0, sup := false, live := true, fmt := 0 }

/-- A group with SP 0 and an entry on chip all the same, whose one fragment calls through v0:v1. -/
def strayEntry : State :=
  running { Group.empty with slot0 := some (userFrag 1), chip := [callEntry], allot := 64, ended := false }

/-- The issue of its CALLX. -/
def callxIss : Iss := { place := 0, slot := 0, pc := 0, npc := 12, op := 7, st := 0, fmt := 0, mask := 1, full := 1, act := 1, sup := false }

/-- The kind of the lowest entry on chip after a step. -/
def lowestKind : Host.Outcome State Fault Refusal → Option EKind
  | .next t => ((t.group 0).chip.head?).map (fun e => e.kind)
  | _ => none

theorem callx_ready : Ready (.callx bareHead) strayEntry callxIss := by unfold Ready; decide +kernel
theorem lowestKind_callx : lowestKind (exec (.callx bareHead) strayEntry) = some .callx := by decide +kernel

/-- The issue of one of the three-word instructions EXIT and TRAP in the group whose team is not resident. -/
def orphanIss (op : BitVec 8) : Iss :=
  { place := 0, slot := 0, pc := 0, npc := 12, op := op, st := 0, fmt := 0, mask := 1, full := 1, act := 1, sup := true }

theorem exit_ready : Ready (.exit bareHead) OrphanGroup.state (orphanIss 9) := by unfold Ready; decide +kernel
theorem trap_ready : Ready (.trap bareHead ⟨0x801⟩) OrphanGroup.state (orphanIss 13) := by unfold Ready; decide +kernel

/-- The end of the context by a fault of lane 0, in which the fragment has not issued. -/
def ended (i : Instr) (code : BitVec 16) : State :=
  settleDoom (markIssued (doomGroup (begun i OrphanGroup.state) 0 0 (.plain code 1))
    ((drainFor OrphanGroup.state OrphanGroup.state.cur (shapeIn i OrphanGroup.state)).group 0))

theorem ended_exit_absent : (ended (.exit bareHead) (codeOf 0 cPriv)).absent = false := by decide +kernel
theorem ended_trap_absent : (ended (.trap bareHead ⟨0x801⟩) 0x801).absent = false := by decide +kernel
theorem lastOf_ended_exit : OrphanGroup.lastOf (ended (.exit bareHead) (codeOf 0 cPriv)) = some 1 := by decide +kernel
theorem lastOf_ended_trap : OrphanGroup.lastOf (ended (.trap bareHead ⟨0x801⟩) 0x801) = some 1 := by decide +kernel
theorem lastAfter_exit : OrphanGroup.lastAfter (exec (.exit bareHead) OrphanGroup.state) = some 0 := by decide +kernel
theorem lastAfter_trap : OrphanGroup.lastAfter (exec (.trap bareHead ⟨0x801⟩) OrphanGroup.state) = some 0 := by decide +kernel

end Sys2Proof.Machine.SequencerStates

namespace Sys2Proof.Machine
open SequencerStates

/-- Refutes O16: BRC is a drain point, which empties the operand buffer of the other fragment too (R51, R55), and the statement keeps that
fragment as it is. -/
theorem not_divergencesJoin : ¬ Obligations.DivergencesJoin := by
  unfold Obligations.DivergencesJoin
  intro h
  obtain ⟨diverges, -⟩ := h
  obtain ⟨-, other⟩ := diverges { bareHead with b := 1 } ⟨5⟩ twoFrags brcIss (userFrag 3) diverging_ready rfl (by decide +kernel) (by decide +kernel)
  obtain ⟨t, hexec, -, -, hother, -⟩ := other (by decide +kernel) (by decide +kernel) (by decide +kernel)
  have hbuf := otherBuf_exec
  rw [show exec diverging twoFrags = .next t from hexec] at hbuf
  have hkeeps : otherBuf (.next t) = some (some 5) := congrArg (Option.map (fun f : Frag => f.buf)) hother
  rw [hbuf] at hkeeps
  exact absurd hkeeps (by decide)

/-- Refutes O17: with more entries on chip than SP counts, StartBatch finds entry SP − 1 below the one that CALLX has pushed, and writes the
pending lanes there. -/
theorem not_callsPush : ¬ Obligations.CallsPush := by
  unfold Obligations.CallsPush
  intro h
  obtain ⟨-, callx⟩ := h
  obtain ⟨t, a, hexec, -, -, -, -, -, -, hchip⟩ := callx bareHead strayEntry callxIss (userFrag 1) callx_ready rfl (by decide +kernel)
    (by decide +kernel) (by decide +kernel)
  have hkind := lowestKind_callx
  rw [hexec] at hkind
  have hkeeps : lowestKind (.next t) = some .call := by
    show ((t.group callxIss.place).chip.head?).map (fun e => e.kind) = _
    rw [hchip]
    rfl
  rw [hkind] at hkeeps
  exact absurd hkeeps (by decide)

/-- Refutes O18: EXIT in supervisor mode notes its issue in the fragment before the context ends (R104), and the state that the statement
names does not; a group whose team is not resident keeps its fragment. -/
theorem not_returnsAndExits : ¬ Obligations.ReturnsAndExits := by
  unfold Obligations.ReturnsAndExits
  intro h
  obtain ⟨-, -, supervisor⟩ := h
  obtain ⟨exits, -⟩ := supervisor OrphanGroup.state (orphanIss 9)
  obtain ⟨terminates, -⟩ := exits bareHead
  obtain ⟨hnext, -⟩ := terminates rfl exit_ready ended_exit_absent
  have hlast := congrArg OrphanGroup.lastAfter hnext
  rw [lastAfter_exit] at hlast
  exact absurd (hlast.trans lastOf_ended_exit) (by decide)

/-- Refutes O20: TRAP notes its issue in the fragment before the context ends (R104), and the state that the statement names does not; a
group whose team is not resident keeps its fragment. -/
theorem not_trapRaises : ¬ Obligations.TrapRaises := by
  unfold Obligations.TrapRaises
  intro h
  obtain ⟨-, raises⟩ := h bareHead ⟨0x801⟩ OrphanGroup.state (orphanIss 13)
  obtain ⟨-, terminates⟩ := raises trap_ready
  obtain ⟨hnext, -⟩ := terminates (Or.inl rfl) ended_trap_absent
  have hlast := congrArg OrphanGroup.lastAfter hnext
  rw [lastAfter_trap] at hlast
  exact absurd (hlast.trans lastOf_ended_trap) (by decide)

end Sys2Proof.Machine
end

section
/-! PLOP (R135): the truth table of three predicates, written to a predicate in the active lanes with a latency of 2. -/
namespace Sys2Proof.Machine

section
variable {h : Hd} {x : WLut} {s : State} {c : Iss}

/-- The entry of the table that a lane's three named predicates choose. -/
def plopBit (h : Hd) (x : WLut) (slot : Nat) (g : Group) (l : Nat) : Bool :=
  lutBit x.lut (g.rp slot h.b.toNat l) (g.rp slot h.c.toNat l) (g.rp slot h.d.toNat l)

/-- The pending write of PLOP. -/
def plopWrite (h : Hd) (x : WLut) (c : Iss) (g : Group) : PWrite :=
  { slot := c.slot, reg := .p h.a.toNat, vals := (lanes c.act).map (fun l => (l, lo32 (truth (plopBit h x c.slot g l)))), lat := 2, dist := 0 }

/-- The group after PLOP. -/
def plopGroup (h : Hd) (x : WLut) (c : Iss) (g : Group) : Group :=
  g.put c.slot (shPlop h).dst ((lanes c.act).map (fun l => (l, truth (plopBit h x c.slot g l))))

theorem plop_issuedBy : IssuedBy (.plop h x) s (fun c s => goGroup s c (plopGroup h x c)) := ⟨_, rfl, rfl⟩

theorem plopGroup_eq_write (g : Group) :
    plopGroup h x c g = g.write c.slot (.p h.a.toNat) ((lanes c.act).map (fun l => (l, lo32 (truth (plopBit h x c.slot g l))))) 2 :=
  Group.put_one g c.slot 2 (.p h.a.toNat) (lanes c.act) _

/-- A write to p7 is ignored (R59). -/
theorem plopGroup_p7 (ha : h.a = 7) (g : Group) : plopGroup h x c g = g := by simp [plopGroup_eq_write, Group.write, ha]

/-- Another predicate gets one pending write, whose latency is 2. -/
theorem plopGroup_pends (ha : h.a.toNat ≠ 7) (hact : lanes c.act ≠ []) (g : Group) :
    plopGroup h x c g = { g with pend := g.pend ++ [plopWrite h x c g] } := by
  simp [plopGroup_eq_write, plopWrite, Group.write, ha, hact]

theorem lo32_truth_ne_zero (b : Bool) : (lo32 (truth b) != 0) = b := by cases b <;> decide

/-- What a lane of a predicate finally holds after PLOP (R50). -/
theorem finalP_plopGroup (ha : h.a.toNat ≠ 7) (hact : lanes c.act ≠ []) (g : Group) (n l : Nat) :
    (plopGroup h x c g).finalP n l = if n = h.a.toNat ∧ l ∈ lanes c.act then plopBit h x c.slot g l else g.finalP n l := by
  rw [plopGroup_pends ha hact, Group.finalP_eq, Group.final_pend_append]
  by_cases hn : n = h.a.toNat
  · subst hn
    rw [if_pos (show (plopWrite h x c g).reg = .p h.a.toNat from rfl), plopWrite, ffind_map]
    by_cases hl : l ∈ lanes c.act
    · rw [if_pos hl, if_pos ⟨rfl, hl⟩]
      show (RegName.seen (.p h.a.toNat) _ != 0) = _
      have h7 : (h.a.toNat == 7) = false := beq_eq_false_iff_ne.mpr ha
      simp only [RegName.seen, h7, Bool.false_or, lo32_truth_ne_zero, word_of_cond]
    · rw [if_neg hl, if_neg (fun e => hl e.2)]
      exact (Group.finalP_eq g h.a.toNat l).symm
  · have hreg : (plopWrite h x c g).reg ≠ .p n := fun e => hn (RegName.p.inj e).symm
    rw [if_neg hreg, if_neg (fun e => hn e.1)]
    exact (Group.finalP_eq g n l).symm

/-- An instruction that is ready has an active lane. -/
theorem Ready.lanes_ne_nil {i : Instr} (hr : Ready i s c) : lanes c.act ≠ [] := by
  obtain ⟨-, -, hlive⟩ := hr
  have hact : c.act ≠ 0 := by
    simp only [Iss.live, Bool.and_eq_true, bne_iff_ne] at hlive
    exact hlive.1
  exact List.ne_nil_of_mem (lowLane_mem hact)

end

/-- Settles O13: PLOP's one write, and nothing for p7. -/
theorem plopTable : Obligations.PlopTable := by
  unfold Obligations.PlopTable
  intro h x s c hr
  obtain ⟨s2, hcomp, hg⟩ := completes_of_goGroup plop_issuedBy hr (u := plopGroup h x c) rfl
  have hact := hr.lanes_ne_nil
  refine ⟨s2, hcomp, ?_⟩
  dsimp only
  rw [hg]
  refine ⟨fun ha => ?_, fun ha => plopGroup_p7 ha _, fun n l hn => ?_⟩
  · have h7 : h.a.toNat ≠ 7 := fun e => ha (BitVec.eq_of_toNat_eq e)
    refine ⟨fun l hl => ?_, plopWrite h x c ((begun (.plop h x) s).group c.place), ?_, rfl, rfl, rfl⟩
    · rw [finalP_plopGroup h7 hact, if_pos ⟨rfl, hl⟩]
      rfl
    · rw [plopGroup_pends h7 hact]
      exact List.mem_append_right _ List.mem_cons_self
  · by_cases h7 : h.a.toNat = 7
    · rw [plopGroup_p7 (BitVec.eq_of_toNat_eq h7)]
    · rw [finalP_plopGroup h7 hact, if_neg]
      rintro ⟨rfl, hl⟩
      obtain hn | hn := hn
      · exact hn rfl
      · simp [(mem_lanes.mp hl).2] at hn

end Sys2Proof.Machine
end

section
/-! Accesses to memory and the map unit's own work change no group: stash lines that answer, records that are posted, translations that are
counted, samples of monitors, and the access of one lane. -/
namespace Sys2Proof.Machine

/-! ### Steps that leave the groups alone -/

section
variable {α : Type}

theorem groups_foldl {f : State → α → State} (hf : ∀ (t : State) x, (f t x).groups = t.groups) (l : List α) (s : State) :
    (l.foldl f s).groups = s.groups :=
  List.foldlRecOn (motive := fun t : State => t.groups = s.groups) l f rfl (fun t ht x _ => (hf t x).trans ht)

/-- Steps that each answer whether the next may go on. -/
theorem groups_foldl_while {f : State → α → Bool × State} (hf : ∀ (t : State) x, (f t x).2.groups = t.groups) (l : List α) (a : Bool × State) :
    (l.foldl (fun a x => if a.1 then f a.2 x else a) a).2.groups = a.2.groups := by
  refine List.foldlRecOn (motive := fun b : Bool × State => b.2.groups = a.2.groups) l _ rfl (fun b hb x _ => ?_)
  split
  · exact (hf b.2 x).trans hb
  · exact hb

end

/-! ### Stash lines and memory -/

@[simp] theorem mergeDirty_groups (s : State) (lkey gkey : Nat) (m : BitVec 256) : (mergeDirty s lkey gkey m).groups = s.groups :=
  groups_foldl (fun t i => by split <;> rfl) _ s

@[simp] theorem setLineOf_groups (s : State) (tid win ln : Nat) (l : Option Line) : (setLineOf s tid win ln l).groups = s.groups := by
  unfold setLineOf
  split
  · rfl
  · split <;> rfl

@[simp] theorem yieldLine_groups (s : State) (h : Nat × Nat × Nat) : (yieldLine s h).groups = s.groups := by
  unfold yieldLine
  split
  · rfl
  · split
    · rfl
    · dsimp only
      split <;> simp

@[simp] theorem sysPut_groups (s : State) (key : Nat) (l : List Byte) : (s.sysPut key l).groups = s.groups := by
  rw [State.sysPut, State.setBytes_groups]
  split
  · rfl
  · exact groups_foldl (fun t ln => groups_foldl yieldLine_groups _ t) _ s

@[simp] theorem shareLine_groups (s : State) (h : Nat × Nat × Nat) : (shareLine s h).groups = s.groups := by
  unfold shareLine
  split
  · rfl
  · split
    · rfl
    · split <;> simp

@[simp] theorem sysShare_groups (s : State) (key n : Nat) : (s.sysShare key n).groups = s.groups := groups_foldl shareLine_groups _ s

@[simp] theorem reviveDead_groups (s : State) (d : Desc) (va : Nat) (e : DWord) (base units : Nat) :
    (reviveDead s d va e base units).groups = s.groups := by
  unfold reviveDead
  dsimp only
  split
  · rfl
  · split
    · rfl
    · split
      · split
        · exact sysPut_groups _ _ _
        · rfl
      · rfl

@[simp] theorem hotWindow_groups (s : State) : (hotWindow s).groups = s.groups := by
  unfold hotWindow
  dsimp only
  split <;> rfl

@[simp] theorem noteAccess_groups (s : State) (d : Desc) (va : Nat) (e : DWord) (base units : Nat) (write : Bool) :
    (noteAccess s d va e base units write).1.groups = s.groups := by
  have hrevive : ∀ t : State, (if write then reviveDead t d va e base units else t).groups = t.groups := fun t => by split <;> simp
  have hmove : ∀ t : State, (if write && pteLoc e != 1 then noteMove t d.asid base va else t).groups = t.groups := fun t => by split <;> rfl
  have h := (hmove _).trans ((hrevive _).trans (State.keepTlb_groups s d.asid (leafNow s d va e) base units))
  unfold noteAccess
  dsimp only
  split
  · exact (hotWindow_groups _).trans h
  · exact h

/-! ### Samples and records -/

@[simp] theorem sample_groups (s : State) (ev src : Nat) (v : Word) : (sample s ev src v).groups = s.groups := by
  unfold sample
  split <;> rfl

@[simp] theorem sampleFree_groups (s : State) (ev src : Nat) : (sampleFree s ev src).groups = s.groups := by
  unfold sampleFree
  split
  · exact sample_groups _ _ _ _
  · rfl

@[simp] theorem sampleHbm_groups (s : State) (e : DWord) (pa : Nat) : (sampleHbm s e pa).groups = s.groups := by
  unfold sampleHbm
  dsimp only
  split
  · split
    · exact sampleFree_groups _ _ _
    · rfl
  · rfl

@[simp] theorem writeRec_groups (s : State) (page : Nat) (r : FRec) : (writeRec s page r).groups = s.groups := by simp [writeRec]

@[simp] theorem frqLook_groups (s : State) (page : Nat) : (frqLook s page).groups = s.groups := sysShare_groups _ _ _

@[simp] theorem postRec_groups (s : State) (page : Nat) (r : FRec) : (postRec s page r).2.groups = s.groups := by
  unfold postRec
  dsimp only
  split <;> simp

@[simp] theorem bumpHeader_groups (s : State) (page off : Nat) : (bumpHeader s page off).groups = s.groups := sysPut_groups _ _ _

@[simp] theorem postHeld_groups (s : State) (page : Nat) : (postHeld s page).groups = s.groups := by
  unfold postHeld
  split
  · rfl
  · split <;> simp

@[simp] theorem postHint_groups (s : State) (page : Nat) (r : FRec) : (postHint s page r).groups = s.groups := by
  have h : ((s.ctx page).heldRecs.foldl (fun s _ => postHeld s page) s).groups = s.groups := groups_foldl (fun t _ => postHeld_groups t page) _ s
  unfold postHint
  dsimp only
  split
  · exact (bumpHeader_groups _ _ _).trans h
  · exact (postRec_groups _ _ _).trans h

@[simp] theorem postWaiting_groups (s : State) (page : Nat) (r : FRec) (fill : Bool) (place op : Option Nat) (line : Option (Nat × Nat × Nat)) :
    (postWaiting s page r fill place op line).2.groups = s.groups := by
  cases fill with
  | true => rfl
  | false => exact postRec_groups s page r

@[simp] theorem doom_groups (s : State) (page : Nat) (r : FRec) : (doom s page r).groups = s.groups := by
  unfold doom
  dsimp only
  split <;> rfl

/-! ### Accesses that the map unit counts, and stash lines that answer them -/

@[simp] theorem noteAcc_groups (s : State) (d : Desc) (va : Nat) (e : DWord) (base units : Nat) (write : Bool) :
    (noteAcc s d va e base units write).groups = s.groups := by
  have hsample : (if write || deadNow s d va e then s else sampleHbm s e (ptePa e + (va - base * 65536))).groups = s.groups := by
    split <;> simp
  unfold noteAcc
  generalize (if write || deadNow s d va e then s else sampleHbm s e (ptePa e + (va - base * 65536))) = t at hsample
  have h := (noteAccess_groups t d va e base units write).trans hsample
  dsimp only
  split
  · exact h
  · split
    · exact h
    · split
      · exact (bumpHeader_groups _ _ _).trans h
      · exact (postHint_groups _ _ _).trans h

theorem tryWriteBack_groups {s t : State} {tid win ln : Nat} (h : tryWriteBack s tid win ln = .done t) : t.groups = s.groups := by
  unfold tryWriteBack at h
  split at h
  · cases h; rfl
  · split at h
    · cases h; rfl
    · split at h
      · cases h; rfl
      · split at h
        · cases h; rfl
        · dsimp only at h
          split at h <;> cases h
          simp

@[simp] theorem writeBack_groups (s : State) (tid win ln : Nat) : (writeBack s tid win ln).2.groups = s.groups := by
  unfold writeBack
  split
  case h_1 t ht => exact tryWriteBack_groups ht
  case h_2 => exact doom_groups _ _ _
  case h_3 => rfl
  case h_4 =>
    dsimp only
    split
    · rfl
    · exact postWaiting_groups _ _ _ _ _ _ _

@[simp] theorem remoteLine_groups (s : State) (write : Bool) (tid win ln : Nat) : (remoteLine s write tid win ln).2.groups = s.groups := by
  unfold remoteLine
  split
  · rfl
  · dsimp only
    split
    · split <;> simp
    · split <;> simp

@[simp] theorem snoop_groups (s : State) (gkey : Nat) (write : Bool) (skip : Option (Nat × Nat × Nat)) :
    (snoop s gkey write skip).2.groups = s.groups :=
  groups_foldl_while (fun t (h : Nat × Nat × Nat) => remoteLine_groups t write h.1 h.2.1 h.2.2) _ (true, s)

@[simp] theorem snoopRange_groups (s : State) (key n : Nat) (write : Bool) : (snoopRange s key n write).2.groups = s.groups := by
  unfold snoopRange
  split
  · rfl
  · exact groups_foldl_while (fun t ln => snoop_groups t (256 * ln) write none) _ (true, s)

@[simp] theorem walkSnoop_groups (s : State) (d : Desc) (va : Nat) (need : Need) : (walkSnoop s d va need).2.groups = s.groups := by
  unfold walkSnoop
  split
  · rfl
  · exact groups_foldl_while (fun t k => snoop_groups t k false none) _ (true, s)

@[simp] theorem reviveSnoop_groups (s : State) (d : Desc) (va : Nat) (e : DWord) (write : Bool) :
    (reviveSnoop s d va e write).2.groups = s.groups := by
  unfold reviveSnoop
  split
  · rfl
  · split
    · exact snoop_groups _ _ _ _
    · rfl

@[simp] theorem toPeer_groups (s : State) (e : DWord) (k n : Nat) (atomic : Bool) (data : Option (List Byte)) :
    (toPeer s e k n atomic data).groups = s.groups := by
  unfold toPeer
  split <;> rfl

/-! ### The access of one lane -/

@[simp] theorem bytesAt_length (s : State) (k n : Nat) : (s.bytesAt k n).length = n := by simp [State.bytesAt]

@[simp] theorem leafBytes_length (s : State) (d : Desc) (va : Nat) (e : DWord) (k n : Nat) : (leafBytes s d va e k n).length = n := by
  unfold leafBytes
  split <;> simp

/-- What a read of `n` bytes answers: as many bytes, of a state with the same groups. -/
def MemR.ReadOf (s : State) (n : Nat) (r : MemR (List Byte)) : Prop := ∀ b u, r = .ok b u → b.length = n ∧ u.groups = s.groups

theorem readOf_accFault (s : State) (n cls cause kind : Nat) (addr : DWord) (first : Bool) :
    (accFault cls cause kind addr first : MemR (List Byte)).ReadOf s n := nofun

theorem readOf_xlFault (s : State) (n cls kind : Nat) (addr : DWord) (x : Xl) : (xlFault cls kind addr x : MemR (List Byte)).ReadOf s n := by
  cases x <;> exact nofun

theorem fillLine_groups {s t : State} {cls tid win ln : Nat} (h : fillLine s cls tid win ln = .ok () t) : t.groups = s.groups := by
  unfold fillLine at h
  split at h
  · cases h; rfl
  · split at h
    · cases h; rfl
    · split at h
      · cases h; rfl
      · dsimp only at h
        split at h
        · cases h
        · next hwalk =>
          have hw := congrArg (fun x : Bool × State => x.2.groups) hwalk
          simp only [walkSnoop_groups] at hw
          split at h
          · split at h
            · cases h
            · split at h
              · cases h
              · split at h
                · cases h
                · next hrange =>
                  have hr := congrArg (fun x : Bool × State => x.2.groups) hrange
                  simp only [snoopRange_groups] at hr
                  cases h
                  simp [← hr, ← hw]
          · next hno =>
            revert h
            unfold xlFault
            split <;> exact nofun

theorem locAccess_readOf (s : State) (cls kind tid off n : Nat) (addr : DWord) : (locAccess s cls kind tid off n addr none).ReadOf s n := by
  unfold locAccess
  dsimp only
  split
  · exact readOf_accFault _ _ _ _ _ _ _
  · split
    · rintro b u h
      cases h
      exact ⟨bytesAt_length _ _ _, rfl⟩
    · split
      · exact nofun
      · exact nofun
      · exact nofun
      · next hfill =>
        rintro b u h
        cases h
        exact ⟨bytesAt_length _ _ _, fillLine_groups hfill⟩

theorem globAccess_readOf (s : State) (page cls kind n : Nat) (addr : DWord) : (globAccess s page cls kind n addr none).ReadOf s n := by
  unfold globAccess
  dsimp only
  split
  · exact nofun
  · next hwalk =>
    have hw := congrArg (fun x : Bool × State => x.2.groups) hwalk
    simp only [walkSnoop_groups] at hw
    split
    · split
      · exact readOf_accFault _ _ _ _ _ _ _
      · split
        · exact nofun
        · next hrevive =>
          have hv := congrArg (fun x : Bool × State => x.2.groups) hrevive
          simp only [reviveSnoop_groups] at hv
          split
          · exact nofun
          · next hrange =>
            have hr := congrArg (fun x : Bool × State => x.2.groups) hrange
            simp only [snoopRange_groups] at hr
            rintro b u h
            cases h
            refine ⟨leafBytes_length _ _ _ _ _ _, ?_⟩
            split <;> simp [← hr, ← hv, ← hw]
    · exact readOf_xlFault _ _ _ _ _ _

theorem genAccess_readOf (s : State) (page tid : Nat) (sup : Bool) (cls kind n : Nat) (addr : DWord) :
    (genAccess s page tid sup cls kind n addr none).ReadOf s n := by
  have hprot := readOf_accFault s n cls cProt kind addr false
  unfold genAccess
  dsimp only
  split
  · split
    · exact globAccess_readOf _ _ _ _ _ _
    · exact hprot
  · exact locAccess_readOf _ _ _ _ _ _ _
  · split
    · exact locAccess_readOf _ _ _ _ _ _ _
    · exact hprot
  · split
    · exact hprot
    · split
      · exact locAccess_readOf _ _ _ _ _ _ _
      · exact hprot
  · exact hprot

theorem lsAccess_readOf (w : Where) (c : Iss) (kind n : Nat) (ea : DWord) (s : State) : (lsAccess w c kind n ea none s).ReadOf s n := by
  cases w with
  | loc => exact locAccess_readOf _ _ _ _ _ _ _
  | gen => exact genAccess_readOf _ _ _ _ _ _ _ _
  | const =>
    unfold lsAccess
    dsimp only
    split
    · exact genAccess_readOf _ _ _ _ _ _ _ _
    · exact readOf_accFault _ _ _ _ _ _ _

end Sys2Proof.Machine
end

section
/-! Loads (R138, R189, R190): each active lane's access answers as many bytes as it asks for, and its registers receive them, extended as SIZE
says. -/
namespace Sys2Proof.Machine

/-! ### A run of reads over lanes -/

/-- A run over lanes `ls` of reads of `n` bytes, from a state: no group has changed, each value has its bytes, and a run without a fault, a wait
or absent memory has a value of every lane. -/
structure LaneRun.Reads (s : State) (n : Nat) (ls : List Nat) (r : LaneRun) : Prop where
  groups : r.s.groups = s.groups
  length : ∀ p ∈ r.got, p.2.length = n
  every : r.faults = [] → r.wait = none → r.absent = false → r.got.map (fun p => p.1) = ls

theorem LaneRun.Reads.add {s : State} {n l : Nat} {ls : List Nat} {r : LaneRun} {acc : State → MemR (List Byte)} (h : r.Reads s n ls)
    (hacc : (acc r.s).ReadOf r.s n) : (r.add l acc).Reads s n (ls ++ [l]) := by
  obtain ⟨hg, hl, hall⟩ := h
  unfold LaneRun.add
  split
  · next hstop =>
    refine ⟨hg, hl, fun _ hw ha => ?_⟩
    simp [hw, ha] at hstop
  · split
    · next b u hok =>
      obtain ⟨hb, hu⟩ := hacc b u hok
      refine ⟨hu.trans hg, fun p hp => ?_, fun hf hw ha => ?_⟩
      · obtain hp | hp := List.mem_append.mp hp
        · exact hl p hp
        · rw [List.mem_singleton.mp hp]
          exact hb
      · simp [hall hf hw ha]
    · exact ⟨hg, hl, fun hf => by simp at hf⟩
    · exact ⟨hg, hl, fun _ hw => by simp at hw⟩
    · exact ⟨hg, hl, fun _ _ ha => by simp at ha⟩

theorem runLanes_reads {s : State} {n : Nat} {acc : Nat → State → MemR (List Byte)} (hacc : ∀ l t, (acc l t).ReadOf t n) (ls : List Nat) :
    (runLanes s ls acc).Reads s n ls := by
  induction ls using List.reverseRecOn with
  | nil => exact ⟨rfl, nofun, fun _ _ _ => rfl⟩
  | append_singleton ls l ih =>
    rw [runLanes, List.foldl_append]
    exact ih.add (hacc l _)

/-! ### The registers that a load writes -/

theorem leVal_lt (bs : List Byte) : leVal bs < 256 ^ bs.length := by
  induction bs with
  | nil => exact Nat.one_pos
  | cons b bs ih =>
    have hb := b.isLt
    rw [leVal, List.length_cons, Nat.pow_succ]
    omega

theorem setWidth_signExtend {n : Nat} (x : BitVec n) : lo32 (sx x) = x.signExtend 32 := by
  apply BitVec.eq_of_getLsbD_eq
  intro i hi
  simp only [lo32, sx, BitVec.getLsbD_setWidth, BitVec.getLsbD_signExtend]
  have h64 : i < 64 := by omega
  simp [hi, h64]

/-- What a register receives of as many bytes as SIZE says is its word of their number, extended (R189). -/
theorem loadWord_eq {size j : Nat} {bs : List Byte} (hs : size ≤ 6) (hl : bs.length = sizeBytes size) (hj : j < sizeRegs size) :
    loadWord size bs j = wordOfSize size (leVal bs) j := by
  have hv := leVal_lt bs
  rw [hl] at hv
  have hzero : ∀ n : Nat, n ≤ 32 → leVal bs < 2 ^ n → BitVec.ofNat 32 (leVal bs / 2 ^ (32 * 0)) = (BitVec.ofNat n (leVal bs)).setWidth 32 :=
    fun n hn hlt => by
      apply BitVec.eq_of_toNat_eq
      simp [Nat.mod_eq_of_lt hlt]
  interval_cases size
  · obtain rfl : j = 0 := Nat.lt_one_iff.mp hj
    exact hzero 8 (by decide) hv
  · exact setWidth_signExtend _
  · obtain rfl : j = 0 := Nat.lt_one_iff.mp hj
    exact hzero 16 (by decide) hv
  · exact setWidth_signExtend _
  · rfl
  · rfl
  · rfl

/-- A group whose v-registers from `dst` have received what lanes have read. -/
def Group.loaded (g : Group) (slot dst size : Nat) (got : List (Nat × List Byte)) : Group :=
  (List.range (sizeRegs size)).foldl (fun g j => g.write slot (.v (dst + j)) (got.map (fun x => (x.1, loadWord size x.2 j))) 0) g

theorem writeLoaded_eq (c : Iss) (dst size : Nat) (s : State) (got : List (Nat × List Byte)) :
    writeLoaded c dst size s got = s.modGroup c.place (fun g => g.loaded c.slot dst size got) := rfl

section
variable {got : List (Nat × List Byte)} (hnd : (got.map (fun x => x.1)).Nodup) (hlt : ∀ x ∈ got, x.1 < 32)
include hnd hlt

theorem takes_loadWord (size j r : Nat) : (RegName.v r).takes (got.map (fun x => (x.1, loadWord size x.2 j))) := by
  refine ⟨by simpa [Function.comp_def] using hnd, fun y hy => ?_⟩
  obtain ⟨x, hx, rfl⟩ := List.mem_map.mp hy
  exact ⟨hlt x hx, nofun⟩

/-- Each lane's registers finally hold what the lane has read (R50). -/
theorem Group.loaded_finalV (g : Group) (slot dst size : Nat) {p : Nat × List Byte} (hp : p ∈ got) {j : Nat} (hj : j < sizeRegs size) :
    (g.loaded slot dst size got).finalV (dst + j) p.1 = loadWord size p.2 j := by
  have hlane : ∀ r, (RegName.v r).hasLane p.1 := fun r => ⟨hlt p hp, nofun⟩
  unfold loaded
  generalize sizeRegs size = k at hj
  induction k with
  | zero => exact absurd hj (Nat.not_lt_zero j)
  | succ k ih =>
    rw [List.range_succ, List.foldl_append, List.foldl_cons, List.foldl_nil, finalV_eq]
    have ht := takes_loadWord hnd hlt size k (dst + k)
    by_cases hk : j = k
    · subst hk
      have hfind : ffind (got.map (fun x => (x.1, loadWord size x.2 j))) p.1 = some (loadWord size p.2 j) :=
        ffind_eq_some_of_mem ht.1 (List.mem_map_of_mem (f := fun x : Nat × List Byte => (x.1, loadWord size x.2 j)) hp)
      rw [final_write_self _ slot 0 ht (hlane _), hfind]
      rfl
    · have hne : RegName.v (dst + j) ≠ .v (dst + k) := fun e => hk (Nat.add_left_cancel (RegName.v.inj e))
      rw [final_write_ne _ slot 0 hne ht (hlt p hp), ← finalV_eq]
      exact ih (by omega)

end

/-! ### Addresses and sizes -/

/-- The model's address of a lane is that of R188 and R190. -/
theorem eaOf_eq (w : Where) (g : Group) (slot : Nat) (b : BitVec 9) (ub : Bool) (off : BitVec 20) (lit : Option (BitVec 60)) :
    eaOf w g slot b ub (memOff off lit) = laneAddr (w == .loc) g slot b ub off lit := by
  funext l
  cases w <;> cases ub <;> cases lit <;> rfl

theorem sizeBytes_eq {n : Nat} (h : n ≤ 6) : sizeBytes n = bytesOfSize n := by interval_cases n <;> rfl

theorem sizeRegs_eq {n : Nat} (h : n ≤ 6) : sizeRegs n = (bytesOfSize n + 3) / 4 := by interval_cases n <;> rfl

theorem shape3_conds {h : Hd} {uni : Bool} {used : BitVec 6} {a b c d : Opd} {lat : Nat} {ok : Bool}
    (hok : (shape3 h uni used a b c d lat ok).ok = true) : ok = true := by
  simp only [shape3, Bool.and_eq_true] at hok
  simp [hok]

/-- A load or a store that no form rule refuses has one of the seven sizes (R189). -/
theorem shapeMem_size {h : Hd} {x : WMem} {five store : Bool} {k : MemKind} (hok : (shapeMem h x five store k).ok = true) : x.size.toNat ≤ 6 := by
  have hc := shape3_conds hok
  simp only [Bool.and_eq_true] at hc
  obtain ⟨⟨⟨⟨-, hsize⟩, -⟩, -⟩, -⟩ := hc
  split at hsize
  · have := of_decide_eq_true hsize
    omega
  · simp only [Bool.and_eq_true, decide_eq_true_eq] at hsize
    exact hsize.1

/-! ### The loads over lanes -/

theorem alignFaults_nil {cls n kind : Nat} {ls : List Nat} {ea : Nat → DWord} (h : ∀ l ∈ ls, (ea l).toNat % n = 0) :
    alignFaults cls n kind ls ea = [] := by
  have hf : ls.filter (fun l => !aligned (ea l).toNat n) = [] := List.filter_eq_nil_iff.mpr (fun l hl => by simp [aligned, h l hl])
  simp [alignFaults, hf]

@[simp] theorem sampleFree_mem (s : State) (ev src : Nat) : (sampleFree s ev src).mem = s.mem := by
  unfold sampleFree sample
  split
  · split <;> rfl
  · rfl

@[simp] theorem sampleFree_settled (s : State) (ev src : Nat) : (sampleFree s ev src).settled = s.settled := by
  unfold sampleFree sample
  split
  · split <;> rfl
  · rfl

section
variable {i : Instr} {s : State} {c : Iss} {h : Hd} {x : WMem} {w : Where} {lit : Option (BitVec 60)}

/-- The accesses of a load's active lanes. -/
noncomputable def loadRun (i : Instr) (s : State) (c : Iss) (h : Hd) (x : WMem) (w : Where) (lit : Option (BitVec 60)) : LaneRun :=
  runLanes (begun i s) (lanes c.act) (fun l => lsAccess w c kRead (bytesOfSize x.size.toNat)
    (laneAddr (w == .loc) ((begun i s).group c.place) c.slot h.b x.ub x.off lit l) none)

/-- A load whose lanes are aligned and whose accesses are made goes on, with what they read in its registers. -/
theorem loadEff_go (hs : x.size.toNat ≤ 6)
    (hal : ∀ l ∈ lanes c.act,
      (laneAddr (w == .loc) ((begun i s).group c.place) c.slot h.b x.ub x.off lit l).toNat % bytesOfSize x.size.toNat = 0)
    (hf : (loadRun i s c h x w lit).faults = []) (hw : (loadRun i s c h x w lit).wait = none) (ha : (loadRun i s c h x w lit).absent = false) :
    loadEff w h x lit c (begun i s) = .go (sampleFree (writeLoaded c h.a.toNat x.size.toNat (loadRun i s c h x w lit).s (loadRun i s c h x w lit).got)
      0x01 ((begun i s).group c.place).core) := by
  unfold loadEff memLanes
  dsimp only
  rw [eaOf_eq, sizeBytes_eq hs, alignFaults_nil hal]
  change (if (loadRun i s c h x w lit).wait.isSome then _ else if (loadRun i s c h x w lit).absent then _
    else if (loadRun i s c h x w lit).faults.isEmpty then _ else _) = _
  rw [hf, hw, ha]
  rfl

/-- LD, LDL, LDC and LDA in both forms. -/
theorem load_reads (hi : IssuedBy i s (loadEff w h x lit)) (hsize : (shapeIn i s).ok = true → x.size.toNat ≤ 6) (hr : Ready i s c)
    (hal : ∀ l ∈ lanes c.act,
      (laneAddr (w == .loc) ((begun i s).group c.place) c.slot h.b x.ub x.off lit l).toNat % bytesOfSize x.size.toNat = 0)
    (hf : (loadRun i s c h x w lit).faults = []) (hw : (loadRun i s c h x w lit).wait = none) (ha : (loadRun i s c h x w lit).absent = false)
    (hset : (loadRun i s c h x w lit).s.settled = true) :
    ∃ s2, Completes i s c s2 ∧ s2.mem = (loadRun i s c h x w lit).s.mem ∧ (loadRun i s c h x w lit).got.map (fun p => p.1) = lanes c.act ∧
      ∀ p ∈ (loadRun i s c h x w lit).got, p.2.length = bytesOfSize x.size.toNat ∧ ∀ j < (bytesOfSize x.size.toNat + 3) / 4,
        (s2.group c.place).finalV (h.a.toNat + j) p.1 = wordOfSize x.size.toNat (leVal p.2) j := by
  have hs := hsize hr.form
  obtain ⟨hgroups, hlen, hevery⟩ : (loadRun i s c h x w lit).Reads (begun i s) (bytesOfSize x.size.toNat) (lanes c.act) :=
    runLanes_reads (fun l t => lsAccess_readOf w c kRead _ _ t) _
  have hgo := loadEff_go hs hal hf hw ha
  have hgot := hevery hf hw ha
  have hnd : ((loadRun i s c h x w lit).got.map (fun p => p.1)).Nodup := hgot ▸ lanes_nodup c.act
  have hlt : ∀ p ∈ (loadRun i s c h x w lit).got, p.1 < 32 := fun p hp =>
    (mem_lanes.mp (hgot ▸ List.mem_map_of_mem (f := fun p : Nat × List Byte => p.1) hp)).1
  have hfind : ffind (loadRun i s c h x w lit).s.groups c.place = some ((begun i s).group c.place) := hgroups ▸ hr.find_begun
  refine ⟨_, completes_of_go hi hr hgo (by simpa [writeLoaded_eq] using hset), by simp [writeLoaded_eq], hgot,
    fun p hp => ⟨hlen p hp, fun j hj => ?_⟩⟩
  rw [← sizeRegs_eq hs] at hj
  have hgroup : (sampleFree (writeLoaded c h.a.toNat x.size.toNat (loadRun i s c h x w lit).s (loadRun i s c h x w lit).got) 0x01
      ((begun i s).group c.place).core).group c.place =
        ((begun i s).group c.place).loaded c.slot h.a.toNat x.size.toNat (loadRun i s c h x w lit).got := by
    rw [State.group, sampleFree_groups, ← State.group, writeLoaded_eq, State.group_modGroup _ hfind, State.group_of_find hfind]
  rw [hgroup, Group.loaded_finalV hnd hlt _ _ _ _ hp hj, loadWord_eq hs ((hlen p hp).trans (sizeBytes_eq hs).symm) hj]

end

/-! ### SLDK -/

section
variable {s : State} {c : Iss} {h : Hd} {x : WSldk}

/-- The effect of SLDK (R138). -/
noncomputable def sldkEff (h : Hd) (x : WSldk) (c : Iss) (s : State) : Eff :=
  let g := s.group c.place
  let n := tyBits x.ty / 8
  let ea := g.rs64 c.slot h.b.toNat + sx x.off
  let flt := fun (f : FaultInfo) => Eff.trap s [{ f with mask := c.act }]
  if !aligned ea.toNat n then flt { FaultInfo.plain (codeOf 0 cAlign) c.act with addr := ea, kind := kRead }
  else match genAccess s g.page g.team c.sup 0 kRead n ea none with
    | .ok bs s => goGroup (sampleFree s 0x01 g.core) c (fun g => g.put c.slot (shSldk h x).dst [(0, BitVec.ofNat 64 (leVal bs))])
    | .fault f => flt f
    | .wait s => .hold s
    | .absentMem => .own { s with absent := true }

theorem sldk_issuedBy : IssuedBy (.sldk h x) s (sldkEff h x) := ⟨_, rfl, rfl⟩

theorem hi32_ofNat (n : Nat) : hi32 (BitVec.ofNat 64 n) = BitVec.ofNat 32 (n / 2 ^ 32) := by
  apply BitVec.eq_of_toNat_eq
  simp only [hi32, BitVec.extractLsb'_toNat, BitVec.toNat_ofNat, Nat.shiftRight_eq_div_pow]
  omega

theorem sldk_reads (hr : Ready (.sldk h x) s c) {bs : List Byte} {u : State}
    (hal : (((begun (.sldk h x) s).group c.place).rs64 c.slot h.b.toNat + sx x.off).toNat % (tyBits x.ty / 8) = 0)
    (hacc : genAccess (begun (.sldk h x) s) ((begun (.sldk h x) s).group c.place).page ((begun (.sldk h x) s).group c.place).team c.sup 0 kRead
      (tyBits x.ty / 8) (((begun (.sldk h x) s).group c.place).rs64 c.slot h.b.toNat + sx x.off) none = .ok bs u) (hset : u.settled = true) :
    ∃ s2, Completes (.sldk h x) s c s2 ∧ (s2.group c.place).finalS h.a.toNat = BitVec.ofNat 32 (leVal bs) ∧
      (tyBits x.ty / 8 = 8 → (s2.group c.place).finalS (h.a.toNat + 1) = BitVec.ofNat 32 (leVal bs / 2 ^ 32)) := by
  obtain ⟨-, hu⟩ := genAccess_readOf _ _ _ _ _ _ _ _ bs u hacc
  have hgo : sldkEff h x c (begun (.sldk h x) s) = goGroup (sampleFree u 0x01 ((begun (.sldk h x) s).group c.place).core) c
      (fun g => g.put c.slot (shSldk h x).dst [(0, BitVec.ofNat 64 (leVal bs))]) := by
    unfold sldkEff
    dsimp only
    rw [hacc, aligned, hal]
    rfl
  have hfind : ffind (sampleFree u 0x01 ((begun (.sldk h x) s).group c.place).core).groups c.place = some ((begun (.sldk h x) s).group c.place) := by
    rw [sampleFree_groups, hu]
    exact hr.find_begun
  have hw : tyRegs x.ty = 1 ∨ tyRegs x.ty = 2 := by cases x.ty <;> simp [tyRegs]
  obtain ⟨hlo, hhi⟩ := Group.finalS_put_dest (a := h.a.toNat) (lat := 0) ((begun (.sldk h x) s).group c.place) c.slot hw (BitVec.ofNat 64 (leVal bs))
  refine ⟨_, completes_of_go sldk_issuedBy hr hgo (by simpa using hset), ?_, fun h8 => ?_⟩
  all_goals rw [State.group_modGroup _ hfind, State.group_of_find hfind]
  · exact hlo.trans (lo32_ofNat _)
  · refine (hhi ?_).trans (hi32_ofNat _)
    revert h8
    cases x.ty <;> simp [tyBits, tyRegs]

end

/-- Settles O30: every load is `loadEff` of its space and offset, and SLDK's access is made on the group as it began. -/
theorem loadsRead : Obligations.LoadsRead := by
  unfold Obligations.LoadsRead
  refine ⟨fun s c h x l => ?_, fun s c h x hr => ?_⟩
  · refine ⟨?_, ?_, ?_, ?_, ?_, ?_, ?_, ?_⟩ <;> exact fun hr => load_reads ⟨_, rfl, rfl⟩ shapeMem_size hr
  · exact fun hal bs u hacc hset => sldk_reads hr hal hacc hset

end Sys2Proof.Machine
end

section
/-! Misaligned accesses (R129, R196): no lane performs any, and the handler gets ALIGN for exactly the misaligned lanes. -/
namespace Sys2Proof.Machine

/-! ### Faults in several lanes -/

/-- Sorting leaves a list whose elements are in order. -/
theorem sortBy_of_pairwise {α : Type} {le : α → α → Bool} {l : List α} (h : l.Pairwise (fun a b => le a b = true)) : sortBy le l = l := by
  induction h with
  | nil => rfl
  | @cons x l hx hl ih =>
    rw [sortBy, ih]
    cases l with
    | nil => rfl
    | cons y l => exact if_pos (hx y List.mem_cons_self)

theorem bit_lanesOf (fs : List FaultInfo) (i : Nat) : bit (lanesOf fs) i = fs.any (fun f => bit f.mask i) := by
  have h : ∀ (l : List FaultInfo) (m : Mask), bit (l.foldl (fun m f => m ||| f.mask) m) i = (bit m i || l.any (fun f => bit f.mask i)) := by
    intro l
    induction l with
    | nil => exact fun m => (Bool.or_false _).symm
    | cons f l ih => exact fun m => by rw [List.foldl_cons, ih, bit_or, List.any_cons, Bool.or_assoc]
  exact (h fs 0).trans (by simp [bit])

/-- Faults of one lane each. -/
theorem lanesOf_map {f : Nat → FaultInfo} (hf : ∀ l, (f l).mask = maskOfList [l]) (ls : List Nat) : lanesOf (ls.map f) = maskOfList ls := by
  refine bit_ext fun i hi => ?_
  have hone : ∀ l, bit (f l).mask i = decide (i = l) := fun l => by simp [hf, maskOfList, hi]
  rw [bit_lanesOf, List.any_map, maskOfList, bit_maskOf, decide_eq_true hi, Bool.true_and, Bool.eq_iff_iff]
  simp [hone]

section
variable {s : State} {c : Iss} {f : FaultInfo} {fs : List FaultInfo}

/-- Faults of one code with the Handler disposition, in lanes of an instruction without effect that together with those they leave undone are all
the guard's: the handler gets the faulting lanes, at the address of the lowest, and nothing is left to replay (R129). -/
theorem raiseUndone_handler (hsup : c.sup = false)
    (hsort : (f :: fs).Pairwise (fun a b => decide (ffs a.mask ≤ ffs b.mask) = true))
    (hcode : ∀ x ∈ f :: fs, x.code = f.code ∧ x.first = f.first)
    (hcov : c.full &&& ~~~(lanesOf (f :: fs) ||| (c.act &&& ~~~lanesOf (f :: fs))) = 0)
    (hd : dispOf ((issueNoted s c).ctx ((issueNoted s c).group c.place).page).d f.code f.first = .handler) (hc : causeOf f.code < 0x800) :
    raiseUndone s c (f :: fs) = enterHandler (issueNoted s c) c.place c.slot { f with mask := lanesOf (f :: fs) } 0 c.pc c.npc false
      (nowAt (issueNoted s c) c.place + 1 + c.st) := by
  unfold raiseUndone raiseFor
  dsimp only
  rw [show s.modGroup c.place _ = issueNoted s c from rfl, sortBy_of_pairwise hsort]
  generalize issueNoted s c = u at *
  have hdisp : ∀ x ∈ f :: fs, dispOf (u.ctx (u.group c.place).page).d x.code x.first = .handler := fun x hx => by
    obtain ⟨h1, h2⟩ := hcode x hx
    rw [h1, h2, hd]
  have hnone : ∀ d : Disp, d ≠ .handler →
      (f :: fs).find? (fun x => (if c.sup = true then Disp.terminate else dispOf (u.ctx (u.group c.place).page).d x.code x.first) == d) = none :=
    fun d hne => List.find?_eq_none.mpr fun x hx => by simp [hsup, hdisp x hx, hne.symm]
  have hall : (f :: fs).filter (fun x => (if c.sup = true then Disp.terminate else dispOf (u.ctx (u.group c.place).page).d x.code x.first) == .handler &&
      x.code == f.code) = f :: fs :=
    List.filter_eq_self.mpr fun x hx => by simpa [hsup, hdisp x hx] using (hcode x hx).1
  have hfirst : (f :: fs).find? (fun x => (if c.sup = true then Disp.terminate else dispOf (u.ctx (u.group c.place).page).d x.code x.first) == .handler) =
      some f := List.find?_cons_of_pos (by simp [hsup, hd])
  have htrap : ¬ 0x800 ≤ causeOf f.code := by omega
  rw [hnone .terminate (by decide), hnone .launch (by decide), hfirst]
  dsimp only
  rw [hall, hcov]
  simp [htrap]

end

section
variable {i : Instr} {s : State} {c : Iss} {body : Iss → State → Eff} {f : FaultInfo} {fs : List FaultInfo}

/-- An instruction that is ready, is no replay, and has no effect but faults of one code in some lanes. -/
theorem undone_inHandler (hi : IssuedBy i s body) (hr : Ready i s c) (hb : body c (begun i s) = .undone (begun i s) (f :: fs))
    (hsup : c.sup = false) (hfull : c.act = c.full) (hsort : (f :: fs).Pairwise (fun a b => decide (ffs a.mask ≤ ffs b.mask) = true))
    (hcode : ∀ x ∈ f :: fs, x.code = f.code ∧ x.first = f.first)
    (hd : dispOf (s.ctx (s.group c.place).page).d f.code f.first = .handler) (hc : causeOf f.code < 0x800) :
    ∃ t, exec i s = .next t ∧ inHandler c s t f.code f.addr (lanesOf (f :: fs)) 0 c.pc false ∧ t.mem = s.mem ∧ t.undef = s.undef := by
  obtain ⟨buf, g, e⟩ := exec_of_ready hi hr
  rw [hb] at e
  obtain ⟨x, hx, hmask, -, hfmt, -⟩ := hr.issuer
  obtain ⟨b, hfrag⟩ := Group.nearOf_frag hr.nearOf hx
  have hctxs : (begun i s).ctxs = s.ctxs := hr.near.only.2.2.2.1
  have hpage : ((begun i s).group c.place).page = (s.group c.place).page := Group.nearOf_page hr.nearOf
  have hdisp : dispOf ((issueNoted (begun i s) c).ctx ((issueNoted (begun i s) c).group c.place).page).d f.code f.first = .handler := by
    rw [issueNoted_ctx hfrag, hpage, State.ctx, hctxs]
    exact hd
  have hcov : c.full &&& ~~~(lanesOf (f :: fs) ||| (c.act &&& ~~~lanesOf (f :: fs))) = 0 := by
    rw [hfull]
    refine bit_ext fun k hk => ?_
    simp only [bit_and, bit_or, bit_not, decide_eq_true hk, Bool.true_and]
    rw [show bit (0 : Mask) k = false from BitVec.getLsbD_zero]
    cases bit c.full k <;> cases bit (lanesOf (f :: fs)) k <;> rfl
  have hraise := raiseUndone_handler hsup hsort hcode hcov hdisp hc
  have hone := raise_handler (s := begun i s) (c := { c with full := lanesOf (f :: fs) }) (f := { f with mask := lanesOf (f :: fs) }) hsup rfl hdisp hc
  obtain ⟨hin, hset⟩ := raise_inHandler (s := s) (s1 := begun i s) (c := { c with full := lanesOf (f :: fs) })
    (f := { f with mask := lanesOf (f :: fs) }) hfrag hctxs hpage hmask hfmt (by simp [State.fragOf, hx]) hsup rfl hd hc g
  have hsame : raise (begun i s) { c with full := lanesOf (f :: fs) } [{ f with mask := lanesOf (f :: fs) }] = raiseUndone (begun i s) c (f :: fs) :=
    hone.trans hraise.symm
  rw [hsame] at hin hset
  refine ⟨_, e.trans (finish_settled (hset.trans ((begun_settled i s).trans hr.1))), hin, ?_⟩
  have hmem : (raiseUndone (begun i s) c (f :: fs)).mem = (begun i s).mem ∧ (raiseUndone (begun i s) c (f :: fs)).undef = (begun i s).undef := by
    rw [hraise]
    simp [enterHandler, issueNoted]
  exact ⟨hmem.1.trans hr.near.only.1, hmem.2.trans hr.near.only.2.1⟩

/-- The opcode of an issue is that of its instruction's words. -/
theorem Ready.op_eq (hr : Ready i s c) {r : Raw} (hraw : rawOf i = some r) : c.op = BitVec.ofNat 8 r.op.toNat := by
  obtain ⟨-, hiss, -⟩ := hr
  have hc : canIssue (shapeIn i s) r.op.toNat r.len r.st.toNat s = some c := by simpa [issueOf, hraw] using hiss
  obtain ⟨g, f, -, -, -, -, -, e, -⟩ := canIssue_some hc
  rw [e]
  rfl

theorem Ready.classOf_eq (hr : Ready i s c) {r : Raw} (hraw : rawOf i = some r) {o : BitVec 8} (hop : r.op = o) {n : Nat} (hcls : classOf o = n) :
    classOf c.op = n := by
  rw [hr.op_eq hraw, BitVec.ofNat_toNat, BitVec.setWidth_eq, hop, hcls]

end

/-! ### ALIGN -/

/-- The fault of one misaligned lane (R196). -/
def alignFault (cls kind : Nat) (ea : Nat → DWord) (l : Nat) : FaultInfo :=
  { code := codeOf cls cAlign, mask := maskOfList [l], addr := ea l, kind := kind, first := false, det := [] }

theorem alignFaults_eq (cls n kind : Nat) (ls : List Nat) (ea : Nat → DWord) :
    alignFaults cls n kind ls ea = (ls.filter (fun l => (ea l).toNat % n != 0)).map (alignFault cls kind ea) := rfl

theorem ffs_lane {l : Nat} (h : l < 32) : ffs (maskOfList [l]) = l := (by decide : ∀ k : Fin 32, ffs (maskOfList [k.val]) = k.val) ⟨l, h⟩

/-- Faults of lanes in ascending order are in the order in which they are raised. -/
theorem alignFaults_pairwise (cls n kind : Nat) (m : Mask) (ea : Nat → DWord) :
    (alignFaults cls n kind (lanes m) ea).Pairwise (fun a b => decide (ffs a.mask ≤ ffs b.mask) = true) := by
  rw [alignFaults_eq, List.pairwise_map]
  have hlt : ((lanes m).filter (fun l => (ea l).toNat % n != 0)).Pairwise (· < ·) := (List.pairwise_lt_range.filter _).filter _
  refine hlt.imp_of_mem fun {a b} ha hb hab => decide_eq_true ?_
  have hin : ∀ l ∈ (lanes m).filter (fun l => (ea l).toNat % n != 0), l < 32 := fun l hl => (mem_lanes.mp (List.mem_filter.mp hl).1).1
  show ffs (maskOfList [a]) ≤ ffs (maskOfList [b])
  rw [ffs_lane (hin a ha), ffs_lane (hin b hb)]
  exact hab.le

/-- An effect over the active lanes: accesses of `n` bytes at some addresses. -/
def OverLanes (c : Iss) (s : State) (n : Nat) (ea : Nat → DWord) (e : Eff) : Prop :=
  ∃ kind acc fin, e = memLanes c s (classOf c.op) n kind ea acc fin

section
variable {i : Instr} {s : State} {c : Iss} {body : Iss → State → Eff} {n : Nat} {ea : Nat → DWord}

/-- What a misaligned active lane comes to, in user mode with ALIGN's handler enabled: the handler runs, and memory is untouched. -/
def TrapsAlign (i : Instr) (s : State) (c : Iss) (n : Nat) (ea : Nat → DWord) : Prop :=
  Ready i s c → c.sup = false → c.act = c.full → handles s c 10 = true →
    let bad := (lanes c.act).filter (fun l => (ea l).toNat % n != 0)
    ∀ l, bad.head? = some l →
      ∃ t, exec i s = .next t ∧ inHandler c s t 0x2012 (ea l) (maskOfList bad) 0 c.pc false ∧ t.mem = s.mem ∧ t.undef = s.undef

theorem misaligned_inHandler (hi : IssuedBy i s body) (hcls : classOf c.op = 2) (hb : OverLanes c (begun i s) n ea (body c (begun i s))) :
    TrapsAlign i s c n ea := by
  intro hr hsup hfull hh bad l hl
  obtain ⟨kind, acc, fin, hbody⟩ := hb
  obtain ⟨ls, hbad⟩ := List.head?_eq_some_iff.mp hl
  have hfaults : alignFaults (classOf c.op) n kind (lanes c.act) ea = alignFault (classOf c.op) kind ea l :: ls.map (alignFault (classOf c.op) kind ea) := by
    rw [alignFaults_eq, show (lanes c.act).filter (fun l => (ea l).toNat % n != 0) = l :: ls from hbad, List.map_cons]
  have hundone : body c (begun i s) = .undone (begun i s) (alignFault (classOf c.op) kind ea l :: ls.map (alignFault (classOf c.op) kind ea)) := by
    rw [hbody, ← hfaults]
    unfold memLanes
    dsimp only
    rw [hfaults]
    rfl
  have hsort := alignFaults_pairwise (classOf c.op) n kind c.act ea
  rw [hfaults] at hsort
  have hcode : (alignFault (classOf c.op) kind ea l).code = 0x2012 := by
    rw [alignFault, hcls]
    rfl
  have hdisp : dispOf (s.ctx (s.group c.place).page).d (alignFault (classOf c.op) kind ea l).code (alignFault (classOf c.op) kind ea l).first =
      .handler := by
    rw [hcode]
    exact if_pos hh
  have hlanes : lanesOf (alignFault (classOf c.op) kind ea l :: ls.map (alignFault (classOf c.op) kind ea)) = maskOfList (l :: ls) :=
    lanesOf_map (f := alignFault (classOf c.op) kind ea) (fun _ => rfl) (l :: ls)
  obtain ⟨t, hx, hin, hmem⟩ := undone_inHandler hi hr hundone hsup hfull hsort (fun x hx => by
    obtain ⟨k, -, rfl⟩ := List.mem_map.mp (show x ∈ (l :: ls).map (alignFault (classOf c.op) kind ea) from hx)
    exact ⟨rfl, rfl⟩) hdisp (by rw [hcode]; decide)
  rw [hlanes, hcode] at hin
  exact ⟨t, hx, (show bad = l :: ls from hbad) ▸ hin, hmem⟩

end

section
variable {s : State} {c : Iss} {h : Hd} {w : Where} {lit : Option (BitVec 60)}

theorem loadEff_overLanes {x : WMem} (hs : x.size.toNat ≤ 6) :
    OverLanes c s (bytesOfSize x.size.toNat) (laneAddr (w == .loc) (s.group c.place) c.slot h.b x.ub x.off lit) (loadEff w h x lit c s) := by
  unfold loadEff
  rw [← eaOf_eq, ← sizeBytes_eq hs]
  exact ⟨_, _, _, rfl⟩

theorem storeEff_overLanes {x : WMem} (hs : x.size.toNat ≤ 6) :
    OverLanes c s (bytesOfSize x.size.toNat) (laneAddr (w == .loc) (s.group c.place) c.slot h.b x.ub x.off lit) (storeEff w h x lit c s) := by
  unfold storeEff
  rw [← eaOf_eq, ← sizeBytes_eq hs]
  exact ⟨_, _, _, rfl⟩

theorem atomEff_overLanes {x : WAtom} {red : Bool} :
    OverLanes c s (tyBits x.ty / 8) (laneAddr (w == .loc) (s.group c.place) c.slot h.b x.ub x.off lit) (atomEff w h x red lit c s) := by
  rw [← eaOf_eq]
  exact ⟨_, _, _, rfl⟩

variable {i : Instr} (hcls : Ready i s c → classOf c.op = 2)
include hcls

theorem load_misaligned {x : WMem} (hi : IssuedBy i s (loadEff w h x lit))
    (hsize : (shapeIn i s).ok = true → x.size.toNat ≤ 6) :
    TrapsAlign i s c (bytesOfSize x.size.toNat) (laneAddr (w == .loc) ((begun i s).group c.place) c.slot h.b x.ub x.off lit) := fun hr =>
  misaligned_inHandler hi (hcls hr) (loadEff_overLanes (hsize hr.form)) hr

theorem store_misaligned {x : WMem} (hi : IssuedBy i s (storeEff w h x lit))
    (hsize : (shapeIn i s).ok = true → x.size.toNat ≤ 6) :
    TrapsAlign i s c (bytesOfSize x.size.toNat) (laneAddr (w == .loc) ((begun i s).group c.place) c.slot h.b x.ub x.off lit) := fun hr =>
  misaligned_inHandler hi (hcls hr) (storeEff_overLanes (hsize hr.form)) hr

theorem atom_misaligned {x : WAtom} {red : Bool} (hi : IssuedBy i s (atomEff w h x red lit)) :
    TrapsAlign i s c (tyBits x.ty / 8) (laneAddr (w == .loc) ((begun i s).group c.place) c.slot h.b x.ub x.off lit) := fun hr =>
  misaligned_inHandler hi (hcls hr) atomEff_overLanes hr

end

/-- Settles O34: the effect of each form accesses the addresses that the statement names, as many bytes at each as SIZE or TYPE says. -/
theorem misalignedTrapsAlign : Obligations.MisalignedTrapsAlign := by
  unfold Obligations.MisalignedTrapsAlign
  intro s c h x y m
  refine ⟨⟨?_, ?_⟩, ⟨?_, ?_⟩, ⟨?_, ?_⟩, ⟨?_, ?_⟩, ⟨?_, ?_⟩, ⟨?_, ?_⟩, ⟨?_, ?_⟩, ⟨?_, ?_⟩, ⟨?_, ?_⟩, ?_, ?_⟩
  case refine_1 => exact load_misaligned (fun hr => hr.classOf_eq rfl rfl (show classOf 0x90 = 2 by decide)) ⟨_, rfl, rfl⟩ shapeMem_size
  case refine_2 => exact load_misaligned (fun hr => hr.classOf_eq rfl rfl (show classOf 0x90 = 2 by decide)) ⟨_, rfl, rfl⟩ shapeMem_size
  case refine_3 => exact store_misaligned (fun hr => hr.classOf_eq rfl rfl (show classOf 0x91 = 2 by decide)) ⟨_, rfl, rfl⟩ shapeMem_size
  case refine_4 => exact store_misaligned (fun hr => hr.classOf_eq rfl rfl (show classOf 0x91 = 2 by decide)) ⟨_, rfl, rfl⟩ shapeMem_size
  case refine_5 => exact load_misaligned (fun hr => hr.classOf_eq rfl rfl (show classOf 0x92 = 2 by decide)) ⟨_, rfl, rfl⟩ shapeMem_size
  case refine_6 => exact load_misaligned (fun hr => hr.classOf_eq rfl rfl (show classOf 0x92 = 2 by decide)) ⟨_, rfl, rfl⟩ shapeMem_size
  case refine_7 => exact store_misaligned (fun hr => hr.classOf_eq rfl rfl (show classOf 0x93 = 2 by decide)) ⟨_, rfl, rfl⟩ shapeMem_size
  case refine_8 => exact store_misaligned (fun hr => hr.classOf_eq rfl rfl (show classOf 0x93 = 2 by decide)) ⟨_, rfl, rfl⟩ shapeMem_size
  case refine_9 => exact load_misaligned (fun hr => hr.classOf_eq rfl rfl (show classOf 0x94 = 2 by decide)) ⟨_, rfl, rfl⟩ shapeMem_size
  case refine_10 => exact load_misaligned (fun hr => hr.classOf_eq rfl rfl (show classOf 0x94 = 2 by decide)) ⟨_, rfl, rfl⟩ shapeMem_size
  case refine_11 => exact load_misaligned (fun hr => hr.classOf_eq rfl rfl (show classOf 0x95 = 2 by decide)) ⟨_, rfl, rfl⟩ shapeMem_size
  case refine_12 => exact load_misaligned (fun hr => hr.classOf_eq rfl rfl (show classOf 0x95 = 2 by decide)) ⟨_, rfl, rfl⟩ shapeMem_size
  case refine_13 => exact store_misaligned (fun hr => hr.classOf_eq rfl rfl (show classOf 0x96 = 2 by decide)) ⟨_, rfl, rfl⟩ shapeMem_size
  case refine_14 => exact store_misaligned (fun hr => hr.classOf_eq rfl rfl (show classOf 0x96 = 2 by decide)) ⟨_, rfl, rfl⟩ shapeMem_size
  case refine_15 => exact atom_misaligned (fun hr => hr.classOf_eq rfl rfl (show classOf 0x97 = 2 by decide)) ⟨_, rfl, rfl⟩
  case refine_16 => exact atom_misaligned (fun hr => hr.classOf_eq rfl rfl (show classOf 0x97 = 2 by decide)) ⟨_, rfl, rfl⟩
  case refine_17 => exact atom_misaligned (fun hr => hr.classOf_eq rfl rfl (show classOf 0x98 = 2 by decide)) ⟨_, rfl, rfl⟩
  case refine_18 => exact atom_misaligned (fun hr => hr.classOf_eq rfl rfl (show classOf 0x98 = 2 by decide)) ⟨_, rfl, rfl⟩
  case refine_19 => exact atom_misaligned (fun hr => hr.classOf_eq rfl rfl (show classOf 0x99 = 2 by decide)) ⟨_, rfl, rfl⟩
  case refine_20 => exact atom_misaligned (fun hr => hr.classOf_eq rfl rfl (show classOf 0x99 = 2 by decide)) ⟨_, rfl, rfl⟩

end Sys2Proof.Machine
end

section
/-! SVRET and YIELD (R123, R131): what a group's control stack on chip answers, the fragment that a handler's return restores, and the exchange
of a fragment with a FRAG entry. -/
namespace Sys2Proof.Machine

/-! ### The group's own fields in the state in which an instruction begins -/

section
variable {g g' : Group} (h : g.nearOf g')
include h

theorem Group.nearOf_chip : g'.chip = g.chip := by
  have e : g'.unbuffered.chip = g.unbuffered.chip := by rw [show g'.unbuffered = _ from h]
  exact e

theorem Group.nearOf_fidx : g'.fidx = g.fidx := by
  have e : g'.unbuffered.fidx = g.unbuffered.fidx := by rw [show g'.unbuffered = _ from h]
  exact e

theorem Group.nearOf_fwd : g'.fwd = g.fwd := by
  have e : g'.unbuffered.fwd = g.unbuffered.fwd := by rw [show g'.unbuffered = _ from h]
  exact e

theorem Group.nearOf_loadable : loadable g' = loadable g := by rw [loadable, loadable, nearOf_fidx h, nearOf_h h]

end

theorem Group.regsOf_fidx {g g' : Group} (h : g.regsOf g') : g'.fidx = g.fidx := by rw [h]

@[simp] theorem Group.setFrag_fidx (g : Group) (n : Nat) (f : Option Frag) : (g.setFrag n f).fidx = g.fidx := by
  unfold setFrag
  split <;> rfl

@[simp] theorem Group.modFrag_fidx (g : Group) (n : Nat) (u : Frag → Frag) : (g.modFrag n u).fidx = g.fidx := setFrag_fidx g n _

@[simp] theorem Group.setFrag_chip (g : Group) (n : Nat) (f : Option Frag) : (g.setFrag n f).chip = g.chip := by
  unfold setFrag
  split <;> rfl

/-! ### A group without a FRAG entry that can be loaded -/

section
variable {s : State} {c : Iss}

theorem takeFrag_of_loadable_none (h : loadable (s.group c.place) = none) : takeFrag s c = .ok (s, none) := by
  rw [takeFrag, findFrag, h]

/-- Nothing fills a free slot. -/
theorem fillSlot_of_loadable_none (h : loadable (s.group c.place) = none) (chl : Word) (slot : Nat) : fillSlot s c chl slot = .ok s := by
  rw [fillSlot, takeFrag_of_loadable_none h]
  split <;> rfl

theorem fillSlots_of_loadable_none (h : loadable (s.group c.place) = none) (chl : Word) : fillSlots s c chl = .ok s := by
  simp only [fillSlots, fillSlot_of_loadable_none h]

end

/-! ### SVRET -/

/-- The effect of SVRET (R131). -/
def svretEff (c : Iss) (s : State) : Eff :=
  let g := s.group c.place
  if (theFrag s c).rsp != g.h.ersp then .trap s [.plain (codeOf 0 cConvergence) c.mask]
  else if !g.fwd.isEmpty then
    .own (s.modGroup c.place (fun g => { g.modFrag c.slot (fun f => { f with last := nowAt s c.place, ready := nowAt s c.place + 1 + c.st }) with
      park := some { tickets := g.fwd, dead := false, slot := c.slot, only := none, op := none, stream := none, svret := true } }))
  else csEff s c.place (svretDo s c (nowAt s c.place))

theorem svret_issuedBy (f : F1) (s : State) : IssuedBy (.svret f) s svretEff := ⟨_, rfl, rfl⟩

/-- The fragment that a handler's return gives back (R131): EPC, and REPLAY's limit. -/
def returned (h : Handler) (x : Frag) : Frag :=
  { x with mask := h.efrag, pc := h.epc, fmt := h.efmt, sup := false, wait := h.wait, waitAt := h.waitAt, buf := none, since := none, stalled := none,
           only := if h.replay then some ((h.emask ||| h.erest) &&& h.efrag) else none }

/-- The issue of a returning SVRET noted in its group and fragment (R48, R50, R104). -/
def Group.noteReturn (g : Group) (slot d last ready : Nat) : Group :=
  (g.travel slot d).modFrag slot (fun f => { f with last := last, ready := max f.ready ready })

theorem Group.frag_noteReturn (g : Group) (slot d last ready : Nat) :
    (g.noteReturn slot d last ready).frag slot = (g.frag slot).map (fun f => { f with last := last, ready := max f.ready ready }) := by
  rw [noteReturn, frag_modFrag, regsOf_frag (travel_regsOf g slot d)]

theorem Group.noteReturn_h (g : Group) (slot d last ready : Nat) : (g.noteReturn slot d last ready).h = g.h := by
  rw [noteReturn, modFrag_h, regsOf_h (travel_regsOf g slot d)]

theorem Group.noteReturn_fidx (g : Group) (slot d last ready : Nat) : (g.noteReturn slot d last ready).fidx = g.fidx := by
  rw [noteReturn, modFrag_fidx, regsOf_fidx (travel_regsOf g slot d)]

section
variable {s : State} {c : Iss} {x : Frag} (hx : (s.group c.place).frag c.slot = some x)
include hx

/-- A group after its handler has returned. -/
theorem leaveHandler_group :
    ((leaveHandler s c.place c.slot).group c.place).frag c.slot = some (returned (s.group c.place).h x) ∧
      ((leaveHandler s c.place c.slot).group c.place).h.slot = none ∧
      ((leaveHandler s c.place c.slot).group c.place).fidx = (s.group c.place).fidx := by
  have hfrag : ∀ (h : Handler) (yw : Option YWait), { s.group c.place with h := h, yw := yw }.frag c.slot = some x := fun h yw => by
    rw [← hx]
    unfold Group.frag
    split <;> rfl
  rw [leaveHandler, State.group_modGroup _ (State.find_of_frag hx)]
  refine ⟨?_, by simp, by simp⟩
  rw [Group.frag_modFrag, hfrag]
  rfl

/-- SVRET with no operation to continue, and none of the group's FRAG entries to load. -/
theorem svretDo_returns (hop : (s.group c.place).h.op = none) (hstream : (s.group c.place).h.stream = none) (hfidx : (s.group c.place).fidx = [])
    (last : Nat) :
    ∃ t n, svretDo s c last = .ok t ∧ t.settled = s.settled ∧ (t.group c.place).h.slot = none ∧
      t.fragOf c = some { returned (s.group c.place).h x with last := last, ready := n } := by
  obtain ⟨hfrag, hslot, hidx⟩ := leaveHandler_group hx
  rw [svretDo]
  simp only [letGo, hop, hstream]
  generalize hu : leaveHandler s c.place c.slot = u at *
  have hset : u.settled = s.settled := by rw [← hu, leaveHandler, State.settled_modGroup]
  have hgroup := State.group_modGroup (fun g => g.noteReturn c.slot (1 + c.st) last (nowAt u c.place + 1 + c.st)) (State.find_of_frag hfrag)
  refine ⟨_, max x.ready (nowAt u c.place + 1 + c.st), fillSlots_of_loadable_none (s := u.modGroup c.place _) ?_ _, ?_, ?_, ?_⟩
  · refine (congrArg loadable hgroup).trans ?_
    rw [loadable, Group.noteReturn_fidx, hidx, hfidx]
    rfl
  · rw [State.settled_modGroup, hset]
  · exact (congrArg (fun g => g.h.slot) hgroup).trans (by rw [Group.noteReturn_h, hslot])
  · exact (congrArg (fun g => g.frag c.slot) hgroup).trans (by rw [Group.frag_noteReturn, hfrag, Option.map_some])

end

/-- Settles O21: the checks pass in the state in which SVRET begins, where the fragment differs in its operand buffer at most, and no slot fills. -/
theorem svretReturns : Obligations.SvretReturns := by
  unfold Obligations.SvretReturns
  intro f1 s c f hr hf g hrsp hfwd hop hstream hfidx
  have hh := Group.nearOf_h hr.nearOf
  obtain ⟨b, hx⟩ := Group.nearOf_frag hr.nearOf hf
  obtain ⟨t, n, hdo, hset, hslot, hfrag⟩ := svretDo_returns hx (by rw [hh, hop]) (by rw [hh, hstream]) ((Group.nearOf_fidx hr.nearOf).trans hfidx)
    (nowAt (begun (.svret f1) s) c.place)
  have heff : svretEff c (begun (.svret f1) s) = .own t := by
    have hmatch : (theFrag (begun (.svret f1) s) c).rsp = ((begun (.svret f1) s).group c.place).h.ersp := by
      rw [theFrag, hx, hh]
      exact hrsp
    rw [svretEff, hdo]
    simp [hmatch, Group.nearOf_fwd hr.nearOf, show (s.group c.place).fwd = [] from hfwd, csEff]
  obtain ⟨u, hexec, hgroups⟩ := exec_of_own (svret_issuedBy f1 s) hr heff (hset.trans ((begun_settled _ s).trans hr.1))
  have hgroup : u.group c.place = t.group c.place := by rw [State.group, State.group, hgroups]
  rw [State.fragOf, ← hgroup, hh] at hfrag
  exact ⟨u, _, hexec, hfrag, rfl, rfl, rfl, rfl, rfl, hgroup ▸ hslot⟩

/-! ### A control stack on chip -/

/-- A state in which every entry of a group's control stack is on chip (R111), with as much of the stack in use as in `s` at most. -/
structure OnChip (s : State) (p : Nat) (t : State) : Prop where
  ctxs : t.ctxs = s.ctxs
  absent : t.absent = s.absent
  resident : ffind t.groups p = some (t.group p)
  chip : (t.group p).chip.length = (t.group p).sp
  sp : (t.group p).sp ≤ (s.group p).sp
  page : (t.group p).page = (s.group p).page

section
variable {s t : State} {p : Nat}

theorem OnChip.refl (hg : ffind s.groups p = some (s.group p)) (h : (s.group p).chip.length = (s.group p).sp) : OnChip s p s :=
  ⟨rfl, rfl, hg, h, le_rfl, rfl⟩

theorem OnChip.modGroup (h : OnChip s p t) {u : Group → Group} (hchip : (u (t.group p)).chip.length = (u (t.group p)).sp)
    (hsp : (u (t.group p)).sp ≤ (t.group p).sp) (hpage : (u (t.group p)).page = (t.group p).page) : OnChip s p (t.modGroup p u) := by
  have hg := State.group_modGroup u h.resident
  refine ⟨?_, ?_, ?_, ?_, ?_, ?_⟩
  · rw [State.modGroup_ctxs, h.ctxs]
  · rw [State.modGroup_absent, h.absent]
  · rw [hg]
    exact State.find_modGroup u h.resident
  · rw [hg, hchip]
  · rw [hg]
    exact hsp.trans h.sp
  · rw [hg, hpage, h.page]

theorem OnChip.chipBase (h : OnChip s p t) : (t.group p).chipBase = 0 := by
  rw [Group.chipBase, h.chip, Nat.sub_self]

theorem OnChip.settled (h : OnChip s p t) (hs : s.settled = true) : t.settled = true := (State.settled_congr h.ctxs h.absent).trans hs

theorem OnChip.csGet (h : OnChip s p t) {i : Nat} {e : Entry} (he : (t.group p).chip[i]? = some e) (m : Mask) :
    csGet t p i m = .ok (e, t) := by
  simp [Machine.csGet, h.chipBase, he]

/-- Nothing is left in memory to be read back. -/
theorem OnChip.csRefill (h : OnChip s p t) (m : Mask) (n : Nat) : csRefill p m n t = .ok t := by
  cases n with
  | zero => rfl
  | succ n => simp [Machine.csRefill, h.chipBase]

/-- SP falls past dead entries, and what is left is on chip. -/
theorem OnChip.csSettle (h : OnChip s p t) (m : Mask) (n : Nat) : ∃ u, csSettle p m n t = .ok u ∧ OnChip s p u := by
  induction n generalizing t with
  | zero => exact ⟨t, rfl, h⟩
  | succ n ih =>
    simp only [Machine.csSettle, h.csRefill]
    split
    case h_2 => exact ⟨t, rfl, h⟩
    case h_1 e he =>
      cases e.live
      case true => exact ⟨t, rfl, h⟩
      case false => exact ih (h.modGroup (by simp [h.chip]) (Nat.sub_le _ _) rfl)

theorem OnChip.csFree (h : OnChip s p t) {i : Nat} {e : Entry} (he : (t.group p).chip[i]? = some e) (m : Mask) :
    ∃ u, csFree t p i m = .ok u ∧ OnChip s p u := by
  have hi : i < (t.group p).sp := h.chip ▸ (List.getElem?_eq_some_iff.mp he).1
  have hput : csPut t p i { e with live := false } m =
      .ok (t.modGroup p (fun g => { g with chip := g.chip.set (i - g.chipBase) { e with live := false } })) := by
    simp [csPut, h.chipBase, hi]
  simp only [Machine.csFree, h.csGet he, hput]
  have hdead : OnChip s p (t.modGroup p (fun g => { g with chip := g.chip.set (i - g.chipBase) { e with live := false } })) :=
    h.modGroup (by simp [h.chip]) le_rfl rfl
  exact (hdead.modGroup hdead.chip le_rfl rfl).csSettle m _

end

/-- A group with another entry on top of its control stack (R110). -/
def Group.pushed (g : Group) (e : Entry) : Group :=
  { g with chip := g.chip ++ [e], sp := g.sp + 1, fidx := if e.kind == .frag then (g.sp, e.sup) :: g.fidx else g.fidx }

/-- With less than six entries on chip, none goes to memory first. -/
theorem csPush_of_room {s : State} {p : Nat} (h : (s.group p).chip.length < 6) (e : Entry) (m : Mask) :
    csPush s p e m = .ok ((s.group p).sp, s.modGroup p (fun g => g.pushed e)) := by
  rw [csPush, if_pos h]
  rfl

/-! ### YIELD -/

section
variable {s : State} {c : Iss}

theorem pushRoom_iff (k : Nat) : pushRoom s c k = true ↔ (s.group c.place).sp + k ≤ (s.ctx (s.group c.place).page).d.csentries := decide_eq_true_iff

/-- Without a FRAG entry that can be loaded, YIELD only issues (R123). -/
theorem yieldEff_of_loadable_none (h : loadable (s.group c.place) = none) : yieldEff c s = .go s := by
  simp only [yieldEff, yieldSwap, takeFrag_of_loadable_none h]

/-- A FRAG entry that YIELD of `c` takes: the one that the group names, live, and in a handler of supervisor mode (R117). -/
structure Yieldable (s : State) (c : Iss) (n : Nat) (e : Entry) : Prop where
  named : loadable (s.group c.place) = some n
  here : (s.group c.place).chip[n]? = some e
  kind : e.kind = .frag
  live : e.live = true
  mode : (s.group c.place).h.slot = none ∨ e.sup = true

theorem Yieldable.takeFrag {n : Nat} {e : Entry} (h : Yieldable s c n e) (hs : OnChip s c.place s) : takeFrag s c = .ok (s, some (n, e)) := by
  have hmode : ((s.group c.place).h.slot.isNone || e.sup) = true := by simpa using h.mode
  simp only [Machine.takeFrag, findFrag, h.named, hs.csGet h.here, h.kind, h.live, hmode]
  rfl

/-- The group after an exchange: the fragment in the slot, and the new entry on top. -/
theorem exchanged_group (hg : ffind s.groups c.place = some (s.group c.place)) (k : Entry) (j slot : Nat) (x : Option Frag) :
    let u := setSlot (oweEntry (s.modGroup c.place (fun g => g.pushed k)) c j) c slot x
    (u.group c.place).frag slot = x ∧ (u.group c.place).chip.getLast? = some k := by
  have h1 := State.find_modGroup (fun g => g.pushed k) hg
  have h2 := State.find_modGroup (fun g => { g with owed := fput g.owed j (nowAt (s.modGroup c.place (fun g => g.pushed k)) c.place + 1 + c.st) }) h1
  have h3 : (setSlot (oweEntry (s.modGroup c.place (fun g => g.pushed k)) c j) c slot x).group c.place = _ :=
    State.group_of_find (State.find_modGroup (fun g => g.setFrag slot x) h2)
  dsimp only
  rw [h3]
  exact ⟨Group.frag_setFrag _ _ _, by simp [Group.pushed]⟩

/-- The exchange of the issuing fragment with the one of FRAG entry `e` (R123). -/
theorem Yieldable.yieldEff {n : Nat} {e : Entry} (h : Yieldable s c n e) (hs : OnChip s c.place s) (hlen : (s.group c.place).chip.length < 6)
    (hroom : pushRoom s c 1 = true) :
    ∃ u a, yieldEff c s = .own u ∧ u.settled = s.settled ∧ u.fragOf c = some a ∧ a.mask = e.mask ∧ a.pc = e.pc ∧ a.fmt = e.fmt ∧ a.rsp = e.link ∧
      (u.group c.place).chip.getLast? = some (newEntry c (theFrag s c) .frag c.npc c.mask 0 0) := by
  obtain ⟨v, hfree, hv⟩ := hs.csFree h.here c.mask
  have hvlen : (v.group c.place).chip.length < 6 := by
    have hsp := hv.sp
    rw [← hv.chip, ← hs.chip] at hsp
    omega
  have hvroom : pushRoom v c 1 = true := by
    rw [pushRoom_iff] at hroom ⊢
    rw [hv.page, State.ctx, hv.ctxs]
    exact (Nat.add_le_add_right hv.sp 1).trans hroom
  have hpush := csPush_of_room hvlen (newEntry c (theFrag s c) .frag c.npc c.mask 0 0) c.mask
  simp only [Machine.yieldEff, yieldSwap, h.takeFrag hs, hfree, hvroom, hpush]
  generalize newEntry c (theFrag s c) .frag c.npc c.mask 0 0 = k
  let x := entryFrag (v.modGroup c.place (fun g => g.pushed k)) c (theFrag s c).chl e.mask e
  obtain ⟨hfrag, hlast⟩ := exchanged_group hv.resident k (v.group c.place).sp c.slot (some { x with ready := max x.ready (fget (s.group c.place).owed n 0) })
  refine ⟨_, _, rfl, ?_, hfrag, rfl, rfl, rfl, rfl, hlast⟩
  rw [setSlot, State.settled_modGroup, oweEntry, State.settled_modGroup, State.settled_modGroup, State.settled_congr hv.ctxs hv.absent]

end

/-- Taking older AGATHs' lanes keeps an effect that goes on near its state (R280). -/
theorem takes_go_near (s : State) (old p slot q : Nat) (sh : Shape) (m : Mask) : ∃ s2, (Eff.go s).takes old p slot sh m = .go s2 ∧ Near s q s2 := by
  refine ⟨_, rfl, ?_⟩
  split
  · exact Near.refl s q
  · exact Near.supersede s _ _ q _ _

section
variable {i : Instr} {s : State} {c : Iss} (hi : IssuedBy i s yieldEff) (hr : Ready i s c)
include hi hr

/-- YIELD that only issues. -/
theorem yield_goes (h : loadable (s.group c.place) = none) : ∃ t, exec i s = .next t ∧ wentTo c c.npc s t ∧ onlyGroups s t := by
  obtain ⟨f, hf, hmask, hsup, -⟩ := hr.issuer
  obtain ⟨buf, g, e⟩ := exec_of_ready hi hr
  rw [yieldEff_of_loadable_none ((Group.nearOf_loadable hr.nearOf).trans h)] at e
  obtain ⟨s2, htakes, htaken⟩ := takes_go_near (begun i s) s.serial c.place c.slot c.place (shapeIn i s) c.act
  rw [htakes] at e
  obtain ⟨t, ht, hwent, honly, -⟩ := near_completes (buf := buf) (x := g) hr.1 (State.find_of_frag hf) hf hmask hsup (hr.near.trans htaken)
  exact ⟨t, e.trans ht, hwent, honly⟩

/-- YIELD that exchanges. -/
theorem yield_exchanges {n : Nat} {e : Entry} (h : Yieldable s c n e) (hchip : (s.group c.place).chip.length = (s.group c.place).sp)
    (hlen : (s.group c.place).chip.length < 6) (hroom : (s.group c.place).sp + 1 ≤ (s.ctx (s.group c.place).page).d.csentries) :
    ∃ t a, exec i s = .next t ∧ t.fragOf c = some a ∧ a.mask = e.mask ∧ a.pc = e.pc ∧ a.fmt = e.fmt ∧ a.rsp = e.link ∧
      ∃ k, (t.group c.place).chip.getLast? = some k ∧ k.kind = .frag ∧ k.pc = c.npc ∧ k.mask = c.mask := by
  have hnear := hr.nearOf
  have hctxs : (begun i s).ctxs = s.ctxs := hr.near.only.2.2.2.1
  have hbegun : Yieldable (begun i s) c n e :=
    ⟨(Group.nearOf_loadable hnear).trans h.named, by rw [Group.nearOf_chip hnear, h.here], h.kind, h.live, by rw [Group.nearOf_h hnear]; exact h.mode⟩
  have hon : OnChip (begun i s) c.place (begun i s) := OnChip.refl hr.find_begun (by rw [Group.nearOf_chip hnear, Group.nearOf_sp hnear, hchip])
  obtain ⟨u, a, hown, hset, hfrag, hmask, hpc, hfmt, hrsp, hlast⟩ := hbegun.yieldEff hon (by rwa [Group.nearOf_chip hnear])
    ((pushRoom_iff 1).mpr (by rwa [Group.nearOf_sp hnear, Group.nearOf_page hnear, State.ctx, hctxs]))
  obtain ⟨t, hexec, hgroups⟩ := exec_of_own hi hr hown (hset.trans ((begun_settled i s).trans hr.1))
  have hgroup : t.group c.place = u.group c.place := by rw [State.group, State.group, hgroups]
  exact ⟨t, a, hexec, by rw [State.fragOf, hgroup]; exact hfrag, hmask, hpc, hfmt, hrsp, _, hgroup ▸ hlast, rfl, rfl, rfl⟩

end

/-- Settles O19: both forms have the one effect, which takes the entry that the group names and pushes the issuing fragment. -/
theorem yieldExchanges : Obligations.YieldExchanges := by
  unfold Obligations.YieldExchanges
  intro s c
  refine ⟨fun h hr => ⟨yield_goes ⟨_, rfl, rfl⟩ hr, ?_⟩, fun f1 hr => ⟨yield_goes ⟨_, rfl, rfl⟩ hr, ?_⟩⟩
  all_goals
    intro n e hnamed hchip hhere hkind hlive hmode hlen hroom
    exact yield_exchanges ⟨_, rfl, rfl⟩ hr ⟨hnamed, hhere, hkind, hlive, hmode⟩ hchip hlen hroom

end Sys2Proof.Machine
end

section
/-! Bytes of memory under the operations of an access: a range that becomes undefined, the dirty bytes of a stash line merged, and what the
map unit counts of an access, which with the hot-page tracker off leaves every byte as it was. -/
namespace Sys2Proof.Machine

/-! ### Bytes -/

theorem byteAt_of_mem {s t : State} (hm : t.mem = s.mem) (hu : t.undef = s.undef) (j : Nat) : t.byteAt j = s.byteAt j := by
  unfold State.byteAt undefAt
  rw [hm, hu]

/-- Bytes outside a range that becomes undefined read as before. -/
theorem byteAt_undefRange_ne (s : State) {lo hi j : Nat} (hr : lo ≤ hi) (hj : j < lo ∨ hi ≤ j) : (s.undefRange lo hi).byteAt j = s.byteAt j := by
  refine byteAt_congr ?_ ?_
  · have hout : ¬ (lo ≤ j ∧ j < hi) := by omega
    have hhead : (s.undefRange lo hi).undef = { lo := lo, hi := hi, seed := s.fresh } :: punch s.undef lo hi := rfl
    unfold undefAt
    rw [hhead, List.find?_cons_of_neg (by simpa using hout)]
    exact find_punch_ne s.undef hr hj
  · show (ffind (s.mem.filter _) j).getD 0 = (ffind s.mem j).getD 0
    rw [ffind_filter_of]
    rintro x rfl
    simpa using hj

/-- Local memory is no device memory out of service. -/
theorem gone_localKey (s : State) (core off : Nat) : s.gone (localKey core off) = false := by
  have h : ¬ localKey core off < 2 ^ 52 := by
    unfold localKey
    omega
  rw [State.gone, decide_eq_false h, Bool.and_false]

theorem absent_setBytes_localKey (s : State) (core off : Nat) (l : List Byte) : (s.setBytes (localKey core off) l).absent = s.absent := by
  induction l generalizing s off with
  | nil => rfl
  | cons b l ih =>
    rw [State.setBytes, show localKey core off + 1 = localKey core (off + 1) from rfl, ih]
    simp [State.setByte, gone_localKey]

theorem absent_undefRange_localKey (s : State) (core off hi : Nat) : (s.undefRange (localKey core off) hi).absent = s.absent := by
  simp [State.undefRange, State.zeroRange, gone_localKey]

/-! ### Dirty bytes -/

section
variable {s : State} {lkey gkey : Nat} {dirty : BitVec 256}

/-- The dirty bytes below a place, merged one after another into a line that does not reach their own copy. -/
theorem byteAt_mergeFold (hk : gkey + 256 ≤ lkey) {n : Nat} (hn : n ≤ 256) (j : Nat) :
    ((List.range n).foldl (fun s i => if bit dirty i then s.setByte (gkey + i) (s.byteAt (lkey + i)) else s) s).byteAt j =
      if gkey ≤ j ∧ j < gkey + n ∧ bit dirty (j - gkey) = true then s.byteAt (lkey + (j - gkey)) else s.byteAt j := by
  induction n generalizing j with
  | zero => rw [if_neg (by omega)]; rfl
  | succ n ih =>
    have ih := ih (by omega)
    rw [List.range_succ, List.foldl_append, List.foldl_cons, List.foldl_nil]
    by_cases hj : j = gkey + n
    · subst hj
      have hsub : gkey + n - gkey = n := Nat.add_sub_cancel_left gkey n
      by_cases hbit : bit dirty n = true
      · rw [if_pos hbit, byteAt_setByte_self, ih, if_neg (by omega), hsub, if_pos ⟨by omega, by omega, hbit⟩]
      · rw [if_neg hbit, ih, if_neg (by omega), hsub, if_neg (fun h => hbit h.2.2)]
    · have hsame : (gkey ≤ j ∧ j < gkey + (n + 1) ∧ bit dirty (j - gkey) = true) ↔ (gkey ≤ j ∧ j < gkey + n ∧ bit dirty (j - gkey) = true) := by
        constructor <;> exact fun ⟨h1, h2, h3⟩ => ⟨h1, by omega, h3⟩
      simp only [hsame]
      split
      · rw [byteAt_setByte_ne _ _ hj, ih]
      · exact ih j

/-- A dirty byte of the local copy goes to its place in the global line (R181). -/
theorem byteAt_mergeDirty (hk : gkey + 256 ≤ lkey) {i : Nat} (hi : i < 256) :
    (mergeDirty s lkey gkey dirty).byteAt (gkey + i) = if bit dirty i then s.byteAt (lkey + i) else s.byteAt (gkey + i) := by
  refine (byteAt_mergeFold hk le_rfl _).trans ?_
  simp [hi]

theorem byteAt_mergeDirty_ne (hk : gkey + 256 ≤ lkey) {j : Nat} (hj : j < gkey ∨ gkey + 256 ≤ j) :
    (mergeDirty s lkey gkey dirty).byteAt j = s.byteAt j := (byteAt_mergeFold hk le_rfl j).trans (if_neg (by omega))

end

/-! ### What the map unit counts -/

/-- Memory, the teams and what the package has sent are as before. -/
structure State.SameStore (s t : State) : Prop where
  mem : t.mem = s.mem
  undef : t.undef = s.undef
  teams : t.teams = s.teams
  out : t.out = s.out

theorem State.SameStore.trans {s t u : State} (h : s.SameStore t) (k : t.SameStore u) : s.SameStore u :=
  ⟨k.mem.trans h.mem, k.undef.trans h.undef, k.teams.trans h.teams, k.out.trans h.out⟩

theorem sameStore_sampleFree (s : State) (ev src : Nat) : s.SameStore (sampleFree s ev src) := by
  unfold sampleFree sample
  split
  · split <;> exact ⟨rfl, rfl, rfl, rfl⟩
  · exact ⟨rfl, rfl, rfl, rfl⟩

theorem sameStore_sampleHbm (s : State) (e : DWord) (pa : Nat) : s.SameStore (sampleHbm s e pa) := by
  unfold sampleHbm
  dsimp only
  split
  · split
    · exact State.SameStore.trans (t := { s with fresh := s.fresh + 1 }) ⟨rfl, rfl, rfl, rfl⟩ (sameStore_sampleFree _ _ _)
    · exact ⟨rfl, rfl, rfl, rfl⟩
  · exact ⟨rfl, rfl, rfl, rfl⟩

/-- With the hot-page tracker off an access is counted without a record, and only a write to a DEAD page changes memory (R223, R226). -/
theorem sameStore_noteAcc {d : Desc} {e : DWord} {write : Bool} (s : State) (va base units : Nat) (hhot : d.hoten = false)
    (hdead : write = true → bit e pteDead = false) : s.SameStore (noteAcc s d va e base units write) := by
  have hsample : s.SameStore (if write || deadNow s d va e then s else sampleHbm s e (ptePa e + (va - base * 65536))) := by
    split
    · exact ⟨rfl, rfl, rfl, rfl⟩
    · exact sameStore_sampleHbm _ _ _
  unfold noteAcc
  generalize (if write || deadNow s d va e then s else sampleHbm s e (ptePa e + (va - base * 65536))) = t at hsample
  have hkeep : t.SameStore (t.keepTlb d.asid (leafNow t d va e) base units) := ⟨by simp, by simp, by simp, by simp⟩
  have hmove : ∀ u : State, u.SameStore (if write && pteLoc e != 1 then noteMove u d.asid base va else u) := fun u => by
    split <;> exact ⟨rfl, rfl, rfl, rfl⟩
  have hrevive : ∀ u : State, (if write then reviveDead u d va e base units else u) = u := fun u => by
    split
    · next hw => simp [reviveDead, hdead hw]
    · rfl
  have hcount : (noteAccess t d va e base units write).2 = false ∧ t.SameStore (noteAccess t d va e base units write).1 := by
    unfold noteAccess
    dsimp only
    rw [hrevive, hhot]
    exact ⟨rfl, hkeep.trans (hmove _)⟩
  dsimp only
  rw [hcount.1]
  exact hsample.trans hcount.2

end Sys2Proof.Machine
end

section
/-! One lane's access to local memory, to generic addresses and to translated memory (R172 to R175, R212): its bytes, or its fault. -/
namespace Sys2Proof.Machine

/-! ### Ranges of bytes -/

/-- In `u` the `n` bytes from a key are those of a list, and every other byte reads as in `s`. -/
def State.Replaced (s : State) (k n : Nat) (l : List Byte) (u : State) : Prop :=
  (∀ i, i < n → u.byteAt (k + i) = l.getD i 0) ∧ ∀ j, j < k ∨ k + n ≤ j → u.byteAt j = s.byteAt j

theorem replaced_setBytes (s : State) (k : Nat) {n : Nat} {l : List Byte} (hl : l.length = n) : s.Replaced k n l (s.setBytes k l) := by
  subst hl
  exact ⟨fun i hi => by rw [byteAt_setBytes _ _ _ hi, List.getD_eq_getElem], fun j hj => byteAt_setBytes_ne _ _ _ hj⟩

theorem State.Replaced.of_mem {s t u : State} {k n : Nat} {l : List Byte} (h : t.Replaced k n l u) (hm : t.mem = s.mem) (hu : t.undef = s.undef) :
    s.Replaced k n l u := ⟨h.1, fun j hj => (h.2 j hj).trans (byteAt_of_mem hm hu j)⟩

/-! ### Local memory -/

theorem byteAt_spoilQueues_ne (s : State) (tid off n : Nat) {j : Nat}
    (hj : j < localKey (s.team tid).core ((s.team tid).base + off) ∨ localKey (s.team tid).core ((s.team tid).base + off) + n ≤ j) :
    (spoilQueues s tid off n).byteAt j = s.byteAt j := by
  unfold spoilQueues
  dsimp only
  split
  · rfl
  · rw [byteAt_undefRange_ne _ (Nat.le_add_right _ _) hj]
    exact byteAt_of_mem rfl rfl j

/-- A write that touches no queue area of a live stream leaves every stream as it was. -/
theorem spoilQueues_untouched {s : State} {tid off n : Nat} (h : ∀ x ∈ (s.team tid).streams, x.2.touched off n = []) :
    spoilQueues s tid off n = s := by
  have hall : (s.team tid).streams.all (fun x => (x.2.touched off n).isEmpty) = true := List.all_eq_true.mpr fun x hx => by simp [h x hx]
  exact if_pos hall

/-- A team's memory after an access to `n` bytes at a team offset that no window holds. -/
def localAfter (s : State) (tid off n : Nat) : Option (List Byte → List Byte) → State
  | none => s
  | some f =>
    let k := localKey (s.team tid).core ((s.team tid).base + off)
    spoilQueues (s.setBytes k (f (s.bytesAt k n))) tid off n

section
variable {s : State} {cls kind tid off n : Nat} {addr : DWord} {f : Option (List Byte → List Byte)}

theorem locAccess_outside (hsize : off + n ≤ (s.team tid).size) (hwin : windowAt (s.team tid) off = none) :
    locAccess s cls kind tid off n addr f = .ok (s.bytesAt (localKey (s.team tid).core ((s.team tid).base + off)) n) (localAfter s tid off n f) := by
  unfold locAccess
  dsimp only
  rw [if_neg (by omega), hwin]
  cases f <;> rfl

theorem locAccess_beyond (hsize : (s.team tid).size < off + n) : locAccess s cls kind tid off n addr f = accFault cls cProt kind addr false :=
  if_pos hsize

/-- With no queue area of a live stream in the way (R282), a write outside every window replaces its range. -/
theorem localAfter_replaces {g : List Byte → List Byte} {k : Nat} (hk : k = localKey (s.team tid).core ((s.team tid).base + off))
    (hlen : (g (s.bytesAt k n)).length = n) (huntouched : ∀ x ∈ (s.team tid).streams, x.2.touched off n = []) :
    s.Replaced k n (g (s.bytesAt k n)) (localAfter s tid off n (some g)) := by
  have hteam : (s.setBytes k (g (s.bytesAt k n))).team tid = s.team tid := by simp [State.team]
  have hafter : localAfter s tid off n (some g) = s.setBytes k (g (s.bytesAt k n)) := by
    subst hk
    exact spoilQueues_untouched (by rw [hteam]; exact huntouched)
  rw [hafter]
  exact replaced_setBytes s k hlen

end

/-! ### Regions -/

section
variable {a : DWord}

theorem regionOf_translated (h : a.toNat < 0x00F0000000000000) : regionOf a = .translated := if_pos h

theorem regionOf_aperture (h : 0x00F0000000000000 ≤ a.toNat) (h' : a.toNat < 0x00F0000010000000) : ∃ core off, regionOf a = .aperture core off :=
  ⟨_, _, (if_neg (by omega)).trans (if_pos h')⟩

theorem regionOf_reserved (h : 0x00F0000010000000 ≤ a.toNat) (h' : a.toNat < 0x00F8000000000000) : regionOf a = .reserved :=
  (if_neg (by omega)).trans ((if_neg (by omega)).trans (if_pos h'))

theorem regionOf_self (h : 0x00F8000000000000 ≤ a.toNat) (h' : a.toNat < 0x00F8000000200000) :
    regionOf a = .self (a.toNat - 0x00F8000000000000) :=
  (if_neg (by omega)).trans ((if_neg (by omega)).trans ((if_neg (by omega)).trans (if_pos h')))

theorem regionOf_cluster (h : 0x00F8000000200000 ≤ a.toNat) (h' : a.toNat < 0x00F8000001A00000) : ∃ pos off, regionOf a = .cluster pos off :=
  ⟨_, _, (if_neg (by omega)).trans ((if_neg (by omega)).trans ((if_neg (by omega)).trans ((if_neg (by omega)).trans (if_pos h'))))⟩

theorem regionOf_beyond (h : 0x00F8000001A00000 ≤ a.toNat) : regionOf a = .reserved :=
  (if_neg (by omega)).trans ((if_neg (by omega)).trans ((if_neg (by omega)).trans ((if_neg (by omega)).trans (if_neg (by omega)))))

theorem regionOf_ne_translated (h : 0x00F0000000000000 ≤ a.toNat) : regionOf a ≠ .translated := by
  have h0 : ¬ a.toNat < 0x00F0000000000000 := by omega
  unfold regionOf
  dsimp only
  rw [if_neg h0]
  repeat' split
  all_goals exact nofun

end

section
variable {s : State} {page tid cls kind n : Nat} {sup : Bool} {a : DWord} {f : Option (List Byte → List Byte)}

theorem genAccess_reserved (h : regionOf a = .reserved) : genAccess s page tid sup cls kind n a f = accFault cls cProt kind a false := by
  rw [genAccess, h]

theorem genAccess_self {off : Nat} (h : regionOf a = .self off) : genAccess s page tid sup cls kind n a f = locAccess s cls kind tid off n a f := by
  rw [genAccess, h]

theorem genAccess_aperture_user (h : ∃ core off, regionOf a = .aperture core off) (hsup : sup = false) :
    genAccess s page tid sup cls kind n a f = accFault cls cProt kind a false := by
  obtain ⟨core, off, h⟩ := h
  rw [genAccess, h, hsup]
  rfl

theorem genAccess_cluster_none (h : ∃ pos off, regionOf a = .cluster pos off) (hclu : (s.team tid).clu = none) :
    genAccess s page tid sup cls kind n a f = accFault cls cProt kind a false := by
  obtain ⟨pos, off, h⟩ := h
  have hteam : clusterTeam s tid pos = none := if_pos (by rw [hclu]; rfl)
  rw [genAccess, h]
  dsimp only
  rw [hteam]

theorem genAccess_translated (h : regionOf a = .translated) (hin : a.toNat + n ≤ 0x00F0000000000000) :
    genAccess s page tid sup cls kind n a f = globAccess s page cls kind n a f := by
  rw [genAccess, h]
  exact if_pos (decide_eq_true hin)

end

/-! ### Translated memory -/

theorem anyWindow_of_forall {s : State} (h : ∀ t ∈ s.teams, t.2.windows = []) : anyWindow s = false :=
  List.any_eq_false.mpr fun t ht => by simp [h t ht]

theorem snoopRange_of_no_window {s : State} (h : anyWindow s = false) (k n : Nat) (write : Bool) : snoopRange s k n write = (true, s) :=
  if_pos (by simp [h])

section
variable {s : State} {page cls kind n k base units : Nat} {a e : DWord}

theorem globAccess_fault {f : Option (List Byte → List Byte)} {x : Xl}
    (hwalk : walkSnoop s (s.ctx page).d a.toNat (if f.isSome then .w else .r) = (true, s))
    (hx : translate s (s.ctx page).d a.toNat (if f.isSome then .w else .r) = x) (hno : ∀ k e base units, x ≠ .ok k e base units) :
    globAccess s page cls kind n a f = xlFault cls kind a x := by
  unfold globAccess
  dsimp only
  rw [hwalk]
  dsimp only
  rw [hx]
  cases x with
  | ok k e base units => exact absurd rfl (hno k e base units)
  | absentPage first => rfl
  | prot => rfl
  | malformed => rfl
  | absentMem => rfl

section
variable (hwalk : walkSnoop s (s.ctx page).d a.toNat .r = (true, s)) (hx : translate s (s.ctx page).d a.toNat .r = .ok k e base units)
include hwalk hx

/-- A read that meets an uncorrectable error (R422). -/
theorem globAccess_read_bad (hlive : deadNow s (s.ctx page).d a.toNat e = false) (hbad : s.badAt k n = true) :
    globAccess s page cls kind n a none = accFault cls cEngine kind a false := by
  simp [globAccess, hwalk, hx, hlive, hbad]

/-- A read of a DEAD page does not reach the frame; another one that meets no error does (R223, R422). -/
theorem globAccess_read (hgood : deadNow s (s.ctx page).d a.toNat e = true ∨ s.badAt k n = false) (hwin : anyWindow s = false) :
    globAccess s page cls kind n a none = .ok (leafBytes s (s.ctx page).d a.toNat e k n)
      (if deadNow s (s.ctx page).d a.toNat e then noteAcc s (s.ctx page).d a.toNat e base units false
        else toPeer (noteAcc s (s.ctx page).d a.toNat e base units false) e k n false none) := by
  have herr : (!deadNow s (s.ctx page).d a.toNat e && s.badAt k n) = false := by
    obtain h | h := hgood <;> simp [h]
  have hrevive : reviveSnoop s (s.ctx page).d a.toNat e false = (true, s) := by simp [reviveSnoop]
  simp [globAccess, hwalk, hx, herr, hrevive, snoopRange_of_no_window hwin]

end

/-- A write or an atomic to a page that is not DEAD. -/
theorem globAccess_write {g : List Byte → List Byte} (hwalk : walkSnoop s (s.ctx page).d a.toNat .w = (true, s))
    (hx : translate s (s.ctx page).d a.toNat .w = .ok k e base units) (hdead : bit e pteDead = false) (hgood : s.badAt k n = false)
    (hwin : anyWindow s = false) :
    globAccess s page cls kind n a (some g) = .ok (s.bytesAt k n)
      ((toPeer (noteAcc s (s.ctx page).d a.toNat e base units true) e k n (kind == kAtomic) (some (g (s.bytesAt k n)))).setBytes k
        (g (s.bytesAt k n))) := by
  have hlive : deadNow s (s.ctx page).d a.toNat e = false := by simp [deadNow, hdead]
  have hrevive : reviveSnoop s (s.ctx page).d a.toNat e true = (true, s) := by simp [reviveSnoop, hlive]
  have hbytes : leafBytes s (s.ctx page).d a.toNat e k n = s.bytesAt k n := by simp [leafBytes, hlive]
  simp [globAccess, hwalk, hx, hgood, hrevive, snoopRange_of_no_window hwin, hbytes]

theorem toPeer_mem (s : State) (e : DWord) (k n : Nat) (atomic : Bool) (data : Option (List Byte)) :
    (toPeer s e k n atomic data).mem = s.mem ∧ (toPeer s e k n atomic data).undef = s.undef := by
  unfold toPeer
  split <;> exact ⟨rfl, rfl⟩

section
variable (hhot : (s.ctx page).d.hoten = false) (hwin : anyWindow s = false)
include hhot hwin

/-- With the tracker off a read changes no byte, and one of a DEAD page sends nothing (R223, R380). -/
theorem globAccess_read_frame (hwalk : walkSnoop s (s.ctx page).d a.toNat .r = (true, s))
    (hx : translate s (s.ctx page).d a.toNat .r = .ok k e base units)
    (hgood : deadNow s (s.ctx page).d a.toNat e = true ∨ s.badAt k n = false) :
    ∃ u, globAccess s page cls kind n a none = .ok (leafBytes s (s.ctx page).d a.toNat e k n) u ∧ (∀ j, u.byteAt j = s.byteAt j) ∧
      (deadNow s (s.ctx page).d a.toNat e = true → u.out = s.out) := by
  have hcount : s.SameStore (noteAcc s (s.ctx page).d a.toNat e base units false) := sameStore_noteAcc _ _ _ _ hhot nofun
  obtain ⟨hmem, hundef⟩ := toPeer_mem (noteAcc s (s.ctx page).d a.toNat e base units false) e k n false none
  refine ⟨_, globAccess_read hwalk hx hgood hwin, ?_, fun hdead => ?_⟩
  · split
    · exact byteAt_of_mem hcount.mem hcount.undef
    · exact byteAt_of_mem (hmem.trans hcount.mem) (hundef.trans hcount.undef)
  · rw [if_pos hdead]
    exact hcount.out

theorem globAccess_write_replaces {g : List Byte → List Byte} (hwalk : walkSnoop s (s.ctx page).d a.toNat .w = (true, s))
    (hx : translate s (s.ctx page).d a.toNat .w = .ok k e base units) (hdead : bit e pteDead = false) (hgood : s.badAt k n = false) :
    ∃ u, globAccess s page cls kind n a (some g) = .ok (s.bytesAt k n) u ∧
      ((g (s.bytesAt k n)).length = n → s.Replaced k n (g (s.bytesAt k n)) u) := by
  have hcount : s.SameStore (noteAcc s (s.ctx page).d a.toNat e base units true) := sameStore_noteAcc _ _ _ _ hhot (fun _ => hdead)
  obtain ⟨hmem, hundef⟩ := toPeer_mem (noteAcc s (s.ctx page).d a.toNat e base units true) e k n (kind == kAtomic) (some (g (s.bytesAt k n)))
  exact ⟨_, globAccess_write hwalk hx hdead hgood hwin,
    fun hlen => (replaced_setBytes _ k hlen).of_mem (hmem.trans hcount.mem) (hundef.trans hcount.undef)⟩

end

end

/-! ### The access of one lane -/

theorem fault_of_accFault {r : MemR (List Byte)} {cls cause kind : Nat} {code : BitVec 16} {ea : DWord} {first : Bool} (hcls : cls = 2)
    (hr : r = accFault cls cause kind ea first) (hc : codeOf 2 cause = code) : ∃ fi, r = .fault fi ∧ fi.code = code ∧ fi.addr = ea := by
  subst hcls
  exact ⟨_, hr, hc, rfl⟩

/-- Settles O33: local memory, the regions of generic addresses, and translated memory. -/
theorem laneAccesses : Obligations.LaneAccesses := by
  unfold Obligations.LaneAccesses
  refine ⟨fun s c kind n ea f hcls => ?_, fun s c kind n ea f hcls => ?_, fun s c kind n ea f hcls hin hlt => ?_⟩
  · refine ⟨fun hsize hwin => ⟨_, locAccess_outside hsize hwin, ?_, ?_⟩, fun hsize => fault_of_accFault hcls (locAccess_beyond hsize) rfl⟩
    · rintro rfl
      rfl
    · rintro g rfl hlen hq
      exact localAfter_replaces rfl hlen hq
  · refine ⟨fun h h' => ?_, fun h h' hsup => ?_, fun h h' => ?_, fun h h' hclu => ?_, fun h => ?_, fun h => ?_, fun h => ?_⟩
    · exact (genAccess_self (regionOf_self h h')).trans (by rw [hcls])
    · exact fault_of_accFault hcls (genAccess_aperture_user (regionOf_aperture h h') hsup) rfl
    · exact fault_of_accFault hcls (genAccess_reserved (regionOf_reserved h h')) rfl
    · exact fault_of_accFault hcls (genAccess_cluster_none (regionOf_cluster h h') hclu) rfl
    · exact fault_of_accFault hcls (genAccess_reserved (regionOf_beyond h)) rfl
    · exact if_pos (regionOf_translated h)
    · exact fault_of_accFault (cause := cProt) hcls (if_neg (regionOf_ne_translated h)) rfl
  · intro d need hhot hwalk
    have hgen : lsAccess .gen c kind n ea f s = globAccess s (s.group c.place).page 2 kind n ea f :=
      (genAccess_translated (regionOf_translated hlt) hin).trans (by rw [hcls])
    rw [hgen]
    refine ⟨fun k e base units hx hf hlive hbad => ?_, fun k e base units hx hf hdead hwin => ?_, fun k e base units hx hdead hgood hwin => ?_,
      fun hx => fault_of_accFault rfl (globAccess_fault hwalk hx nofun) rfl, fun first hx => ⟨_, globAccess_fault hwalk hx nofun, rfl, rfl, rfl⟩⟩
    · subst hf
      exact fault_of_accFault rfl (globAccess_read_bad hwalk hx hlive hbad) rfl
    · subst hf
      obtain ⟨u, hu, hbytes, hout⟩ := globAccess_read_frame hhot (anyWindow_of_forall hwin) hwalk hx (.inl hdead)
      exact ⟨u, hu.trans (by rw [leafBytes, hdead]; rfl), hbytes, hout hdead⟩
    · have hlive : deadNow s d ea.toNat e = false := by simp [deadNow, hdead]
      cases f with
      | none =>
        obtain ⟨u, hu, hbytes, -⟩ := globAccess_read_frame hhot (anyWindow_of_forall hwin) hwalk hx (.inr hgood)
        exact ⟨u, hu.trans (by rw [leafBytes, hlive]; rfl), fun _ => hbytes, nofun⟩
      | some g =>
        obtain ⟨u, hu, hreplaced⟩ := globAccess_write_replaces hhot (anyWindow_of_forall hwin) hwalk hx hdead hgood
        refine ⟨u, hu, nofun, fun g' hg hlen => ?_⟩
        obtain rfl := Option.some.inj hg
        exact hreplaced hlen

end Sys2Proof.Machine
end

section
/-! Stores and atomics (R189 to R191, R196): what the accesses of their active lanes leave of memory, and that they change no group. -/
namespace Sys2Proof.Machine

/-! ### Writes and atomics of one lane -/

@[simp] theorem spoilQueues_groups (s : State) (tid off n : Nat) : (spoilQueues s tid off n).groups = s.groups := by
  unfold spoilQueues
  dsimp only
  split <;> rfl

@[simp] theorem markDirty_groups (s : State) (tid win ln lo n : Nat) : (markDirty s tid win ln lo n).groups = s.groups := by
  unfold markDirty
  split
  · rfl
  · exact setLineOf_groups _ _ _ _ _

theorem ownLine_groups {s t : State} {tid win ln : Nat} (h : ownLine s tid win ln = .ok () t) : t.groups = s.groups := by
  unfold ownLine at h
  split at h
  · cases h; rfl
  · split at h
    · cases h; rfl
    · split at h
      · cases h
      · next hsnoop =>
        have hs := congrArg (fun x : Bool × State => x.2.groups) hsnoop
        simp only [snoop_groups] at hs
        cases h
        simp [← hs]

theorem readOf_fault (s : State) (n : Nat) (f : FaultInfo) : (.fault f : MemR (List Byte)).ReadOf s n := by
  rintro b u h
  cases h

theorem readOf_wait (s t : State) (n : Nat) : (.wait t : MemR (List Byte)).ReadOf s n := by
  rintro b u h
  cases h

theorem readOf_absentMem (s : State) (n : Nat) : (.absentMem : MemR (List Byte)).ReadOf s n := by
  rintro b u h
  cases h

section
variable (g : List Byte → List Byte)

theorem locAccess_update_readOf (s : State) (cls kind tid off n : Nat) (addr : DWord) :
    (locAccess s cls kind tid off n addr (some g)).ReadOf s n := by
  unfold locAccess
  dsimp only
  split
  · exact readOf_accFault _ _ _ _ _ _ _
  · split
    · rintro b u h
      cases h
      exact ⟨bytesAt_length _ _ _, by simp⟩
    · split
      · exact readOf_fault _ _ _
      · exact readOf_wait _ _ _
      · exact readOf_absentMem _ _
      · next hfill =>
        rw [if_neg (by simp)]
        split
        · exact readOf_accFault _ _ _ _ _ _ _
        · split
          · exact readOf_fault _ _ _
          · exact readOf_wait _ _ _
          · exact readOf_absentMem _ _
          · next hown =>
            rintro b u h
            cases h
            exact ⟨bytesAt_length _ _ _, by simp [ownLine_groups hown, fillLine_groups hfill]⟩

theorem globAccess_update_readOf (s : State) (page cls kind n : Nat) (addr : DWord) :
    (globAccess s page cls kind n addr (some g)).ReadOf s n := by
  unfold globAccess
  dsimp only
  split
  · exact readOf_wait _ _ _
  · next hwalk =>
    have hw := congrArg (fun x : Bool × State => x.2.groups) hwalk
    simp only [walkSnoop_groups] at hw
    split
    · split
      · exact readOf_accFault _ _ _ _ _ _ _
      · split
        · exact readOf_wait _ _ _
        · next hrevive =>
          have hv := congrArg (fun x : Bool × State => x.2.groups) hrevive
          simp only [reviveSnoop_groups] at hv
          split
          · exact readOf_wait _ _ _
          · next hrange =>
            have hr := congrArg (fun x : Bool × State => x.2.groups) hrange
            simp only [snoopRange_groups] at hr
            rintro b u h
            cases h
            exact ⟨leafBytes_length _ _ _ _ _ _, by simp [← hr, ← hv, ← hw]⟩
    · exact readOf_xlFault _ _ _ _ _ _

theorem genAccess_update_readOf (s : State) (page tid : Nat) (sup : Bool) (cls kind n : Nat) (addr : DWord) :
    (genAccess s page tid sup cls kind n addr (some g)).ReadOf s n := by
  have hprot := readOf_accFault s n cls cProt kind addr false
  unfold genAccess
  dsimp only
  split
  · split
    · exact globAccess_update_readOf g _ _ _ _ _ _
    · exact hprot
  · exact locAccess_update_readOf g _ _ _ _ _ _ _
  · split
    · exact locAccess_update_readOf g _ _ _ _ _ _ _
    · exact hprot
  · split
    · exact hprot
    · split
      · exact locAccess_update_readOf g _ _ _ _ _ _ _
      · exact hprot
  · exact hprot

theorem lsAccess_update_readOf (w : Where) (c : Iss) (kind n : Nat) (ea : DWord) (s : State) :
    (lsAccess w c kind n ea (some g) s).ReadOf s n := by
  cases w with
  | loc => exact locAccess_update_readOf g _ _ _ _ _ _ _
  | gen => exact genAccess_update_readOf g _ _ _ _ _ _ _ _
  | const =>
    unfold lsAccess
    dsimp only
    split
    · exact genAccess_update_readOf g _ _ _ _ _ _ _ _
    · exact readOf_accFault _ _ _ _ _ _ _

end

/-! ### An instruction whose lanes all make their accesses -/

section
variable {s : State} {c : Iss} {cls n kind : Nat} {ea : Nat → DWord} {acc : Nat → State → MemR (List Byte)} {fin : State → List (Nat × List Byte) → State}

theorem memLanes_go (hal : ∀ l ∈ lanes c.act, (ea l).toNat % n = 0) (hf : (runLanes s (lanes c.act) acc).faults = [])
    (hw : (runLanes s (lanes c.act) acc).wait = none) (ha : (runLanes s (lanes c.act) acc).absent = false) :
    memLanes c s cls n kind ea acc fin = .go (fin (runLanes s (lanes c.act) acc).s (runLanes s (lanes c.act) acc).got) := by
  unfold memLanes
  dsimp only
  rw [alignFaults_nil hal, hf, hw, ha]
  rfl

end

/-! ### Stores -/

/-- A lane's bytes are the low ones of its data registers (R189). -/
theorem storeBytes_eq (g : Group) (slot data l : Nat) {size : Nat} (hs : size ≤ 6) :
    storeBytes g slot data size l =
      (List.range (bytesOfSize size)).map (fun i => BitVec.ofNat 8 ((g.rv slot (data + i / 4) l).toNat / 2 ^ (8 * (i % 4)))) := by
  interval_cases size <;> simp [storeBytes, bytesOf, leBytes, sizeRegs, sizeBytes, bytesOfSize, List.range_succ]

section
variable {i : Instr} {s : State} {c : Iss} {h : Hd} {x : WMem} {w : Where} {lit : Option (BitVec 60)}

/-- What lane `l` of a store takes from its data registers. -/
def storeData (i : Instr) (s : State) (c : Iss) (h : Hd) (x : WMem) (l : Nat) : List Byte :=
  (List.range (bytesOfSize x.size.toNat)).map
    (fun j => BitVec.ofNat 8 ((((begun i s).group c.place).rv c.slot (h.c.toNat + j / 4) l).toNat / 2 ^ (8 * (j % 4))))

/-- The accesses of a store's active lanes. -/
noncomputable def storeRun (i : Instr) (s : State) (c : Iss) (h : Hd) (x : WMem) (w : Where) (lit : Option (BitVec 60)) : LaneRun :=
  runLanes (begun i s) (lanes c.act) (fun l => lsAccess w c kWrite (bytesOfSize x.size.toNat)
    (laneAddr (w == .loc) ((begun i s).group c.place) c.slot h.b x.ub x.off lit l) (some (fun _ => storeData i s c h x l)))

variable (hi : IssuedBy i s (storeEff w h x lit)) (hsize : (shapeIn i s).ok = true → x.size.toNat ≤ 6) (hr : Ready i s c)
  (hal : ∀ l ∈ lanes c.act,
    (laneAddr (w == .loc) ((begun i s).group c.place) c.slot h.b x.ub x.off lit l).toNat % bytesOfSize x.size.toNat = 0)
include hi hsize hr hal

/-- ST, STL and STREL in both forms. -/
theorem store_completes (hf : (storeRun i s c h x w lit).faults = []) (hw : (storeRun i s c h x w lit).wait = none)
    (ha : (storeRun i s c h x w lit).absent = false) (hset : (storeRun i s c h x w lit).s.settled = true) :
    Completes i s c (storeRun i s c h x w lit).s := by
  have hs := hsize hr.form
  refine completes_of_go hi hr ?_ hset
  unfold storeEff
  dsimp only
  rw [eaOf_eq, sizeBytes_eq hs]
  simp only [storeBytes_eq _ _ _ _ hs]
  exact memLanes_go hal hf hw ha

end

/-! ### Stores to local memory outside every window -/

/-- In `u` the streams of a team and the bytes of `s` that `kept` leaves out may differ; groups, contexts and the rest of the team do not. -/
structure State.Stored (s : State) (tid : Nat) (kept : Nat → Prop) (u : State) : Prop where
  groups : u.groups = s.groups
  settled : u.settled = s.settled
  team : ∃ x, u.team tid = { s.team tid with streams := x }
  bytes : ∀ j, kept j → u.byteAt j = s.byteAt j

theorem State.Stored.trans {s t u : State} {tid : Nat} {p q : Nat → Prop} (h : s.Stored tid p t) (k : t.Stored tid q u) :
    s.Stored tid (fun j => p j ∧ q j) u := by
  obtain ⟨x, hx⟩ := h.team
  obtain ⟨y, hy⟩ := k.team
  exact ⟨k.groups.trans h.groups, k.settled.trans h.settled, ⟨y, by rw [hy, hx]⟩, fun j hj => (k.bytes j hj.2).trans (h.bytes j hj.1)⟩

/-- A byte outside the `n` bytes at a team offset. -/
def Team.apart (t : Team) (off n j : Nat) : Prop := j < localKey t.core (t.base + off) ∨ localKey t.core (t.base + off) + n ≤ j

theorem stored_spoilQueues (s : State) (tid off n : Nat) : s.Stored tid ((s.team tid).apart off n) (spoilQueues s tid off n) := by
  refine ⟨spoilQueues_groups s tid off n, ?_, ?_, fun j hj => byteAt_spoilQueues_ne s tid off n hj⟩
  all_goals
    unfold spoilQueues
    dsimp only
    split
  · rfl
  · exact State.settled_congr rfl (absent_undefRange_localKey _ _ _ _)
  · exact ⟨(s.team tid).streams, rfl⟩
  · exact ⟨_, State.team_setTeam s tid _⟩

theorem stored_localAfter {s : State} {tid off n : Nat} {l : List Byte} (hl : l.length = n) :
    s.Stored tid ((s.team tid).apart off n) (localAfter s tid off n (some (fun _ => l))) := by
  have hteam : ∀ k, (s.setBytes k l).team tid = s.team tid := fun k => by simp [State.team]
  have hset : s.Stored tid ((s.team tid).apart off n) (s.setBytes (localKey (s.team tid).core ((s.team tid).base + off)) l) :=
    ⟨by simp, State.settled_congr (by simp) (absent_setBytes_localKey _ _ _ _), ⟨_, hteam _⟩, fun j hj => byteAt_setBytes_ne _ _ _ (hl.symm ▸ hj)⟩
  have hspoil := stored_spoilQueues (s.setBytes (localKey (s.team tid).core ((s.team tid).base + off)) l) tid off n
  rw [hteam] at hspoil
  obtain ⟨hg, hs, ht, hb⟩ := hset.trans hspoil
  exact ⟨hg, hs, ht, fun j hj => hb j ⟨hj, hj⟩⟩

/-- Stores of lanes within the allocation and outside every window are made, and change their own ranges at most. -/
theorem runLanes_stored {s : State} {c : Iss} {n : Nat} {ea : Nat → DWord} {data : Nat → List Byte} {t : Team}
    (ht : t = s.team (s.group c.place).team) (hdata : ∀ l, (data l).length = n) (ls : List Nat)
    (hin : ∀ l ∈ ls, (ea l).toNat + n ≤ t.size ∧ windowAt t (ea l).toNat = none) :
    let r := runLanes s ls (fun l => lsAccess .loc c kWrite n (ea l) (some (fun _ => data l)))
    r.faults = [] ∧ r.wait = none ∧ r.absent = false ∧ s.Stored (s.group c.place).team (fun j => ∀ l ∈ ls, t.apart (ea l).toNat n j) r.s := by
  subst ht
  induction ls using List.reverseRecOn with
  | nil => exact ⟨rfl, rfl, rfl, rfl, rfl, ⟨_, rfl⟩, fun _ _ => rfl⟩
  | append_singleton ls l ih =>
    obtain ⟨hf, hw, ha, hst⟩ := ih fun k hk => hin k (List.mem_append_left _ hk)
    obtain ⟨hsize, hwin⟩ := hin l (List.mem_append_right _ List.mem_cons_self)
    dsimp only
    rw [runLanes, List.foldl_append]
    rw [runLanes] at hf hw ha hst
    generalize ls.foldl _ _ = r at hf hw ha hst
    obtain ⟨x, hteam⟩ := hst.team
    have hgroup : r.s.group c.place = s.group c.place := by rw [State.group, hst.groups, State.group]
    obtain ⟨b, hacc⟩ : ∃ b, lsAccess .loc c kWrite n (ea l) (some (fun _ => data l)) r.s =
        .ok b (localAfter r.s (s.group c.place).team (ea l).toNat n (some (fun _ => data l))) := by
      unfold lsAccess
      rw [hgroup]
      exact ⟨_, locAccess_outside (by rw [hteam]; exact hsize) (by rw [hteam]; exact hwin)⟩
    have hnext := stored_localAfter (s := r.s) (tid := (s.group c.place).team) (off := (ea l).toNat) (hdata l)
    rw [List.foldl_cons, List.foldl_nil, LaneRun.add, hw, ha, hacc]
    obtain ⟨hg, hs, htm, hb⟩ := hst.trans hnext
    refine ⟨hf, rfl, rfl, hg, hs, htm, fun j hj => hb j ⟨fun k hk => hj k (List.mem_append_left _ hk), ?_⟩⟩
    rw [hteam]
    exact hj l (List.mem_append_right _ List.mem_cons_self)

section
variable {i : Instr} {s : State} {c : Iss} {h : Hd} {x : WMem} {lit : Option (BitVec 60)}

/-- STL in both forms, its active lanes within the allocation and outside every stash window. -/
theorem stl_frame (hr : Ready i s c) (hi : IssuedBy i s (storeEff .loc h x lit)) (hsize : (shapeIn i s).ok = true → x.size.toNat ≤ 6) :
    let g := (begun i s).group c.place
    let t := s.team g.team
    let n := bytesOfSize x.size.toNat
    let ea := laneAddr true g c.slot h.b x.ub x.off lit
    (∀ l ∈ lanes c.act, (ea l).toNat % n = 0 ∧ (ea l).toNat + n ≤ t.size ∧ windowAt t (ea l).toNat = none) →
    ∃ s2, Completes i s c s2 ∧ s2.group c.place = g ∧ ∀ j, (∀ l ∈ lanes c.act, t.apart (ea l).toNat n j) → s2.byteAt j = s.byteAt j := by
  intro g t n ea hin
  obtain ⟨hmem, hundef, hteams, -⟩ := hr.near.only
  have ht : t = (begun i s).team g.team := by rw [State.team, hteams]; rfl
  obtain ⟨hf, hw, ha, hgroups, hset, -, hbytes⟩ := runLanes_stored (s := begun i s) (c := c) (n := n) (ea := ea) (data := storeData i s c h x) ht
    (fun l => by simp [storeData, n]) (lanes c.act) (fun l hl => (hin l hl).2)
  refine ⟨(storeRun i s c h x .loc lit).s, store_completes hi hsize hr (fun l hl => (hin l hl).1) hf hw ha ?_, ?_, fun j hj => ?_⟩
  · exact hset.trans ((begun_settled i s).trans hr.1)
  · exact congrArg (fun m : FMap Group => fget m c.place Group.empty) hgroups
  · exact (hbytes j hj).trans (byteAt_of_mem hmem hundef j)

end

/-- Settles O31: every store is `storeEff` of its space and offset; STL's lanes change their own ranges alone. -/
theorem storesWrite : Obligations.StoresWrite := by
  unfold Obligations.StoresWrite
  refine ⟨fun s c h x l => ?_, fun s c h x l => ?_⟩
  · refine ⟨?_, ?_, ?_, ?_, ?_, ?_⟩ <;> exact fun hr => store_completes ⟨_, rfl, rfl⟩ shapeMem_size hr
  · refine ⟨fun hr => ?_, fun hr => ?_⟩
    all_goals
      intro g t n ea hin
      obtain ⟨s2, hc, hg, hb⟩ := stl_frame hr ⟨_, rfl, rfl⟩ shapeMem_size hin
      exact ⟨s2, hc, by rw [hg], by rw [hg], by rw [hg], by rw [hg], by rw [hg], by rw [hg], hb⟩

end Sys2Proof.Machine
end

section
/-! Atomics (R191): each lane in ascending order replaces what it reads, and the old values go to the destination. -/
namespace Sys2Proof.Machine

/-! ### Operations on words -/

section
variable (y z : DWord)

theorem numOf_unsigned32 : numOf 32 false y.toNat = ((lo32 y).toNat : Int) := by
  rw [lo32, BitVec.toNat_setWidth]
  simp [numOf]

theorem word_add_unsigned : lo32 (intOp .add .n32 false y z).1 = lo32 y + lo32 z := by
  rw [intForm_n32.intOp_add, lo32_outOf, numOf_unsigned32, numOf_unsigned32, BitVec.ofInt_add]
  simp

theorem word_min_unsigned : lo32 (intOp .min .n32 false y z).1 = if lo32 z < lo32 y then lo32 z else lo32 y := by
  rw [intForm_n32.intOp_min, lo32_wrapOf, numOf_unsigned32, numOf_unsigned32]
  by_cases h : (lo32 z).toNat < (lo32 y).toNat <;> simp [h, BitVec.lt_def]

theorem word_max_unsigned : lo32 (intOp .max .n32 false y z).1 = if lo32 y < lo32 z then lo32 z else lo32 y := by
  rw [intForm_n32.intOp_max, lo32_wrapOf, numOf_unsigned32, numOf_unsigned32]
  by_cases h : (lo32 y).toNat < (lo32 z).toNat <;> simp [h, BitVec.lt_def]

end

/-- A compare and swap of words. -/
theorem word_cas (old b c : Word) : lo32 (atomVal 7 .n32 (zx old) (zx b) (zx c)) = if old = b then c else old := by
  have hnat : ∀ x : Word, natVal .n32 (zx x) = x.toNat := fun x => by
    have h64 : x.toNat < 2 ^ 64 := x.isLt.trans (by decide)
    rw [natVal, zx, BitVec.toNat_setWidth, Nat.mod_eq_of_lt h64]
    exact Nat.mod_eq_of_lt x.isLt
  have hcas : atomVal 7 .n32 (zx old) (zx b) (zx c) = if natVal .n32 (zx old) = natVal .n32 (zx b) then zx c else zx old := rfl
  rw [hcas, hnat, hnat]
  simp only [BitVec.toNat_inj]
  split <;> exact lo32_zx _

/-- The new value of an integer atomic on 32 bits (R191). -/
theorem atomVal_words (old b c : Word) :
    lo32 (atomVal 0 .n32 (zx old) (zx b) (zx c)) = old + b ∧
    lo32 (atomVal 1 .n32 (zx old) (zx b) (zx c)) = (if b < old then b else old) ∧
    lo32 (atomVal 1 .i32 (zx old) (zx b) (zx c)) = (if b.slt old then b else old) ∧
    lo32 (atomVal 2 .n32 (zx old) (zx b) (zx c)) = (if old < b then b else old) ∧
    lo32 (atomVal 2 .i32 (zx old) (zx b) (zx c)) = (if old.slt b then b else old) ∧
    lo32 (atomVal 3 .n32 (zx old) (zx b) (zx c)) = old &&& b ∧ lo32 (atomVal 4 .n32 (zx old) (zx b) (zx c)) = old ||| b ∧
    lo32 (atomVal 5 .n32 (zx old) (zx b) (zx c)) = old ^^^ b ∧ lo32 (atomVal 6 .n32 (zx old) (zx b) (zx c)) = b ∧
    lo32 (atomVal 7 .n32 (zx old) (zx b) (zx c)) = (if old = b then c else old) := by
  have hold := lo32_zx old
  have hb := lo32_zx b
  refine ⟨(word_add_unsigned _ _).trans ?_, (word_min_unsigned _ _).trans ?_, (word_min _ _).trans ?_, (word_max_unsigned _ _).trans ?_,
    (word_max _ _).trans ?_, (word_and _ _).trans ?_, (word_or _ _).trans ?_, (word_xor _ _).trans ?_, hb, word_cas old b c⟩
  all_goals rw [hold, hb]

/-! ### Atomics over lanes -/

section
variable {i : Instr} {s : State} {c : Iss} {h : Hd} {x : WAtom} {w : Where} {red : Bool} {lit : Option (BitVec 60)}

/-- The accesses of an atomic's active lanes, each of the operation's value of what it reads. -/
noncomputable def atomRun (i : Instr) (s : State) (c : Iss) (h : Hd) (x : WAtom) (w : Where) (lit : Option (BitVec 60)) : LaneRun :=
  let g := (begun i s).group c.place
  let n := tyBits x.ty / 8
  let src := fun (q : BitVec 9) (l : Nat) => srcLane g c.slot l (tyRegs x.ty) (.v q.toNat)
  runLanes (begun i s) (lanes c.act) (fun l => lsAccess w c kAtomic n (laneAddr (w == .loc) g c.slot h.b x.ub x.off lit l) (some (fun old =>
    leBytes n (atomVal (bits h.mod 0 3).toNat x.ty (BitVec.ofNat 64 (leVal old)) (src h.c l) (src h.d l)).toNat)))

/-- ATOM, ATOML and RED in both forms. -/
theorem atom_replaces (hi : IssuedBy i s (atomEff w h x red lit)) (hr : Ready i s c)
    (hal : ∀ l ∈ lanes c.act, (laneAddr (w == .loc) ((begun i s).group c.place) c.slot h.b x.ub x.off lit l).toNat % (tyBits x.ty / 8) = 0)
    (hf : (atomRun i s c h x w lit).faults = []) (hw : (atomRun i s c h x w lit).wait = none) (ha : (atomRun i s c h x w lit).absent = false)
    (hset : (atomRun i s c h x w lit).s.settled = true) :
    ∃ s2, Completes i s c s2 ∧ s2.mem = (atomRun i s c h x w lit).s.mem ∧
      (red = false → ∀ p ∈ (atomRun i s c h x w lit).got, ∀ j < tyBits x.ty / 8 / 4,
        (s2.group c.place).finalV (h.a.toNat + j) p.1 = BitVec.ofNat 32 (leVal p.2 / 2 ^ (32 * j))) := by
  have hgo : atomEff w h x red lit c (begun i s) = .go ((if red then fun s _ => s else writeLoaded c h.a.toNat (if tyBits x.ty / 8 = 8 then 5 else 4))
      (atomRun i s c h x w lit).s (atomRun i s c h x w lit).got) := by
    unfold atomEff
    dsimp only
    rw [eaOf_eq]
    exact memLanes_go hal hf hw ha
  cases red with
  | true => exact ⟨_, completes_of_go hi hr hgo hset, rfl, nofun⟩
  | false =>
    obtain ⟨hgroups, -, hevery⟩ : (atomRun i s c h x w lit).Reads (begun i s) (tyBits x.ty / 8) (lanes c.act) :=
      runLanes_reads (fun l t => lsAccess_update_readOf _ w c kAtomic _ _ t) _
    have hgot := hevery hf hw ha
    have hnd : ((atomRun i s c h x w lit).got.map (fun p => p.1)).Nodup := hgot ▸ lanes_nodup c.act
    have hlt : ∀ p ∈ (atomRun i s c h x w lit).got, p.1 < 32 := fun p hp =>
      (mem_lanes.mp (hgot ▸ List.mem_map_of_mem (f := fun p : Nat × List Byte => p.1) hp)).1
    have hfind : ffind (atomRun i s c h x w lit).s.groups c.place = some ((begun i s).group c.place) := hgroups ▸ hr.find_begun
    refine ⟨_, completes_of_go hi hr hgo (by simpa [writeLoaded_eq] using hset), by simp [writeLoaded_eq], fun _ p hp j hj => ?_⟩
    have hregs : j < sizeRegs (if tyBits x.ty / 8 = 8 then 5 else 4) := by
      revert hj
      cases x.ty <;> simp [tyBits, sizeRegs]
    simp only [Bool.false_eq_true, if_false]
    rw [writeLoaded_eq, State.group_modGroup _ hfind, Group.loaded_finalV hnd hlt _ _ _ _ hp hregs]
    unfold loadWord
    split <;> rfl

end

/-- Settles O32: every atomic is `atomEff` of its space, destination and offset, and its operations on words are those of the integer types. -/
theorem atomicsReplace : Obligations.AtomicsReplace := by
  unfold Obligations.AtomicsReplace
  refine ⟨fun s c h x l => ?_, atomVal_words⟩
  refine ⟨?_, ?_, ?_, ?_, ?_, ?_⟩ <;> exact fun hr => atom_replaces ⟨_, rfl, rfl⟩ hr

end Sys2Proof.Machine
end

section
/-! The four stash instructions (R194, R195): what STASHMAP sets, what the write-backs of a window come to, and what the others leave of it. -/
namespace Sys2Proof.Machine

/-! ### A team's windows -/

/-- A team's windows replaced. -/
def State.setWindows (s : State) (tid : Nat) (ws : FMap Window) : State := s.setTeam tid { s.team tid with windows := ws }

section
variable (s : State) (tid : Nat) (ws : FMap Window)

@[simp] theorem State.windows_setWindows : ((s.setWindows tid ws).team tid).windows = ws := by rw [setWindows, team_setTeam]

@[simp] theorem State.settled_setWindows : (s.setWindows tid ws).settled = s.settled := rfl

theorem State.byteAt_setWindows (j : Nat) : (s.setWindows tid ws).byteAt j = s.byteAt j := byteAt_of_mem rfl rfl j

end

section
variable (s : State) (t : Team) (loff size : Nat)

@[simp] theorem settled_spoilWindow : (spoilWindow s t loff size).settled = s.settled :=
  State.settled_congr rfl (absent_undefRange_localKey _ _ _ _)

@[simp] theorem team_spoilWindow (tid : Nat) : (spoilWindow s t loff size).team tid = s.team tid := rfl

theorem byteAt_spoilWindow {j : Nat} (hj : j < localKey t.core (t.base + loff) ∨ localKey t.core (t.base + loff) + size ≤ j) :
    (spoilWindow s t loff size).byteAt j = s.byteAt j := byteAt_undefRange_ne _ (Nat.le_add_right _ _) hj

end

/-! ### The instructions -/

/-- Write-backs that have all been made let the instruction go on (R195). -/
theorem syncEff_go {c : Iss} {s : State} {tid : Nat} {ls : List (Nat × Nat)} (fin : State → State)
    (hf : (syncLines s tid c.act ls).faults = []) (ha : (syncLines s tid c.act ls).absent = false) :
    syncEff c s tid ls fin = .go (fin (syncLines s tid c.act ls).s) := by
  unfold syncEff
  dsimp only
  rw [ha, hf]
  rfl

/-- The window that STASHMAP names, every line Invalid (R194). -/
def namedWindow (h : Hd) (x : WStash) (c : Iss) (s : State) : Window :=
  let g := s.group c.place
  { rw := x.flag, loff := (g.rs c.slot h.b.toNat).toNat, size := (g.rs c.slot h.d.toNat).toNat, gbase := g.rs64 c.slot h.c.toNat, lines := [] }

/-- The effect of STASHMAP (R194). -/
def stashmapEff (h : Hd) (x : WStash) (c : Iss) (s : State) : Eff :=
  let tid := (s.group c.place).team
  let t := s.team tid
  let w := namedWindow h x c s
  if !aligned w.loff 256 || !aligned w.size 256 || !aligned w.gbase.toNat 256 || w.size = 0 then stashTrap s c cAlign
  else if t.size < w.loff + w.size || !inTranslated w.gbase w.size then stashTrap s c cProt
  else if (ffind t.windows x.win.toNat).isSome || stashOverlap t w.loff w.size w.gbase.toNat then stashTrap s c cIllegalForm
  else .go ((spoilWindow s t w.loff w.size).setWindows tid (fput t.windows x.win.toNat w))

/-- The effect of STASHUNMAP (R195). -/
def stashunmapEff (x : WStash) (c : Iss) (s : State) : Eff :=
  let tid := (s.group c.place).team
  match ffind (s.team tid).windows x.win.toNat with
  | none => stashTrap s c cIllegalForm
  | some w => syncEff c s tid (linesOf (s.team tid) x.win.toNat) (fun s =>
      (spoilWindow s (s.team tid) w.loff w.size).setWindows tid (fdel (s.team tid).windows x.win.toNat))

/-- The effect of STASHSYNC (R195). -/
def stashsyncEff (x : WStash) (c : Iss) (s : State) : Eff :=
  let tid := (s.group c.place).team
  let t := s.team tid
  if x.flag then syncEff c s tid (t.windows.flatMap (fun w => linesOf t w.1)) (fun s => s)
  else if (ffind t.windows x.win.toNat).isNone then stashTrap s c cIllegalForm
  else syncEff c s tid (linesOf t x.win.toNat) (fun s => s)

/-- The lines whose write-backs STASHSYNC makes: those of its window, or of every live one. -/
def syncedLines (t : Team) (x : WStash) : List (Nat × Nat) :=
  if x.flag then t.windows.flatMap (fun w => linesOf t w.1) else linesOf t x.win.toNat

/-- The effect of STASHINV (R195). -/
def stashinvEff (x : WStash) (c : Iss) (s : State) : Eff :=
  let tid := (s.group c.place).team
  match ffind (s.team tid).windows x.win.toNat with
  | none => stashTrap s c cIllegalForm
  | some w => .go (s.setWindows tid (fput (s.team tid).windows x.win.toNat { w with lines := [] }))

section
variable {h : Hd} {x : WStash} {s : State} {c : Iss}

theorem stashmap_issuedBy : IssuedBy (.stashmap h x) s (stashmapEff h x) := ⟨_, rfl, rfl⟩
theorem stashunmap_issuedBy : IssuedBy (.stashunmap h x) s (stashunmapEff x) := ⟨_, rfl, rfl⟩
theorem stashsync_issuedBy : IssuedBy (.stashsync h x) s (stashsyncEff x) := ⟨_, rfl, rfl⟩
theorem stashinv_issuedBy : IssuedBy (.stashinv h x) s (stashinvEff x) := ⟨_, rfl, rfl⟩

/-- STASHMAP whose checks pass. -/
theorem stashmap_completes (hr : Ready (.stashmap h x) s c) {t : Team} {w : Window} (ht : t = s.team (s.group c.place).team)
    (hw : w = namedWindow h x c s) (haligned : w.loff % 256 = 0 ∧ w.size % 256 = 0 ∧ w.gbase.toNat % 256 = 0) (hsome : w.size ≠ 0)
    (hin : w.loff + w.size ≤ t.size ∧ w.gbase.toNat + w.size ≤ 0x00F0000000000000)
    (hfree : ffind t.windows x.win.toNat = none ∧ stashOverlap t w.loff w.size w.gbase.toNat = false) :
    Completes (.stashmap h x) s c ((spoilWindow s t w.loff w.size).setWindows (s.group c.place).team (fput t.windows x.win.toNat w)) := by
  subst ht hw
  have hb : begun (.stashmap h x) s = s := begun_of_not_drain rfl
  refine completes_of_go stashmap_issuedBy hr ?_ (by simpa using hr.1)
  unfold stashmapEff
  dsimp only
  rw [hb, if_neg (by simp [aligned, haligned, hsome]), if_neg (by simpa [inTranslated] using hin), if_neg (by simp [hfree])]

variable {w : Window} (hw : ffind (s.team (s.group c.place).team).windows x.win.toNat = some w)
include hw

/-- STASHUNMAP once every write-back has been made. -/
theorem stashunmap_completes (hr : Ready (.stashunmap h x) s c) {r : SyncRes}
    (hsync : r = syncLines s (s.group c.place).team c.act (linesOf (s.team (s.group c.place).team) x.win.toNat))
    (hf : r.faults = []) (ha : r.absent = false) (hset : r.s.settled = true) :
    Completes (.stashunmap h x) s c ((spoilWindow r.s (r.s.team (s.group c.place).team) w.loff w.size).setWindows (s.group c.place).team
      (fdel (r.s.team (s.group c.place).team).windows x.win.toNat)) := by
  subst hsync
  have hb : begun (.stashunmap h x) s = s := begun_of_not_drain rfl
  refine completes_of_go stashunmap_issuedBy hr ?_ (by simpa using hset)
  unfold stashunmapEff
  dsimp only
  rw [hb, hw]
  exact syncEff_go _ hf ha

/-- STASHSYNC of one window or of all, once every write-back has been made. -/
theorem stashsync_completes (hr : Ready (.stashsync h x) s c) {r : SyncRes}
    (hsync : r = syncLines s (s.group c.place).team c.act (syncedLines (s.team (s.group c.place).team) x))
    (hf : r.faults = []) (ha : r.absent = false) (hset : r.s.settled = true) : Completes (.stashsync h x) s c r.s := by
  subst hsync
  have hb : begun (.stashsync h x) s = s := begun_of_not_drain rfl
  have heff : stashsyncEff x c s = syncEff c s (s.group c.place).team (syncedLines (s.team (s.group c.place).team) x) (fun s => s) := by
    unfold stashsyncEff syncedLines
    dsimp only
    rw [hw]
    split <;> rfl
  refine completes_of_go stashsync_issuedBy hr ?_ hset
  rw [hb, heff]
  exact syncEff_go _ hf ha

/-- STASHINV. -/
theorem stashinv_completes (hr : Ready (.stashinv h x) s c) :
    Completes (.stashinv h x) s c (s.setWindows (s.group c.place).team
      (fput (s.team (s.group c.place).team).windows x.win.toNat { w with lines := [] })) := by
  have hb : begun (.stashinv h x) s = s := begun_of_not_drain rfl
  refine completes_of_go stashinv_issuedBy hr ?_ (by simpa using hr.1)
  unfold stashinvEff
  dsimp only
  rw [hb, hw]

end

/-- Settles O35: none of the four is a drain point, so each begins in the state in which it issues. -/
theorem stashWindowsSync : Obligations.StashWindowsSync := by
  unfold Obligations.StashWindowsSync
  refine ⟨fun h x s c hr => ?_, fun h x s c w hw => ⟨fun hr hf ha hset => ?_, fun hr hf ha hset => ?_, fun hr => ?_⟩⟩
  · rw [show begun (.stashmap h x) s = s from begun_of_not_drain rfl]
    intro g t loff gbase size h1 h2 h3 hsome hin hglobal hfree hapart
    refine ⟨_, stashmap_completes hr rfl (w := namedWindow h x c s) rfl ⟨h1, h2, h3⟩ hsome ⟨hin, hglobal⟩ ⟨hfree, hapart⟩, ?_, fun j hj => ?_⟩
    · rw [State.windows_setWindows, ffind_fput_self]
      rfl
    · rw [State.byteAt_setWindows]
      exact byteAt_spoilWindow s t loff size hj
  · have hb : begun (.stashunmap h x) s = s := begun_of_not_drain rfl
    refine ⟨_, stashunmap_completes hw hr (congrArg (fun b => syncLines b _ c.act _) hb) hf ha hset, ?_⟩
    rw [State.windows_setWindows, ffind_fdel_self]
  · have hb : begun (.stashsync h x) s = s := begun_of_not_drain rfl
    exact stashsync_completes hw hr (congrArg (fun b => syncLines b _ c.act _) hb) hf ha hset
  · refine ⟨_, stashinv_completes hw hr, ?_, State.byteAt_setWindows _ _ _⟩
    rw [State.windows_setWindows, ffind_fput_self]

end Sys2Proof.Machine
end

section
/-! Stash lines (R178 to R186): whatever the map unit does of its own accord, a live window stays live with its descriptor; a line that is filled,
written back, recalled or requested from elsewhere. -/
namespace Sys2Proof.Machine

/-! ### One line -/

/-- A team with a live window is there. -/
theorem State.find_team_of_window {s : State} {tid win : Nat} {w : Window} (h : ffind (s.team tid).windows win = some w) :
    ffind s.teams tid = some (s.team tid) := by
  cases ht : ffind s.teams tid with
  | some t => simp [State.team, fget, ht]
  | none =>
    have hempty : s.team tid = Team.empty := by simp [State.team, fget, ht]
    rw [hempty] at h
    cases h

theorem State.team_of_find {s : State} {tid : Nat} {t : Team} (h : ffind s.teams tid = some t) : s.team tid = t := by simp [State.team, fget, h]

/-- The model's search for a line is `lineOf`. -/
theorem find_line_eq (s : State) (tid win ln : Nat) :
    ((ffind s.teams tid).bind (fun t => ffind t.windows win)).bind (fun w => ffind w.lines ln) = lineOf s tid win ln := by
  cases h : ffind s.teams tid <;> simp [lineOf, State.team, fget, h, Team.empty]

theorem setLineOf_of_window {s : State} {tid win : Nat} {w : Window} (h : ffind (s.team tid).windows win = some w) (ln : Nat) (l : Option Line) :
    setLineOf s tid win ln l = s.setWindows tid (fput (s.team tid).windows win (w.setLine ln l)) := by
  rw [setLineOf, State.find_team_of_window h]
  dsimp only
  rw [h]
  rfl

theorem ffind_setLine (w : Window) (ln : Nat) (l : Option Line) : ffind (w.setLine ln l).lines ln = l := by
  cases l with
  | none => exact ffind_fdel_self _ _
  | some l => exact ffind_fput_self _ _ _

/-- A line of a live window that is replaced or made Invalid. -/
theorem lineOf_setLineOf {s : State} {tid win : Nat} {w : Window} (h : ffind (s.team tid).windows win = some w) (ln : Nat) (l : Option Line) :
    lineOf (setLineOf s tid win ln l) tid win ln = l := by
  rw [setLineOf_of_window h, lineOf, State.windows_setWindows, ffind_fput_self]
  exact ffind_setLine w ln l

section
variable (s : State) (tid win ln : Nat) (l : Option Line)

@[simp] theorem setLineOf_mem : (setLineOf s tid win ln l).mem = s.mem := by
  unfold setLineOf
  split
  · rfl
  · split <;> rfl

@[simp] theorem setLineOf_undef : (setLineOf s tid win ln l).undef = s.undef := by
  unfold setLineOf
  split
  · rfl
  · split <;> rfl

@[simp] theorem setLineOf_settled : (setLineOf s tid win ln l).settled = s.settled := by
  unfold setLineOf
  split
  · rfl
  · split <;> rfl

end

/-! ### Windows stay -/

/-- Every live window is live still, with its lines changed at most. -/
def State.KeepsWindows (s t : State) : Prop :=
  ∀ tid win w, ffind (s.team tid).windows win = some w → ∃ ls, ffind (t.team tid).windows win = some { w with lines := ls }

theorem State.KeepsWindows.trans {s t u : State} (h : s.KeepsWindows t) (k : t.KeepsWindows u) : s.KeepsWindows u := fun tid win w hw => by
  obtain ⟨ls, hls⟩ := h tid win w hw
  obtain ⟨ls', hls'⟩ := k tid win _ hls
  exact ⟨ls', hls'⟩

theorem State.keeps_of_teams {s t : State} (h : t.teams = s.teams) : s.KeepsWindows t := fun tid win w hw => by
  have hteam : t.team tid = s.team tid := by rw [State.team, h, State.team]
  exact ⟨w.lines, by rw [hteam, hw]⟩

theorem State.KeepsWindows.rfl {s : State} : s.KeepsWindows s := keeps_of_teams (Eq.refl _)

section
variable {α : Type} {f : State → α → State}

theorem State.keeps_foldl (hf : ∀ (t : State) x, t.KeepsWindows (f t x)) (l : List α) (s : State) : s.KeepsWindows (l.foldl f s) :=
  List.foldlRecOn l f State.KeepsWindows.rfl (fun t ht x _ => ht.trans (hf t x))

/-- Steps that each answer whether the next may go on. -/
theorem State.keeps_foldl_while {f : State → α → Bool × State} (hf : ∀ (t : State) x, t.KeepsWindows (f t x).2) (l : List α) (a : Bool × State) :
    a.2.KeepsWindows (l.foldl (fun a x => if a.1 then f a.2 x else a) a).2 := by
  refine List.foldlRecOn (motive := fun b : Bool × State => a.2.KeepsWindows b.2) l _ State.KeepsWindows.rfl (fun b hb x _ => ?_)
  split
  · exact hb.trans (hf b.2 x)
  · exact hb

end

/-! ### Lines and memory -/

theorem keeps_setLineOf (s : State) (tid win ln : Nat) (l : Option Line) : s.KeepsWindows (setLineOf s tid win ln l) := by
  unfold setLineOf
  split
  · exact State.KeepsWindows.rfl
  next t ht =>
    split
    · exact State.KeepsWindows.rfl
    next w hw =>
      intro tid' win' w' hw'
      by_cases htid : tid' = tid
      · subst htid
        rw [State.team_of_find ht] at hw'
        rw [State.team_setTeam]
        by_cases hwin : win' = win
        · subst hwin
          obtain rfl : w = w' := Option.some.inj (hw.symm.trans hw')
          refine ⟨(w.setLine ln l).lines, ?_⟩
          rw [ffind_fput_self]
          cases l <;> rfl
        · exact ⟨w'.lines, by rw [ffind_fput_ne _ _ hwin, hw']⟩
      · refine ⟨w'.lines, ?_⟩
        rw [State.team, fget, State.setTeam_teams, ffind_fput_ne _ _ htid, ← fget, ← State.team, hw']

theorem keeps_mergeDirty (s : State) (lkey gkey : Nat) (m : BitVec 256) : s.KeepsWindows (mergeDirty s lkey gkey m) :=
  State.keeps_foldl (fun t i => by split <;> exact State.keeps_of_teams rfl) _ s

theorem keeps_yieldLine (s : State) (h : Nat × Nat × Nat) : s.KeepsWindows (yieldLine s h) := by
  unfold yieldLine
  split
  · exact State.KeepsWindows.rfl
  · split
    · exact State.KeepsWindows.rfl
    · refine State.KeepsWindows.trans ?_ (keeps_setLineOf _ _ _ _ _)
      split
      · exact keeps_mergeDirty _ _ _ _
      · exact State.KeepsWindows.rfl

theorem keeps_sysPut (s : State) (key : Nat) (l : List Byte) : s.KeepsWindows (s.sysPut key l) := by
  unfold State.sysPut
  refine State.KeepsWindows.trans ?_ (State.keeps_of_teams (State.setBytes_teams _ _ _))
  split
  · exact State.KeepsWindows.rfl
  · exact State.keeps_foldl (fun t ln => State.keeps_foldl keeps_yieldLine _ t) _ s

theorem keeps_shareLine (s : State) (h : Nat × Nat × Nat) : s.KeepsWindows (shareLine s h) := by
  unfold shareLine
  split
  · exact State.KeepsWindows.rfl
  · split
    · exact State.KeepsWindows.rfl
    · split
      · exact State.KeepsWindows.rfl
      · exact (keeps_mergeDirty _ _ _ _).trans (keeps_setLineOf _ _ _ _ _)

theorem keeps_reviveDead (s : State) (d : Desc) (va : Nat) (e : DWord) (base units : Nat) :
    s.KeepsWindows (reviveDead s d va e base units) := by
  unfold reviveDead
  split
  · exact State.KeepsWindows.rfl
  · split
    · exact State.keeps_of_teams rfl
    · refine State.KeepsWindows.trans (t := clearDeadTlb (s.zeroRange (leafKey e 0) (leafKey e 0 + units * 65536)) d base e)
        (State.keeps_of_teams rfl) ?_
      dsimp only
      split
      · split
        · exact keeps_sysPut _ _ _
        · exact State.KeepsWindows.rfl
      · exact State.KeepsWindows.rfl

/-! ### Records -/

theorem keeps_writeRec (s : State) (page : Nat) (r : FRec) : s.KeepsWindows (writeRec s page r) := by
  unfold writeRec
  dsimp only
  exact ((keeps_sysPut s _ _).trans (keeps_sysPut _ _ _)).trans (State.keeps_of_teams (State.setCtx_teams _ _ _))

theorem keeps_frqLook (s : State) (page : Nat) : s.KeepsWindows (frqLook s page) := State.keeps_foldl keeps_shareLine _ s

theorem keeps_postRec (s : State) (page : Nat) (r : FRec) : s.KeepsWindows (postRec s page r).2 := by
  unfold postRec
  dsimp only
  split
  · exact (keeps_frqLook s page).trans (State.keeps_of_teams rfl)
  · exact State.KeepsWindows.trans (State.keeps_of_teams rfl) (keeps_writeRec (s.setCtx page _) page _)

theorem keeps_postHeld (s : State) (page : Nat) : s.KeepsWindows (postHeld s page) := by
  unfold postHeld
  split
  · exact State.KeepsWindows.rfl
  · split
    · exact keeps_frqLook s page
    · exact State.KeepsWindows.trans (State.keeps_of_teams rfl) (keeps_writeRec (s.setCtx page _) page _)

theorem keeps_postHint (s : State) (page : Nat) (r : FRec) : s.KeepsWindows (postHint s page r) := by
  have h : s.KeepsWindows ((s.ctx page).heldRecs.foldl (fun s _ => postHeld s page) s) := State.keeps_foldl (fun t _ => keeps_postHeld t page) _ s
  unfold postHint
  dsimp only
  split
  · exact h.trans (keeps_sysPut _ _ _)
  · exact h.trans (keeps_postRec _ _ _)

theorem keeps_postWaiting (s : State) (page : Nat) (r : FRec) (fill : Bool) (place op : Option Nat) (line : Option (Nat × Nat × Nat)) :
    s.KeepsWindows (postWaiting s page r fill place op line).2 := by
  cases fill with
  | true => exact State.keeps_of_teams rfl
  | false => exact (keeps_postRec s page r).trans (State.keeps_of_teams rfl)

theorem keeps_doom (s : State) (page : Nat) (r : FRec) : s.KeepsWindows (doom s page r) := by
  unfold doom
  dsimp only
  split
  · exact State.KeepsWindows.rfl
  · exact State.keeps_of_teams rfl

/-! ### Accesses that the map unit counts, and lines that answer them -/

theorem keeps_noteAccess (s : State) (d : Desc) (va : Nat) (e : DWord) (base units : Nat) (write : Bool) :
    s.KeepsWindows (noteAccess s d va e base units write).1 := by
  have hkeep : s.KeepsWindows (s.keepTlb d.asid (leafNow s d va e) base units) := State.keeps_of_teams (by simp)
  have hrevive : ∀ t : State, t.KeepsWindows (if write then reviveDead t d va e base units else t) := fun t => by
    split
    · exact keeps_reviveDead _ _ _ _ _ _
    · exact State.KeepsWindows.rfl
  have hmove : ∀ t : State, t.KeepsWindows (if write && pteLoc e != 1 then noteMove t d.asid base va else t) := fun t => by
    split <;> exact State.keeps_of_teams rfl
  have hhot : ∀ t : State, t.KeepsWindows (hotWindow t) := fun t => by
    unfold hotWindow
    dsimp only
    split <;> exact State.keeps_of_teams rfl
  have h := (hkeep.trans (hrevive _)).trans (hmove _)
  unfold noteAccess
  dsimp only
  split
  · exact (h.trans (hhot _)).trans (State.keeps_of_teams rfl)
  · exact h

theorem keeps_noteAcc (s : State) (d : Desc) (va : Nat) (e : DWord) (base units : Nat) (write : Bool) :
    s.KeepsWindows (noteAcc s d va e base units write) := by
  have hsample : s.KeepsWindows (if write || deadNow s d va e then s else sampleHbm s e (ptePa e + (va - base * 65536))) := by
    split
    · exact State.KeepsWindows.rfl
    · exact State.keeps_of_teams (sameStore_sampleHbm _ _ _).teams
  unfold noteAcc
  generalize (if write || deadNow s d va e then s else sampleHbm s e (ptePa e + (va - base * 65536))) = t at hsample
  have h := hsample.trans (keeps_noteAccess t d va e base units write)
  dsimp only
  split
  · exact h
  · split
    · exact h
    · split
      · exact h.trans (keeps_sysPut _ _ _)
      · exact h.trans (keeps_postHint _ _ _)

theorem keeps_tryWriteBack {s t : State} {tid win ln : Nat} (h : tryWriteBack s tid win ln = .done t) : s.KeepsWindows t := by
  unfold tryWriteBack at h
  split at h
  · cases h; exact State.KeepsWindows.rfl
  · split at h
    · cases h; exact State.KeepsWindows.rfl
    · split at h
      · cases h; exact State.KeepsWindows.rfl
      · split at h
        · cases h; exact State.KeepsWindows.rfl
        · dsimp only at h
          split at h <;> cases h
          exact ((keeps_noteAcc _ _ _ _ _ _ _).trans (keeps_mergeDirty _ _ _ _)).trans (keeps_setLineOf _ _ _ _ _)

theorem keeps_writeBack (s : State) (tid win ln : Nat) : s.KeepsWindows (writeBack s tid win ln).2 := by
  unfold writeBack
  split
  case h_1 t ht => exact keeps_tryWriteBack ht
  case h_2 => exact keeps_doom _ _ _
  case h_3 => exact State.keeps_of_teams rfl
  case h_4 =>
    dsimp only
    split
    · exact State.KeepsWindows.rfl
    · exact keeps_postWaiting _ _ _ _ _ _ _

theorem keeps_remoteLine (s : State) (write : Bool) (tid win ln : Nat) : s.KeepsWindows (remoteLine s write tid win ln).2 := by
  have hback := keeps_writeBack s tid win ln
  unfold remoteLine
  split
  · exact State.KeepsWindows.rfl
  · split
    · dsimp only
      split
      · exact hback
      · exact hback.trans (keeps_setLineOf _ _ _ _ _)
    · dsimp only
      split
      · exact keeps_setLineOf _ _ _ _ _
      · exact State.KeepsWindows.rfl

theorem keeps_snoop (s : State) (gkey : Nat) (write : Bool) (skip : Option (Nat × Nat × Nat)) : s.KeepsWindows (snoop s gkey write skip).2 :=
  State.keeps_foldl_while (fun t (h : Nat × Nat × Nat) => keeps_remoteLine t write h.1 h.2.1 h.2.2) _ (true, s)

theorem keeps_snoopRange (s : State) (key n : Nat) (write : Bool) : s.KeepsWindows (snoopRange s key n write).2 := by
  unfold snoopRange
  split
  · exact State.KeepsWindows.rfl
  · exact State.keeps_foldl_while (fun t ln => keeps_snoop t (256 * ln) write none) _ (true, s)

theorem keeps_walkSnoop (s : State) (d : Desc) (va : Nat) (need : Need) : s.KeepsWindows (walkSnoop s d va need).2 := by
  unfold walkSnoop
  split
  · exact State.KeepsWindows.rfl
  · exact State.keeps_foldl_while (fun t k => keeps_snoop t k false none) _ (true, s)

end Sys2Proof.Machine
end

section
/-! The write-back of a stash line, and the events of stash lines and of L2 (R179 to R181, R186). -/
namespace Sys2Proof.Machine

theorem lineOf_setLineOf_of_keeps {s t : State} {tid win : Nat} {w : Window} (hw : ffind (s.team tid).windows win = some w) (h : s.KeepsWindows t)
    (ln : Nat) (l : Option Line) : lineOf (setLineOf t tid win ln l) tid win ln = l := by
  obtain ⟨ls, hls⟩ := h tid win w hw
  exact lineOf_setLineOf hls ln l

/-! ### A write-back -/

section
variable {s : State} {tid win ln : Nat} {t : Team} {w : Window} {l : Line} {k base units : Nat} {e : DWord}
  (ht : ffind s.teams tid = some t) (hw : ffind t.windows win = some w) (hl : ffind w.lines ln = some l)
include ht hw hl

/-- An Owned line with dirty bytes, whose page may be written (R181). -/
theorem tryWriteBack_of_dirty (howned : l.owned = true) (hdirty : l.dirty ≠ 0)
    (hx : translate s (s.ctx t.page).d (lineVa w ln).toNat .w = .ok k e base units) :
    tryWriteBack s tid win ln = .done (setLineOf
      (mergeDirty (noteAcc s (s.ctx t.page).d (lineVa w ln).toNat e base units true) (localKey t.core (t.base + w.loff + 256 * ln)) k l.dirty)
      tid win ln (some { l with dirty := 0, key := k })) := by
  simp only [tryWriteBack, ht, hw, hl, howned]
  rw [if_neg (by simpa using hdirty), hx]

/-- Its dirty bytes go to the global line, and nothing else does. -/
theorem tryWriteBack_merges (howned : l.owned = true) (hdirty : l.dirty ≠ 0) (hhot : (s.ctx t.page).d.hoten = false)
    (hlive : bit e pteDead = false) (hk : k + 256 ≤ 2 ^ 64) (hx : translate s (s.ctx t.page).d (lineVa w ln).toNat .w = .ok k e base units) :
    let lo := localKey t.core (t.base + w.loff + 256 * ln)
    ∃ u, tryWriteBack s tid win ln = .done u ∧ lineOf u tid win ln = some { l with dirty := 0, key := k } ∧
      (∀ i, i < 256 → u.byteAt (k + i) = if bit l.dirty i then s.byteAt (lo + i) else s.byteAt (k + i)) ∧
      ∀ j, j < k ∨ k + 256 ≤ j → u.byteAt j = s.byteAt j := by
  intro lo
  have hcount : s.SameStore (noteAcc s (s.ctx t.page).d (lineVa w ln).toNat e base units true) := sameStore_noteAcc _ _ _ _ hhot (fun _ => hlive)
  have hlo : k + 256 ≤ lo := hk.trans (by simp only [lo, localKey]; omega)
  have hbytes := byteAt_of_mem hcount.mem hcount.undef
  have hset : ∀ (v : State) j, (setLineOf v tid win ln (some { l with dirty := 0, key := k })).byteAt j = v.byteAt j := fun v j =>
    byteAt_of_mem (setLineOf_mem _ _ _ _ _) (setLineOf_undef _ _ _ _ _) j
  have hwindow : ffind (s.team tid).windows win = some w := by rw [State.team_of_find ht, hw]
  have hkeeps := (State.keeps_of_teams hcount.teams).trans (keeps_mergeDirty _ lo k l.dirty)
  refine ⟨_, tryWriteBack_of_dirty ht hw hl howned hdirty hx, lineOf_setLineOf_of_keeps hwindow hkeeps ln _, fun i hi => ?_, fun j hj => ?_⟩
  · rw [hset, byteAt_mergeDirty hlo hi, hbytes, hbytes]
  · rw [hset, byteAt_mergeDirty_ne hlo hj, hbytes]

end

section
variable {s u : State} {tid win ln : Nat}

theorem writeBack_of_done (h : tryWriteBack s tid win ln = .done u) : writeBack s tid win ln = (true, u) := by rw [writeBack, h]

/-! ### A fill -/

/-- A fill that can be made brings an Invalid line of a live window in (R180). -/
theorem fillLine_brings {w : Window} (hw : ffind (s.team tid).windows win = some w) (hl : ffind w.lines ln = none) {cls : Nat}
    (h : fillLine s cls tid win ln = .ok () u) : ∃ k, lineOf u tid win ln = some { owned := w.rw, dirty := 0, key := k } := by
  have hbytes : ∀ (t : State) key bs, t.KeepsWindows ((sampleFree t 0x02 (s.team tid).core).setBytes key bs) := fun t key bs =>
    State.keeps_of_teams ((State.setBytes_teams _ _ _).trans (sameStore_sampleFree _ _ _).teams)
  unfold fillLine at h
  rw [State.find_team_of_window hw] at h
  dsimp only at h
  rw [hw] at h
  dsimp only at h
  rw [hl, if_neg (by simp)] at h
  split at h
  · cases h
  next t hwalk =>
    have hwalked := keeps_walkSnoop s (s.ctx (s.team tid).page).d (lineVa w ln).toNat (if w.rw then .w else .r)
    rw [hwalk] at hwalked
    split at h
    next k e base units hx =>
      split at h
      · cases h
      · split at h
        · cases h
        · split at h
          · cases h
          next v hrange =>
            have hsnooped := keeps_snoopRange t k 256 w.rw
            rw [hrange] at hsnooped
            cases h
            exact ⟨k, lineOf_setLineOf_of_keeps hw (((hwalked.trans hsnooped).trans (keeps_noteAcc _ _ _ _ _ _ _)).trans (hbytes _ _ _)) ln _⟩
    next =>
      revert h
      unfold xlFault
      split <;> exact nofun

/-! ### A request for a line -/

section
variable {l : Line} (hl : lineOf s tid win ln = some l)
include hl

theorem remoteLine_of_shared (hshared : l.owned = false) (write : Bool) :
    remoteLine s write tid win ln = (true, if write then setLineOf s tid win ln none else s) := by
  unfold remoteLine
  rw [find_line_eq, hl]
  dsimp only
  rw [hshared]
  rfl

theorem remoteLine_of_owned (howned : l.owned = true) (h : tryWriteBack s tid win ln = .done u) (write : Bool) :
    remoteLine s write tid win ln = (true, setLineOf u tid win ln (if write then none else some { l with owned := false, dirty := 0 })) := by
  unfold remoteLine
  rw [find_line_eq, hl]
  dsimp only
  rw [howned, writeBack_of_done h]
  rfl

end

end

/-! ### The events -/

section
variable {s u : State} {team win line : Nat} {w : Window}

theorem stashFill_occurs (hw : ffind (s.team team).windows win = some w) (hline : 256 * line < w.size)
    (h : fillLine s 2 team win line = .ok () u) (hu : u.settled = true) : exec (.stashFill team win line) s = .next u := by
  show execStashFill team win line s = .next u
  have hthere : lineThere s team win line = true := by
    rw [lineThere, hw]
    exact decide_eq_true hline
  rw [execStashFill, hthere, h]
  exact event_settled hu

theorem stashWriteBack_occurs (h : tryWriteBack s team win line = .done u) (hu : u.settled = true) :
    exec (.stashWriteBack team win line) s = .next u := by
  show event (writeBack s team win line).2 = .next u
  rw [writeBack_of_done h]
  exact event_settled hu

/-- A recall is the answer to a remote write (R179, R181). -/
theorem l2Recall_occurs {b : Bool} (h : remoteLine s true team win line = (b, u)) (hu : u.settled = true) :
    exec (.l2Recall team win line) s = .next u := by
  show event (remoteLine s true team win line).2 = .next u
  rw [h]
  exact event_settled hu

theorem remoteLineRequest_occurs {b write : Bool} (h : remoteLine s write team win line = (b, u)) (hu : u.settled = true) :
    exec (.remoteLineRequest write team win line) s = .next u := by
  show event (remoteLine s write team win line).2 = .next u
  rw [h]
  exact event_settled hu

theorem lineMigration_occurs (hs : s.settled = true) (slice : BitVec 7) (hn : line < 2 ^ 31) :
    exec (.lineMigration line slice) s =
      .next { s with forward := fset s.forward line (homeSlice (256 * line)).toNat slice.toNat } := by
  show execLineMigration line slice s = _
  rw [execLineMigration, if_neg (by omega)]
  exact event_settled hs

end

/-- Settles O36: a write-back's bytes; then each event, as the line's state and the request say. -/
theorem stashLineEvents : Obligations.StashLineEvents := by
  unfold Obligations.StashLineEvents
  refine ⟨fun s tid win ln t w l k e base units ht hw hl howned hdirty hhot hlive hk hx =>
    tryWriteBack_merges ht hw hl howned hdirty hhot hlive hk hx, fun s team win line w l hs hw => ⟨fun hline hl u h hu => ?_,
    fun u h hu => stashWriteBack_occurs h hu, fun hl hshared => ?_, fun hl howned u h hu => ?_, fun n slice hn => ?_⟩⟩
  · obtain ⟨k, hk⟩ := fillLine_brings hw hl h
    exact ⟨stashFill_occurs hw hline h hu, _, hk, rfl, rfl⟩
  · have hgone := lineOf_setLineOf hw line none
    have hset : (setLineOf s team win line none).settled = true := by simpa using hs
    exact ⟨⟨_, l2Recall_occurs (remoteLine_of_shared hl hshared true) hset, hgone⟩,
      ⟨_, remoteLineRequest_occurs (remoteLine_of_shared hl hshared true) hset, hgone⟩⟩
  · have hline := fun m => lineOf_setLineOf_of_keeps hw (keeps_tryWriteBack h) line m
    have hset : ∀ m, (setLineOf u team win line m).settled = true := fun m => by simpa using hu
    have hmem := setLineOf_mem u team win line
    exact ⟨⟨_, l2Recall_occurs (remoteLine_of_owned hl howned h true) (hset _), hline none, hmem _⟩,
      ⟨_, remoteLineRequest_occurs (remoteLine_of_owned hl howned h true) (hset _), hline none, hmem _⟩,
      ⟨_, _, remoteLineRequest_occurs (remoteLine_of_owned hl howned h false) (hset _), hline (some _), rfl, rfl, hmem _⟩⟩
  · exact ⟨_, lineMigration_occurs hs slice hn, fget_fset_self _ _ _ _⟩

end Sys2Proof.Machine
end

section
/-! Memory as the map unit reads and writes it: values of several bytes, ranges of zeros, what reaches absent device memory, and a package without a
stash window, in which an access at .sys is one of memory itself (R179, R217). -/
namespace Sys2Proof.Machine

/-- An instruction whose step is the issue of an effect under its own shape and words. -/
theorem issuedBy_of_issue {i : Instr} {s : State} {r : Raw} {sh : Shape} {op len : Nat} {st : BitVec 4} {body : Iss → State → Eff}
    (hraw : rawOf i = some r) (hx : exec i s = issue sh op len st body s)
    (h : sh = shapeIn i s ∧ op = r.op.toNat ∧ len = r.len ∧ st = r.st) : IssuedBy i s body := by
  obtain ⟨rfl, rfl, rfl, rfl⟩ := h
  exact ⟨r, hraw, hx⟩

/-! ### Values of several bytes (R1) -/

@[simp] theorem leBytes_length (n v : Nat) : (leBytes n v).length = n := by simp [leBytes]

theorem leBytes_succ (n v : Nat) : leBytes (n + 1) v = BitVec.ofNat 8 v :: leBytes n (v / 256) := by
  simp [leBytes, List.range_succ_eq_map, Function.comp_def, Nat.pow_succ', Nat.div_div_eq_div_mul]

/-- The bytes of a value that they can hold have that value. -/
theorem leVal_leBytes {n v : Nat} (h : v < 256 ^ n) : leVal (leBytes n v) = v := by
  induction n generalizing v with
  | zero => rw [show v = 0 by simpa using h]; rfl
  | succ n ih =>
    have hv : v / 256 < 256 ^ n := by rw [Nat.div_lt_iff_lt_mul (by decide), ← Nat.pow_succ]; exact h
    rw [leBytes_succ, leVal, ih hv, BitVec.toNat_ofNat]
    exact Nat.mod_add_div v 256

section
variable {s t : State} {k : Nat}

/-- Bytes that read alike. -/
theorem bytesAt_congr {n : Nat} (h : ∀ i, i < n → t.byteAt (k + i) = s.byteAt (k + i)) : t.bytesAt k n = s.bytesAt k n :=
  List.map_congr_left fun i hi => h i (List.mem_range.mp hi)

theorem bytesAt_of_mem (hm : t.mem = s.mem) (hu : t.undef = s.undef) (k n : Nat) : t.bytesAt k n = s.bytesAt k n :=
  bytesAt_congr fun _ _ => byteAt_of_mem hm hu _

/-- Bytes written read back. -/
theorem bytesAt_setBytes (s : State) (k : Nat) (l : List Byte) : (s.setBytes k l).bytesAt k l.length = l := by
  refine List.ext_getElem (by simp) fun i hi _ => ?_
  rw [bytesAt_length] at hi
  simpa [State.bytesAt] using byteAt_setBytes s k l hi

/-- Bytes apart from those written read as before. -/
theorem bytesAt_setBytes_ne (s : State) {l : List Byte} {j n : Nat} (h : j + n ≤ k ∨ k + l.length ≤ j) :
    (s.setBytes k l).bytesAt j n = s.bytesAt j n :=
  bytesAt_congr fun _ _ => byteAt_setBytes_ne _ _ _ (by omega)

theorem dwordAtKey_of_bytes {e : DWord} (h : s.bytesAt k 8 = leBytes 8 e.toNat) : s.dwordAtKey k = e := by
  rw [State.dwordAtKey, State.valAt, h, leVal_leBytes e.isLt, BitVec.ofNat_toNat, BitVec.setWidth_eq]

theorem wordAtKey_of_bytes {w : Word} (h : s.bytesAt k 4 = leBytes 4 w.toNat) : s.wordAtKey k = w := by
  rw [State.wordAtKey, State.valAt, h, leVal_leBytes w.isLt, BitVec.ofNat_toNat, BitVec.setWidth_eq]

/-- A 64-bit value written reads back. -/
theorem dwordAtKey_setBytes (s : State) (k : Nat) (e : DWord) : (s.setBytes k (leBytes 8 e.toNat)).dwordAtKey k = e :=
  dwordAtKey_of_bytes (by simpa using bytesAt_setBytes s k (leBytes 8 e.toNat))

theorem wordAtKey_setBytes (s : State) (k : Nat) (w : Word) : (s.setBytes k (leBytes 4 w.toNat)).wordAtKey k = w :=
  wordAtKey_of_bytes (by simpa using bytesAt_setBytes s k (leBytes 4 w.toNat))

theorem dwordAtKey_of_mem (hm : t.mem = s.mem) (hu : t.undef = s.undef) (k : Nat) : t.dwordAtKey k = s.dwordAtKey k := by
  rw [State.dwordAtKey, State.dwordAtKey, State.valAt, State.valAt, bytesAt_of_mem hm hu]

theorem wordAtKey_of_mem (hm : t.mem = s.mem) (hu : t.undef = s.undef) (k : Nat) : t.wordAtKey k = s.wordAtKey k := by
  rw [State.wordAtKey, State.wordAtKey, State.valAt, State.valAt, bytesAt_of_mem hm hu]

/-! ### Ranges of zeros -/

theorem undefAt_punch (us : List URange) {lo hi k : Nat} (h : lo ≤ k ∧ k < hi) :
    (punch us lo hi).find? (fun u => decide (u.lo ≤ k) && decide (k < u.hi)) = none := by
  refine List.find?_eq_none.mpr fun u hu => ?_
  obtain ⟨v, -, hv⟩ := List.mem_flatMap.mp hu
  suffices hout : u.hi ≤ lo ∨ hi ≤ u.lo by simp only [Bool.and_eq_true, decide_eq_true_eq]; omega
  split at hv
  · next hc =>
    obtain rfl := List.mem_singleton.mp hv
    simpa [or_comm] using hc
  · rcases List.mem_append.mp hv with hv | hv <;> split at hv
    · exact Or.inl (by rw [List.mem_singleton.mp hv])
    · cases hv
    · exact Or.inr (by rw [List.mem_singleton.mp hv])
    · cases hv

/-- A byte of a range that has been zeroed is zero. -/
theorem byteAt_zeroRange (s : State) {lo hi j : Nat} (h : lo ≤ j ∧ j < hi) : (s.zeroRange lo hi).byteAt j = 0 := by
  have hu : undefAt (s.zeroRange lo hi) j = none := undefAt_punch s.undef h
  have hm : ffind (s.mem.filter (fun c => decide (c.1 < lo) || decide (hi ≤ c.1))) j = none :=
    ffind_filter_none _ fun x hx e => by simp only [Bool.or_eq_true, decide_eq_true_eq] at hx; omega
  unfold State.byteAt
  rw [hu]
  exact congrArg (Option.getD · 0) hm

/-! ### Absent device memory (R7, R412) -/

theorem gone_congr (h : t.sys.stage = s.sys.stage) (k : Nat) : t.gone k = s.gone k := by unfold State.gone; rw [h]

@[simp] theorem gone_setBytes (s : State) (j : Nat) (l : List Byte) (k : Nat) : (s.setBytes j l).gone k = s.gone k := gone_congr (by simp) k

/-- A few bytes of which the first and the last are there are there all: what is absent is one range, and longer. -/
theorem gone_within {n : Nat} (hlow : s.gone k = false) (hhigh : s.gone (k + n) = false) (hn : n < 256) : ∀ i ≤ n, s.gone (k + i) = false := by
  intro i hi
  have hlimit : (if s.sys.stage < 2 then 2 ^ 36 else 2 ^ 39) ≤ 2 ^ 39 := by split <;> norm_num
  simp only [State.gone, Bool.and_eq_false_iff, decide_eq_false_iff_not] at hlow hhigh ⊢
  generalize (if s.sys.stage < 2 then 2 ^ 36 else 2 ^ 39) = limit at hlimit hlow hhigh ⊢
  omega

/-- A write of bytes that are there reaches no absent device memory. -/
theorem setBytes_absent {l : List Byte} (h : ∀ i < l.length, s.gone (k + i) = false) : (s.setBytes k l).absent = s.absent := by
  induction l generalizing s k with
  | nil => rfl
  | cons b l ih =>
    have htail : ∀ i < l.length, (s.setByte k b).gone (k + 1 + i) = false := fun i hi => by
      rw [show k + 1 + i = k + (i + 1) by omega]
      exact h (i + 1) (Nat.succ_lt_succ hi)
    have hhead : s.gone k = false := h 0 (Nat.succ_pos _)
    rw [State.setBytes, ih htail]
    simp [State.setByte, hhead]

theorem setBytes_settled {l : List Byte} (h : ∀ i < l.length, s.gone (k + i) = false) : (s.setBytes k l).settled = s.settled :=
  State.settled_congr (by simp) (setBytes_absent h)

/-- A value of which the first and the last byte are there. -/
theorem setVal_settled {n v : Nat} (hlow : s.gone k = false) (hhigh : s.gone (k + n) = false) (hn : n < 256) :
    (s.setBytes k (leBytes (n + 1) v)).settled = s.settled :=
  setBytes_settled fun i hi => gone_within hlow hhigh hn i (by simpa [Nat.lt_succ_iff] using hi)

end

/-! ### A package without a stash window -/

theorem anyWindow_congr {s t : State} (h : t.teams = s.teams) : anyWindow t = anyWindow s := by unfold anyWindow; rw [h]

section
variable {s : State} (hw : anyWindow s = false)
include hw

theorem windows_of_no_window {x : Nat × Team} (hx : x ∈ s.teams) : x.2.windows = [] := by
  simpa using List.any_eq_false.mp hw x hx

theorem sysPut_of_no_window (k : Nat) (l : List Byte) : s.sysPut k l = s.setBytes k l := by simp [State.sysPut, hw]

theorem viewByte_of_no_window (k : Nat) : viewByte s k = s.byteAt k := by simp [viewByte, hw, firstSome]

theorem viewBytes_of_no_window (k n : Nat) : viewBytes s k n = s.bytesAt k n := List.map_congr_left fun _ _ => viewByte_of_no_window hw _

theorem ownedIn_of_no_window (k n : Nat) : ownedIn s k n = [] :=
  List.flatMap_eq_nil_iff.mpr fun x hx => by rw [windows_of_no_window hw hx]; rfl

theorem sysShare_of_no_window (k n : Nat) : s.sysShare k n = s := by rw [State.sysShare, ownedIn_of_no_window hw]; rfl

theorem yields_of_no_window (k n : Nat) : yields s k n = true := by simp [yields, hw]

theorem frqReady_of_no_window (page : Nat) : frqReady s page = !frqFull s page := by simp [frqReady, yields_of_no_window hw]

theorem cohRead_of_no_window (k n : Nat) : cohRead s k n = (some (s.bytesAt k n), s) := by simp [cohRead, snoopRange_of_no_window hw]

theorem cohWrite_of_no_window (k : Nat) (l : List Byte) : cohWrite s k l = (true, s.setBytes k l) := by
  simp [cohWrite, snoopRange_of_no_window hw]

end

end Sys2Proof.Machine
end

section
/-! The map unit's instructions on ranges (R222, R226, R228, R229): the translations that the caches lose, a page that DISCARD kills, and the
statement. -/
namespace Sys2Proof.Machine

/-! ### The translation caches -/

theorem tlbFind_eq_none {s : State} {asid : BitVec 12} {va : Nat} :
    tlbFind s asid va = none ↔ ∀ t ∈ s.tlb, t.asid = asid → t.base ≤ va / 65536 → t.base + t.units ≤ va / 65536 := by
  simp [tlbFind, List.find?_eq_none]

/-- An address space that has lost every translation has none (R213, R229). -/
theorem tlbFind_dropTlb_all (s : State) (asid : BitVec 12) (va : Nat) : tlbFind (s.dropTlb asid none) asid va = none :=
  tlbFind_eq_none.mpr fun t ht ha => by simp [State.dropTlb, ha] at ht

/-- A range of units of an address space that has lost its translations has none. -/
theorem tlbFind_dropTlb_range (s : State) (asid : BitVec 12) {lo n va : Nat} (hlow : lo ≤ va / 65536) (hhigh : va / 65536 < lo + n) :
    tlbFind (s.dropTlb asid (some (lo, n))) asid va = none :=
  tlbFind_eq_none.mpr fun t ht ha hb => by
    simp only [State.dropTlb, List.mem_filter, ha, bne_self_eq_false, Bool.false_or, Bool.not_eq_true', Bool.and_eq_false_iff,
      decide_eq_false_iff_not] at ht
    obtain ⟨-, hout⟩ := ht
    omega

/-! ### DISCARD (R222) -/

/-- The one page of a 64 KiB range whose walk ends at a leaf of the last level. -/
theorem pagesIn_of_leaf {s : State} {d : Desc} {va stop k : Nat} {e : DWord} (ha : va % 65536 = 0) (hlow : va < stop) (hhigh : stop ≤ va + 65536)
    (hleaf : walk s d va = .leaf 0 k e) : pagesIn s d 2 va stop = [(va, 65536, .leaf 0 k e)] := by
  have hbase : va / 65536 * 65536 = va := by omega
  have hspan : 2 ^ levelShift 0 = 65536 := by decide
  rw [pagesIn, if_neg (by omega), hleaf]
  simp only [hspan, hbase]
  rw [pagesIn, if_pos hhigh]

section
variable {s : State} {d : Desc} {base span k : Nat} {e : DWord}

/-- The lines and translations that a killed page loses are no part of memory, and reach none that is absent. -/
theorem dword_dropLines (u : State) (lo hi : Nat) (a : BitVec 12) (r : Option (Nat × Nat)) (j : Nat) :
    ((dropLines u lo hi).dropTlb a r).dwordAtKey j = u.dwordAtKey j := dwordAtKey_of_mem rfl rfl j

theorem settled_dropLines (u : State) (lo hi : Nat) (a : BitVec 12) (r : Option (Nat × Nat)) :
    ((dropLines u lo hi).dropTlb a r).settled = u.settled := rfl

/-- Where no stash window is live, the entry of a page that is killed is written in memory, with DEAD set. -/
theorem killPage_entry (hw : anyWindow s = false) : (killPage s d base span k e).dwordAtKey k = setBit e pteDead true := by
  unfold killPage
  dsimp only
  rw [dword_dropLines]
  rw [sysPut_of_no_window (s := dropEntry s k) hw]
  rw [dwordAtKey_setBytes]

theorem setEntry_settled (hlow : s.gone k = false) (hhigh : s.gone (k + 7) = false) (e : DWord) :
    (s.setBytes k (leBytes 8 e.toNat)).settled = s.settled := setVal_settled (n := 7) hlow hhigh (by decide)

theorem killPage_settled (hw : anyWindow s = false) (hlow : s.gone k = false) (hhigh : s.gone (k + 7) = false) :
    (killPage s d base span k e).settled = s.settled := by
  have hput := sysPut_of_no_window (s := dropEntry s k) hw k (leBytes 8 (setBit e pteDead true).toNat)
  have hgone : ∀ j, (dropEntry s k).gone j = s.gone j := gone_congr rfl
  have hset := setEntry_settled ((hgone k).trans hlow) ((hgone (k + 7)).trans hhigh) (setBit e pteDead true)
  exact (settled_dropLines _ _ _ _ _).trans ((congrArg State.settled hput).trans (hset.trans (State.settled_congr rfl rfl)))

/-- The caches have no translation of a 64 KiB page that has been killed. -/
theorem killPage_tlb (s : State) : tlbFind (killPage s d base 65536 k e) d.asid base = none :=
  tlbFind_dropTlb_range _ _ le_rfl (Nat.lt_succ_self _)

end

/-- DISCARD of one page whose leaf has W and DISC kills it. -/
theorem discard_kills {h : Hd} {s : State} {c : Iss} (hr : Ready (.discard h) s c) {base : DWord} {n k : Nat} {e : DWord} {d : Desc}
    (hargs : rangeArgs h c (begun (.discard h) s) = (base, n)) (hd : d = ((begun (.discard h) s).ctx ((begun (.discard h) s).group c.place).page).d)
    (hn : n = 1) (ha : base.toNat % 65536 = 0) (hin : base.toNat + 65536 ≤ 0x00F0000000000000)
    (hleaf : walk (begun (.discard h) s) d base.toNat = .leaf 0 k e) (hwrite : bit e pteW = true) (hdisc : bit e pteDisc = true)
    (hw : anyWindow (begun (.discard h) s) = false) (hlow : (begun (.discard h) s).gone k = false)
    (hhigh : (begun (.discard h) s).gone (k + 7) = false) :
    Completes (.discard h) s c (killPage (begun (.discard h) s) d base.toNat 65536 k e) := by
  have hpages := pagesIn_of_leaf (stop := min (base.toNat + 65536 * 1) 0x00F0000000000000) ha (by omega) (by omega) hleaf
  refine completes_of_go (issuedBy_of_issue rfl (execDiscard.eq_def h s) ⟨rfl, rfl, rfl, rfl⟩) hr ?_ (by rw [killPage_settled hw hlow hhigh, begun_settled, hr.1])
  dsimp only
  rw [← hd, hargs, hn]
  simp [hpages, pagesSnoop, hw, hwrite, hdisc, aligned, ha, snoopRange_of_no_window hw]
  omega

/-- A leaf that its entry gives as DEAD reads as zeros (R223). -/
theorem leafBytes_of_dead {s : State} {d : Desc} {va lv k key m : Nat} {e : DWord} (hdead : bit e pteDead = true)
    (hleaf : walk s d va = .leaf lv k e) : leafBytes s d va e key m = List.replicate m 0 := by
  simp [leafBytes, deadNow, hdead, hleaf]

/-! ### PGHINT, PGMAP.fwd and TLBINV (R220, R228, R229) -/

section
variable {h : Hd} {s : State} {c : Iss} {base : DWord} {n : Nat}

theorem pghint_of_outside {x : WHint} (hr : Ready (.pghint h x) s c) (hargs : rangeArgs h c (begun (.pghint h x) s) = (base, n))
    (hout : n = 0 ∨ 0x00F0000000000000 < base.toNat + 65536 * n) : Completes (.pghint h x) s c (begun (.pghint h x) s) := by
  refine completes_of_go (issuedBy_of_issue rfl (execPghint.eq_def h x s) ⟨rfl, rfl, rfl, rfl⟩) hr ?_ (by rw [begun_settled, hr.1])
  have hnone : (decide (n = 0) || !inTranslated base (65536 * n)) = true := by
    rcases hout with hz | hhigh
    · simp [hz]
    · simp [inTranslated, hhigh]
  dsimp only
  rw [hargs]
  exact if_pos hnone

theorem pghint_posts {x : WHint} (hr : Ready (.pghint h x) s c) (hargs : rangeArgs h c (begun (.pghint h x) s) = (base, n))
    (hn : n ≠ 0) (hin : base.toNat + 65536 * n ≤ 0x00F0000000000000) {u : State}
    (hu : u = postHint (begun (.pghint h x) s) ((begun (.pghint h x) s).group c.place).page
      (hintRec (begun (.pghint h x) s) c.place c.pc base n x.kind.toNat x.prio.toNat)) (hset : u.settled = true) :
    Completes (.pghint h x) s c u := by
  refine completes_of_go (issuedBy_of_issue rfl (execPghint.eq_def h x s) ⟨rfl, rfl, rfl, rfl⟩) hr ?_ hset
  have hsome : (decide (n = 0) || !inTranslated base (65536 * n)) = false := by simp [inTranslated, hn, hin]
  dsimp only
  rw [hargs, hu]
  exact if_neg (by rw [hsome]; decide)

/-- The handler's fault as a record of its own (R220). -/
def fwdRec (s : State) (place : Nat) : FRec :=
  { recOf s place (s.group place).h.epc with
    code := (s.group place).h.ecause, kind := (s.group place).h.kind, va := (s.group place).h.eaddr, mask := (s.group place).h.emask,
    flags := flFwd ||| flLast }

theorem pgmapFwd_posts {t : Nat} {u : State} (hr : Ready (.pgmapFwd h) s c)
    (hp : postWaiting (begun (.pgmapFwd h) s) ((begun (.pgmapFwd h) s).group c.place).page (fwdRec (begun (.pgmapFwd h) s) c.place) false
      (some c.place) none none = (t, u)) (hset : u.settled = true) :
    ∃ s2, Completes (.pgmapFwd h) s c s2 ∧ (s2.group c.place).fwd = ((begun (.pgmapFwd h) s).group c.place).fwd ++ [t] ∧ s2.mem = u.mem := by
  have hgroups : u.groups = (begun (.pgmapFwd h) s).groups := by
    rw [← postWaiting_groups (begun (.pgmapFwd h) s) _ _ false (some c.place) none none, hp]
  refine ⟨u.modGroup c.place (fun g => { g with fwd := g.fwd ++ [t] }), ?_, ?_, by simp⟩
  · refine completes_of_go (issuedBy_of_issue rfl (execPgmapFwd.eq_def h s) ⟨rfl, rfl, rfl, rfl⟩) hr ?_ (by simpa using hset)
    dsimp only
    rw [← fwdRec, hp]
    rfl
  · have hfind : ffind u.groups c.place = some ((begun (.pgmapFwd h) s).group c.place) := by rw [hgroups]; exact hr.find_begun
    rw [State.group_modGroup _ hfind]
    exact congrArg (Group.fwd · ++ [t]) (State.group_of_find hfind)

/-- Where a context holds no stash line, none of its lines lies in a range. -/
theorem linesIn_eq_nil {page : Nat} (hl : linesIn s page none = []) (range : Option (Nat × Nat)) : linesIn s page range = [] := by
  refine List.flatMap_eq_nil_iff.mpr fun t ht => ?_
  have hteam := List.flatMap_eq_nil_iff.mp hl t ht
  split at hteam
  · next hpage => exact if_pos hpage
  · next hpage =>
    refine (if_neg hpage).trans (List.flatMap_eq_nil_iff.mpr fun w hw => ?_)
    have hnone : w.2.lines = [] := by simpa using List.flatMap_eq_nil_iff.mp hteam w hw
    simp [hnone]

/-- An invalidation with no line to be given up and no quantiser operation writing is done at once. -/
theorem invalidate_of_no_line {page : Nat} {range : Option (Nat × Nat)} (hl : linesIn s page range = []) (hq : quantWrites s page = false) :
    let r := range.map (fun r => (r.1 / 65536, r.2 / 65536))
    let asid := (s.ctx page).d.asid
    invalidate s page range = (true, (s.dropTlb asid r).dropTlb asid r) := by
  simp [invalidate, hl, hq]
  rfl

/-- Stash lines and quantiser operations are as before once an instruction has begun. -/
theorem Ready.linesIn_begun {i : Instr} (hr : Ready i s c) (page : Nat) (range : Option (Nat × Nat)) :
    linesIn (begun i s) page range = linesIn s page range := by
  obtain ⟨⟨-, -, hteams, -⟩, -⟩ := hr.near
  rw [linesIn, hteams, linesIn]

theorem Ready.ctx_begun {i : Instr} (hr : Ready i s c) (page : Nat) : (begun i s).ctx page = s.ctx page := by
  obtain ⟨⟨-, -, -, hctxs, -⟩, -⟩ := hr.near
  rw [State.ctx, hctxs, State.ctx]

end

section
variable {h : Hd} {s : State} {c : Iss}

/-- A TLBINV that meets no line to be given up and no quantiser operation writing removes the translations at once (R229). -/
theorem tlbinv_drops (hr : Ready (.tlbinv h) s c) {base : DWord} {n page : Nat} (hargs : rangeArgs h c (begun (.tlbinv h) s) = (base, n))
    (hpage : ((begun (.tlbinv h) s).group c.place).page = page) (ha : bit h.mod 0 = true → base.toNat % 65536 = 0)
    (hl : linesIn s page none = []) (hq : quantWrites s page = false) :
    let r := if bit h.mod 0 then some (base.toNat / 65536, n) else none
    let drop (u : State) := u.dropTlb (s.ctx page).d.asid r
    Completes (.tlbinv h) s c (drop (drop (begun (.tlbinv h) s))) := by
  intro r drop
  have hinv : invalidate (begun (.tlbinv h) s) page (if bit h.mod 0 then some (base.toNat, 65536 * n) else none) =
      (true, drop (drop (begun (.tlbinv h) s))) := by
    rw [invalidate_of_no_line (s := begun (.tlbinv h) s) (by rw [hr.linesIn_begun]; exact linesIn_eq_nil hl _) hq, hr.ctx_begun]
    have hn : 65536 * n / 65536 = n := Nat.mul_div_cancel_left n (by decide)
    simp only [drop, r]
    split <;> simp [hn]
  refine completes_of_go (issuedBy_of_issue rfl (execTlbinv.eq_def h s) ⟨rfl, rfl, rfl, rfl⟩) hr ?_ ((begun_settled _ s).trans hr.1)
  have haligned : (bit h.mod 0 && !aligned base.toNat 65536) = false := by
    cases hb : bit h.mod 0
    · rfl
    · simp [aligned, ha hb]
  dsimp only
  rw [hargs, hpage]
  dsimp only
  rw [haligned, if_neg Bool.false_ne_true, hinv]

/-- The window of the hot-page tracker ends once its 2^20 fabric cycles are over (R226). -/
theorem hotWindowExpiry_clears (hset : s.settled = true) (hlt : s.sys.hotwin < s.sys.fab / 2 ^ 20) :
    ∃ t, exec .hotWindowExpiry s = .next t ∧ t.hot = [] ∧ t.sys.hotwin = s.sys.fab / 2 ^ 20 := by
  have hnew : hotWindow s = { s with hot := [], sys := { s.sys with hotwin := s.sys.fab / 2 ^ 20 } } := if_pos hlt
  refine ⟨hotWindow s, event_settled ?_, by rw [hnew], by rw [hnew]⟩
  rw [hnew]
  exact hset

end

/-- Settles O37: each instruction by the lemma about its effect, with the translation caches read by `tlbFind_dropTlb_all` and
`tlbFind_dropTlb_range`. -/
theorem mapUnitServices : Obligations.MapUnitServices := by
  unfold Obligations.MapUnitServices
  refine ⟨fun h s c hr => ⟨fun hn => ?_, fun k e hn ha hin hleaf hwrite hdisc hw hlow hhigh => ?_, ?_⟩,
    fun h x s c hr => ⟨pghint_of_outside hr rfl, fun hn hin => ?_⟩, fun h s c => ⟨fun hr => ?_, fun hr => ?_, hotWindowExpiry_clears⟩⟩
  · refine completes_of_go (issuedBy_of_issue rfl (execDiscard.eq_def h s) ⟨rfl, rfl, rfl, rfl⟩) hr (if_pos hn) (by rw [begun_settled, hr.1])
  · refine ⟨_, discard_kills hr rfl rfl hn ha hin hleaf hwrite hdisc hw hlow hhigh, ?_, killPage_tlb _⟩
    exact (killPage_entry (s := begun (.discard h) s) hw).trans rfl
  · exact fun va lv k e key m hdead hleaf => leafBytes_of_dead hdead hleaf
  · exact fun hset => pghint_posts hr rfl hn hin rfl hset
  · exact fun hset => pgmapFwd_posts hr rfl hset
  · intro g base n asid ha hl hq
    refine ⟨_, tlbinv_drops hr rfl rfl ha hl hq, fun hb va => ?_, fun hb va hlow hhigh => ?_⟩
    · rw [if_neg (by rw [hb]; decide)]
      exact tlbFind_dropTlb_all _ _ _
    · have hbase := ha hb
      rw [if_pos hb]
      exact tlbFind_dropTlb_range _ _ (lo := base.toNat / 65536) (n := n) (by omega) (by omega)

end Sys2Proof.Machine
end

section
/-! The driver's answers, watchdogs and held records (R216 to R218, R224, R250, R251): how a step that ends contexts settles, what an answer
leaves of a parked group, what the end of a claim leaves, and the statement. -/
namespace Sys2Proof.Machine

/-! ### Terminations that a step has decided (R29, R427) -/

section
variable {s : State} {page : Nat}

/-- The end of a step carries out every termination that it has decided. -/
theorem event_settleDoom (h : (settleDoom s).absent = false) : event s = .next (settleDoom s) := by
  have hend : (if s.ctxs.any (fun c => c.2.doom.isSome) then settleDoom s else s) = settleDoom s := by
    by_cases hany : s.ctxs.any (fun c => c.2.doom.isSome) = true
    · exact if_pos hany
    · have hnone : ∀ c ∈ s.ctxs, c.2.doom = none := by simpa using hany
      rw [if_neg hany, settleDoom_eq]
      exact (List.foldlRecOn (motive := fun t : State => t = s) s.ctxs _ rfl fun t ht c hc => (endDoomed_none (hnone c hc) t).trans ht).symm
  unfold event finish
  rw [hend]
  simp [h]

/-- Where the only terminations under way are of one context, and one is, the context ends. -/
theorem settleDoom_ends (honly : ∀ x ∈ s.ctxs, x.2.doom ≠ none → x.1 = page) (h : (s.ctx page).doom ≠ none) :
    ((settleDoom s).ctx page).state = 6 := by
  refine endDoomed_foldl _ _ honly (Or.inr ?_)
  cases hc : ffind s.ctxs page with
  | some c => exact ⟨(page, c), mem_of_ffind hc, by rwa [State.ctx, fget, hc] at h⟩
  | none => exact absurd (by rw [State.ctx, fget, hc]; rfl) h

/-- A termination of a context that is there stands among its registers. -/
theorem doom_of_running (hs : s.settled = true) (hlow : 2 ≤ (s.ctx page).state) (hhigh : (s.ctx page).state ≤ 4) (r : FRec) :
    doom s page r = s.setCtx page { s.ctx page with doom := some { r with flags := flTerminal ||| flLast, parts := 1, part := 1 } } := by
  have hfree : ((s.ctx page).doom.isSome || (s.ctx page).state == 0 || (s.ctx page).state == 6) = false := by
    simp only [State.doom_ctx hs page, Option.isSome_none, Bool.false_or, Bool.or_eq_false_iff, beq_eq_false_iff_ne]
    omega
  unfold doom
  simp only [hfree, Bool.false_eq_true, if_false]

/-- A context of a settled state whose registers take a termination ends with the step. -/
theorem setCtx_ends (hs : ∀ x ∈ s.ctxs, x.2.doom ≠ none → x.1 = page) {c : Ctx} (hc : c.doom ≠ none) :
    ((settleDoom (s.setCtx page c)).ctx page).state = 6 := by
  refine settleDoom_ends (fun x hx hd => ?_) (by rwa [State.ctx_setCtx])
  rcases of_mem_fput hx with rfl | hx
  · rfl
  · exact hs x hx hd

theorem doom_ends (hs : s.settled = true) (hlow : 2 ≤ (s.ctx page).state) (hhigh : (s.ctx page).state ≤ 4) (r : FRec) :
    ((settleDoom (doom s page r)).ctx page).state = 6 := by
  rw [doom_of_running hs hlow hhigh]
  exact setCtx_ends (fun x hx hd => absurd (State.doom_of_mem hs hx) hd) (by simp)

end

/-! ### The end of a claim (R224, R225) -/

@[simp] theorem countMove_groups (s : State) (asid : BitVec 12) (key : Nat) (e : DWord) (base : Nat) (toHost : Bool) :
    (countMove s asid key e base toHost).groups = s.groups := by
  simp only [countMove, apply_ite State.groups, sysPut_groups, ite_self]

@[simp] theorem endClaim_groups (s : State) (c : Claim) : (endClaim s c).groups = s.groups := by
  unfold endClaim
  dsimp only
  split
  · split
    · rfl
    · exact countMove_groups _ _ _ _ _ _
  · rfl

@[simp] theorem endRecordClaims_groups (s : State) (page : Nat) (seq : Word) : (endRecordClaims s page seq).groups = s.groups :=
  groups_foldl endClaim_groups _ s

/-! ### The answer of resume (R218) -/

section
variable {s : State} {pl : Nat} {g : Group} {k : Park}

/-- A group that was parked outside a handler's return and for no operation or stream goes on. -/
theorem unpark_of_plain (hsv : k.svret = false) (hop : k.op = none) (hst : k.stream = none) :
    ∃ u, (∀ g : Group, (u g).park = g.park) ∧ unpark s pl k = (s.modGroup pl (fun g => { g with park := none })).modGroup pl u := by
  refine ⟨fun g => g.modFrag k.slot (fun f => { f with only := k.only, ready := max f.ready (nowAt (s.modGroup pl (fun g => { g with park := none })) pl) }),
    fun g => Group.modFrag_park _ _ _, ?_⟩
  unfold unpark
  simp only [hsv, hop, hst, letGo, Bool.false_eq_true, if_false, Option.isSome_none, Bool.or_self]

/-- The answer to the one part that a group is parked for lets it go. -/
theorem answerGroup_of_parked {t : Nat} (hg : ffind s.groups pl = some g) (hpark : g.park = some k) (htick : k.tickets = [t]) (hdead : k.dead = false) :
    answerGroup s pl t = unpark (s.modGroup pl (fun g => { g with fwd := g.fwd.filter (fun u => u != t) })) pl { k with tickets := [] } := by
  unfold answerGroup
  dsimp only
  rw [State.group_of_find (State.find_modGroup _ hg)]
  simp only [hpark, hdead, htick, Bool.false_or, List.contains_cons, beq_self_eq_true, Bool.true_or, Bool.not_true, Bool.false_eq_true, if_false,
    bne_self_eq_false, not_false_eq_true, List.filter_cons_of_neg, List.filter_nil, List.isEmpty_nil, if_true]

theorem answerGroup_park {t : Nat} (hg : ffind s.groups pl = some g) (hpark : g.park = some k) (htick : k.tickets = [t]) (hdead : k.dead = false)
    (hsv : k.svret = false) (hop : k.op = none) (hst : k.stream = none) :
    ((answerGroup s pl t).group pl).park = none ∧ (answerGroup s pl t).ctxs = s.ctxs := by
  have hfwd := State.find_modGroup (fun g => { g with fwd := g.fwd.filter (fun u => u != t) }) hg
  have hfind := State.find_modGroup (fun g => { g with park := none }) hfwd
  obtain ⟨u, hu, he⟩ := unpark_of_plain (s := s.modGroup pl (fun g => { g with fwd := g.fwd.filter (fun u => u != t) })) (pl := pl)
    (k := { k with tickets := [] }) hsv hop hst
  rw [answerGroup_of_parked hg hpark htick hdead, he]
  refine ⟨?_, by simp⟩
  rw [State.group_of_find (State.find_modGroup u hfind), hu]

/-- The answer to a part of a group alone is the answer to the group. -/
theorem answerPart_of_place {page : Nat} {p : Pending} (hplace : p.place = some pl) (hop : p.op = none) (hline : p.line = none) :
    answerPart s page p =
      answerGroup (s.setCtx page { s.ctx page with waiting := (s.ctx page).waiting.filter (fun q => q.ticket != p.ticket) }) pl p.ticket := by
  simp only [answerPart, hplace, hop, hline]

theorem resume_park {page : Nat} {p : Pending} {seq : Word} (hplace : p.place = some pl) (hpop : p.op = none) (hline : p.line = none)
    (hg : ffind s.groups pl = some g) (hpark : g.park = some k) (htick : k.tickets = [p.ticket]) (hdead : k.dead = false)
    (hsv : k.svret = false) (hop : k.op = none) (hst : k.stream = none) :
    ((endRecordClaims (answerPart s page p) page seq).group pl).park = none := by
  rw [State.group, endRecordClaims_groups, ← State.group, answerPart_of_place hplace hpop hline]
  exact (answerGroup_park (by simpa using hg) hpark htick hdead hsv hop hst).1

theorem resume_occurs {page : Nat} {p : Pending} {seq : Word} (hp : unanswered s page seq = some p) :
    Occurs (.frespResume page seq) s (endRecordClaims (answerPart s page p) page seq) := fun hset => by
  show execFrespResume page seq s = _
  unfold execFrespResume
  rw [hp]
  exact event_settled hset

theorem terminate_occurs {page : Nat} {p : Pending} {seq : Word} (hp : unanswered s page seq = some p)
    (hthere : (settleDoom (doom s page p.frec)).absent = false) : exec (.frespTerminate page seq) s = .next (settleDoom (doom s page p.frec)) := by
  show execFrespTerminate page seq s = _
  unfold execFrespTerminate
  rw [hp]
  exact event_settleDoom hthere

end

/-! ### Held records and watchdogs (R217, R250, R251) -/

section
variable {s : State}

/-- A held record is posted once there is space and no stash line of the queue refuses its write-back. -/
theorem heldRecord_posted {page : Nat} {r : FRec} {l : List FRec} (hheld : (s.ctx page).heldRecs = r :: l) (hroom : frqFull s page = false)
    (hstate : (s.ctx page).state ∉ [0, 4]) (hline : anyWindow s = false ∨ frqReady s page = true) :
    Occurs (.faultRecordPost page) s (writeRec (s.setCtx page { s.ctx page with heldRecs := l }) page r) := fun hset => by
  have hready : frqReady s page = true := hline.elim (fun hw => by rw [frqReady_of_no_window hw, hroom]; rfl) id
  have hidle : (decide ((s.ctx page).state = 0) || decide ((s.ctx page).state = 4)) = false := by simpa using hstate
  show execFaultRecordPost page s = _
  unfold execFaultRecordPost
  simp only [hheld, hready, hidle, Bool.not_true, Bool.false_eq_true, if_false]
  exact event_settled hset

/-- The terminal record of an expired watchdog, which names the slot's first waiter (R251). -/
def watchdogRec (s : State) (team slot : Nat) (w : Waiter) : FRec :=
  let x := slotAt s { team := team, slot := slot }
  let (id, counts, st) := wdWords x slot (waiters s { team := team, slot := slot }).length
  { recOf s w.place w.pc with
    code := codeOf 4 cBarTimeout, mask := w.mask, d0 := id, d1 := counts, d2 := if x.kind = 2 then 0 else x.part &&& ~~~x.arrmask, d3 := st }

/-- The context's end with a watchdog's record, and the diagnostic block where the context names a place for it. -/
def watchdogDoom (s : State) (team slot : Nat) (w : Waiter) : State :=
  let page := (s.team team).page
  let b := doom s page (watchdogRec s team slot w)
  if (s.ctx page).d.wddiag = 0 then b
  else b.setCtx page { b.ctx page with block := some (wdBlock s { team := team, slot := slot } (waiters s { team := team, slot := slot })) }

theorem watchdog_expires {team slot : Nat} {w : Waiter} (hexp : (expired s (s.team team).page).head? = some ((s.team team).core, team, slot))
    (hw : (waiters s { team := team, slot := slot }).head? = some w) (hidle : coreMayIssue s (s.team team).core = false)
    (hthere : (settleDoom (watchdogDoom s team slot w)).absent = false) :
    exec (.barrierWatchdogExpiry team slot) s = .next (settleDoom (watchdogDoom s team slot w)) := by
  show execBarrierWatchdogExpiry team slot s = _
  unfold execBarrierWatchdogExpiry
  simp only [hexp, hw, hidle, bne_self_eq_false, Bool.or_self, Bool.false_eq_true, if_false]
  exact event_settleDoom hthere

theorem watchdogDoom_ends {team slot : Nat} {w : Waiter} (hs : s.settled = true) (hstate : (s.ctx (s.team team).page).state = 2) :
    ((settleDoom (watchdogDoom s team slot w)).ctx (s.team team).page).state = 6 := by
  have hdoom := doom_of_running hs (page := (s.team team).page) (by omega) (by omega) (watchdogRec s team slot w)
  unfold watchdogDoom
  dsimp only
  split
  · exact doom_ends hs (by omega) (by omega) _
  · refine setCtx_ends (fun x hx hd => ?_) (by rw [hdoom]; simp)
    rw [hdoom] at hx
    rcases of_mem_fput hx with rfl | hx
    · rfl
    · exact absurd (State.doom_of_mem hs hx) hd

end

/-- Settles O48: each answer and event by the lemma about it, and each termination by `setCtx_ends`. -/
theorem recordsAreAnswered : Obligations.RecordsAreAnswered := by
  unfold Obligations.RecordsAreAnswered
  intro s hs
  refine ⟨fun page seq p hp => ⟨fun hset => ⟨resume_occurs hp hset, ?_⟩, fun hthere => ⟨terminate_occurs hp hthere, fun hlow hhigh => ?_⟩⟩,
    fun page r l hheld hroom hstate hline => heldRecord_posted hheld hroom hstate hline, fun team slot w => ?_⟩
  · exact fun pl k g hplace hpop hline hg _ hpark htick hdead hsv hop hst => resume_park hplace hpop hline hg hpark htick hdead hsv hop hst
  · exact doom_ends hs hlow hhigh _
  · exact fun hexp hw hidle => ⟨watchdogRec s team slot w, rfl, rfl, rfl, rfl, fun hthere =>
      ⟨watchdog_expires hexp hw hidle hthere, fun hstate => watchdogDoom_ends hs hstate⟩⟩

end Sys2Proof.Machine
end

section
/-! The system controller (R224, R225, R418, R419, R421, R422): invalidation by the host, move claims, monitors, scrubbing and row remapping, and
the statement. -/
namespace Sys2Proof.Machine

/-- A map whose values are changed by a function of the value. -/
theorem ffind_map_values {β γ : Type} (f : β → γ) (m : FMap β) (k : Nat) : ffind (m.map (fun x => (x.1, f x.2))) k = (ffind m k).map f := by
  induction m with
  | nil => rfl
  | cons x m ih =>
    rw [List.map_cons, ffind, ffind]
    split
    · rfl
    · exact ih

/-- Every copy of an element is gone once each copy of a list that holds them all has been erased. -/
theorem not_mem_foldl_erase {α : Type} [DecidableEq α] {l lost : List α} {y : α} (h : lost.count y = l.count y) : y ∉ lost.foldl List.erase l := by
  rw [← List.diff_eq_foldl, ← List.count_eq_zero, List.count_diff, h, Nat.sub_self]

/-! ### Invalidation by the host (R418) -/

section
variable {s : State} {r : BitVec 12 × Option (Nat × Nat)} {ok : Bool} {u : State}

/-- INVGO is busy until its lines have been given up. -/
theorem retryInvalidate_of_try (hinv : s.sys.inv = some r) (htry : tryInvalidate s r = (ok, u)) :
    retryInvalidate s = if ok then u.modSys (fun y => { y with inv := none }) else u := by
  unfold retryInvalidate
  simp only [hinv, htry]

theorem invgo_tries (hup : hostUp s = true) (hidle : s.sys.inv = none) (hbase : bits s.sys.invbase 0 16 = 0) (hasid : bits s.sys.invasid 12 20 = 0)
    (hr : r = (bits s.sys.invasid 0 12, if s.sys.invcnt = 0 then none else some (s.sys.invbase.toNat, 65536 * s.sys.invcnt.toNat)))
    (htry : tryInvalidate (s.modSys (fun y => { y with inv := some r })) r = (ok, u)) (hset : u.settled = true) :
    ∃ t, exec .invgo s = .next t ∧ t.mem = u.mem ∧ t.tlb = u.tlb ∧ t.sys.inv = (if ok then none else u.sys.inv) := by
  have hgo : doInvgo s = if ok then u.modSys (fun y => { y with inv := none }) else u := by
    have hbusy : (s.sys.inv.isSome || bits s.sys.invbase 0 16 != 0 || bits s.sys.invasid 12 20 != 0) = false := by
      simp only [hidle, hbase, hasid]
      rfl
    rw [← retryInvalidate_of_try (s := s.modSys (fun y => { y with inv := some r })) rfl htry, hr]
    unfold doInvgo
    simp only [hbusy, Bool.false_eq_true, if_false]
    rfl
  refine ⟨if ok then u.modSys (fun y => { y with inv := none }) else u, ?_, ?_⟩
  · show execInvgo s = _
    unfold execInvgo
    rw [if_pos hup, hgo]
    exact event_settled (by split <;> exact hset)
  · cases ok <;> exact ⟨rfl, rfl, rfl⟩

end

/-! ### Claims answered (R224, R419) -/

section
variable {s : State} {c : Claim} {granted : Bool}

@[simp] theorem answerClaim_claims (s : State) (c : Claim) (granted : Bool) : (answerClaim s c granted).claims = s.claims := by
  unfold answerClaim
  split <;> rfl

@[simp] theorem answerClaim_ctxs (s : State) (c : Claim) (granted : Bool) : (answerClaim s c granted).ctxs = s.ctxs := by
  unfold answerClaim
  split <;> rfl

@[simp] theorem answerClaim_settled (s : State) (c : Claim) (granted : Bool) : (answerClaim s c granted).settled = s.settled := by
  unfold answerClaim
  split <;> rfl

/-- The host reads its answer in MIGCTL. -/
theorem answerClaim_host (hc : c.host = true) : (answerClaim s c granted).sys.mig = if granted then 2 else 3 := by
  unfold answerClaim
  rw [if_pos hc]
  rfl

theorem answerClaim_sys (hc : c.host = false) : (answerClaim s c granted).sys = s.sys := by
  unfold answerClaim
  rw [if_neg (by rw [hc]; decide)]

/-- The driver is told its answer. -/
theorem answerClaim_out (hc : c.host = false) : (answerClaim s c granted).out = s.out ++ [.claim ((pageOfAsid s c.asid).getD 0) c.seq granted] := by
  unfold answerClaim
  rw [if_neg (by rw [hc]; decide)]

theorem mem_answerClaim_out {x : Sent} (h : x ∈ s.out) : x ∈ (answerClaim s c granted).out := by
  unfold answerClaim
  split
  · exact h
  · exact List.mem_append_left _ h

theorem pageOfAsid_congr {t : State} (h : t.ctxs = s.ctxs) (asid : BitVec 12) : pageOfAsid t asid = pageOfAsid s asid := by
  unfold pageOfAsid
  rw [h]

@[simp] theorem retryClaim_claims (s : State) (c : Claim) : (retryClaim s c).claims = s.claims.erase c := answerClaim_claims _ c false

@[simp] theorem retryClaim_ctxs (s : State) (c : Claim) : (retryClaim s c).ctxs = s.ctxs := answerClaim_ctxs _ c false

@[simp] theorem retryClaim_settled (s : State) (c : Claim) : (retryClaim s c).settled = s.settled := answerClaim_settled _ c false

/-- A claim that is granted, with where its page is. -/
def Claim.grantedAt (c : Claim) (lf : Option (Nat × DWord × Nat)) : Claim := { c with granted := true, loc := lf.map (fun x => pteLoc x.2.1) }

/-- The claims among which one has been granted. -/
def grantClaim (s : State) (c : Claim) : State :=
  answerClaim { s with claims := s.claims.map (fun x => if x == c then c.grantedAt (claimLeaf s c) else x) } c true

/-- A claim is answered RETRY of an address space that no context has loaded, or of a page with SHR. -/
theorem judgeClaim_of_no_page (h : pageOfAsid s c.asid = none) : judgeClaim s c = retryClaim s c := by
  unfold judgeClaim
  simp [h]

theorem judgeClaim_of_shr {k b : Nat} {e : DWord} (hlf : claimLeaf s c = some (k, e, b)) (hshr : bit e pteShr = true) :
    judgeClaim s c = retryClaim s c := by
  unfold judgeClaim
  simp [hlf, hshr]

theorem page_of_claimLeaf {x : Nat × DWord × Nat} (hlf : claimLeaf s c = some x) : (pageOfAsid s c.asid).isNone = false := by
  unfold claimLeaf at hlf
  cases h : pageOfAsid s c.asid with
  | none => rw [h] at hlf; cases hlf
  | some page => rfl

theorem judgeClaim_of_leaf {k b : Nat} {e : DWord} (hlf : claimLeaf s c = some (k, e, b)) (hshr : bit e pteShr = false) :
    judgeClaim s c = grantClaim s c := by
  unfold judgeClaim grantClaim
  simp [hlf, hshr, page_of_claimLeaf hlf, Claim.grantedAt]

theorem judgeClaim_cases (s : State) (c : Claim) : judgeClaim s c = retryClaim s c ∨ judgeClaim s c = grantClaim s c := by
  unfold judgeClaim
  exact ite_eq_or_eq _ _ _

@[simp] theorem judgeClaim_settled (s : State) (c : Claim) : (judgeClaim s c).settled = s.settled := by
  rcases judgeClaim_cases s c with h | h
  · rw [h, retryClaim_settled]
  · rw [h, grantClaim, answerClaim_settled]
    rfl

theorem judgeClaim_sys (hc : c.host = false) : (judgeClaim s c).sys = s.sys := by
  rcases judgeClaim_cases s c with h | h <;> rw [h]
  · exact answerClaim_sys hc
  · exact answerClaim_sys hc

theorem mem_judgeClaim_out {x : Sent} (h : x ∈ s.out) : x ∈ (judgeClaim s c).out := by
  rcases judgeClaim_cases s c with hj | hj <;> rw [hj]
  · exact mem_answerClaim_out h
  · exact mem_answerClaim_out h

/-- A judged claim brings no waiting claim in. -/
theorem not_mem_judgeClaim {y : Claim} (hy : y.granted = false) (h : y ∉ s.claims) : y ∉ (judgeClaim s c).claims := by
  rcases judgeClaim_cases s c with hj | hj <;> rw [hj]
  · rw [retryClaim_claims]
    exact fun hm => h (List.mem_of_mem_erase hm)
  · rw [grantClaim, answerClaim_claims]
    intro hm
    obtain ⟨x, hx, rfl⟩ := List.mem_map.mp hm
    split at hy
    · cases hy
    · next hne => exact h (by rwa [if_neg hne])

/-- What the side that claims is told (R224, R419). -/
def toldOf (s : State) (c : Claim) (t : State) (granted : Bool) : Prop :=
  (c.host = true → t.sys.mig = (if granted then 2 else 3)) ∧
  (c.host = false → t.out = s.out ++ [.claim ((pageOfAsid s c.asid).getD 0) c.seq granted])

theorem toldOf_retryClaim (s : State) (c : Claim) : toldOf s c (retryClaim s c) false := ⟨answerClaim_host, answerClaim_out⟩

theorem toldOf_grantClaim (s : State) (c : Claim) : toldOf s c (grantClaim s c) true := ⟨answerClaim_host, answerClaim_out⟩

theorem mem_grantClaim (h : c ∈ s.claims) : c.grantedAt (claimLeaf s c) ∈ (grantClaim s c).claims := by
  rw [grantClaim, answerClaim_claims]
  exact List.mem_map.mpr ⟨c, h, if_pos (beq_self_eq_true c)⟩

end

/-! ### Claims of both sides on one page (R224) -/

section
variable {s : State} {lost : List Claim}

/-- Claims answered RETRY one after the other. -/
theorem foldl_retryClaim_claims (lost : List Claim) (s : State) : (lost.foldl retryClaim s).claims = lost.foldl List.erase s.claims := by
  induction lost generalizing s with
  | nil => rfl
  | cons c lost ih => rw [List.foldl_cons, List.foldl_cons, ih, retryClaim_claims]

theorem foldl_retryClaim_settled (lost : List Claim) (s : State) : (lost.foldl retryClaim s).settled = s.settled :=
  List.foldlRecOn (motive := fun t : State => t.settled = s.settled) lost _ rfl fun t ht c _ => (retryClaim_settled t c).trans ht

theorem mem_foldl_retryClaim_out {x : Sent} (h : x ∈ s.out) : x ∈ (lost.foldl retryClaim s).out :=
  List.foldlRecOn (motive := fun t : State => x ∈ t.out) lost _ h fun _ ht _ _ => mem_answerClaim_out ht

/-- The host reads RETRY where its claims lose. -/
theorem foldl_retryClaim_mig (hhost : ∀ c ∈ lost, c.host = true) (hne : lost ≠ []) : (lost.foldl retryClaim s).sys.mig = 3 := by
  obtain ⟨front, c, rfl⟩ := List.eq_nil_or_concat lost |>.resolve_left hne
  rw [List.concat_eq_append, List.foldl_append]
  exact answerClaim_host (hhost c (by simp))

/-- The driver is told of each of its claims that loses. -/
theorem foldl_retryClaim_out {y : Claim} (hy : y ∈ lost) (hhost : y.host = false) :
    .claim ((pageOfAsid s y.asid).getD 0) y.seq false ∈ (lost.foldl retryClaim s).out := by
  induction lost generalizing s with
  | nil => cases hy
  | cons c lost ih =>
    rw [List.foldl_cons]
    rcases List.mem_cons.mp hy with rfl | hy
    · refine mem_foldl_retryClaim_out ?_
      rw [retryClaim, answerClaim_out hhost]
      exact List.mem_append_right _ List.mem_cons_self
    · rw [← pageOfAsid_congr (retryClaim_ctxs s c)]
      exact ih hy

/-- Of the two sides that wait for a page, the one that HOME names. -/
theorem host_of_winner {c x : Claim} (hx : x.host ≠ c.host) (home : Bool) : (if c.host == home then c else x).host = home := by
  split
  · next h => exact eq_of_beq h
  · next h =>
    rw [beq_iff_eq] at h
    revert hx h
    cases x.host <;> cases c.host <;> cases home <;> simp

/-- Claims of the side that loses are answered RETRY, all of them, whatever becomes of the winner. -/
theorem losers_retried {win y : Claim} {p : Claim → Bool} (hmem : y ∈ s.claims) (hp : p y = true) (hwait : y.granted = false)
    (hsame : ∀ c, p c = true → c.host = y.host) (hwin : win.host ≠ y.host) :
    let t := judgeClaim ((s.claims.filter p).foldl retryClaim s) win
    y ∉ t.claims ∧ (y.host = true → t.sys.mig = 3) ∧ (y.host = false → .claim ((pageOfAsid s y.asid).getD 0) y.seq false ∈ t.out) := by
  have hlost : y ∈ s.claims.filter p := List.mem_filter.mpr ⟨hmem, hp⟩
  refine ⟨not_mem_judgeClaim hwait ?_, fun hhost => ?_, fun hdriver => mem_judgeClaim_out (foldl_retryClaim_out hlost hdriver)⟩
  · rw [foldl_retryClaim_claims]
    exact not_mem_foldl_erase (List.count_filter hp)
  · rw [judgeClaim_sys (by rw [hhost] at hwin; simpa using hwin)]
    exact foldl_retryClaim_mig (fun c hc => (hsame c (List.mem_filter.mp hc).2).trans hhost) (List.ne_nil_of_mem hlost)

/-- The oldest waiting claim of a page that no claim holds. -/
def nextClaim (s : State) : Option Claim := s.claims.find? (fun c => !c.granted && !s.claims.any (fun x => x.granted && samePage s x c))

/-- A waiting claim of the other side on the page of a claim. -/
def rivalClaim (s : State) (c : Claim) : Option Claim := s.claims.find? (fun x => !x.granted && x.host != c.host && samePage s x c)

variable {c : Claim}

theorem moveClaimGrant_judges (hs : s.settled = true) (hc : nextClaim s = some c) (hx : rivalClaim s c = none) :
    exec .moveClaimGrant s = .next (judgeClaim s c) := by
  rw [nextClaim] at hc
  rw [rivalClaim] at hx
  show execMoveClaimGrant s = _
  unfold execMoveClaimGrant
  simp only [hc, hx]
  exact event_settled (by rwa [judgeClaim_settled])

/-- Where both sides wait for a page, the claims of the side that HOME does not name are answered RETRY. -/
theorem moveClaimGrant_rivals (hs : s.settled = true) {x : Claim} {k b : Nat} {e : DWord} (hc : nextClaim s = some c)
    (hx : rivalClaim s c = some x) (hlf : claimLeaf s c = some (k, e, b)) :
    ∃ t, exec .moveClaimGrant s = .next t ∧ ∀ y ∈ s.claims, y.granted = false → y.host ≠ bit e pteHome → samePage s y c = true →
      y ∉ t.claims ∧ (y.host = true → t.sys.mig = 3) ∧ (y.host = false → .claim ((pageOfAsid s c.asid).getD 0) y.seq false ∈ t.out) := by
  have hrival : x.host ≠ c.host := by
    have := List.find?_some hx
    simp only [Bool.and_eq_true, bne_iff_ne] at this
    exact this.1.2
  have hhome : homeIsHost s c = bit e pteHome := by rw [homeIsHost, hlf]
  have hwin := host_of_winner hrival (bit e pteHome)
  rw [nextClaim] at hc
  rw [rivalClaim] at hx
  generalize hw : (if c.host == bit e pteHome then c else x) = win at hwin
  refine ⟨judgeClaim ((s.claims.filter (fun y => !y.granted && y.host != win.host && samePage s y c)).foldl retryClaim s) win, ?_,
    fun y hmem hwait hside hpage => ?_⟩
  · show execMoveClaimGrant s = _
    unfold execMoveClaimGrant
    simp only [hc, hx, hhome, hw]
    exact event_settled (by rwa [judgeClaim_settled, foldl_retryClaim_settled])
  · have hasid : y.asid = c.asid := by
      simp only [samePage, Bool.and_eq_true, beq_iff_eq] at hpage
      exact hpage.1
    have hp : (!y.granted && y.host != win.host && samePage s y c) = true := by simp [hwait, hwin, hside, hpage]
    rw [← hasid]
    refine losers_retried hmem hp hwait (fun z hz => ?_) (by rw [hwin]; exact hside.symm)
    have hz' : z.host ≠ win.host := by simp at hz; exact hz.1.2
    rw [hwin] at hz'
    revert hz' hside
    cases z.host <;> cases y.host <;> cases bit e pteHome <;> simp

end

/-! ### The host's own claim (R419) -/

section
variable {s : State} {c : Claim}

theorem migDone_ends (hs : s.settled = true) (hup : hostUp s = true) (hc : s.claims.find? (fun c => c.granted && c.host) = some c)
    (hend : (endClaim s c).settled = s.settled) :
    exec .migDone s = .next ((endClaim s c).modSys (fun y => { y with mig := 0 })) := by
  show execMigDone s = _
  unfold execMigDone doMigDone
  simp only [hup, hc, if_true]
  exact event_settled (hend.trans hs)

theorem endClaim_of_no_leaf (h : claimLeaf s c = none) : endClaim s c = { s with claims := s.claims.erase c } := by
  simp only [endClaim, h]

/-- What the map unit counts of a page that has moved once. -/
def firstMove (asid : BitVec 12) (page : Nat) (toHost : Bool) : Moves := { page := page, asid := asid, toHost := some toHost, revs := 0, lines := [] }

/-- The first move of a page is no reversal (R225). -/
theorem countMove_of_new {k b : Nat} {e : DWord} (hnew : ∀ m ∈ s.moves, m.page ≠ b) (asid : BitVec 12) (toHost : Bool) :
    countMove s asid k e b toHost =
      { s with moves := firstMove asid b toHost :: s.moves.filter (fun m => !(m.asid == asid && m.page == b)) } := by
  have hnone : s.moves.find? (fun m => m.asid == asid && m.page == b) = none := by
    refine List.find?_eq_none.mpr fun m hm => ?_
    simp [hnew m hm]
  simp [countMove, hnone, natOf, firstMove]

theorem endClaim_of_moved {k b : Nat} {e : DWord} (hlf : claimLeaf s c = some (k, e, b)) (hwas : c.loc = some 0) (hloc : pteLoc e = 1)
    (hnew : ∀ m ∈ s.moves, m.page ≠ b) :
    endClaim s c = { s with
      claims := s.claims.erase c,
      moves := firstMove c.asid b true :: s.moves.filter (fun m => !(m.asid == c.asid && m.page == b)) } := by
  refine Eq.trans ?_ (countMove_of_new (s := { s with claims := s.claims.erase c }) (k := k) (e := e) hnew c.asid true)
  simp [endClaim, hlf, hwas, hloc]

end

/-! ### Monitors and base-die cores (R421, R422) -/

section
variable {s : State}

/-- A sample changes the monitors that listen, and nothing else. -/
theorem sample_eq (s : State) (ev src : Nat) (v : Word) :
    sample s ev src v =
      { s with sys := { s.sys with mons := s.sys.mons.map (fun x => (x.1, if x.2.hears ev src then x.2.note s.monNow v else x.2)) } } := by
  unfold sample
  split
  · next h => rw [List.isEmpty_iff.mp h, List.map_nil, ← List.isEmpty_iff.mp h]
  · rfl

theorem monitorClr_clears (hs : s.settled = true) {blk : Nat} (hblk : blk < 64) (hup : hostUp s = true) :
    ∃ t, exec (.monitorClr blk) s = .next t ∧ t.mon blk = (s.mon blk).cleared s.monNow := by
  refine ⟨s.setMon blk ((s.mon blk).cleared s.monNow), (?_ : execMonitorClr blk s = _), fget_fset_self _ _ _ _⟩
  have hgo : (decide (64 ≤ blk) || !hostUp s) = false := by simp [hblk, hup]
  unfold execMonitorClr
  rw [hgo]
  exact event_settled hs

theorem powerSample_noted (hs : s.settled = true) {w : Word} (hlt : s.sys.fabpow < s.sys.fab / 2 ^ 20) :
    ∃ t, exec (.powerSampleTimer w) s = .next t ∧ t.sys.fabpow = s.sys.fab / 2 ^ 20 ∧
      ∀ blk m, ffind s.sys.mons blk = some m → m.hears 8 0 = true → ffind t.sys.mons blk = some (m.note s.monNow w) := by
  refine ⟨sample (s.modSys (fun y => { y with fabpow := s.sys.fab / 2 ^ 20 })) 8 0 w, (?_ : execPowerSampleTimer w s = _), ?_, fun blk m hm hh => ?_⟩
  · unfold execPowerSampleTimer
    rw [if_neg (by simpa using hlt), sample_eq]
    exact event_settled hs
  · rw [sample_eq]
    rfl
  · rw [sample_eq]
    refine (ffind_map_values (fun x : Monitor => if x.hears 8 0 then x.note s.monNow w else x) s.sys.mons blk).trans ?_
    rw [hm, Option.map_some, if_pos hh]

theorem fget_fput_self {β : Type} (m : FMap β) (k : Nat) (v d : β) : fget (fput m k v) k d = v := by rw [fget, ffind_fput_self, Option.getD_some]

theorem scrubPass_reports (hs : s.settled = true) {stack : Nat} {temp : Word} {errs : List Nat} (hup : stackUp s stack = true)
    (hdue : fget s.sys.scrubs stack 0 ≤ s.sys.fab / 2 ^ 36) :
    ∃ t, exec (.scrubPass stack temp errs) s = .next t ∧ fget t.sys.scrubs stack 0 = s.sys.fab / 2 ^ 36 + 1 ∧
      fget t.sys.temps stack 0 = temp ∧ t.mem = s.mem := by
  have hgo : (!stackUp s stack || decide (s.sys.fab / 2 ^ 36 + 1 ≤ fget s.sys.scrubs stack 0)) = false := by simp [hup]; omega
  refine ⟨_, show execScrubPass stack temp errs s = _ from (if_neg (ne_true_of_eq_false hgo)).trans (event_settled ?_), ?_⟩
  · rw [sample_eq]
    exact hs
  · rw [sample_eq]
    exact ⟨fget_fput_self _ _ _ _, fget_fput_self _ _ _ _, rfl⟩

theorem rowRemap_remaps (hs : s.settled = true) {stack row : Nat} (hmany : 16 ≤ fget s.sys.corrected (rowKey stack row) 0) :
    ∃ t, exec (.rowRemap stack row) s = .next t ∧ fget t.sys.corrected (rowKey stack row) 0 = 0 ∧
      t.sys.remapped = s.sys.remapped ++ [rowKey stack row] ∧ t.mem = s.mem := by
  have hgo : ¬ fget s.sys.corrected (rowKey stack row) 0 < 16 := by omega
  exact ⟨_, show execRowRemap stack row s = _ from (if_neg hgo).trans (event_settled hs), by simp [fget], rfl, rfl⟩

theorem migRequest_waits (hs : s.settled = true) (hup : hostUp s = true) (hone : s.sys.mig ≠ 1) (htwo : s.sys.mig ≠ 2) :
    ∃ t c, exec .migRequest s = .next t ∧ t.claims = s.claims ++ [c] ∧ c.host = true ∧ c.asid = bits s.sys.migasid 0 12 ∧
      c.unit = s.sys.migva.toNat / 65536 ∧ c.granted = false ∧ t.sys.mig = 1 := by
  have hgo : doMigRequest s = _ := if_neg (by simp [hone, htwo])
  refine ⟨doMigRequest s, _, ?_, by rw [hgo], rfl, rfl, rfl, rfl, by rw [hgo]⟩
  show execMigRequest s = _
  unfold execMigRequest
  rw [if_pos hup, hgo]
  exact event_settled hs

end

/-- Settles O59: each event by the lemma about it; claims of both sides by `moveClaimGrant_rivals`. -/
theorem controllerServices : Obligations.ControllerServices := by
  unfold Obligations.ControllerServices
  intro s hs
  refine ⟨fun ok u hup hidle hbase hasid => fun htry hset => invgo_tries hup hidle hbase hasid rfl htry hset, migRequest_waits hs,
    fun c hc => ⟨fun hx => ?_, fun x k e b hx hlf => moveClaimGrant_rivals hs hc hx hlf⟩, fun c hup hc hlf => ?_,
    fun c k e b was hup hc hlf hwas hloc hzero hnew => ?_, fun blk hblk hup => monitorClr_clears hs hblk hup,
    fun w hlt => powerSample_noted hs hlt, fun stack temp errs hup hdue => scrubPass_reports hs hup hdue,
    fun stack row hmany => rowRemap_remaps hs hmany⟩
  · have hjudge := moveClaimGrant_judges hs hc hx
    have hretry (h : judgeClaim s c = retryClaim s c) :
        ∃ t, exec .moveClaimGrant s = .next t ∧ toldOf s c t false ∧ t.claims = s.claims.erase c :=
      ⟨_, hjudge, by rw [h]; exact ⟨toldOf_retryClaim s c, retryClaim_claims s c⟩⟩
    refine ⟨fun hpage => hretry (judgeClaim_of_no_page hpage), fun k e b hlf => ⟨fun hshr => hretry (judgeClaim_of_shr hlf hshr), fun hshr => ?_⟩⟩
    rw [judgeClaim_of_leaf hlf hshr] at hjudge
    exact ⟨_, c.grantedAt (claimLeaf s c), hjudge, toldOf_grantClaim s c, mem_grantClaim (List.mem_of_find?_eq_some hc), rfl, rfl, rfl,
      by simp [Claim.grantedAt, hlf]⟩
  · have hend := endClaim_of_no_leaf hlf
    exact ⟨_, migDone_ends hs hup hc (by rw [hend]; rfl), by simp, by rw [hend]; rfl⟩
  · have hend := endClaim_of_moved hlf (hzero ▸ hwas) hloc hnew
    exact ⟨_, firstMove c.asid b true, migDone_ends hs hup hc (by rw [hend]; rfl), by simp, by rw [hend]; exact List.mem_cons_self, rfl, rfl, rfl, rfl⟩

end Sys2Proof.Machine
end

section
/-! The page pool and page installation (R219, R220): the map unit's reads and writes with no stash window live, what PGPOOL and PGMAP write to
their registers, and the statement. -/
namespace Sys2Proof.Machine

/-! ### Words and pairs of words among bytes -/

theorem drop_take_bytesAt (s : State) (k : Nat) {n off m : Nat} (h : off + m ≤ n) : ((s.bytesAt k n).drop off).take m = s.bytesAt (k + off) m := by
  refine List.ext_getElem (by simp [bytesAt_length]; omega) fun i _ _ => ?_
  simp [State.bytesAt, Nat.add_assoc]

theorem wordAt_bytesAt (s : State) (k : Nat) {n off : Nat} (h : off + 4 ≤ n) : wordAt (s.bytesAt k n) off = s.wordAtKey (k + off) := by
  rw [wordAt, drop_take_bytesAt s k h, State.wordAtKey, State.valAt]

theorem dwordAt_bytesAt (s : State) (k : Nat) : dwordAt (s.bytesAt k 8) 0 = s.dwordAtKey k := by
  rw [dwordAt, drop_take_bytesAt s k (Nat.le_refl (0 + 8)), State.dwordAtKey, State.valAt, Nat.add_zero]

theorem dwordAtKey_setBytes_ne (s : State) {k j : Nat} {l : List Byte} (h : j + 8 ≤ k ∨ k + l.length ≤ j) :
    (s.setBytes k l).dwordAtKey j = s.dwordAtKey j := by
  rw [State.dwordAtKey, State.dwordAtKey, State.valAt, State.valAt, bytesAt_setBytes_ne s h]

section
variable {s : State} {c : Iss} (hw : anyWindow s = false)
include hw

theorem sysRead_of_no_window {key : Nat} (hthere : s.gone key = false) (n : Nat) (k : List Byte → State → Eff) :
    sysRead s key n k = k (s.bytesAt key n) s := by
  unfold sysRead
  rw [if_neg (ne_true_of_eq_false hthere), cohRead_of_no_window hw]

theorem sysWrite_of_no_window (key : Nat) (l : List Byte) (k : State → Eff) : sysWrite s key l k = k (s.setBytes key l) := by
  unfold sysWrite
  rw [cohWrite_of_no_window hw]

end

/-! ### Registers that the map unit writes -/

theorem Group.finalK_putK (g : Group) (slot : Nat) {n : Nat} (hn : n ≠ 3) (b : Bool) : (g.putK slot n b).finalK n = b := by
  have hbit : (if b then 1 else 0 : Word) = lo32 (truth b) := by cases b <;> rfl
  rw [putK, hbit]
  exact finalK_write g hn b

theorem Group.finalS_putK (g : Group) (slot n m : Nat) (b : Bool) : (g.putK slot n b).finalS m = g.finalS m :=
  final_write_other (r' := .s m) (l := 0) g slot 0 (lanesOk_zero (.k n)) (by simp) (by decide) (fun _ => if b then 1 else 0)

theorem Group.finalS_write_ne (g : Group) (slot : Nat) {n m : Nat} (h : m ≠ n) (v : Word) : (g.write slot (.s n) [(0, v)] 0).finalS m = g.finalS m :=
  final_write_other (r' := .s m) (l := 0) g slot 0 (lanesOk_zero (.s n)) (by simpa using h) (by decide) (fun _ => v)

theorem Group.finalS_putS64 (g : Group) (slot n : Nat) (v : DWord) :
    (g.putS64 slot n v).finalS n = lo32 v ∧ (g.putS64 slot n v).finalS (n + 1) = hi32 v := by
  unfold putS64
  exact ⟨(finalS_write_ne _ slot (Nat.ne_of_lt n.lt_succ_self) _).trans (finalS_write g slot n _ _), finalS_write _ slot (n + 1) _ _⟩

/-- An instruction that is ready completes where its effect changes its own group and, besides, what is no group's. -/
theorem completes_of_goGroup_in {i : Instr} {s t : State} {c : Iss} {body : Iss → State → Eff} {u : Group → Group} (hi : IssuedBy i s body)
    (hr : Ready i s c) (hb : body c (begun i s) = goGroup t c u) (hgroups : t.groups = (begun i s).groups) (hset : t.settled = true) :
    Completes i s c (t.modGroup c.place u) ∧ (t.modGroup c.place u).group c.place = u ((begun i s).group c.place) := by
  have hfind : ffind t.groups c.place = some ((begun i s).group c.place) := by rw [hgroups]; exact hr.find_begun
  refine ⟨completes_of_go hi hr hb (by simpa using hset), ?_⟩
  rw [State.group_modGroup u hfind, State.group_of_find hfind]

@[simp] theorem State.wordAtKey_modGroup (s : State) (p : Nat) (u : Group → Group) (k : Nat) : (s.modGroup p u).wordAtKey k = s.wordAtKey k :=
  wordAtKey_of_mem (by simp) (by simp) k

@[simp] theorem State.dwordAtKey_modGroup (s : State) (p : Nat) (u : Group → Group) (k : Nat) : (s.modGroup p u).dwordAtKey k = s.dwordAtKey k :=
  dwordAtKey_of_mem (by simp) (by simp) k

/-! ### PGPOOL (R219, R220) -/

theorem header_below_pool (d : Desc) (i : Word) : d.poolhdr.toNat + 64 ≤ poolKey d i := Nat.le_add_right _ _

section
variable {h : Hd} {s : State} {c : Iss} {d : Desc} {head tail : Word} (hw : anyWindow s = false)
  (hd : (s.ctx (s.group c.place).page).d = d) (hhead : s.wordAtKey d.poolhdr.toNat = head) (htail : s.wordAtKey (d.poolhdr.toNat + 4) = tail)
  (hlow : s.gone d.poolhdr.toNat = false) (hsize : d.poolsize ≠ 0)
include hw hd hhead htail hlow hsize

theorem pgpoolGet_of_empty (hr : Ready (.pgpoolGet h) s c) (hk : h.c.toNat ≠ 3) (he : tail = head) :
    ∃ s2, Completes (.pgpoolGet h) s c s2 ∧ (s2.group c.place).finalK h.c.toNat = false := by
  have hb : begun (.pgpoolGet h) s = s := begun_of_not_drain rfl
  obtain ⟨s2, hcomp, hg⟩ := completes_of_goGroup (u := fun g => g.putK c.slot h.c.toNat false)
    (issuedBy_of_issue (i := .pgpoolGet h) (s := s) rfl (execPgpoolGet.eq_def h s) ⟨rfl, rfl, rfl, rfl⟩) hr (by
      rw [hb]
      dsimp only
      rw [hd, if_neg hsize, sysRead_of_no_window hw hlow, wordAt_bytesAt s _ (by decide), wordAt_bytesAt s _ (by decide), htail, Nat.add_zero, hhead,
        if_pos (by rw [he, BitVec.sub_self]; rfl)])
  exact ⟨s2, hcomp, by rw [hg]; exact Group.finalK_putK _ _ hk _⟩

theorem pgpoolGet_takes (hr : Ready (.pgpoolGet h) s c) (hk : h.c.toNat ≠ 3) (hhigh : s.gone (d.poolhdr.toNat + 3) = false) (hne : tail ≠ head)
    (hthere : s.gone (poolKey d head) = false) (hok : frameOk (s.dwordAtKey (poolKey d head)) = true) :
    ∃ s2, Completes (.pgpoolGet h) s c s2 ∧ (s2.group c.place).finalK h.c.toNat = true ∧
      (s2.group c.place).finalS h.a.toNat = lo32 (s.dwordAtKey (poolKey d head)) ∧
      (s2.group c.place).finalS (h.a.toNat + 1) = hi32 (s.dwordAtKey (poolKey d head)) ∧ s2.wordAtKey d.poolhdr.toNat = head + 1 := by
  have hb : begun (.pgpoolGet h) s = s := begun_of_not_drain rfl
  have hsome : ¬ tail - head = 0 := fun e => hne (sub_eq_zero.mp e)
  obtain ⟨hcomp, hg⟩ := completes_of_goGroup_in (t := s.setBytes d.poolhdr.toNat (leBytes 4 (head + 1).toNat))
    (u := fun g => (g.putS64 c.slot h.a.toNat (s.dwordAtKey (poolKey d head))).putK c.slot h.c.toNat true)
    (issuedBy_of_issue (i := .pgpoolGet h) (s := s) rfl (execPgpoolGet.eq_def h s) ⟨rfl, rfl, rfl, rfl⟩) hr (by
      rw [hb]
      dsimp only
      rw [hd, if_neg hsize, sysRead_of_no_window hw hlow, wordAt_bytesAt s _ (by decide), wordAt_bytesAt s _ (by decide), htail, Nat.add_zero, hhead,
        if_neg hsome, sysRead_of_no_window hw hthere, dwordAt_bytesAt, hok, if_neg (by decide), sysWrite_of_no_window hw])
    (by rw [hb]; simp) ((setVal_settled hlow hhigh (by decide)).trans hr.1)
  refine ⟨_, hcomp, ?_, ?_, ?_, by rw [State.wordAtKey_modGroup, wordAtKey_setBytes]⟩ <;> rw [hg]
  · exact Group.finalK_putK _ _ hk _
  · exact (Group.finalS_putK _ _ _ _ _).trans (Group.finalS_putS64 _ _ _ _).1
  · exact (Group.finalS_putK _ _ _ _ _).trans (Group.finalS_putS64 _ _ _ _).2

theorem pgpoolPut_of_full (hr : Ready (.pgpoolPut h) s c) (hk : h.c.toNat ≠ 3) (he : (tail - head).toNat = d.poolsize) :
    ∃ s2, Completes (.pgpoolPut h) s c s2 ∧ (s2.group c.place).finalK h.c.toNat = false := by
  have hb : begun (.pgpoolPut h) s = s := begun_of_not_drain rfl
  obtain ⟨s2, hcomp, hg⟩ := completes_of_goGroup (u := fun g => g.putK c.slot h.c.toNat false)
    (issuedBy_of_issue (i := .pgpoolPut h) (s := s) rfl (execPgpoolPut.eq_def h s) ⟨rfl, rfl, rfl, rfl⟩) hr (by
      rw [hb]
      dsimp only
      rw [hd, if_neg hsize, sysRead_of_no_window hw hlow, wordAt_bytesAt s _ (by decide), wordAt_bytesAt s _ (by decide), htail, Nat.add_zero, hhead,
        if_pos he])
  exact ⟨s2, hcomp, by rw [hg]; exact Group.finalK_putK _ _ hk _⟩

theorem pgpoolPut_stores (hr : Ready (.pgpoolPut h) s c) (hk : h.c.toNat ≠ 3) (hhigh : s.gone (d.poolhdr.toNat + 3) = false) {e : DWord}
    (he : (s.group c.place).rs64 c.slot h.b.toNat = e) (hroom : (tail - head).toNat ≠ d.poolsize) (hok : frameOk e = true)
    (hthere : s.gone (poolKey d (head - 1)) = false) (hthere7 : s.gone (poolKey d (head - 1) + 7) = false) :
    ∃ s2, Completes (.pgpoolPut h) s c s2 ∧ (s2.group c.place).finalK h.c.toNat = true ∧ s2.dwordAtKey (poolKey d (head - 1)) = e ∧
      s2.wordAtKey d.poolhdr.toNat = head - 1 := by
  have hb : begun (.pgpoolPut h) s = s := begun_of_not_drain rfl
  have hbelow := header_below_pool d (head - 1)
  generalize hk' : poolKey d (head - 1) = k at hthere hthere7 hbelow ⊢
  have hw' : anyWindow (s.setBytes k (leBytes 8 e.toNat)) = false := (anyWindow_congr (by simp)).trans hw
  obtain ⟨hcomp, hg⟩ := completes_of_goGroup_in
    (t := (s.setBytes k (leBytes 8 e.toNat)).setBytes d.poolhdr.toNat (leBytes 4 (head - 1).toNat))
    (u := fun g => g.putK c.slot h.c.toNat true) (issuedBy_of_issue (i := .pgpoolPut h) (s := s) rfl (execPgpoolPut.eq_def h s) ⟨rfl, rfl, rfl, rfl⟩) hr (by
      rw [hb]
      dsimp only
      rw [hd, he, if_neg hsize, sysRead_of_no_window hw hlow, wordAt_bytesAt s _ (by decide), wordAt_bytesAt s _ (by decide), htail, Nat.add_zero, hhead,
        if_neg hroom, hok, if_neg (by decide), hk', sysWrite_of_no_window hw, sysWrite_of_no_window hw'])
    (by rw [hb]; simp) ((setVal_settled (by simpa using hlow) (by simpa using hhigh) (by decide)).trans
      ((setEntry_settled hthere hthere7 e).trans hr.1))
  refine ⟨_, hcomp, by rw [hg]; exact Group.finalK_putK _ _ hk _, ?_, by rw [State.wordAtKey_modGroup, wordAtKey_setBytes]⟩
  rw [State.dwordAtKey_modGroup, dwordAtKey_setBytes_ne _ (Or.inr (by rw [leBytes_length]; omega)), dwordAtKey_setBytes]

end

/-! ### PGMAP (R220) -/

/-- An entry that PGMAP may install: V and LEAF, and no bit that R220 forbids. -/
def installable (e : DWord) : Prop := bit e 0 = true ∧ bit e 1 = true ∧ bits e 52 12 = 0 ∧ bits e 9 7 = 0

/-- Memory with an entry installed, its frame zeroed first under .zero. -/
def installed (s : State) (zero : Bool) (k : Nat) (e : DWord) : State :=
  (if zero then s.zeroRange (ptePa e) (ptePa e + 65536) else s).setBytes k (leBytes 8 e.toNat)

/-- What PGMAP leaves, and its status, by what the walk meets (R220). -/
def pgmapTo (s : State) (zero : Bool) (e : DWord) : Walk → Option (State × Word)
  | .leaf _ _ _ => some (s, 1)
  | .invalid lv k _ => some (if lv = 0 then (installed s zero k e, 0) else (s, 2))
  | _ => none

section
variable {s : State} {zero : Bool} {k : Nat} {e : DWord}

theorem installed_groups (s : State) (zero : Bool) (k : Nat) (e : DWord) : (installed s zero k e).groups = s.groups := by
  cases zero <;> simp [installed]

theorem installed_dword (s : State) (zero : Bool) (k : Nat) (e : DWord) : (installed s zero k e).dwordAtKey k = e := dwordAtKey_setBytes _ k e

theorem installed_settled (hlow : s.gone k = false) (hhigh : s.gone (k + 7) = false) (hframe : s.gone (ptePa e) = false) :
    (installed s zero k e).settled = s.settled := by
  cases zero with
  | false => exact setEntry_settled hlow hhigh e
  | true =>
    have hzero : (s.zeroRange (ptePa e) (ptePa e + 65536)).settled = s.settled := State.settled_congr rfl (by simp [State.zeroRange, hframe])
    exact (setEntry_settled (s := s.zeroRange (ptePa e) (ptePa e + 65536)) hlow hhigh e).trans hzero

/-- The frame of a page installed under .zero holds zeros, but for the entry itself. -/
theorem byteAt_installed {i : Nat} (hi : i < 65536) (happart : k + 8 ≤ ptePa e ∨ ptePa e + 65536 ≤ k) :
    (installed s true k e).byteAt (ptePa e + i) = 0 :=
  (byteAt_setBytes_ne _ k _ (by rw [leBytes_length]; omega)).trans (byteAt_zeroRange s ⟨Nat.le_add_right _ i, Nat.add_lt_add_left hi _⟩)

variable {h : Hd} {c : Iss} {d : Desc} {va : DWord}

theorem pgmap_completes (hr : Ready (.pgmap h) s c) (hw : anyWindow s = false) (hva : (s.group c.place).rs64 c.slot h.b.toNat = va)
    (he : (s.group c.place).rs64 c.slot h.c.toNat = e) (hd : (s.ctx (s.group c.place).page).d = d) (hok : installable e) {t : State} {v : Word}
    (hto : pgmapTo s (bit h.mod 0) e (walk s d va.toNat) = some (t, v)) (hgroups : t.groups = s.groups) (hset : t.settled = true) :
    ∃ s2, Completes (.pgmap h) s c s2 ∧ (s2.group c.place).finalS h.a.toNat = v ∧ s2.mem = t.mem ∧ s2.undef = t.undef := by
  have hb : begun (.pgmap h) s = s := begun_of_not_drain rfl
  obtain ⟨hv, hleaf, hhigh, hmid⟩ := hok
  have hform : (!bit e 0 || !bit e 1 || bits e 52 12 != 0 || bits e 9 7 != 0) = false := by simp [hv, hleaf, hhigh, hmid]
  obtain ⟨hcomp, hg⟩ := completes_of_goGroup_in (t := t) (u := fun g => g.write c.slot (.s h.a.toNat) [(0, v)] 0)
    (issuedBy_of_issue (i := .pgmap h) (s := s) rfl (execPgmap.eq_def h s) ⟨rfl, rfl, rfl, rfl⟩) hr (by
      rw [hb]
      dsimp only
      rw [hva, he, hd, hform, if_neg Bool.false_ne_true, hw, if_neg Bool.false_ne_true]
      dsimp only
      cases hwalk : walk s d va.toNat with
      | malformed => rw [hwalk] at hto; cases hto
      | absent => rw [hwalk] at hto; cases hto
      | leaf lv k o =>
        rw [hwalk] at hto
        cases hto
        rfl
      | invalid lv k o =>
        rw [hwalk, pgmapTo] at hto
        dsimp only
        rw [snoopRange_of_no_window hw]
        dsimp only
        rw [snoopRange_of_no_window hw]
        by_cases hlv : lv = 0
        · rw [if_pos hlv] at hto
          cases hto
          rw [if_neg (by simp [hlv])]
          cases hz : bit h.mod 0 <;> rfl
        · rw [if_neg hlv] at hto
          cases hto
          rw [if_pos (by simp [hlv])])
    (by rw [hb, hgroups]) hset
  exact ⟨_, hcomp, by rw [hg]; exact Group.finalS_write _ _ _ _ _, by simp, by simp⟩

end

/-- Settles O38: PGPOOL by the four lemmas about its outcomes, PGMAP by `pgmap_completes` at what the walk meets. -/
theorem pagesInstalled : Obligations.PagesInstalled := by
  unfold Obligations.PagesInstalled
  refine ⟨fun h s c hw hk hlow hhigh hsize => ⟨fun hr => ⟨fun he => ?_, fun hne hthere hok => ?_⟩,
    fun hr => ⟨fun hfull => ?_, fun hroom hok hthere hthere7 => ?_⟩⟩, fun h s c hr hw hv hleaf hhigh hmid => ⟨fun lv k o hwalk => ?_,
      fun lv k o hlv hwalk => ?_, fun k o hwalk hlow hlast hframe happart => ?_⟩⟩
  · exact pgpoolGet_of_empty hw rfl rfl rfl hlow hsize hr hk he
  · exact pgpoolGet_takes hw rfl rfl rfl hlow hsize hr hk hhigh hne hthere hok
  · exact pgpoolPut_of_full hw rfl rfl rfl hlow hsize hr hk hfull
  · exact pgpoolPut_stores hw rfl rfl rfl hlow hsize hr hk hhigh rfl hroom hok hthere hthere7
  · obtain ⟨s2, hcomp, hres, -⟩ := pgmap_completes hr hw rfl rfl rfl ⟨hv, hleaf, hhigh, hmid⟩ (congrArg (pgmapTo s _ _) hwalk) rfl hr.1
    exact ⟨s2, hcomp, hres⟩
  · obtain ⟨s2, hcomp, hres, -⟩ := pgmap_completes hr hw rfl rfl rfl ⟨hv, hleaf, hhigh, hmid⟩
      ((congrArg (pgmapTo s _ _) hwalk).trans (congrArg some (if_neg hlv))) rfl hr.1
    exact ⟨s2, hcomp, hres⟩
  · obtain ⟨s2, hcomp, hres, hmem, hundef⟩ := pgmap_completes hr hw rfl rfl rfl ⟨hv, hleaf, hhigh, hmid⟩
      ((congrArg (pgmapTo s _ _) hwalk).trans (congrArg some (if_pos rfl))) (installed_groups _ _ _ _)
      ((installed_settled hlow hlast hframe).trans hr.1)
    refine ⟨s2, hcomp, hres, (dwordAtKey_of_mem hmem hundef k).trans (installed_dword _ _ _ _), fun hz i hi => ?_⟩
    rw [hz] at hmem hundef
    exact (byteAt_of_mem hmem hundef _).trans (byteAt_installed hi (happart hz))

end Sys2Proof.Machine
end

section
/-! What posted records and departing teams leave of accepted operations, and how an operation's copy moves on (R28, R258 to R260, R266). -/
namespace Sys2Proof.Machine

/-! ### Steps that leave the operations alone -/

theorem ops_foldl {α : Type} {f : State → α → State} (hf : ∀ (t : State) x, (f t x).ops = t.ops) (l : List α) (s : State) : (l.foldl f s).ops = s.ops :=
  List.foldlRecOn (motive := fun t : State => t.ops = s.ops) l f rfl (fun t ht x _ => (hf t x).trans ht)

@[simp] theorem mergeDirty_ops (s : State) (lkey gkey : Nat) (m : BitVec 256) : (mergeDirty s lkey gkey m).ops = s.ops :=
  ops_foldl (fun t i => by split <;> rfl) _ s

@[simp] theorem setLineOf_ops (s : State) (tid win ln : Nat) (l : Option Line) : (setLineOf s tid win ln l).ops = s.ops := by
  unfold setLineOf
  split
  · rfl
  · split <;> rfl

@[simp] theorem yieldLine_ops (s : State) (h : Nat × Nat × Nat) : (yieldLine s h).ops = s.ops := by
  unfold yieldLine
  split
  · rfl
  · split
    · rfl
    · dsimp only
      split <;> simp

@[simp] theorem sysPut_ops (s : State) (key : Nat) (l : List Byte) : (s.sysPut key l).ops = s.ops := by
  rw [State.sysPut, State.setBytes_ops]
  split
  · rfl
  · exact ops_foldl (fun t ln => ops_foldl yieldLine_ops _ t) _ s

@[simp] theorem shareLine_ops (s : State) (h : Nat × Nat × Nat) : (shareLine s h).ops = s.ops := by
  unfold shareLine
  split
  · rfl
  · split
    · rfl
    · split <;> simp

@[simp] theorem frqLook_ops (s : State) (page : Nat) : (frqLook s page).ops = s.ops := ops_foldl shareLine_ops _ s

@[simp] theorem writeRec_ops (s : State) (page : Nat) (r : FRec) : (writeRec s page r).ops = s.ops := by simp [writeRec]

@[simp] theorem postRec_ops (s : State) (page : Nat) (r : FRec) : (postRec s page r).2.ops = s.ops := by
  unfold postRec
  dsimp only
  split <;> simp

@[simp] theorem postWaiting_ops (s : State) (page : Nat) (r : FRec) (fill : Bool) (place op : Option Nat) (line : Option (Nat × Nat × Nat)) :
    (postWaiting s page r fill place op line).2.ops = s.ops := by
  cases fill with
  | true => rfl
  | false => exact postRec_ops s page r

/-! ### Teams that leave their core (R183, R232) -/

/-- A team that leaves changes the teams, and whose local memory its bytes were. -/
theorem removeTeam_only (s : State) (tid : Nat) : ∃ ts us, removeTeam s tid = { s with teams := ts, locUse := us } := by
  have hnote : ∀ t : Team, ∃ us, noteUse s t = { s with locUse := us } := fun t => by
    unfold noteUse
    split
    · exact ⟨_, rfl⟩
    · exact ⟨_, rfl⟩
  unfold removeTeam
  split
  · next t _ =>
    obtain ⟨us, hus⟩ := hnote t
    have hsome : ∃ us', (if (refusedLines t.windows).isEmpty then noteUse s t else s) = { s with locUse := us' } := by
      split
      · exact ⟨us, hus⟩
      · exact ⟨_, rfl⟩
    obtain ⟨us', hus'⟩ := hsome
    dsimp only
    rw [hus']
    split
    · exact ⟨_, _, rfl⟩
    · exact ⟨_, _, rfl⟩
  · exact ⟨_, _, rfl⟩

theorem sweepTeams_only (s : State) : ∃ ts us, sweepTeams s = { s with teams := ts, locUse := us } := by
  unfold sweepTeams
  refine List.foldlRecOn (motive := fun t : State => ∃ ts us, t = { s with teams := ts, locUse := us }) _ _ ⟨_, _, rfl⟩ fun t ht tid _ => ?_
  obtain ⟨ts, us, rfl⟩ := ht
  obtain ⟨ts', us', h⟩ := removeTeam_only { s with teams := ts, locUse := us } tid
  exact ⟨ts', us', h⟩

@[simp] theorem sweepTeams_ops (s : State) : (sweepTeams s).ops = s.ops := by
  obtain ⟨ts, us, h⟩ := sweepTeams_only s
  rw [h]

@[simp] theorem sweepTeams_mem (s : State) : (sweepTeams s).mem = s.mem := by
  obtain ⟨ts, us, h⟩ := sweepTeams_only s
  rw [h]

@[simp] theorem sweepTeams_settled (s : State) : (sweepTeams s).settled = s.settled := by
  obtain ⟨ts, us, h⟩ := sweepTeams_only s
  rw [h]
  rfl

/-! ### An accepted operation after a change -/

section
variable {s : State} {id : Nat} {o : Op} {c : CopyOp}

theorem opById_congr {t : State} (h : t.ops = s.ops) (id : Nat) : opById t id = opById s id := by rw [opById, h, opById]

theorem opById_modOp {f : Op → Op} (hf : ∀ x, (f x).id = x.id) (h : opById s id = some o) : opById (modOp s id f) id = some (f o) := by
  have hkeep : (fun x : Op => x.id == id) ∘ (fun x => if x.id == id then f x else x) = fun x => x.id == id := by
    funext x
    dsimp only [Function.comp_apply]
    split
    · rw [hf]
    · rfl
  have hid : (o.id == id) = true := List.find?_some (p := fun x : Op => x.id == id) h
  rw [opById] at h
  rw [opById, modOp, mapIf, List.find?_map, hkeep, h, Option.map_some, if_pos hid]

theorem copyOf_iff : copyOf s id = some (o, c) ↔ opById s id = some o ∧ o.kind = .copy c := by
  unfold copyOf
  rw [Option.bind_eq_some_iff]
  constructor
  · rintro ⟨p, hp, hk⟩
    split at hk
    · next hkind =>
      cases hk
      exact ⟨hp, hkind⟩
    · cases hk
  · rintro ⟨hp, hk⟩
    exact ⟨o, hp, by rw [hk]⟩

theorem copyOf_congr {t : State} (h : t.ops = s.ops) (id : Nat) : copyOf t id = copyOf s id := by rw [copyOf, opById_congr h, copyOf]

theorem setCopy_copyOf (h : copyOf s id = some (o, c)) (c' : CopyOp) : copyOf (setCopy s id c') id = some ({ o with kind := .copy c' }, c') :=
  copyOf_iff.mpr ⟨opById_modOp (fun _ => rfl) (copyOf_iff.mp h).1, rfl⟩

/-- An operation one of whose classes has completed. -/
def Op.ripened (o : Op) (cls : Nat) : Op :=
  if o.todo.contains cls then { o with todo := o.todo.filter (fun k => k != cls), ripe := o.ripe ++ [cls] } else o

theorem Op.ripened_id (o : Op) (cls : Nat) : (o.ripened cls).id = o.id := by
  unfold ripened
  split <;> rfl

theorem Op.ripened_kind (o : Op) (cls : Nat) : (o.ripened cls).kind = o.kind := by
  unfold ripened
  split <;> rfl

theorem Op.mem_ripened {cls : Nat} (h : cls ∈ o.todo) : cls ∈ (o.ripened cls).ripe := by
  rw [ripened, if_pos (List.contains_iff_mem.mpr h)]
  exact List.mem_append_right _ List.mem_cons_self

theorem opRipe_copyOf (h : copyOf s id = some (o, c)) (cls : Nat) : copyOf (opRipe s id cls) id = some (o.ripened cls, c) := by
  obtain ⟨hop, hkind⟩ := copyOf_iff.mp h
  exact copyOf_iff.mpr ⟨opById_modOp (fun x => x.ripened_id cls) hop, (o.ripened_kind cls).trans hkind⟩

/-- A copy that moves on, and with its last move of a phase completes a class (R260). -/
def copyMoved (s : State) (id : Nat) (c : CopyOp) (last : Bool) (cls : Nat) : State :=
  if last then opRipe (setCopy s id c) id cls else setCopy s id c

theorem copyMoved_mem (s : State) (id : Nat) (c : CopyOp) (last : Bool) (cls : Nat) : (copyMoved s id c last cls).mem = s.mem := by
  unfold copyMoved
  split <;> rfl

theorem copyMoved_settled (s : State) (id : Nat) (c : CopyOp) (last : Bool) (cls : Nat) : (copyMoved s id c last cls).settled = s.settled := by
  unfold copyMoved
  split <;> rfl

theorem copyMoved_copyOf (h : copyOf s id = some (o, c)) (c' : CopyOp) (last : Bool) (cls : Nat) :
    ∃ o', copyOf (copyMoved s id c' last cls) id = some (o', c') ∧ (last = true → cls ∈ o.todo → cls ∈ o'.ripe) := by
  have hset := setCopy_copyOf h c'
  cases last with
  | false => exact ⟨_, hset, nofun⟩
  | true => exact ⟨_, opRipe_copyOf hset cls, fun _ hin => Op.mem_ripened (o := { o with kind := .copy c' }) hin⟩

end

/-! ### Chunks (R258 to R260) -/

/-- A copy that holds one more chunk. -/
def CopyOp.holding (c : CopyOp) (i : Nat) (b : List Byte) (next : Option Nat) (again : Bool) : CopyOp :=
  { c with held := c.held ++ [(i, b)], late := if again then c.late ++ [i] else c.late, zoff := match next with
    | some n => c.zoff ++ [n]
    | none => c.zoff }

/-- A copy one of whose chunks is visible. -/
def CopyOp.finishing (c : CopyOp) (i : Nat) : CopyOp := { c with held := c.held.filter (fun h => h.1 != i), finished := c.finished ++ [i] }

theorem chunkHeld_eq (s : State) (id : Nat) (c : CopyOp) (i : Nat) (b : List Byte) (next : Option Nat) (again : Bool) :
    chunkHeld s id c i b next again = copyMoved s id (c.holding i b next again) (c.holding i b next again).allRead 0 := rfl

theorem chunkDone_eq {o : Op} (hreg : o.reg = none) (s : State) (c : CopyOp) (i : Nat) :
    chunkDone s o c i = copyMoved s o.id (c.finishing i) ((c.finishing i).finished.length == (c.finishing i).chunks) 1 := by
  simp only [chunkDone, hreg]
  rfl

section
variable {s : State} {id i : Nat} {o : Op} {c : CopyOp}

theorem CopyOp.not_held_of_unread (h : c.unread i = true) : c.held.find? (fun x => x.1 == i) = none := by
  simp only [CopyOp.unread, Bool.and_eq_true, Bool.not_eq_true', List.any_eq_false] at h
  obtain ⟨⟨-, hheld⟩, -⟩ := h
  exact List.find?_eq_none.mpr hheld

theorem moveChunk_reads (hun : c.unread i = true) {b : List Byte} {next : Option Nat} {u : State} {again : Bool}
    (hread : readChunk (o.eng s 5) c i s = .ok b next u) : moveChunk s o c i again = .done (chunkHeld u o.id c i b next again) := by
  unfold moveChunk
  simp only [CopyOp.not_held_of_unread hun, hun, hread, Bool.not_true, Bool.false_eq_true, if_false]

theorem moveChunk_writes {b : List Byte} {u : State} {again : Bool} (hheld : c.held.find? (fun h => h.1 == i) = some (i, b))
    (hwrite : writeChunk (o.eng s 5) c i b s = .ok () u) : moveChunk s o c i again = .done (sweepTeams (chunkDone u o c i)) := by
  unfold moveChunk
  simp only [hheld, hwrite]

variable (hs : s.settled = true) (hcopy : copyOf s id = some (o, c)) (hruns : opRuns s o = true) (hstop : o.stop = none) (hid : o.id = id)
  (hrem : c.rem = none)
include hcopy hruns hstop hrem

theorem copyChunkDone_moves {u : State} (hmove : moveChunk s o c i false = .done u) (hset : u.settled = true) :
    exec (.copyChunkDone id i) s = .next u := by
  show execCopyChunkDone id i s = _
  unfold execCopyChunkDone
  simp only [hcopy, hruns, hstop, hrem, hmove, Option.isSome_none, Bool.or_self, Bool.false_and, Bool.not_true, Bool.false_eq_true, if_false]
  exact event_settled hset

include hid in
theorem copyChunk_held (hun : c.unread i = true) {b : List Byte} {next : Option Nat} {u : State} (hread : readChunk (o.eng s 5) c i s = .ok b next u)
    (hset : u.settled = true) (hops : u.ops = s.ops) :
    ∃ t o' c', exec (.copyChunkDone id i) s = .next t ∧ copyOf t id = some (o', c') ∧ c'.held = c.held ++ [(i, b)] ∧ c'.finished = c.finished ∧
      t.mem = u.mem ∧ (c'.allRead = true → 0 ∈ o.todo → 0 ∈ o'.ripe) := by
  have hmove := moveChunk_reads (again := false) hun hread
  rw [chunkHeld_eq, hid] at hmove
  obtain ⟨o', hcopy', hripe⟩ := copyMoved_copyOf ((copyOf_congr hops id).trans hcopy) (c.holding i b next false) (c.holding i b next false).allRead 0
  exact ⟨_, o', _, copyChunkDone_moves hcopy hruns hstop hrem hmove ((copyMoved_settled _ _ _ _ _).trans hset), hcopy', rfl, rfl,
    copyMoved_mem _ _ _ _ _, hripe⟩

include hid in
theorem copyChunk_finished {b : List Byte} {u : State} (hheld : c.held.find? (fun h => h.1 == i) = some (i, b))
    (hwrite : writeChunk (o.eng s 5) c i b s = .ok () u) (hops : u.ops = s.ops) (hreg : o.reg = none) (hset : u.settled = true) :
    ∃ t o' c', exec (.copyChunkDone id i) s = .next t ∧ copyOf t id = some (o', c') ∧ c'.finished = c.finished ++ [i] ∧
      t.mem = u.mem ∧ (c'.finished.length = c'.chunks → 1 ∈ o.todo → 1 ∈ o'.ripe) := by
  have hmove := moveChunk_writes (again := false) hheld hwrite
  rw [chunkDone_eq hreg, hid] at hmove
  obtain ⟨o', hcopy', hripe⟩ := copyMoved_copyOf ((copyOf_congr hops id).trans hcopy) (c.finishing i)
    ((c.finishing i).finished.length == (c.finishing i).chunks) 1
  refine ⟨_, o', c.finishing i, copyChunkDone_moves hcopy hruns hstop hrem hmove (by rw [sweepTeams_settled, copyMoved_settled, hset]),
    (copyOf_congr (sweepTeams_ops _) id).trans hcopy', rfl, by rw [sweepTeams_mem, copyMoved_mem], fun hlast => hripe (beq_iff_eq.mpr hlast)⟩

/-- A chunk that meets a translation fault stops the copy on a first touch, and hands it over otherwise (R266). -/
theorem copyFault_stops {f : FaultInfo} (hmove : moveChunk s o c i false = .fault f) (hcause : causeOf f.code ≠ cEngine) :
    exec (.copyFault id i) s = event (if f.first && !opOrphan s o then stopOp s id [f] else handOff s o f) := by
  show execCopyFault id i s = _
  unfold execCopyFault
  simp only [hcopy, hruns, hstop, hrem, hmove, Option.isSome_none, Bool.or_self, Bool.not_true, Bool.false_eq_true, if_false]
  rw [if_neg (by simpa using hcause)]
  split <;> rfl

end

theorem stopOp_stop {s : State} {id : Nat} {o : Op} (h : opById s id = some o) (fs : List FaultInfo) :
    ∃ o', opById (stopOp s id fs) id = some o' ∧ o'.stop = some { faults := fs, sent := false, tickets := [] } :=
  ⟨_, opById_modOp (fun _ => rfl) h, rfl⟩

/-- An operation that is handed over to the remainder service, with the ticket of its record. -/
def Op.handedOff (o : Op) (t : Nat) : Op :=
  { o with stop := none, kind := match o.kind with
    | .copy c => .copy { c with rem := some (t, false) }
    | k => k }

theorem handOff_eq (s : State) (o : Op) (f : FaultInfo) :
    ∃ t u, u.ops = s.ops ∧ handOff s o f = modOp u o.id (fun x => x.handedOff t) := ⟨_, _, postWaiting_ops _ _ _ _ _ _ _, rfl⟩

/-- A copy that is handed over waits for the answer to its record. -/
theorem handOff_copyOf {s : State} {id : Nat} {o : Op} {c : CopyOp} (h : copyOf s id = some (o, c)) (hid : o.id = id) (f : FaultInfo) :
    ∃ o' c' n, copyOf (handOff s o f) id = some (o', c') ∧ c'.rem = some (n, false) ∧ o'.stop = none := by
  obtain ⟨hop, hkind⟩ := copyOf_iff.mp h
  obtain ⟨t, u, hops, he⟩ := handOff_eq s o f
  rw [he, hid]
  exact ⟨o.handedOff t, { c with rem := some (t, false) }, t, copyOf_iff.mpr
    ⟨opById_modOp (fun _ => rfl) ((opById_congr hops id).trans hop), by simp only [Op.handedOff, hkind]⟩, rfl, rfl⟩

/-! ### The remainder service (R266) -/

section
variable {s : State} {id i k n : Nat} {o : Op} {c : CopyOp}

/-- The lowest chunk that has been read and not yet written. -/
def CopyOp.lowestHeld (c : CopyOp) : Option Nat := (List.range c.chunks).find? (fun i => c.held.any (fun h => h.1 == i))

/-- The next chunk to be read. -/
def CopyOp.nextUnread (c : CopyOp) : Option Nat := (List.range c.chunks).find? c.unread

theorem remainderNext_of_read {b : List Byte} {z : Option Nat} {v : State} (hnext : c.nextUnread = some i)
    (hread : readChunk (o.eng s 5) c i s = .ok b z v) : remainderNext s o c = some i := by
  rw [CopyOp.nextUnread] at hnext
  unfold remainderNext
  simp only [hnext]
  split
  · next hi _ => cases hi; simp only [hread]
  · next hi _ => exact hi.symm
  · next hi => cases hi

theorem remainderNext_of_none_held (hnext : c.nextUnread = some i) (hheld : c.lowestHeld = none) : remainderNext s o c = some i := by
  rw [CopyOp.nextUnread] at hnext
  rw [CopyOp.lowestHeld] at hheld
  simp only [remainderNext, hnext, hheld]

theorem remainderNext_of_blocked (hnext : c.nextUnread = some i) (hheld : c.lowestHeld = some k)
    (hread : ∀ b z v, readChunk (o.eng s 5) c i s ≠ .ok b z v) : remainderNext s o c = some (min i k) := by
  have hmin : (if k < i then k else i) = min i k := by split <;> omega
  rw [CopyOp.nextUnread] at hnext
  rw [CopyOp.lowestHeld] at hheld
  unfold remainderNext
  rw [hnext, hheld, ← hmin]
  cases hr : readChunk (o.eng s 5) c i s with
  | ok b z v => exact absurd hr (hread b z v)
  | fault => simp only [hr]
  | tooFar => simp only [hr]
  | wait => simp only [hr]
  | absentMem => simp only [hr]

theorem remainderNext_of_all_read (hnext : c.nextUnread = none) (hheld : c.lowestHeld = some k) : remainderNext s o c = some k := by
  rw [CopyOp.nextUnread] at hnext
  rw [CopyOp.lowestHeld] at hheld
  simp only [remainderNext, hnext, hheld]

theorem remainderChunk_moves (hcopy : copyOf s id = some (o, c)) (hruns : opRuns s o = true) (hrem : c.rem = some (n, true))
    (hnext : remainderNext s o c = some i) {u : State} (hmove : moveChunk s o c i true = .done u) (hset : u.settled = true) :
    exec (.remainderChunk id) s = .next u := by
  show execRemainderChunk id s = _
  unfold execRemainderChunk
  simp only [hcopy, hruns, hrem, hnext, hmove, Bool.not_true, Bool.or_self, Bool.false_eq_true, if_false]
  exact event_settled hset

end

end Sys2Proof.Machine
end

section
/-! Skesunal's fill service (R221): what a posted record leaves of its context, images unpacked, pages filled, and the statement about copies. -/
namespace Sys2Proof.Machine

/-! ### Posted records (R216, R217) -/

section
variable {s : State} {page : Nat} {r : FRec}

theorem frecBytes_length (s : State) (d : Desc) (r : FRec) : (frecBytes s d r).length = 64 := by simp [frecBytes]

/-- A record that the queue cannot take is held. -/
theorem postRec_of_held (hw : anyWindow s = false) (h : (s.ctx page).heldRecs ≠ [] ∨ frqReady s page = false) :
    (postRec s page r).2 = s.setCtx page { s.ctx page with
      seq := nextSeq (s.ctx page).seq, heldRecs := (s.ctx page).heldRecs ++ [{ r with seq := (s.ctx page).seq }] } := by
  have hheld : (!(s.ctx page).heldRecs.isEmpty || !frqReady s page) = true := by
    rcases h with h | h
    · simp [h]
    · simp [h]
  unfold postRec
  dsimp only
  rw [if_pos hheld, frqLook, sysShare_of_no_window hw]

theorem postRec_of_ready (hheld : (s.ctx page).heldRecs = []) (hready : frqReady s page = true) :
    (postRec s page r).2 = writeRec (s.setCtx page { s.ctx page with seq := nextSeq (s.ctx page).seq }) page { r with seq := (s.ctx page).seq } := by
  unfold postRec
  dsimp only
  rw [hheld, hready]
  rfl

/-- A record written in a package without a stash window: its bytes, then WR (R217). -/
theorem writeRec_of_no_window (hw : anyWindow s = false) :
    writeRec s page r = ((s.setBytes ((s.ctx page).d.frqbase.toNat + 64 + 64 * ((s.ctx page).wr.toNat % max (s.ctx page).d.frqsize 1))
        (frecBytes s (s.ctx page).d r)).setBytes (s.ctx page).d.frqbase.toNat (leBytes 4 ((s.ctx page).wr + 1).toNat)).setCtx page
      { s.ctx page with wr := (s.ctx page).wr + 1 } := by
  have hw' (k : Nat) (l : List Byte) : anyWindow (s.setBytes k l) = false := (anyWindow_congr (by simp)).trans hw
  unfold writeRec
  dsimp only
  rw [sysPut_of_no_window hw, sysPut_of_no_window (hw' _ _)]

/-- The context of a posted record: SEQ moves on, and the record counts in WR or is held. -/
theorem postRec_ctx (s : State) (page : Nat) (r : FRec) :
    ∃ held wr, ((postRec s page r).2.ctx page) = { s.ctx page with seq := nextSeq (s.ctx page).seq, heldRecs := held, wr := wr } := by
  unfold postRec
  dsimp only
  split
  · exact ⟨_, _, State.ctx_setCtx _ _ _⟩
  · refine ⟨(s.ctx page).heldRecs, (s.ctx page).wr + 1, (State.ctx_setCtx _ _ _).trans ?_⟩
    rw [State.ctx_setCtx]

@[simp] theorem bytesAt_setCtx (s : State) (p : Nat) (c : Ctx) (k n : Nat) : (s.setCtx p c).bytesAt k n = s.bytesAt k n := bytesAt_of_mem rfl rfl k n

/-- What a record posted in a package without a stash window leaves. -/
theorem postRec_posts (hw : anyWindow s = false) (r : FRec) : Posts s (postRec s page r).2 page r := by
  refine ⟨?_, fun hheld hready => ?_, fun h => ?_⟩
  · obtain ⟨held, wr, hctx⟩ := postRec_ctx s page r
    rw [hctx]
  · have hw' : anyWindow (s.setCtx page { s.ctx page with seq := nextSeq (s.ctx page).seq }) = false := hw
    rw [postRec_of_ready hheld hready, writeRec_of_no_window hw', State.ctx_setCtx, State.ctx_setCtx]
    have happart : (s.ctx page).d.frqbase.toNat + 4 ≤
        (s.ctx page).d.frqbase.toNat + 64 + 64 * ((s.ctx page).wr.toNat % max (s.ctx page).d.frqsize 1) := by omega
    refine ⟨hheld, rfl, ?_, ?_⟩
    · rw [bytesAt_setCtx, bytesAt_setBytes_ne _ (Or.inr (by rw [leBytes_length]; exact happart))]
      have h := bytesAt_setBytes (s.setCtx page { s.ctx page with seq := nextSeq (s.ctx page).seq })
        ((s.ctx page).d.frqbase.toNat + 64 + 64 * ((s.ctx page).wr.toNat % max (s.ctx page).d.frqsize 1))
        (frecBytes s (s.ctx page).d { r with seq := (s.ctx page).seq })
      rwa [frecBytes_length] at h
    · rw [bytesAt_setCtx]
      simpa using bytesAt_setBytes _ (s.ctx page).d.frqbase.toNat (leBytes 4 ((s.ctx page).wr + 1).toNat)
  · rw [postRec_of_held hw h, State.ctx_setCtx]
    exact ⟨rfl, rfl⟩

/-- A change of the parts that wait leaves a posted record as it is. -/
theorem Posts.setCtx {t : State} (h : Posts s t page r) {c : Ctx} (hseq : c.seq = (t.ctx page).seq) (hheld : c.heldRecs = (t.ctx page).heldRecs)
    (hwr : c.wr = (t.ctx page).wr) : Posts s (t.setCtx page c) page r := by
  unfold Posts at h ⊢
  simpa only [State.ctx_setCtx, bytesAt_setCtx, hseq, hheld, hwr] using h

/-! ### Parts left to the driver -/

variable {p : Pending}

/-- A part that is left to the driver: its record is posted, and the part waits with the record's SEQ. -/
theorem leaveToDriver_waits (hw : anyWindow s = false) (hp : p ∈ (s.ctx page).waiting) :
    Posts s (leaveToDriver s page p) page p.frec ∧ (leaveToDriver s page p).groups = s.groups ∧ (leaveToDriver s page p).ops = s.ops ∧
    ∃ q ∈ ((leaveToDriver s page p).ctx page).waiting, q = { p with frec := { p.frec with seq := (s.ctx page).seq } } := by
  have hseq : (postRec s page p.frec).1 = (s.ctx page).seq := by
    unfold postRec
    dsimp only
    split <;> rfl
  have hwait : p ∈ ((postRec s page p.frec).2.ctx page).waiting := by
    obtain ⟨held, wr, hctx⟩ := postRec_ctx s page p.frec
    rwa [hctx]
  refine ⟨(postRec_posts hw p.frec).setCtx rfl rfl rfl, postRec_groups _ _ _, postRec_ops _ _ _, _, ?_, rfl⟩
  unfold leaveToDriver
  dsimp only
  rw [State.ctx_setCtx, ← hseq]
  exact List.mem_map.mpr ⟨p, hwait, if_pos (beq_self_eq_true _)⟩

end

/-! ### Images (R221, R264) -/

/-- Each word of a chunk that its mask names takes the next eight of the bytes present, and each other word is zero. -/
theorem expand_fold_length (m : DWord) (l : List Nat) (acc : List Byte × List Byte) (h : acc.2.length = 8 * (l.filter (bit m)).length) :
    (l.foldl (fun (acc : List Byte × List Byte) i =>
      if bit m i then (acc.1 ++ acc.2.take 8, acc.2.drop 8) else (acc.1 ++ List.replicate 8 0, acc.2)) acc).1.length =
      acc.1.length + 8 * l.length := by
  induction l generalizing acc with
  | nil => simp
  | cons i l ih =>
    rw [List.foldl_cons]
    by_cases hi : bit m i = true
    · rw [List.filter_cons_of_pos hi, List.length_cons] at h
      rw [if_pos hi, ih (acc.1 ++ acc.2.take 8, acc.2.drop 8) (by rw [List.length_drop, h]; omega)]
      simp only [List.length_append, List.length_take, List.length_cons]
      omega
    · rw [List.filter_cons_of_neg hi] at h
      rw [if_neg hi, ih (acc.1 ++ List.replicate 8 0, acc.2) h]
      simp only [List.length_append, List.length_replicate, List.length_cons]
      omega

theorem expand_length {m : DWord} {present : List Byte} (h : present.length = 8 * popc m) : (expand m present).length = 512 := by
  rw [popc_eq] at h
  exact expand_fold_length m (List.range 64) ([], present) h

@[simp] theorem viewBytes_length (s : State) (k n : Nat) : (viewBytes s k n).length = n := by simp [viewBytes]

/-- An image of n chunks unpacks to their bytes. -/
theorem unpackImage_length {s : State} {image length n off : Nat} {l : List Byte} (h : unpackImage s image length n off = some l) :
    l.length = 512 * n := by
  induction n generalizing off l with
  | zero =>
    cases h
    rfl
  | succ n ih =>
    unfold unpackImage at h
    dsimp only at h
    split at h
    · cases h
    · split at h
      · cases h
      · obtain ⟨rest, hrest, rfl⟩ := Option.map_eq_some_iff.mp h
        rw [List.length_append, ih hrest, expand_length (viewBytes_length _ _ _)]
        omega

/-- A page of one of the levels at which a leaf may stand is a whole number of chunks. -/
theorem page_chunks {lv : Nat} (h : lv < 3) : 512 * (2 ^ levelShift lv / 512) = 2 ^ levelShift lv := by
  interval_cases lv <;> rfl

/-! ### Pages filled (R221) -/

section
variable {s : State} {page lv k desc : Nat} {p : Pending}

/-- The descriptor of an image has a bit set that R221 reserves. -/
def imageReserved (b : List Byte) : Bool := wordAt b 0x0C &&& ~~~0x1C#32 != 0 || (b.drop 0x10).any (fun x => x != 0)

theorem imageReserved_iff (b : List Byte) : imageReserved b = true ↔ wordAt b 0x0C &&& ~~~0x1C#32 ≠ 0 ∨ ∃ x ∈ b.drop 0x10, x ≠ 0 := by
  simp [imageReserved, List.any_eq_true]

/-- The image that a descriptor names, unpacked for a page. -/
def imageOf (s : State) (b : List Byte) (lv : Nat) : Option (List Byte) :=
  unpackImage s (dwordAt b 0).toNat (wordAt b 8).toNat (2 ^ levelShift lv / 512) 0

theorem fillPage_leaves (hw : anyWindow s = false)
    (h : imageReserved (viewBytes s desc 64) = true ∨ imageOf s (viewBytes s desc 64) lv = none ∨ takeFrame s (s.ctx page).d (2 ^ levelShift lv) = none) :
    fillPage s page p lv k desc = leaveToDriver s page p := by
  unfold fillPage
  dsimp only
  rw [sysShare_of_no_window hw, sysShare_of_no_window hw]
  split
  · rfl
  · next img himg =>
    rcases h with h | h | h
    · rw [imageReserved] at h
      rw [h, Bool.true_or, if_pos rfl] at himg
      cases himg
    · rw [imageOf] at h
      rw [h, ite_self] at himg
      cases himg
    · rw [h]

/-- The leaf that a filled page gets. -/
def filledLeaf (b : List Byte) (frame : DWord) : DWord := frame ||| (wordAt b 0x0C).setWidth 64 ||| 3#64

/-- Memory with a page filled: HEAD advanced, the image in the frame, the leaf in its entry. -/
def filled (s : State) (d : Desc) (k : Nat) (frame : DWord) (head : Word) (img : List Byte) (leaf : DWord) : State :=
  ((s.setBytes d.poolhdr.toNat (leBytes 4 (head + 1).toNat)).setBytes frame.toNat img).setBytes k (leBytes 8 leaf.toNat)

/-- In a package without a stash window a page whose descriptor, image and frame are sound is filled (R221). -/
theorem fillPage_fills (hw : anyWindow s = false) {d : Desc} (hd : (s.ctx page).d = d) {b : List Byte} (hb : viewBytes s desc 64 = b)
    (hres : imageReserved b = false) (hlv : lv < 3) {img : List Byte} (himg : imageOf s b lv = some img) {frame : DWord} {head : Word}
    (htake : takeFrame s d (2 ^ levelShift lv) = some (frame, head)) (hok : frameOk frame = true) :
    fillPage s page p lv k desc = answerPart (postRec (filled s d k frame head img (filledLeaf b frame)) page p.frec).2 page p := by
  have hgo : ((wordAt b 0x0C &&& ~~~0x1C#32 != 0 || (b.drop 0x10).any (fun x => x != 0)) || decide (3 ≤ lv)) = false := by
    rw [← imageReserved, hres, Bool.false_or, decide_eq_false_iff_not]
    omega
  rw [imageOf] at himg
  unfold fillPage
  dsimp only
  rw [hd, hb, sysShare_of_no_window hw, sysShare_of_no_window hw, hgo, if_neg Bool.false_ne_true, himg]
  dsimp only
  rw [htake]
  dsimp only
  rw [sysShare_of_no_window hw, snoopRange_of_no_window hw]
  dsimp only
  rw [hok, snoopRange_of_no_window hw]
  dsimp only
  rw [snoopRange_of_no_window hw]
  rfl

variable {d : Desc} {frame leaf : DWord} {head : Word} {img : List Byte}

theorem filled_no_window (hw : anyWindow s = false) : anyWindow (filled s d k frame head img leaf) = false :=
  (anyWindow_congr (by simp [filled])).trans hw

theorem filled_groups : (filled s d k frame head img leaf).groups = s.groups := by simp [filled]

theorem filled_byteAt {i : Nat} (hi : i < img.length) (happart : frame.toNat + i < k ∨ k + 8 ≤ frame.toNat + i) :
    (filled s d k frame head img leaf).byteAt (frame.toNat + i) = img.getD i 0 := by
  rw [filled, byteAt_setBytes_ne _ _ _ (by rwa [leBytes_length]), byteAt_setBytes _ _ _ hi, List.getD_eq_getElem]

theorem filled_entry : (filled s d k frame head img leaf).bytesAt k 8 = leBytes 8 leaf.toNat := by
  simpa [filled] using bytesAt_setBytes _ k (leBytes 8 leaf.toNat)

/-- The answer to a part that a group waits for lets the group go, and the part waits no more (R218). -/
theorem answerPart_frees {pl : Nat} {g : Group} {x : Park} (hplace : p.place = some pl) (hpop : p.op = none) (hline : p.line = none)
    (hg : ffind s.groups pl = some g) (hpark : g.park = some x) (htick : x.tickets = [p.ticket]) (hdead : x.dead = false)
    (hsv : x.svret = false) (hop : x.op = none) (hst : x.stream = none) :
    ((answerPart s page p).group pl).park = none ∧ ∀ q ∈ ((answerPart s page p).ctx page).waiting, q.ticket ≠ p.ticket := by
  rw [answerPart_of_place hplace hpop hline]
  obtain ⟨hfree, hctxs⟩ := answerGroup_park (s := s.setCtx page { s.ctx page with
    waiting := (s.ctx page).waiting.filter (fun q => q.ticket != p.ticket) }) (by simpa using hg) hpark htick hdead hsv hop hst
  refine ⟨hfree, fun q hq => ?_⟩
  rw [State.ctx, hctxs, ← State.ctx, State.ctx_setCtx] at hq
  simpa using (List.mem_filter.mp hq).2

/-! ### The service's event -/

/-- The part of a context that waits for the fill service by a ticket. -/
def partToFill (s : State) (page : Nat) (seq : Word) : Option Pending :=
  (s.ctx page).waiting.find? (fun p => p.ticket == seq.toNat && p.frec.seq == 0 && p.frec.flags &&& flCfill != 0)

variable {seq : Word} {e : DWord}

theorem cfillService_of_leaf (hp : partToFill s page seq = some p) (hwalk : walk s (s.ctx page).d p.frec.va.toNat = .leaf lv k e)
    (hset : (answerPart (postRec s page p.frec).2 page p).settled = true) :
    exec (.cfillService page seq) s = .next (answerPart (postRec s page p.frec).2 page p) := by
  rw [partToFill] at hp
  show execCfillService page seq s = _
  unfold execCfillService
  simp only [hp, hwalk]
  exact event_settled hset

theorem cfillService_of_other_entry (hp : partToFill s page seq = some p) (hwalk : walk s (s.ctx page).d p.frec.va.toNat = .invalid lv k e)
    (hother : bit e pteCfill = false ∨ bit e ptePool = true) (hset : (leaveToDriver s page p).settled = true) :
    exec (.cfillService page seq) s = .next (leaveToDriver s page p) := by
  have hleave : (!bit e pteCfill || bit e ptePool) = true := by
    rcases hother with h | h <;> simp [h]
  rw [partToFill] at hp
  show execCfillService page seq s = _
  unfold execCfillService
  simp only [hp, hwalk]
  rw [if_pos hleave]
  exact event_settled hset

theorem cfillService_of_entry (hp : partToFill s page seq = some p) (hwalk : walk s (s.ctx page).d p.frec.va.toNat = .invalid lv k e)
    (hfill : bit e pteCfill = true) (hpool : bit e ptePool = false) (hdesc : desc = (bits e 12 46).toNat * 64) (hthere : s.gone desc = false)
    (hset : (fillPage s page p lv k desc).settled = true) : exec (.cfillService page seq) s = .next (fillPage s page p lv k desc) := by
  have hstay : (!bit e pteCfill || bit e ptePool) = false := by rw [hfill, hpool]; rfl
  rw [partToFill] at hp
  show execCfillService page seq s = _
  unfold execCfillService
  simp only [hp, hwalk]
  rw [if_neg (ne_true_of_eq_false hstay), ← hdesc, if_neg (ne_true_of_eq_false hthere)]
  exact event_settled hset

end

/-- Settles O40: the engine's events by the lemmas about one chunk, the remainder service by `remainderNext`'s cases, and the fill service by
`fillPage_leaves` and `fillPage_fills`. -/
theorem copiesProgress : Obligations.CopiesProgress := by
  unfold Obligations.CopiesProgress
  refine ⟨fun s id i o c hs hcopy hruns hstop hid hrem => ⟨fun b next u hun hread hset hops => ?_, fun b u hheld hwrite hops hreg hset => ?_,
    fun f hmove hcause => ⟨fun hfirst horphan => ?_, fun hfirst hset => ?_⟩⟩, fun s hs => ⟨fun id o c n hcopy hruns hrem => ?_, fun page seq p hp =>
    ⟨fun lv k e hwalk => cfillService_of_leaf hp hwalk, fun lv k e hwalk hother hset => cfillService_of_other_entry hp hwalk hother hset,
      fun lv k e hwalk hfill hpool hthere hset => ⟨cfillService_of_entry hp hwalk hfill hpool rfl hthere hset, fun hw => ⟨fun hbad => ?_,
        fun img frame head hattr hzero hlv himg htake hok => ?_⟩⟩⟩⟩⟩
  · exact copyChunk_held hcopy hruns hstop hid hrem hun hread hset hops
  · exact copyChunk_finished hcopy hruns hstop hid hrem hheld hwrite hops hreg hset
  · obtain ⟨o', hop, hstopped⟩ := stopOp_stop (copyOf_iff.mp hcopy).1 [f]
    refine ⟨stopOp s id [f], o', ?_, hop, hstopped⟩
    rw [copyFault_stops hcopy hruns hstop hrem hmove hcause, if_pos (by rw [hfirst, horphan]; rfl)]
    exact event_settled hs
  · obtain ⟨o', c', n, hcopy', hrem', hstop'⟩ := handOff_copyOf hcopy hid f
    refine ⟨handOff s o f, o', c', n, ?_, hcopy', hrem', hstop'⟩
    rw [copyFault_stops hcopy hruns hstop hrem hmove hcause, if_neg (by simp [hfirst])]
    exact event_settled hset
  · exact ⟨fun i b z v hnext hread u => remainderChunk_moves hcopy hruns hrem (remainderNext_of_read hnext hread),
      fun i hnext hheld u => remainderChunk_moves hcopy hruns hrem (remainderNext_of_none_held hnext hheld),
      fun i k hnext hheld hread u => remainderChunk_moves hcopy hruns hrem (remainderNext_of_blocked hnext hheld hread),
      fun k hnext hheld u => remainderChunk_moves hcopy hruns hrem (remainderNext_of_all_read hnext hheld)⟩
  · have hleave : fillPage s page p lv k ((bits e 12 46).toNat * 64) = leaveToDriver s page p := by
      refine fillPage_leaves hw ?_
      rw [imageReserved_iff, or_assoc]
      exact hbad
    rw [hleave]
    exact leaveToDriver_waits hw (List.mem_of_find?_eq_some hp)
  · have hres : imageReserved (viewBytes s ((bits e 12 46).toNat * 64) 64) = false := by
      rw [Bool.eq_false_iff, Ne, imageReserved_iff]
      rintro (h | ⟨x, hx, h⟩)
      · exact h hattr
      · exact h (hzero x hx)
    have hlen : img.length = 2 ^ levelShift lv := (unpackImage_length himg).trans (page_chunks hlv)
    have hfill := fillPage_fills (k := k) (p := p) hw rfl rfl hres hlv himg htake hok
    refine ⟨hlen, fun j hj happart => filled_byteAt (hlen ▸ hj) happart, filled_entry, postRec_posts (filled_no_window hw) _, hfill,
      fun pl x g hplace hpop hline hg _ hpark htick hdead hsv hop hst => ?_⟩
    rw [hfill]
    exact answerPart_frees hplace hpop hline (by rw [postRec_groups, filled_groups]; exact hg) hpark htick hdead hsv hop hst

end Sys2Proof.Machine
end
